-- ==== Sys2Proof/Word.lean ====
section
/-! DEFINITION. The word types of the Icelo 1680 and the plainest arithmetic on them. -/

namespace Sys2Proof

/-- A BAR0 register and an entry dword are 32 bits wide (R34, Table 3-14). -/
abbrev Word := BitVec 32

/-- One byte of a memory or of a block in memory. -/
abbrev Byte := BitVec 8

/-- 2^32, the modulus of 32-bit sequence values (R11). -/
abbrev two32 : Nat := 4294967296

/-- All ones in 64 bits: "no frame" in results and record headers. -/
abbrev ones64 : Nat := 18446744073709551615

/-- 0xFFFF_FFFF. -/
abbrev ones32 : Nat := 4294967295

end Sys2Proof
end

