-- ==== Sys2Proof/Syntax.lean ====
section
/-! DEFINITION. The commands of the Icelo 1680: one constructor of `Instr` for each row of the table of operations and
events, with the row's operands. A row of a host-queue command names a fetched command by queue and CID (R94); its
fields are the 64 bytes that COMMAND_FETCH took (Table 3-14). What the row reads from host memory, and what an outside
agent answers, are operands (log entries 3 and 5). -/

namespace Sys2Proof

/-- A fetched command: queue pair and command ID (R75). -/
structure CmdRef where
  qid : Nat
  cid : Nat
deriving DecidableEq, Repr

/-- The straps of Table 2-2 as the balls stand. -/
structure Straps where
  fmt : BitVec 3
  pat : Bool
  sel : Bool
deriving DecidableEq, Repr

/-- What the 1680 reads from a queue pair's doorbell slot (Table 3-17). -/
structure DbSlot where
  sqTail : Word
  cqHead : Word
deriving DecidableEq, Repr

/-- The rows of Table 3-24: which DMA access failed. -/
inductive DmaAccess where
  | data (r : CmdRef)
  | sqFetch (qid : Nat)
  | cqWrite (qid : Nat)
  | ringWrite (ring : Nat)
  | dbSlot (qid : Nat)
  | ringHead (ring : Nat)
deriving DecidableEq, Repr

/-- The answers of R89 that are no timeout. -/
inductive DmaAnswer where
  | unsupportedRequest
  | completerAbort
  | poisoned
deriving DecidableEq, Repr

/-- What a function reset is caused by (R492, R504, Table 19-7). -/
inductive FunctionResetKind where
  | flr
  | hotReset
  | linkLoss
  | perstN
deriving DecidableEq, Repr

/-- A reference signal at the genlock input at the end of detection (R43): its frame rate as a fraction, and the line of
the standby raster that its phase calls for. -/
structure RefSignal where
  num : Nat
  den : Nat
  line : Nat := 0
deriving DecidableEq, Repr

/-- What firmware finds in the board table in force when it enters Freewheel (R46, R47, R404, R409, R458). -/
structure BoardTable where
  /-- an MRAM board table is present but invalid (R458) -/
  mramBad : Bool
  pilotPort : Fin 4
  width : Nat
  height : Nat
  /-- sensor readout rate in Mpixel/s (R47) -/
  mpixS : Nat
  twCtrl : Fin 8
  mclkHz : Nat
  /-- installed LPDDR5X in units of 0.5 GiB, and the channels that failed training (R409) -/
  installedX2 : Nat
  chFail : BitVec 8
  /-- target-table words loaded: BAR0 offset and value (R404) -/
  entries : List (Nat × Word)
  mac : List (Nat × Word)
  /-- engines whose code component fails its digest or is absent (R459) -/
  codeBad : BitVec 5
  /-- an oscillator drives XTAL_IN in place of a crystal (R515) -/
  osc : Bool := false
  /-- SP_CFG of the pilot port, its lane mode among it, and further settings of the pilot path by BAR0 offset (R46) -/
  laneCfg : Word := 0
  settings : List (Nat × Word) := []
  /-- two-wire sequences that power, start and stop the sensor: the bytes of each transaction, address first (R46, R59) -/
  powerSeq : List (List Byte) := []
  startSeq : List (List Byte) := []
  stopSeq : List (List Byte) := []
  /-- RFE parameter block and tables, colour block of the fixed colour path (R47, R157) -/
  params : List Byte := []
  tables : List (Nat × List Byte) := []
  colour : List Byte := []
deriving DecidableEq, Repr

/-- A host access to BAR2 at an offset, of a size in bytes: a write of a value, or a read (R63). -/
structure Bar2Access where
  off : Nat
  size : Nat
  write : Option Nat
deriving DecidableEq, Repr

/-- A CSI-2 packet header as its ECC leaves it (R110): good, corrected in one bit, or uncorrectable. -/
inductive Header where
  | good | corrected | bad
deriving DecidableEq, Repr

/-- A code that frames a picture: an SLVS sync word (R111), or a CSI-2 short packet on link 0 (R110); `memory` for MP,
which receives neither. -/
inductive CodeIn where
  | memory
  | sync (word : Nat)
  | packet (vc : Nat) (header : Header)
deriving DecidableEq, Repr

/-- How the copies of a start-of-frame code came on the lanes of an SLVS port: their spread, and whether one is missing
(R113). -/
structure LaneCopies where
  spreadUi : Nat
  missing : Bool
deriving DecidableEq, Repr

/-- A code at a port. -/
structure CodeAt where
  port : Fin 5
  code : CodeIn
deriving DecidableEq, Repr

/-- A fetched command of the recorder, and the bytes of its buffer list where that lies in host memory (R338). -/
structure ListedCmd where
  ref : CmdRef
  list : List Byte
deriving DecidableEq, Repr

/-- What one SLVS port carries for a line (R111, R112): its sync words at both ends, further sync words met meanwhile,
and the words of each physical lane in order. -/
structure SlvsLine where
  sol : Nat
  eol : Nat
  stray : List Nat := []
  lanes : List (List Nat)
deriving DecidableEq, Repr

/-- One CSI-2 packet of a line (R109, R110, R112): its link, header and payload as pixel words. -/
structure CsiPacket where
  link : Nat
  vc : Nat
  dt : Nat
  header : Header
  crcError : Bool
  words : List Nat
deriving DecidableEq, Repr

/-- What arrives for one line, by port of the gang from the primary on (R112, R115); MP reads its row from memory. -/
inductive LineIn where
  | memory
  | slvs (ports : List SlvsLine)
  | csi (ports : List (List CsiPacket))
deriving DecidableEq, Repr

/-- Samples that a prediction reads: of the current picture, or of the reference that many pictures back in the reference
store. The rectangle of luma samples, both ends included, holds every input sample: intra reference samples, interpolation
taps, those of merge-derived vectors (R258). -/
structure PredRead where
  ref : Option Nat
  x0 : Int
  y0 : Int
  x1 : Int
  y1 : Int
  /-- the vector less its predictor, in quarter samples (R249) -/
  dx : Int
  dy : Int
deriving DecidableEq, Repr

/-- How PXE coded a CTU: by its own choice inside R249, or in one of the floor forms of R265, the DC levels of the second in
the order of its CUs and components. -/
inductive CtuForm where
  | chosen
  | skip
  | dc (levels : List Int)
deriving DecidableEq, Repr

/-- What PXE chose for a CTU (R249, R257, R258, R265). -/
structure CtuChoice where
  form : CtuForm
  intra : Bool
  qp : Int
  reads : List PredRead
  /-- what merge candidate 0 of the whole CTU reads -/
  merge0 : List PredRead
  /-- temporal motion-vector prediction is used; SAO, ALF act on it -/
  temporal : Bool
  sao : Bool
  alf : Bool
deriving DecidableEq, Repr

/-- The picture an ENC job is coded from, as far as rate control sees it (R256, R263): bits of the NAL units before
the slice data. What PXE chooses inside the rules of R249 is the device's own and stays an operand. -/
structure RowBits where
  /-- bits of the staged row, emulation prevention included (R264) -/
  bits : Nat
  /-- what PXE chose for the CTUs of the row, left to right -/
  ctus : List CtuChoice
  /-- bits of the filler data NAL unit written after the last row; 0 for none (R256, R261) -/
  filler : Nat
  /-- engine code of the PXE or ENE slice whose internal consistency check fails in this row, if any (R493) -/
  internal : Option Nat := none
deriving DecidableEq, Repr

/-- What ENE's parser finds in the access unit of a DEC_DECODE job (R274, R279, R284 to R288). -/
structure AccessUnit where
  /-- Table 10-1 code of the first fault in decoding order; 0 none -/
  errCode : Nat
  /-- code 8 was found besides -/
  moreUnits : Bool
  poc : Int
  nut : Nat
  irap : Bool
  gdr : Bool
  /-- recovery point: POC of the recovery picture, and exact_match_flag (R286) -/
  recovery : Option Int
  exactMatch : Bool
  /-- POCs of the active references (R284) -/
  refs : List Int
  /-- POCs the reference picture set keeps in the DPB besides -/
  keep : List Int
  outputFlag : Bool
  /-- POC of the first entry of reference list 0, if there is one (R288) -/
  list0 : Option Int
  firstBadCtu : Nat
  ctusDecoded : Nat
  /-- CTUs that a fault lost, by address; CTB size of the stream (R288) -/
  lost : List Nat
  ctb : Nat
  bits : Nat
  /-- field indication, hash present, hash mismatch (Table 10-5 byte 28) -/
  picInfo : BitVec 4
  /-- the picture in its conformance window: width, height, chroma_format_idc, bit depth, full range (R280) -/
  w : Nat
  h : Nat
  chroma : Nat
  depth : Nat
  full : Bool
  /-- coded width and height, and the window's first column and row (R280, code 7 of Table 10-1) -/
  codedW : Nat
  codedH : Nat
  x0 : Nat
  y0 : Nat
  /-- it starts a coded video sequence, and drops the pictures that still wait for output (Annex C.5.2.2) -/
  newSeq : Bool
  noPrior : Bool
  /-- reorder and latency limits and DPB size of its parameter set (Annex C.5.2); latency 0 for none -/
  reorder : Nat
  latency : Nat
  size : Nat
  eos : Bool
  /-- bytes of an access unit in host memory (log entry 5) -/
  data : List Byte
  /-- engine code of the PXE or ENE slice whose internal consistency check fails in this job, if any (R493) -/
  internal : Option Nat := none
deriving DecidableEq, Repr

/-- How a stream job ends (R298 to R301): bytes taken in and written, output formed but not written when the buffer
filled, and whether a decompression fault was met. -/
structure LseRun where
  consumed : Nat
  produced : Nat
  pending : Nat
  fault : Bool
  /-- engine code of the lane group whose internal consistency check fails in this job, if any (R493) -/
  internal : Option Nat := none
  /-- the bytes of the input, where it lies in host memory -/
  input : List Byte := []
deriving DecidableEq, Repr

/-- A raw record as decompressed (Table 11-2, R303): the payload's fields, and the words of each band. -/
structure RawRecord where
  /-- the payload or a band is at fault, or a checksum fails (R301, R311) -/
  fault : Bool
  frameIndex : Nat
  depth : Nat
  px : Nat
  py : Nat
  planes : Nat
  width : Nat
  height : Nat
  /-- ROW0_b of each band -/
  row0 : List Nat
  bands : List (List Nat)
deriving DecidableEq, Repr

/-- How a drive command ends (R329, Table 12-3). -/
inductive DriveOutcome where
  | ok
  /-- error status with DNR clear -/
  | retryable
  /-- Media and Data Integrity Error, or another error with DNR set -/
  | mediaError
  /-- CSTS.CFS: Controller Fatal Status -/
  | fatal
  /-- timed out after the controller reset -/
  | timeout
  /-- re-initialisation after a controller reset failed -/
  | reinitFailed
  /-- the drive was removed -/
  | removed
deriving DecidableEq, Repr

/-- What REC learns of a drive at initialisation (R317 to R319, R322, Table 12-9). -/
structure DriveFacts where
  driveId : Nat
  speed : Nat
  width : Nat
  nsActive : Bool
  lbaFormatOk : Bool
  rdyInTime : Bool
  blocks : Nat
  unsafeShutdowns : Nat
  dlfeatZero : Bool
  /-- MDTS in blocks, 0 for no limit -/
  mdts : Nat
deriving DecidableEq, Repr

/-- A DisplayPort sink's answer to training (R347): capability limits as DP_CFG codes, and the settings that fail. -/
structure SinkFacts where
  maxLanes : Nat
  maxRate : Nat
  failing : List (Nat × Nat)
deriving DecidableEq, Repr

/-- A format an SDI input locks to (R361): format code, bits, sampling, interface code of Table 8-5. -/
structure SdiFormat where
  fmt : Nat
  bits : Nat
  sampling : Nat
  std : Nat
deriving DecidableEq, Repr

/-- One received SDI frame (R362, Table 8-5). -/
structure SdiFrame where
  format : SdiFormat
  lines : Nat
  yCrc : Nat
  cCrc : Nat
  lnErr : Nat
  trsErr : Nat
  ancErr : Nat
  firstErr : Nat
  lastErr : Nat
  /-- picture codes, row by row, component triples -/
  pixels : List (List (Nat × Nat × Nat))
  /-- scope units that the frame outruns: bit 0 scope 0, bit 1 scope 1 (R239) -/
  outrun : BitVec 2 := 0
  /-- time since its first active line in ns (R362) -/
  ageNs : Nat := 0
deriving DecidableEq, Repr

/-- An SDI input that loses lock, and what of a frame under way had arrived (R363). -/
structure SdiCut where
  input : Fin 2
  part : Option SdiFrame
deriving DecidableEq, Repr

/-- The wires that a boundary FIFO serves and that cannot wait (R21); at an SDI input, what of a frame under way had arrived. -/
inductive OverrunUnit where
  | sensor (p : Fin 4)
  | sdiIn (i : Fin 2) (part : Option SdiFrame)
  | eth (p : Fin 2)
deriving DecidableEq, Repr

/-- CRCs the observation receivers of a raster's outputs recovered (R358): output number (0-3 SDI, 4-5 DP), the three
component CRCs, or none where a receiver was not locked. -/
structure PinCrc where
  output : Nat
  crc : Option (Nat × Nat × Nat)
deriving DecidableEq, Repr

/-- A received PTP message (R373 to R375); the 1680 stamps its receipt. -/
structure PtpMsg where
  domain : Nat
  seq : Nat
  /-- clockIdentity and port number of the sender -/
  srcId : Nat
  srcPort : Nat
  twoStep : Bool
  /-- origin, receipt or precise time in 2^-32 ns, and correctionField in 2^-16 ns -/
  time : Nat
  corr : Int
  /-- a Delay_Resp names this port's own identity as the requester -/
  reqOwn : Bool
deriving DecidableEq, Repr

/-- A schedule of Table 14-4 in force or to come: rate, epoch in 2^-32 ns, offset. -/
structure Sched where
  num : Nat
  den : Nat
  epoch : Nat
  offNs : Nat
deriving DecidableEq, Repr

/-- A SCHEDULE message (Tables 14-3 and 14-4). -/
structure SchedMsg where
  group : Nat
  sender : Nat
  leader : Bool
  seq : Nat
  cur : Sched
  change : Option (Nat × Sched)
  gm : Nat
  ptpDomain : Nat
deriving DecidableEq, Repr

/-- A STATUS message (Tables 14-3 and 14-4). -/
structure StatusMsg where
  group : Nat
  sender : Nat
  leader : Bool
  seq : Nat
  lastIndex : Nat
  schedSeq : Nat
  state : Nat
  slewRemain : Int
deriving DecidableEq, Repr

/-- What is on a bridged frame (R370, R375): addressed to the port itself or not, PTP kind, residence in 2^-16 ns. -/
structure BridgeFrame where
  dstIsPort : Bool
  multicast : Bool
  bufferFull : Bool
  /-- 0 no PTP event, 1 one-step Sync or Delay_Req, 2 two-step Sync, 3 Follow_Up -/
  ptp : Nat
  seq : Nat
  srcId : Nat
  corr : Int
  residence : Int
  len : Nat
deriving DecidableEq, Repr

/-- How a two-wire transaction ends with STOP (R393, R398, Table 15-7). -/
structure TxEnd where
  written : Nat
  read : List Byte
  pecOk : Bool
  /-- the byte NACKed, of data or address, if any (R398) -/
  nack : Option Nat
  blockCount : Nat
deriving DecidableEq, Repr

/-- A Skovlis container as verification finds it (Table 18-3, R455): the header facts it states, and the outcome of the
cryptographic checks, which the model does not compute (log entry 13). -/
structure Container where
  magicOk : Bool
  layoutOk : Bool
  signer : Nat
  kind : Nat
  version : Nat
  bindOk : Bool
  sigOk : Bool
  digestsOk : Bool
  components : Nat
  /-- digest of each engine's code component, by engine number (R459) -/
  engineCode : List (Nat × Nat)
  /-- digests of its other components by TYPE: 1 OROIZ_CODE, 2 BOARD_TABLE, 4 CALIBRATION -/
  parts : List (Nat × Nat) := []
deriving DecidableEq, Repr

/-- The rows of the table of operations and events. -/
inductive Instr where
  -- resets and start (chapters 2, 18, 19, 20)
  | coldReset (straps : Straps)
  | pwrGoodFall
  | warmReset (lowNs : Nat)
  | resetNRise (straps : Straps)
  | referenceDetection (ref : Option RefSignal)
  | romBoot
  | freewheelEntry (bt : BoardTable)
  | functionReset (kind : FunctionResetKind)
  | perstNDeassert
  | omsOnlyReset
  | watchdogExpiry
  | trialTimerExpiry
  -- host interface (chapter 3)
  | commandFetch (qid : Nat) (entry : List Word)
  | kick (qid : Nat) (slot : DbSlot)
  | doorbellPoll (qid : Nat) (slot : DbSlot)
  | watchClear (qid : Nat) (slot : DbSlot)
  | coalesceTimeout (ring : Bool) (n : Nat)
  | dmaErrorResponse (acc : DmaAccess) (ans : DmaAnswer) (addr : Nat)
  | dmaCompletionTimeout (acc : DmaAccess) (addr : Nat)
  | registerWrite (off : Nat) (v : Word)
  | bar0BadAccess (off : Nat) (size : Nat)
  | readWithClear (off : Nat)
  | commit
  | hifCtlEnable (v : Word)
  | mclkEnable (k : Fin 4) (v : Word)
  | mclkDisable (k : Fin 4) (v : Word)
  | mclkFreqWrite (k : Fin 4) (v : Word)
  | portEnSet (v : Word)
  | portEnClear (v : Word)
  | createQp (r : CmdRef)
  | deleteQp (r : CmdRef)
  | resetQp (r : CmdRef) (slot : DbSlot) (unfetched : List Word)
  | createRing (r : CmdRef)
  | deleteRing (r : CmdRef)
  | abort (r : CmdRef) (unfetched : List Nat)
  | semAcquire (r : CmdRef)
  | semRelease (r : CmdRef)
  | setLatency (r : CmdRef)
  | setMode (r : CmdRef)
  -- ingest (chapter 4)
  | startPort (r : CmdRef)
  | stopPort (r : CmdRef)
  | submitProgram (r : CmdRef) (list : List Byte)
  | mpFrame (r : CmdRef)
  | laneLockAcquired (p : Fin 4) (lane : Fin 20)
  | laneLockLost (p : Fin 4) (lane : Fin 20)
  | boundaryFifoOverrun (u : OverrunUnit)
  | frameStart (p : Fin 5) (code : CodeIn) (copies : LaneCopies)
  | gangSkewTimeout (p : Fin 4)
  | lineReceived (p : Fin 5) (line : LineIn)
  | frameEnd (x : CodeAt)
  | frameTimeout (p : Fin 4)
  | exposureTrigger (p : Fin 4)
  | latchWindowOpen (p : Fin 4) (target : Nat)
  | latestIssueStart (p : Fin 4) (target : Nat)
  | evInputEdge (pin : Fin 16) (rising : Bool) (stableNs : Nat)
  | scheduledPulseStart (r : CmdRef)
  | scheduledPulseEnd (r : CmdRef)
  | routeAt (r : CmdRef)
  | pinEnable (r : CmdRef)
  | pinDisable (r : CmdRef)
  | setRoute (r : CmdRef)
  | scheduleEdge (r : CmdRef)
  -- pipeline (chapters 5 to 8)
  | spokeToken (spoke : Fin 16)
  | cbeToken (spoke : Fin 16)
  | stuRowProcessed (src : Fin 5)
  | rfeSetParams (r : CmdRef) (blk : List Byte)
  | rfeLoadTable (r : CmdRef) (tbl : List Byte)
  | cbeLoadCfa (r : CmdRef) (blk : List Byte)
  | cbeLoadBank (r : CmdRef) (blk : List Byte)
  | cbeSetColour (r : CmdRef) (blk : List Byte)
  | cbeLoadLut3d (r : CmdRef) (blk : List Byte)
  | cbeReadBank (r : CmdRef)
  | spkStart (r : CmdRef)
  | spkStop (r : CmdRef)
  | spkRestart (r : CmdRef) (blk : List Byte)
  | spkSetPath (r : CmdRef) (blk : List Byte)
  | spkLoadLut (r : CmdRef) (blk : List Byte)
  | spkBuffer (r : CmdRef)
  | spkSubmitFrame (r : CmdRef)
  | spkFrameStart (n : Fin 8)
  | patternFrameTick (n : Fin 8)
  | spkToken (n : Fin 8) (accepted : Bool) (outrun : BitVec 2)
  | hubSetPort (r : CmdRef)
  | stuUnitStart (r : CmdRef)
  | stuUnitStop (r : CmdRef)
  | stuBuffer (r : CmdRef)
  -- codecs and compression (chapters 9 to 11)
  | encOpen (r : CmdRef) (blk : List Byte)
  | encClose (r : CmdRef)
  | encPicture (r : CmdRef) (headerBits : Nat)
  | encSetRc (r : CmdRef) (blk : List Byte)
  | encoderFrameArrival (handle : Nat) (index : Nat)
  | pxeRowStart (handle : Nat)
  | eneRowCommit (handle : Nat) (row : RowBits)
  | decOpen (r : CmdRef) (blk : List Byte)
  | decClose (r : CmdRef)
  | decDecode (r : CmdRef) (au : AccessUnit)
  | decOutput (r : CmdRef)
  | decPictureOutput (handle : Nat)
  | decFlush (r : CmdRef)
  | lseOpen (r : CmdRef)
  | lseClose (r : CmdRef)
  | lseBlock (r : CmdRef) (run : LseRun)
  | lseRawOpen (r : CmdRef)
  | lseRawBuffer (r : CmdRef)
  | lseRawDecode (r : CmdRef) (record : RawRecord)
  | rawBandStart (port : Fin 4) (lane : Fin 12)
  | rawBandDone (lane : Fin 12) (bytes : Nat)
  -- recorder (chapter 12)
  | volCreate (r : CmdRef) (list : List Byte)
  | volDelete (r : CmdRef)
  | volClearRecovery (r : CmdRef)
  | recRead (x : ListedCmd)
  | recWrite (x : ListedCmd)
  | recDeallocate (r : CmdRef)
  | driveLog (r : CmdRef) (out : DriveOutcome)
  | driveEject (r : CmdRef)
  | recEvent (r : CmdRef)
  | driveCommandCompletion (r : CmdRef) (piece : Nat) (out : DriveOutcome)
  | driveCommandTimeout (r : CmdRef) (piece : Nat)
  | driveRemoval (slot : Fin 8)
  | driveInsertion (slot : Fin 8)
  | slotReady (slot : Fin 8) (facts : DriveFacts)
  -- scan-out (chapter 13)
  | scoStart (r : CmdRef)
  | scoStop (r : CmdRef)
  | scoRestart (r : CmdRef) (blk : List Byte)
  | sdiInStart (r : CmdRef)
  | sdiInStop (r : CmdRef)
  | dpAux (r : CmdRef) (reply : Option Nat)
  | rasterReaderBind (k : Fin 4)
  | rasterLine (k : Fin 4) (badPixel : Option Nat) (eccCorr : Nat)
  | frameOut (k : Fin 4) (pins : List PinCrc)
  | lockSourceLost (k : Fin 4)
  | lockSourceRegained (k : Fin 4) (errLines : Nat)
  | hpdAssert (j : Fin 2) (sink : SinkFacts)
  | hpdDeassert (j : Fin 2)
  | hpdIrq (j : Fin 2) (lockLost : Bool) (sink : SinkFacts)
  | sdiInputLock (i : Fin 2) (f : SdiFormat)
  | sdiInputLost (x : SdiCut)
  | sdiInputFrame (i : Fin 2) (f : SdiFrame)
  -- network and time (chapter 14)
  | ethUp (r : CmdRef)
  | ethDown (r : CmdRef)
  | ethLinkUp (p : Fin 2) (speed : Nat)
  | speedAlternate (p : Fin 2)
  | ethLinkDown (p : Fin 2)
  | ntuDomStart (r : CmdRef)
  | ntuDomStop (r : CmdRef)
  | ntuDomRole (r : CmdRef)
  | ntuSetIncr (r : CmdRef)
  | ntuAdjPhase (r : CmdRef)
  | ntuSetTemplate (r : CmdRef) (blk : List Byte)
  | ntuSelect (r : CmdRef)
  | ntuReadTime (r : CmdRef)
  | slewEnd
  | syncReceived (p : Fin 2) (m : PtpMsg)
  | followUpReceived (p : Fin 2) (m : PtpMsg)
  | delayRespReceived (p : Fin 2) (m : PtpMsg)
  | delayReqReceived (p : Fin 2) (m : PtpMsg)
  | ptpMsg (p : Fin 2) (m : PtpMsg) (body : List Byte)
  | announceSend (d : Fin 2)
  | syncSend (d : Fin 2)
  | delayReqSend (d : Fin 2)
  | metadataSend (d : Fin 2)
  | frameForward (p : Fin 2) (f : BridgeFrame)
  | tcSyncTrackExpiry (p : Fin 2) (srcId : Nat) (seq : Nat)
  | arpRequest (p : Fin 2) (ip : Nat)
  | igmpQuery (p : Fin 2)
  | pelJoin (r : CmdRef)
  | pelLeave (r : CmdRef)
  | pelSchedule (r : CmdRef) (body : List Byte)
  | scheduleReceived (p : Fin 2) (m : SchedMsg)
  | statusReceived (p : Fin 2) (m : StatusMsg)
  | scheduleSend
  | statusSend
  | leaderLost
  -- two-wire (chapter 15)
  | twEnable (r : CmdRef) (sdaHighAfter : Option Nat)
  | twDisable (r : CmdRef)
  | twXfer (r : CmdRef) (data : List Byte)
  | twTransactionStart (c : Fin 8)
  | twTransactionEnd (c : Fin 8) (e : TxEnd)
  | arbitrationLoss (c : Fin 8) (byte : Nat) (bit : Fin 8)
  | busNack (c : Fin 8) (byte : Nat) (acked : Nat)
  | wakeDelayExpiry (c : Fin 8)
  | stretchTimeout (c : Fin 8) (acked : Nat)
  | stretchViolation (c : Fin 8) (acked : Nat)
  | busFreeTimeout (c : Fin 8)
  -- hub (chapter 16)
  | transferRequest (port : Fin 38) (dest : Fin 12) (addr : Nat) (len : Nat) (write : Bool)
  | arbiterDecision (dest : Fin 12)
  | dataPhaseEnd (dest : Fin 12) (eccCorr : Nat) (linkCorr : Nat) (uncorr : Option Nat)
  | starveTimerExpiry (port : Fin 38)
  -- power and temperature (chapter 17)
  | hkRound (diode : Int) (speedK : List (Nat × Nat)) (rails : List (Nat × Nat × Bool))
  | extraDiodeConversion (diode : Int)
  | derailleurDecision (speedK : List (Nat × Nat)) (tline : List (Nat × Nat))
  | islandLowPowerEntry (i : Fin 56) (off : Bool)
  | islandWake (i : Fin 56)
  | pwrIslandDisable (r : CmdRef)
  | pwrIslandEnable (r : CmdRef)
  | pwrPinGear (r : CmdRef)
  | pwrSetCfg (r : CmdRef)
  | engineReset (r : CmdRef) (dropped : Nat)
  | engineResetDone (code : Nat) (sdaHighAfter : Option Nat)
  -- management and debug (chapter 18)
  | mgmtUpdateStage (r : CmdRef) (c : Container) (writeOk : Bool)
  | mgmtUpdateActivate (r : CmdRef)
  | mgmtUpdateConfirm (r : CmdRef) (fuseOk : Bool)
  | mgmtEngineLoad (r : CmdRef) (digestOk : Bool)
  | mgmtLogRead (r : CmdRef)
  | mgmtAttest (r : CmdRef)
  | mgmtUnlockChallenge (r : CmdRef)
  | mgmtUnlockAnswer (r : CmdRef) (passes : Bool)
  | mgmtLifecycleAdvance (r : CmdRef) (blk : List Byte) (fuseOk : Bool)
  | logPeriod
  | extest
  | idcode
  | samplePreload
  | bypass
  | dmAccess (addr : BitVec 8) (data : Word) (op : BitVec 4)
  | halt
  | resume
  | step
  | breakpointHit (i : Fin 8)
  | watchpointHit (i : Fin 4)
  | memData (write : Bool) (v : Word)
  | freeze (v : Word)
  | release (n : Nat)
  | challenge
  | check (passes : Bool)
  -- rows added later in the table
  | startOrStopSeen (c : Fin 8) (start : Bool)
  | sclReleased (c : Fin 8)
  | shutdownComplete (slot : Fin 8) (ms : Nat) (ok : Bool)
  | exposureTriggerEnd (p : Fin 4)
  | msixUnmask (acc : Bar2Access)
  | rxFcsErr (p : Fin 2)
deriving DecidableEq, Repr

end Sys2Proof
end

