-- ==== Sys2Proof/Config.lean ====
section
/-! DEFINITION. What an implementation fixes, and the values the spec leaves open (free values). -/

namespace Sys2Proof.Config

/-- FREE VALUE (log entry 11). Whatever the spec leaves open where the machine goes on: a fresh unlock nonce (R472),
whether a RESET_N low pulse of 1 to 10 us resets the part (R503). No body: nothing can evaluate it. It is applied to
the counter `dev.free`, which advances at each draw. -/
opaque freeNat : Nat → Nat

/-- FREE VALUE (log entry 17). The built-in demosaic banks 0 to 4 (R187): the spec gives their layout, PX, PY and GUIDE,
and no coefficient and no EPS. `builtinEps b` and `builtinKernel b i`, with `i` the number of the 16-bit word after the
16-byte header of Table 6-4. Numbers `b` from 256 are what serves a frame whose bank 256 less does not
match its description (R187 forbids it, R203 refuses it for loaded descriptions only). No bodies. -/
opaque builtinEps : Nat → Nat
opaque builtinKernel : Nat → Nat → BitVec 16

/-- FREE VALUE (log entry 19). The mean of no sites: a black-level window whose lines are all fill (R159). Applied to the
frame index and a number of the mean. No body. -/
opaque freeMean : Nat → Nat → Int

/-- FREE VALUE (log entry 12). What the coders make of their input, which the spec leaves to the part (R294) or to a
standard it only names: byte `i` of the content that a key names. The key holds the kind of content and everything that
R16 lets it depend on: input and configuration. No body. -/
opaque content : List Nat → Nat → BitVec 8

/-- FREE VALUE (log entry 12). The name of what a coder carries forward after work that a key names: references,
contexts, history (R16). No body. -/
opaque carry : List Nat → Nat

/-- FREE VALUE (log entry 12). Bytes of a NAL unit that a key names, start code excluded: syntax of a standard that the
spec only names (R256). No body. -/
opaque unitBytes : List Nat → Nat

/-- FREE VALUE (log entry 41). Bins that ENE codes for a bit, in 2^-16: Table 9-1 states its rates in bins, R247 what is
reserved in bits. No body. -/
opaque binsPerBit : Nat

/-- FREE VALUE (log entry 13). The root that slh_keygen_internal of FIPS 205 forms from SK.seed, SK.prf and PK.seed (R469):
the spec names the function and does not print it. No body. -/
opaque slhRoot : List (BitVec 8) → List (BitVec 8) → List (BitVec 8) → Nat

/-- FREE VALUE (log entry 13). SHA-256 of this part's ROM, and SIGNER, SOURCE and VERSION that its measurement and that of
the calibration show, for which the spec gives no values (R470); the digest of a component that is not there. No bodies. -/
opaque romDigest : Nat
opaque romHead : Nat → Nat
opaque noDigest : Nat

/-- FREE VALUE (log entry 24). H_max of R263, by session block: the spec gives no header sizes. No body. -/
opaque encHeaderMax : List (BitVec 8) → Nat

/-- FREE VALUE (log entry 41). Guaranteed throughput at G8 of the islands for which no chapter states one, in the units
of their deadline a second: RFE shared, the CBE slices, SPK0 to SPK7 and STU in pixels. No body. -/
opaque islandG8 : Nat → Nat

/-- Depth of the TEU stamp FIFO (R146). -/
def stampDepth : Nat := 1024

/-- Log entries a second (R467). -/
def logPerSecond : Nat := 1000

/-- Entries of the MRAM event log (Table 18-1). -/
def logSlots : Nat := 49152

/-- IDCODE (R474). -/
def idcode : Word := 0x1168074B

/-- Nominal 64-bit increment of a PTP domain (R372): 4 ns in units of 2^-32 ns. -/
def nominalIncr : Nat := 0x400000000

end Sys2Proof.Config
end

