-- ==== Sys2Proof/Machine/Maps.lean ====
section
/-! DEFINITION. Sparse maps in one canonical form: keys strictly rising, no entry equal to the value an unlisted key
reads as. Registers, counters, queue pairs, memories and every other numbered collection of the State are such maps,
so equal contents are equal data. -/

namespace Sys2Proof

/-- A sparse map from numbers to values, as a list sorted by key. -/
abbrev SMap (α : Type) := List (Nat × α)

/-- Memory: bytes by address (Host.Cell); an unlisted byte reads 0 (log entry 6). -/
abbrev Mem := SMap Byte

namespace SMap

variable {α : Type}

/-- The value at `k`, `d` where `k` is not listed. -/
def get (d : α) : SMap α → Nat → α
  | [], _ => d
  | (a, v) :: t, k => if a = k then v else get d t k

/-- Drop the entry of `k`. -/
def del : SMap α → Nat → SMap α
  | [], _ => []
  | (a, v) :: t, k => if a = k then del t k else (a, v) :: del t k

/-- Put `v` at `k` in key order. -/
def ins : SMap α → Nat → α → SMap α
  | [], k, v => [(k, v)]
  | (a, w) :: t, k, v =>
    if k < a then (k, v) :: (a, w) :: t else if a = k then (k, v) :: t else (a, w) :: ins t k v

/-- Write `v` at `k`; a write of the default removes the entry. -/
def put [DecidableEq α] (d : α) (m : SMap α) (k : Nat) (v : α) : SMap α :=
  if v = d then del m k else ins m k v

/-- Keys strictly rising. -/
def sorted : SMap α → Bool
  | [] => true
  | [_] => true
  | (a, _) :: (b, w) :: t => decide (a < b) && sorted ((b, w) :: t)

/-- No listed value is the default. -/
def noDefault [DecidableEq α] (d : α) (m : SMap α) : Bool := m.all fun e => decide (e.2 ≠ d)

/-- The canonical form. -/
def wf [DecidableEq α] (d : α) (m : SMap α) : Bool := sorted m && noDefault d m

/-- Drop every entry whose key does not satisfy `p`. -/
def keep (p : Nat → Bool) (m : SMap α) : SMap α := m.filter fun e => p e.1

end SMap

/-- Memory holds the canonical form. -/
def Mem.wf (m : Mem) : Bool := SMap.wf (0 : Byte) m

namespace Mem

/-- One byte. -/
def rd (m : Mem) (a : Nat) : Byte := SMap.get 0 m a

/-- Write one byte. -/
def wr (m : Mem) (a : Nat) (b : Byte) : Mem := SMap.put 0 m a b

/-- `n` bytes from `a` up. -/
def rdN (m : Mem) (a : Nat) : Nat → List Byte
  | 0 => []
  | n + 1 => rd m a :: rdN m (a + 1) n

/-- Write bytes from `a` up. -/
def wrN (m : Mem) (a : Nat) : List Byte → Mem
  | [] => m
  | b :: t => wrN (wr m a b) (a + 1) t

end Mem

/-- The number that bytes spell, least significant first (R4). -/
def leNat : List Byte → Nat
  | [] => 0
  | b :: t => b.toNat + 256 * leNat t

/-- `n` bytes of a number, least significant first (R4). -/
def leBytes : Nat → Nat → List Byte
  | 0, _ => []
  | n + 1, v => BitVec.ofNat 8 v :: leBytes n (v / 256)

/-- The first list element that satisfies `p`, replaced by `f`. -/
def updFirst {α : Type} (p : α → Bool) (f : α → α) : List α → List α
  | [] => []
  | a :: t => if p a then f a :: t else a :: updFirst p f t

/-- Numbers from `a`, `n` of them. -/
def rangeFrom (a : Nat) : Nat → List Nat
  | 0 => []
  | n + 1 => a :: rangeFrom (a + 1) n

end Sys2Proof
end

