-- ==== Sys2Proof/Machine/StHost.lean ====
section
/-! DEFINITION. State of start-up and of the host interface (chapters 2 and 3), and what leaves the block. -/

namespace Sys2Proof

/-- The operating modes of Table 1-5, with the codes of Table 2-9. -/
inductive Mode where
  | off | kickstand | freewheel | capture | playback | generator | analyser | service
deriving DecidableEq, Repr

/-- Table 2-9 MODE code; Off has none and reads 0. -/
def Mode.code : Mode → Nat
  | .off => 0 | .kickstand => 1 | .freewheel => 2 | .capture => 3
  | .playback => 4 | .generator => 5 | .analyser => 6 | .service => 7

/-- The mode of a code. -/
def Mode.ofCode : Nat → Mode
  | 1 => .kickstand | 2 => .freewheel | 3 => .capture | 4 => .playback
  | 5 => .generator | 6 => .analyser | 7 => .service | _ => .off

/-- BOOT_STS.STAGE (Table 2-7). -/
inductive Stage where
  | booting | kickstandHold | freewheel | driver
deriving DecidableEq, Repr

def Stage.code : Stage → Nat
  | .booting => 0 | .kickstandHold => 1 | .freewheel => 2 | .driver => 3

/-- Power, reset and start-up state (chapter 2, R441, R501 to R504). -/
structure BootB where
  /-- PWR_GOOD high and out of reset -/
  powered : Bool := true
  /-- RESET_N low (R503) -/
  inReset : Bool := false
  mode : Mode := .kickstand
  stage : Stage := .booting
  /-- Table 2-7 FW_STS, SLOT, REF_LOCKED, RESET_CAUSE -/
  fwSts : Nat := 0
  slotB : Bool := false
  refLocked : Bool := false
  cause : Nat := 0
  straps : Straps := ⟨0, false, false⟩
  /-- reference detection is over (R43) -/
  refDone : Bool := false
  /-- ROM runs and has not decided yet (R40, R457) -/
  rom : Bool := true
  /-- verified firmware runs (R38) -/
  firmware : Bool := false
  /-- ROM has decided the slot and firmware is about to enter Freewheel (R46) -/
  entering : Bool := false
  /-- the pilot path runs, and the SPs it uses (R46 to R49) -/
  pilot : Option Nat := none
  /-- the sensor port that the board table in force names for the pilot path (R38, R46) -/
  board : Option Nat := none
  /-- the two-wire controller that it names (R404) -/
  boardTw : Nat := 0
  /-- the sequence that stops the sensor, and the port after whose frame it is due (R59) -/
  stopSeq : List (List Byte) := []
  stopDue : Option Nat := none
  /-- the board table declares an oscillator on XTAL_IN: the pull is held at 0 (R515) -/
  osc : Bool := false
  /-- the first complete pilot frame is in its slot (R49) -/
  pilotReady : Bool := false
  /-- the host link is up (R42, R504) -/
  hostLink : Bool := true
  /-- PERST_N is low (R504) -/
  perst : Bool := false
  /-- THERM_TRIP_N asserted (R441) -/
  tripped : Bool := false
deriving DecidableEq, Repr

/-- A queue pair (R69 to R71, R79, R83, R89). -/
structure QP where
  live : Bool := false
  /-- DELETE_QP has taken effect and has not completed (R92) -/
  deleting : Bool := false
  depth : Nat := 2
  weight : Nat := 1
  svc : Nat := 0
  vector : Nat := 0
  aggCount : Nat := 0
  aggTime : Nat := 0
  sqBase : Nat := 0
  cqBase : Nat := 0
  /-- next SQ entry to fetch, and the SQ_TAIL and CQ_HEAD last read -/
  head : Nat := 0
  tail : Nat := 0
  cqTail : Nat := 0
  cqHead : Nat := 0
  phase : Bool := true
  watch : Bool := false
  faulted : Bool := false
  /-- a CQ entry write has failed: later completions of the pair are discarded (Table 3-24) -/
  cqLost : Bool := false
  /-- completions posted and not yet signalled (R83) -/
  unsig : Nat := 0
deriving DecidableEq, Repr

/-- A fetched, uncompleted command (R70, R94): its entry and the order in which it was fetched. -/
structure Cmd where
  qid : Nat
  cid : Nat
  num : Nat
  dw : List Word
  /-- it has begun (R72, R485) -/
  begun : Bool
  /-- conservative service was in force on its volume when it was fetched (R325) -/
  conserv : Bool := false
  /-- status and RESULT under which it completes whatever its work answers: a host access of it failed (R89) -/
  fail : Option (Nat × Nat) := none
  /-- LTS when it was fetched or, for a lock, began to wait, in 2^-32 ns -/
  since : Nat
deriving DecidableEq, Repr

/-- A record ring (R85 to R88). -/
structure Ring where
  live : Bool := false
  base : Nat := 0
  slots : Nat := 64
  kinds : Nat := 0
  vector : Nat := 0
  aggCount : Nat := 0
  aggTime : Nat := 0
  tail : Nat := 0
  /-- cached HEAD (R88) -/
  head : Nat := 0
  seq : Nat := 0
  phase : Bool := true
  gap : Bool := false
  faulted : Bool := false
  unsig : Nat := 0
deriving DecidableEq, Repr

/-- Owner of a lock (R100). -/
inductive LockOwner where
  | free
  | queue (qid : Nat)
  | firmware
deriving DecidableEq, Repr

/-- A hardware semaphore or bus lock (R100 to R103). -/
structure Lock where
  owner : LockOwner := .free
  /-- waiting SEM_ACQUIREs in arrival order, with the LTS at which each began to wait -/
  waiters : List (CmdRef × Nat) := []
  /-- broken mark with the cause of the most recent force release (R103) -/
  broken : Option Nat := none
deriving DecidableEq, Repr

/-- An MSI-X table entry, its address in 64 bits, with its pending bit (R62, R63). -/
structure Vec where
  addr : Nat := 0
  data : Nat := 0
  masked : Bool := true
  pending : Bool := false
deriving DecidableEq, Repr

/-- A SET_MODE that waits for the work it ends (R60). -/
structure ModeChange where
  ref : CmdRef
  old : Nat
  new : Nat
  firstTag : Nat
  /-- the ports, sprockets and statistics units whose end it waits for, and an MP_FRAME -/
  ports : List Nat := []
  spks : List Nat := []
  units : List Nat := []
  mp : Bool := false
  /-- begun commands of what the mode refuses, which finish -/
  cmds : List CmdRef := []
deriving DecidableEq, Repr

/-- A RESET_QP or DELETE_QP that waits for commands to end (R92, R93). -/
structure QueueOp where
  ref : CmdRef
  qid : Nat
  delete : Bool
  /-- CIDs still to end -/
  left : List Nat
  count : Nat
deriving DecidableEq, Repr

/-- The host interface (chapter 3). -/
structure HifB where
  /-- NEG_STS (Table 2-15): 0 IDLE, 1 BUSY, 2 ACCEPTED, 3 REJECTED -/
  neg : Nat := 0
  reason : Nat := 0
  badBit : Nat := 0
  /-- DRV_FEATURES as the waiting COMMIT found it (R53, R55) -/
  sampled : Nat := 0
  /-- negotiated features in force (R55) -/
  features : Nat := 0
  ready : Bool := false
  recovery : Bool := false
  cfgErr : Nat := 0
  queues : SMap QP := []
  cmds : List Cmd := []
  fetchNum : Nat := 0
  /-- the queue that the round-robin visits, and the entries taken in this visit (R71) -/
  rrQueue : Nat := 0
  rrTaken : Nat := 0
  /-- abort marks on unfetched entries, at most 256 (R95) -/
  marks : List CmdRef := []
  rings : SMap Ring := []
  locks : SMap Lock := []
  msix : SMap Vec := []
  /-- declared latency tolerances in us (R105) -/
  tol : SMap Nat := []
  modeChange : Option ModeChange := none
  queueOps : List QueueOp := []
deriving DecidableEq, Repr

/-- A field of a record, block or message that leaves: byte offset, length in bytes, value. -/
structure Fld where
  off : Nat
  len : Nat
  val : Nat
deriving DecidableEq, Repr

/-- A record as posted (Table 3-18), TIME in the 96-bit form of R15, its body by fields. -/
structure Rec where
  type : Nat
  slots : Nat
  gap : Bool
  phase : Bool
  seq : Nat
  frame : Nat
  time : Nat
  page : Nat
  inst : Nat
  body : List Fld
deriving DecidableEq, Repr

/-- What stands before the payload of a sprocket's packet (R217, Table 7-5): group address and its MAC address, UDP
ports, TTL and DSCP, RTP header, and the sample row data header's line and pixel offset. -/
structure RtpHead where
  ip : Nat
  mac : Nat
  srcPort : Nat
  dstPort : Nat
  ttl : Nat
  dscp : Nat
  ssrc : Nat
  pt : Nat
  seq : Nat
  stamp : Nat
  marker : Bool
  line : Nat
  offset : Nat
deriving DecidableEq, Repr

/-- Messages that the network ports send of themselves (R368, R374, R379), and sprocket packets (R217). -/
inductive NetMsg where
  /-- domainNumber, sequenceId, logMessageInterval, template -/
  | announce (domain seq : Nat) (logInt : Int) (body : List Byte)
  /-- originTimestamp in ns and correctionField in 2^-16 ns -/
  | sync (domain seq : Nat) (logInt : Int) (originNs : Nat) (corr : Int)
  /-- destination IPv4 address -/
  | delayReq (domain seq dest : Nat)
  /-- identity of the requester, receipt time in 2^-32 ns, the request's correctionField -/
  | delayResp (domain seq reqId reqPort receipt : Nat) (corr : Int)
  | metadata (domain seq : Nat) (body : List Byte)
  /-- a bridged frame with its correctionField in 2^-16 ns -/
  | forwarded (f : BridgeFrame) (corr : Int)
  | arpReply (ip mac : Nat)
  | igmpReport (group : Nat)
  /-- group address, UDP port and SENT_TIME of a Peloton message -/
  | schedule (ip udp sent : Nat) (m : SchedMsg)
  | status (ip udp sent : Nat) (m : StatusMsg)
  | st2110 (spk : Nat) (h : RtpHead) (bytes : List Byte)
deriving DecidableEq, Repr

/-- What leaves the block, oldest first in `Dev.out` (log entry 5). -/
inductive Out where
  /-- a completion entry (Table 3-15) written to slot `slot` of the CQ (R76) -/
  | completion (qid slot : Nat) (result : Nat) (sqHead cid : Nat) (phase : Bool) (status : Nat)
  /-- a record written at slot `slot` of a ring (R86, R87) -/
  | record (ring slot : Nat) (r : Rec)
  /-- an MSI-X message (R83) -/
  | msix (vector addr data : Nat)
  /-- WATCH of a queue pair's doorbell slot (R79, R80) -/
  | watch (qid : Nat) (v : Bool)
  /-- bytes written to host memory -/
  | hostWrite (addr : Nat) (bytes : List Byte)
  /-- fields written to host memory -/
  | hostFields (addr : Nat) (len : Nat) (body : List Fld)
  /-- bytes of host memory whose content is undefined from now on -/
  | hostUndef (addr len : Nat)
  /-- a failed DMA access reported by AER (R89) -/
  | aer (addr : Nat)
  /-- level of an EV pin (R144) -/
  | evPin (pin : Nat) (level : Bool)
  /-- MCLKk toggles at a frequency in Hz of a reference that advances by `rate` 2^-32 ns in 4 ns, or stops low (R117,
  R118) -/
  | mclk (k freq rate : Nat)
  /-- a message on an Ethernet port, with the 802.1Q tag where VLAN_EN is set (R368, Table 14-6) -/
  | net (port : Nat) (tag : Option Nat) (m : NetMsg)
  /-- a line on a raster's outputs: raster, line number, picture row content, freeze or blank mark -/
  | rasterLine (k line : Nat) (pixels : List (Nat × Nat × Nat))
  /-- the same line on the raster's DisplayPort outputs, where the standby raster goes in RGB 4:4:4 (R41) -/
  | dpLine (k line : Nat) (pixels : List (Nat × Nat × Nat))
  /-- DisplayPort link of transmitter `j` trained at lanes and rate code, or down (R347) -/
  | dpLink (j lanes rate : Nat)
  | dpAux (j addr : Nat) (bytes : List Byte)
  /-- two-wire pins: bus clear, START, bytes, STOP (R390 to R401) -/
  | twClear (c pulses : Nat)
  | twStart (c : Nat) (bytes : List Byte)
  | twStop (c : Nat)
  /-- bytes of a band of a raw record: one Zstandard frame of `len` bytes whose content is the words (R303) -/
  | rawBand (addr len : Nat) (words : List Nat)
  /-- a drive command issued: slot, opcode, LBA, blocks (R326 to R328) -/
  | drive (slot opc lba blocks : Nat)
  /-- an admin command to a drive by opcode; CC.EN cleared; shutdown notification (Table 12-1, R329, R332) -/
  | driveAdmin (slot opc : Nat)
  | driveCtlReset (slot : Nat)
  | driveShutdown (slot : Nat)
  /-- blocks `first` to `first + n - 1` of a read go to the host addresses that a list in host memory names (R338) -/
  | hostBlocks (list first n : Nat)
  /-- a drive's slot-reset ball (R332, R512) -/
  | driveReset (slot : Nat) (asserted : Bool)
  /-- THERM_TRIP_N (R441) -/
  | thermTrip
  /-- HUB grants a data phase: destination, port (R417) -/
  | hubGrant (dest port : Nat)
  /-- TDO shifts a data register: its value and length (R474) -/
  | tdo (bits value : Nat)
deriving DecidableEq, Repr

end Sys2Proof
end

