-- ==== Sys2Proof/Machine/StIngest.lean ====
section
/-! DEFINITION. State of the sensor ports, the memory port, the master clocks and the Timing Event Unit (chapter 4). -/

namespace Sys2Proof

/-- SP_STS.STATE (Table 4-10). -/
inductive PortState where
  | stopped | locking | running | gangSecondary
deriving DecidableEq, Repr

def PortState.code : PortState → Nat
  | .stopped => 0 | .locking => 1 | .running => 2 | .gangSecondary => 3

/-- Internal settings of an exposure program in effect for a frame (R137, R138). -/
structure ProgSet where
  id : Nat := 0
  expNs : Nat := 0
  gain : Nat := 0
  /-- dual-gain ratio, unsigned 16.16 (R160) -/
  dg : Nat := 0x10000
deriving DecidableEq, Repr

/-- One two-wire write of an exposure program (Table 4-15). -/
structure ProgWrite where
  entry : Nat
  data : List Byte
deriving DecidableEq, Repr

/-- A pending exposure program (R133 to R140). -/
structure Prog where
  ref : CmdRef
  port : Nat
  id : Nat
  /-- target index asked for, and the index it now aims at (R135) -/
  asked : Nat
  target : Nat
  next : Bool
  writes : List ProgWrite
  expNs : Nat
  gain : Nat
  dg : Option Nat
  /-- its issue has begun, and the writes that are done -/
  issuing : Bool := false
  done : Nat := 0
  /-- it bound to its frame while still issuing (R137) -/
  bound : Bool := false
  /-- the latch window of its target is open (R135) -/
  opened : Bool := false
  /-- it moved to a later frame under NEXT_POSSIBLE -/
  later : Bool := false
  /-- controller of its issue -/
  ctl : Nat := 0
  /-- its port was reset while it issued (R488) -/
  reset : Bool := false
deriving DecidableEq, Repr

/-- A frame open at ingest (R120 to R127). -/
structure Frame where
  index : Nat
  prog : ProgSet
  /-- LTS at the frame start, and exposure start, in 2^-32 ns -/
  start : Nat
  expStart : Nat
  sched : Bool
  /-- lines received, up to the configured count, and lines discarded beyond it -/
  lines : Nat := 0
  discarded : Nat := 0
  lineErrs : Nat := 0
  crcErrs : Nat := 0
  inputLost : Bool := false
  unterminated : Bool := false
  feMissing : Bool := false
  progFault : Bool := false
  /-- skipped at ingest, with the CAUSE of Table 4-18 (R126) -/
  skipped : Option Nat := none
  /-- raw rows in arrival order, each completed or cut to the width -/
  rows : List (List Nat) := []
  /-- rows that were completed under R121 -/
  fill : List Nat := []
  /-- delivered to the raw record path -/
  raw : Bool := false
  /-- STU has posted its terminal record already: it was lost after it had begun (R228) -/
  stuOver : Bool := false
deriving DecidableEq, Repr

/-- An exposure trigger that fired: its index and time (R129, R130). -/
structure Trigger where
  n : Nat
  time : Nat
deriving DecidableEq, Repr

/-- A schedule change to come (R381): N, the first index that follows the new schedule, and whether it came late. -/
structure PelChange where
  n : Nat
  idx : Nat
  sched : Sched
  late : Bool
deriving DecidableEq, Repr

/-- A sensor port SP0 to SP3, or MP as port 4. -/
structure Port where
  state : PortState := .stopped
  /-- it streams through a function reset and counts as stopped (R118) -/
  survives : Bool := false
  /-- fields latched by START_PORT, by offset in the port's page (R118) -/
  latched : SMap Word := []
  gang : Nat := 0
  scheduled : Bool := false
  peloton : Bool := false
  /-- a schedule change of its group to come (R381) -/
  change : Option PelChange := none
  rateNum : Nat := 0
  rateDen : Nat := 0
  epoch : Nat := 0
  offNs : Nat := 0
  trigUs : Nat := 0
  /-- index that the next frame takes, as far as it is known: a schedule may leave indices unused (R27) -/
  nextIndex : Nat := 0
  /-- index of the port's last frame plus 1, which a counted start goes on from (R25, R26) -/
  counted : Nat := 0
  lastClosed : Option Nat := none
  laneLock : Nat := 0
  cfgErr : Nat := 0
  frame : Option Frame := none
  /-- waiting for the next good start-of-frame (R113, R125) -/
  blind : Bool := false
  /-- STOP_PORT with NOW 0 waits for the open frame (R139), or a change of mode does (R60) -/
  stopping : Bool := false
  stopRef : Option CmdRef := none
  /-- next exposure number, triggers without a frame yet, trigger raised -/
  nextExp : Nat := 0
  triggers : List Trigger := []
  trigHigh : Bool := false
  /-- LTS at which the trigger raised last falls (R129) -/
  trigEnd : Nat := 0
  /-- LTS at which the 1 us frame-start pulse towards the TEU ends (Table 4-20 SIG) -/
  fsUntil : Option Nat := none
  lastExpEdge : Option Nat := none
  /-- frame starts seen: index and LTS, latest first, at most 8 (R133) -/
  starts : List (Nat × Nat) := []
  programs : List Prog := []
  /-- SUBMIT_PROGRAMs waiting for a place (R139) -/
  waiting : List Prog := []
  /-- programs applied to frames that have not started yet -/
  applied : List Prog := []
  inEffect : ProgSet := {}
  /-- index to which the program in effect was applied (R138) -/
  effAt : Nat := 0
  /-- settings before the program now in effect (R137) -/
  previous : ProgSet := {}
  /-- targets whose latch window has opened, and targets whose frame carries PROGRAM_FAULT (R135, R137, R396) -/
  windows : List Nat := []
  faulted : List Nat := []
  /-- MP: the running MP_FRAME, and the status under which it stops at the next line boundary (R132) -/
  mpRun : Option CmdRef := none
  mpAbort : Option Nat := none
deriving DecidableEq, Repr

/-- One line as assembled from what its ports received (R110 to R115): the samples of the whole width, whether a part
came in another length or short, and what the ports met. `got`: a start-of-line code or a packet of the frame came. -/
structure LineGot where
  samples : List Nat := []
  got : Bool := false
  bad : Bool := false
  short : Bool := false
  crcError : Bool := false
  ecc : Nat := 0
  discarded : Nat := 0
  sync : Nat := 0
deriving DecidableEq, Repr

/-- A master clock (R117, R118). -/
structure Mclk where
  running : Bool := false
  freq : Nat := 0
  /-- LTS increment of one tick that its rate follows: the nominal one unless TRACK is set (R117) -/
  rate : Nat := Config.nominalIncr
deriving DecidableEq, Repr

/-- A scheduled train of pulses on a pin (R147, Table 4-21). -/
structure Pulses where
  ref : CmdRef
  pin : Nat
  start : Nat
  width : Nat
  period : Nat
  count : Nat
  driven : Nat := 0
  high : Bool := false
  /-- the status under which it ends after the pulse in progress -/
  ending : Option Nat := none
deriving DecidableEq, Repr

/-- A SET_ROUTE waiting for its AT time (R147). -/
structure RouteWait where
  ref : CmdRef
  pin : Nat
  route : Nat
  time : Nat
deriving DecidableEq, Repr

/-- An edge in the stamp FIFO (R146). -/
structure Stamp where
  pin : Nat
  rising : Bool
  driven : Bool
  time : Nat
deriving DecidableEq, Repr

/-- SNI (chapter 4). -/
structure SniB where
  ports : SMap Port := []
  mclk : SMap Mclk := []
deriving DecidableEq, Repr

/-- TEU (R143 to R147). -/
structure TeuB where
  enabled : Nat := 0
  /-- sampled pin levels of TEU_STS -/
  levels : Nat := 0
  pulses : List Pulses := []
  routes : List RouteWait := []
  fifo : List Stamp := []
  /-- pins whose latest edge is followed by another in less than 4 ns (R146) -/
  near : List Nat := []
deriving DecidableEq, Repr

end Sys2Proof
end

