-- ==== Sys2Proof/Machine/StPipe.lean ====
section
/-! DEFINITION. State of the picture pipeline: raw front end, colour back-end, sprockets and statistics (chapters 5 to
8). A mosaic or picture under way is a sparse map from site number (32768·y + x) to value. -/

namespace Sys2Proof

/-- A working-space pixel: three f24 words and luminance (R192, R193). -/
structure Px where
  r : Nat := 0
  g : Nat := 0
  b : Nat := 0
  y : Nat := 0
deriving DecidableEq, Repr

/-- What holds for a frame from its frame start (R171, R174, R176, R197). -/
structure FrameCfg where
  /-- RFE parameter block (Table 5-10); empty before the first (log entry 16) -/
  params : List Byte := []
  /-- LIN_HG, LIN_LG, DEFECT_MAP, SHADING as loaded (Table 5-9) -/
  tables : SMap (List Byte) := []
  /-- colour block (Table 6-17); empty for the state of R204 -/
  colour : List Byte := []
  /-- shared 3D LUT record in use, empty for none (R196) -/
  lut : List Byte := []
  lutOn : Bool := false
  level : Nat := 0
  /-- history present, and its read scale S in 1/65,536 (R168, R170) -/
  hist : Bool := false
  scale : Nat := 65536
  /-- rows of the history that are valid (R169) -/
  histRows : Nat := 0
  /-- the frame reads buffer B and writes A (R172) -/
  readB : Bool := false
deriving DecidableEq, Repr

/-- A frame on its way from SNI through RFE, CBE and STU (R23, R24, R148, R179). -/
structure PipeFrame where
  src : Nat
  index : Nat
  prog : ProgSet
  expStart : Nat
  short : Bool := false
  long : Bool := false
  fault : Bool := false
  closed : Bool := false
  /-- lines received (R174) -/
  lines : Nat := 0
  rows : List (List Nat) := []
  /-- rows completed under R121, which enter no mean (R159) -/
  fill : List Nat := []
  cfg : FrameCfg := {}
  /-- configured geometry: width, height, depth, dual gain -/
  width : Nat := 0
  height : Nat := 0
  depth : Nat := 0
  dual : Bool := false
  /-- the source's registers as latched (R118, R175, R203, R243) -/
  latched : SMap Word := []
  /-- black levels of the frame: key 5·gain + channel, present once formed (R159) -/
  blSet : Bool := false
  bl : SMap Int := []
  /-- next token of each spoke (stage 1 to 7) -/
  tok : SMap Nat := []
  /-- stage-7 mosaic, and stage-5 output for the history -/
  mos : SMap Int := []
  nr : SMap Int := []
  dpc : Nat := 0
  rfeDone : Bool := false
  cbeTok : SMap Nat := []
  work : SMap Px := []
  /-- CBE step 6 output towards the sprockets -/
  col : SMap Px := []
  cbeDone : Bool := false
  stuRow : Nat := 0
  /-- of the rows that STU has measured: clipped sites, and OVF_MAP (Table 8-4) -/
  clipped : Nat := 0
  ovf : Nat := 0
  prov : Bool := false
  stuDone : Bool := false
deriving DecidableEq, Repr

/-- A pending block or table load and the frame it names (R176). -/
structure PendBlk where
  ref : CmdRef
  /-- table number for a load; 0 for a block -/
  table : Nat := 0
  at? : Option Nat := none
  reset : Bool := false
  bytes : List Byte := []
deriving DecidableEq, Repr

/-- A raw source of RFE (chapter 5). -/
structure RfeSrc where
  params : List Byte := []
  blocks : List PendBlk := []
  tables : SMap (List Byte) := []
  loads : List PendBlk := []
  /-- BL_prev by 5·gain + channel, and whether the mean is used directly next (R159) -/
  blPrev : SMap Int := []
  blFirst : Bool := true
  /-- a block with HIST_RESET took effect at the frame that starts (R168) -/
  histReset : Bool := false
  /-- rows of valid history, 0 none; the buffer that holds it (R168 to R172) -/
  histRows : Nat := 0
  histB : Bool := false
  histBroken : Bool := true
  histExp : Nat := 0
  histGain : Nat := 0
  lastIndex : Option Nat := none
  level : Nat := 0
  lastLevel : Nat := 0
  histValid : Bool := false
  hwm : Nat := 0
  /-- high-water mark of the frame at ingest, and of the last processed frame (R442) -/
  frameHwm : Nat := 0
  prevHwm : Nat := 0
deriving DecidableEq, Repr

/-- RFE. -/
structure RfeB where
  src : SMap RfeSrc := []
  /-- frames on their way, oldest first -/
  frames : List PipeFrame := []
deriving DecidableEq, Repr

/-- A shared 3D LUT unit with its two banks (R196, R198). -/
structure LutUnit where
  loaded : Bool := false
  cur : List Byte := []
  old : List Byte := []
  /-- sources that still use the old bank -/
  behind : List Nat := []
  pend : Option PendBlk := none
  pendSrc : Nat := 0
deriving DecidableEq, Repr

/-- CBE (chapter 6). -/
structure CbeB where
  /-- loaded CFA descriptions (slots 8 to 11) and banks (8 to 15); empty: not valid -/
  cfa : SMap (List Byte) := []
  banks : SMap (List Byte) := []
  colour : SMap (List Byte) := []
  blocks : SMap (List PendBlk) := []
  luts : SMap LutUnit := []
deriving DecidableEq, Repr

/-- A posted output buffer (R216, R240): up to three planes. -/
structure Buf where
  ref : CmdRef
  a0 : Nat
  a1 : Nat := 0
  a2 : Nat := 0
  dev : Bool := false
  len : Nat := 0
deriving DecidableEq, Repr

/-- A memory-source frame (Table 7-6, SPK_SUBMIT_FRAME). -/
structure Submit where
  ref : CmdRef
  format : Nat
  bits : Nat
  full : Bool
  addr : Nat
  stride : Nat
  w : Nat
  h : Nat
  index : Option Nat
  /-- status and RESULT of the DEC_OUTPUT buffer that it is (R282) -/
  dec : Option (Nat × Nat) := none
  /-- the bytes of a decoder's buffer in host memory, as it wrote them (log entry 71) -/
  seen : Option (List Byte) := none
deriving DecidableEq, Repr

/-- What a sprocket's picture is made from (R207). -/
inductive SpkIn where
  | live (src : Nat)
  | memory (s : Submit)
  | pattern
  | sdi (input : Nat) (bits : Nat) (sub : Bool) (pixels : List (List (Nat × Nat × Nat)))
deriving DecidableEq, Repr

/-- A kept frame that a sprocket delivers (R206). -/
structure SpkFrame where
  index : Nat
  input : SpkIn
  expStart : Nat
  progId : Nat := 0
  short : Bool := false
  long : Bool := false
  fault : Bool := false
  path : List Byte := []
  luts : SMap (List Byte) := []
  /-- next token: group of 8 output pixels in row order -/
  tok : Nat := 0
  buf : Option Buf := none
  /-- stage-7 codes by site (32768·y + x) -/
  codes : SMap (Nat × Nat × Nat) := []
  /-- its writer frame in a raster's slots: serial and slot -/
  writer : Option (Nat × Nat) := none
  /-- the sprocket's registers in force for it -/
  latched : SMap Word := []
deriving DecidableEq, Repr

/-- SPK_STS.STATE as far as it is the sprocket's own (Table 7-5). -/
inductive SpkState where
  | stopped | running
deriving DecidableEq, Repr

/-- What an encode job is coded from once bound: its frame index, exposure start, program ID, and planes of codes, each a
list of rows (R250, R251). -/
structure EncBind where
  index : Nat
  expStart : Nat
  progId : Nat
  planes : List (List (List Nat)) := []
deriving DecidableEq, Repr

/-- A sprocket (chapter 7). -/
structure Spk where
  state : SpkState := .stopped
  cfgErr : Nat := 0
  latched : SMap Word := []
  handle : Nat := 0
  path : List Byte := []
  paths : List PendBlk := []
  luts : SMap (List Byte) := []
  loads : List PendBlk := []
  bufs : List Buf := []
  submits : List Submit := []
  /-- memory frames written, pictures of the source not yet taken -/
  arrivals : List SpkFrame := []
  /-- next index of the pattern generator, and of the memory source (Table 1-4) -/
  nextIndex : Nat := 0
  memIndex : Nat := 0
  /-- a protected sprocket holds a token back from CBE (R219) -/
  held : Bool := false
  /-- live frames of smaller index are not taken any more -/
  fromIndex : Nat := 0
  /-- frame starts of a pacing raster that no frame has used yet (R209) -/
  paceDue : Bool := false
  cur : Option SpkFrame := none
  lastDone : Option Nat := none
  /-- shed by the derailleur; it binds at the next frame start (R220) -/
  shed : Bool := false
  shedNow : Bool := false
  stopping : Bool := false
  stopRef : Option CmdRef := none
  restarts : List PendBlk := []
  /-- SPK_RESTARTs whose set is in force and whose first frame is still to come -/
  applied : List CmdRef := []
  rtpSeq : Nat := 0
  /-- frames delivered to an encode session, by its handle, and not yet at its input -/
  encOut : List (Nat × EncBind) := []
deriving DecidableEq, Repr

/-- SPK. -/
structure SpkB where
  spk : SMap Spk := []
deriving DecidableEq, Repr

/-- A scope or SDI statistics unit (targets 5 to 8). -/
structure StuUnit where
  running : Bool := false
  stopping : Bool := false
  stopRef : Option CmdRef := none
  latched : Word := 0
  /-- frame being measured -/
  cur : Option Nat := none
  lastTerm : Option Nat := none
deriving DecidableEq, Repr

/-- A CANCELLED record of a raw unit that waits until earlier frames of its source have theirs (R24): the frames it
waits for, and its body. -/
structure HeldRec where
  src : Nat
  index : Nat
  behind : List Nat
  body : List Fld
deriving DecidableEq, Repr

/-- STU (chapter 8). -/
structure StuB where
  units : SMap StuUnit := []
  /-- posted buffers by target 0 to 6 -/
  bufs : SMap (List Buf) := []
  held : List HeldRec := []
deriving DecidableEq, Repr

end Sys2Proof
end

