-- ==== Sys2Proof/Machine/StCodec.lean ====
section
/-! DEFINITION. State of the codecs, the lossless engine and the recorder (chapters 9 to 12). -/

namespace Sys2Proof

/-- A frame at the encoder input that waits for PXE, with the fetch number that stood when it arrived: it is for a job
fetched before (R251). -/
structure EncFrame where
  bind : EncBind
  num : Nat
deriving DecidableEq, Repr

/-- A reconstructed picture of the reference store (R255, R257): its POC, its place in a sweep, and the name of what it
was made from. -/
structure EncRef where
  poc : Nat
  sweep : Option Nat
  made : Nat
deriving DecidableEq, Repr

/-- The picture being coded in an encode session (R254 to R266). -/
structure EncPic where
  ref : CmdRef
  bind : EncBind
  poc : Nat
  idr : Bool
  /-- IDR coded under R273 -/
  forced : Bool
  /-- k of R257, none outside a sweep -/
  sweep : Option Nat
  target : Nat
  /-- C_eff; none for no cap (R262) -/
  cap : Option Nat
  /-- bits committed, H included; rows begun by PXE and committed by ENE (R254, R264) -/
  bits : Nat
  begun : Nat := 0
  committed : Nat := 0
  floorFrom : Option Nat := none
  /-- the committed rows as PXE coded them (R255), and what the coding depends on besides (R16) -/
  rows : List (List CtuChoice) := []
  key : List Nat := []
  /-- the ENE slice that codes it (R246) -/
  ene : Option Nat := none
deriving DecidableEq, Repr

/-- A queued ENC_PICTURE job (R268, R270). -/
structure EncJob where
  ref : CmdRef
  num : Nat
  headerBits : Nat := 0
deriving DecidableEq, Repr

/-- An encode session (R247, R253, R261). -/
structure EncSession where
  src : Bool := false
  block : List Byte := []
  rc : List Byte := []
  workAddr : Nat := 0
  workLen : Nat := 0
  /-- F and D in 2^-16 bit -/
  full : Int := 0
  debt : Int := 0
  /-- number of the next picture, and of the last one coded -/
  picNum : Nat := 0
  lastPic : Option Nat := none
  /-- number of the last picture since the IDR or start of the stream; none before the first (R260) -/
  sinceIdr : Option Nat := none
  sweep : Option Nat := none
  forceIdr : Bool := false
  jobs : List EncJob := []
  cur : Option EncPic := none
  /-- frames at the encoder input, oldest first (R251) -/
  frames : List EncFrame := []
  /-- the reference store, the latest picture first (R255), and the name of what the coder carries forward (R16) -/
  refs : List EncRef := []
  made : Nat := 0
  /-- BR / f and BR_MAX / f in 2^-16 bit -/
  rate : Int := 0
  rateMax : Int := 0
  /-- block of an ENC_SET_RC that waits for the next picture -/
  pendRc : Option (List Byte) := none
  closing : Option CmdRef := none
deriving DecidableEq, Repr

/-- What the samples of a decoded picture are (R274, R284, R288): those of a generated reference; those that the standard
gives for the data, which a number names; those, but for the CTUs that were lost, which are the co-located samples of
another picture: CTB size, CTU columns, addresses. -/
inductive PicSrc where
  | grey
  | coded (made : Nat)
  | patched (made ctb cols : Nat) (lost : List Nat) (under : PicSrc)
deriving DecidableEq, Repr

/-- A picture in the DPB (R280, R285). -/
structure DpbPic where
  poc : Int
  tainted : Bool
  generated : Bool := false
  /-- waits for output -/
  output : Bool
  isRef : Bool := true
  /-- number of its coded video sequence, in decoding order -/
  seq : Nat := 0
  /-- pictures decoded since it joined the DPB (Annex C.5.2) -/
  age : Nat := 0
  w : Nat := 0
  h : Nat := 0
  chroma : Nat := 1
  depth : Nat := 8
  full : Bool := false
  /-- its samples, and the first column and row of its conformance window -/
  src : PicSrc := .grey
  x0 : Nat := 0
  y0 : Nat := 0
deriving DecidableEq, Repr

/-- A decode session (R274 to R291). -/
structure DecSession where
  block : List Byte := []
  workAddr : Nat := 0
  workLen : Nat := 0
  dpb : List DpbPic := []
  picNum : Nat := 0
  outNum : Nat := 0
  concealed : Nat := 0
  /-- code of a discard that lasts until an IRAP picture (R288) -/
  discard : Option Nat := none
  /-- decoding number of the first tainted picture of the concealment (R286) -/
  firstTaint : Option Nat := none
  /-- POC of the recovery point that counts (R286) -/
  recovery : Option Int := none
  /-- the coded video sequence under way, and the output limits of its parameter set (R280) -/
  seq : Nat := 0
  reorder : Nat := 0
  latency : Nat := 0
  size : Nat := 16
  /-- the job, by its fetch number, that waits for a slot (R280) -/
  need : Option Nat := none
  bufs : List Buf := []
  flushing : Option CmdRef := none
  flushed : Nat := 0
  closing : Option CmdRef := none
  /-- the closing is NOW 0 and flushes (R290); pictures written since it began (Table 10-6) -/
  drain : Bool := false
  wrote : Nat := 0
  /-- name of what its decoder carries forward: parameter sets and decoded pictures (R16) -/
  made : Nat := 0
deriving DecidableEq, Repr

/-- PXE and ENE (chapters 9 and 10). -/
structure CodecB where
  enc : SMap (Option EncSession) := []
  dec : SMap (Option DecSession) := []
deriving DecidableEq, Repr

/-- An LSE stream session (R297 to R301). -/
structure LseSession where
  format : Nat := 0
  decomp : Bool := false
  level : Nat := 1
  wlog : Nat := 10
  checksum : Bool := false
  workAddr : Nat := 0
  workLen : Nat := 0
  /-- pending output (R300) -/
  pend : List Byte := []
  /-- a frame or member is under way -/
  busy : Bool := false
  /-- what its jobs have taken in of it, one list for each, and the bytes they have formed of it (R298, R299) -/
  taken : List (List Byte) := []
  made : Nat := 0
  closing : Option CmdRef := none
deriving DecidableEq, Repr

/-- Bytes of pending output. -/
def LseSession.pending (s : LseSession) : Nat := s.pend.length

/-- A frame in a raw session's staging ring (R304 to R310). -/
structure StagedFrame where
  index : Nat
  flags : Nat
  lines : Nat
  progId : Nat
  expStart : Nat
  pedestal : Nat
  rows : List (List Nat)
  slot : Nat
  /-- geometry of the frame: width, height, depth, planes, PX, PY -/
  width : Nat
  height : Nat
  depth : Nat
  planes : Nat
  px : Nat
  py : Nat
  /-- the buffer that the record takes (R310) -/
  buf : Option Buf := none
  /-- next band to start, the lanes its bands have taken (R306), bytes of each band done -/
  started : Nat := 0
  lanes : List Nat := []
  done : SMap Nat := []
deriving DecidableEq, Repr

/-- A raw record session, by port (R304). -/
structure RawSession where
  handle : Nat
  level : Nat
  bands : Nat
  wlog : Nat
  checksum : Bool
  stage : Nat
  slots : Nat
  /-- geometry latched at START_PORT: width, height, depth, planes, PX, PY -/
  width : Nat := 0
  height : Nat := 0
  depth : Nat := 0
  planes : Nat := 1
  px : Nat := 1
  py : Nat := 1
  ring : List StagedFrame := []
  dropped : Nat := 0
  bufs : List Buf := []
  closing : Option CmdRef := none
deriving DecidableEq, Repr

/-- What a lane runs (R295). -/
inductive LaneWork where
  | idle
  | band (port : Nat) (index : Nat) (band : Nat)
deriving DecidableEq, Repr

/-- LSE (chapter 11). -/
structure LseB where
  sessions : SMap (Option LseSession) := []
  raw : SMap (Option RawSession) := []
  lanes : SMap LaneWork := []
deriving DecidableEq, Repr

/-- REC_SLOT_STS.STATE (Table 12-9). -/
inductive SlotState where
  | empty | training | ready | unsuitable | failed | ejected
deriving DecidableEq, Repr

def SlotState.code : SlotState → Nat
  | .empty => 0 | .training => 1 | .ready => 2 | .unsuitable => 3 | .failed => 4 | .ejected => 5

/-- A drive slot (R317 to R319). -/
structure Slot where
  state : SlotState := .empty
  cause : Nat := 0
  speed : Nat := 0
  width : Nat := 0
  drive : Nat := 0
  blocks : Nat := 0
  unsafeCount : Nat := 0
  dlfeat : Bool := false
  mdts : Nat := 0
  /-- a drive is present by its presence ball -/
  present : Bool := false
  ejecting : Option CmdRef := none
  /-- shut down because PORT_EN was cleared (R336) -/
  portOff : Bool := false
  /-- its controller was reset and is being re-initialised (R329) -/
  reinit : Bool := false
deriving DecidableEq, Repr

/-- A member of a volume (Table 12-5). -/
structure Member where
  slot : Nat
  lba : Nat
deriving DecidableEq, Repr

/-- A volume (R320 to R325). -/
structure Volume where
  /-- REC_VOL_STS.STATE: 0 none, 1 live, 2 BROKEN -/
  state : Nat := 0
  recovery : Bool := false
  members : List Member := []
  units : Nat := 0
  deleting : Option CmdRef := none
deriving DecidableEq, Repr

/-- A drive command of a host command: a stripe-unit piece, or a part of one at the drive's MDTS (R320, Table 12-1). -/
structure Piece where
  /-- offset from SLBA of its first block, and of the stripe-unit piece it belongs to -/
  off : Nat
  unit : Nat
  slot : Nat
  lba : Nat
  blocks : Nat
  issued : Bool := false
  done : Bool := false
  tries : Nat := 0
  /-- timed out once: an NVMe Abort has been sent (R329) -/
  aborting : Bool := false
deriving DecidableEq, Repr

/-- A host command of class 0x07 that REC has taken (R326 to R330, R335). -/
structure RecCmd where
  ref : CmdRef
  num : Nat
  vol : Nat
  /-- 0 read, 1 write, 2 deallocate -/
  kind : Nat
  /-- the write ran past the end (R330) -/
  cut : Bool
  /-- its turn under R327 has come -/
  begun : Bool := false
  pieces : List Piece
  /-- first failed piece: status, slot, offset -/
  fail : Option (Nat × Nat × Nat) := none
  /-- status under which it ends once its pieces in flight have finished -/
  ending : Option Nat := none
deriving DecidableEq, Repr

/-- A slot or volume state change (R339). -/
structure RecEvent where
  volume : Bool
  n : Nat
  old : Nat
  new : Nat
  cause : Nat
deriving DecidableEq, Repr

/-- A recovery marker in MRAM: drive and stored Unsafe Shutdowns count (R322, R323). -/
structure Marker where
  drive : Nat
  count : Nat
deriving DecidableEq, Repr

/-- REC (chapter 12). -/
structure RecB where
  slots : SMap Slot := []
  vols : SMap Volume := []
  cmds : List RecCmd := []
  events : List RecEvent := []
  waiting : List CmdRef := []
  markers : List Marker := []
  /-- deleted by a function reset once their drive commands end (R334) -/
  doomed : List Nat := []
deriving DecidableEq, Repr

end Sys2Proof
end

