-- ==== Sys2Proof/Machine/StSys.lean ====
section
/-! DEFINITION. State of the memory hub, power and engine resets (chapters 16, 17 and 19). -/

namespace Sys2Proof

/-- An engine reset under way (R484, R485): engine code, the command that asked for it and its counts. -/
structure EngReset where
  code : Nat
  ref : Option CmdRef
  /-- further ENGINE_RESETs of the same engine (R489) -/
  also : List CmdRef := []
  ended : Nat := 0
  kept : Nat := 0
  dropped : Nat := 0
  /-- by MGMT_ENGINE_LOAD with FORCE, whose code is loaded as it ends (R490) -/
  load : Bool := false
  /-- autonomous (R493) -/
  auto : Bool := false
  /-- a two-wire controller that was enabled returns with a bus clear (R403) -/
  was : Bool := false
deriving DecidableEq, Repr

/-- Engine resets (chapter 19). -/
structure EngB where
  resets : List EngReset := []
  /-- the MGMT_ENGINE_LOAD with FORCE that waits for its resets, its engine, and whether the code passes its digest -/
  load : Option (CmdRef × Nat × Bool) := none
  /-- autonomous resets of the last 10 s: engine code and LTS (R493) -/
  autos : List (Nat × Nat) := []
deriving DecidableEq, Repr

/-- A log entry as the writer forms it (Table 18-4). -/
structure LogEntry where
  seq : Nat
  boot : Nat
  sev : Nat
  code : Nat
  frame : Nat
  time : Nat
  page : Nat
  inst : Nat
  tag : Option Nat
  arg0 : Nat
  arg1 : Nat
deriving DecidableEq, Repr

/-- A flash slot, or the board-table area of MRAM (R456, Table 18-1): nothing, a container, or what an update that did
not finish left there (R465). -/
inductive FlashSlot where
  | empty
  | image (c : Container)
  | broken
deriving DecidableEq, Repr

/-- The code that an engine runs (R459): its source slot, 0xFF for no code, and what a report says of it (Table 18-6). -/
structure EngCode where
  src : Nat := 255
  signer : Nat := 0
  version : Nat := 0
  digest : Nat := 0
deriving DecidableEq, Repr

/-- OMS (chapter 18). -/
structure OmsB where
  log : List LogEntry := []
  logSeq : Nat := 0
  /-- entries written in this second, and entries suppressed in it (R467) -/
  period : Nat := 0
  suppressed : Nat := 0
  /-- the boot record (R453): SEQ, ACTIVE (slot B), TRIAL 0 none, 1 pending, 2 trying, TRIAL_S, BOOT_COUNT -/
  recSeq : Nat := 0
  active : Bool := false
  trial : Nat := 0
  trialS : Nat := 0
  bootCount : Nat := 0
  /-- the trial timer runs, with the seconds it was started with (R461) -/
  timer : Option Nat := none
  /-- what caused the last OMS-only reset: 1 the trial timer, 2 the watchdog, 0 any other (R463) -/
  latch : Nat := 0
  /-- fuses (Table 18-2); RANIAPIN_PUB enters signature checks only (log entry 13) -/
  counter : Nat := 0
  deviceId : Nat := 0
  deviceSecret : Nat := 0
  raniapinPub : Nat := 0
  oemPub : Nat := 0
  pwdHash : Nat := 0
  oemOnly : Bool := false
  lifecycle : Nat := 0
  /-- the flash was discovered (R451); its slots, and the board-table area of MRAM -/
  flash : Bool := true
  slotA : FlashSlot := .empty
  slotB : FlashSlot := .empty
  board : FlashSlot := .empty
  /-- the calibration container of MRAM, and the endorsement beside it (Table 18-1, R469) -/
  calib : FlashSlot := .empty
  endorsement : List Byte := []
  /-- the container that firmware runs from, and whether the board table in force is that of MRAM (R458) -/
  running : Option Container := none
  boardMram : Bool := false
  /-- code of engines 0 CODEC, 1 LSE, 2 REC, 3 NTU, 4 SNI (R459) -/
  code : SMap EngCode := []
  /-- the one valid nonce (R473), AUTH_FAILS, and the class granted by an unlock: 0 none, 1 SERVICE, 2 FULL -/
  nonce : Option Nat := none
  authFails : Nat := 0
  unlock : Nat := 0
deriving DecidableEq, Repr

/-- The debug port (R474 to R479). -/
structure DbgB where
  /-- TAP instruction register -/
  ir : Nat := 1
  /-- STATUS and data that the next Capture-DR of DM_ACCESS returns (R475) -/
  status : Nat := 0
  data : Nat := 0
  /-- LTS of the last DM_ACCESS -/
  last : Option Nat := none
  /-- CORE_STS: halted, CAUSE and index -/
  halted : Bool := false
  cause : Nat := 0
  index : Nat := 0
  pc : Nat := 0
  gprSel : Nat := 0
  gpr : SMap Nat := []
  bp : SMap Nat := []
  wpAddr : SMap Nat := []
  wpCtl : SMap Nat := []
  memSpace : Nat := 0
  memAddr : Nat := 0
  memAddrHi : Nat := 0
  /-- bytes of on-chip SRAM, Oroiz SRAM and MRAM that debug access has written: space × 2^32 + address (log entry 6) -/
  wrote : SMap Bool := []
  /-- TOK_CTL: point, frozen, releases left, tokens released, and whether a token waits (R478) -/
  point : Nat := 0
  frozen : Bool := false
  credits : Nat := 0
  released : Nat := 0
  waits : Bool := false
  /-- UNLOCK_DATA out and in, the METHOD and KEY of a check, UNLOCK_STS (R479) -/
  outBytes : List Byte := []
  inBytes : List Byte := []
  how : Nat := 0
  sts : Nat := 0
deriving DecidableEq, Repr

/-- A transfer requested at a destination (R407, R415): `starve` is STARVE_T as the request was raised (R425). -/
structure HubReq where
  port : Nat
  addr : Nat
  len : Nat
  write : Bool
  starve : Nat
deriving DecidableEq, Repr

/-- The arbiter of a destination (R417 to R421). -/
structure Arb where
  /-- the transfer whose data phase runs, and the one decided to follow it -/
  owner : Option HubReq := none
  next : Option HubReq := none
  /-- requests raised and not granted -/
  reqs : List HubReq := []
  /-- write credits taken, in units of 64 bytes (R415) -/
  credits : Nat := 0
  /-- grants in the cadence window, by port as well, and the quotas the window runs under (R421, R425) -/
  grants : Nat := 0
  counts : SMap Nat := []
  quota : SMap Nat := []
  /-- 1 plus the last winner of each level, 0 for none (R418) -/
  last : SMap Nat := []
deriving DecidableEq, Repr

/-- HUB (chapter 16). -/
structure HubB where
  trained : Bool := false
  chFail : Nat := 0
  /-- installed capacity in units of 0.5 GiB -/
  installed : Nat := 0
  inlineEcc : Bool := false
  arbs : SMap Arb := []
  /-- ECC_LAST_ADDR (R412) -/
  lastAddr : Nat := 0
deriving DecidableEq, Repr

/-- A degrade step taken for a source (R443). -/
inductive DegStep where
  | shed (spk : Nat)
  | level
  | skip
deriving DecidableEq, Repr

/-- A power island (Table 17-3): `st` 0 awake (Active or Idle), 2 Retention, 3 Off. -/
structure Island where
  st : Nat := 3
  /-- 1 to 8, 0 when not awake or not geared -/
  gear : Nat := 0
  /-- SPEED_K, unsigned 8.8 (R434) -/
  k : Nat := 0
  /-- pin gear, 0 for none (R450) -/
  pin : Nat := 0
  /-- decisions for which the candidate has stayed below the gear (R436) -/
  below : Nat := 0
  /-- the last regulator reading was out of its window (R437) -/
  out : Bool := false
deriving DecidableEq, Repr

/-- PWR (chapter 17). -/
structure PwrB where
  isl : SMap Island := []
  /-- islands disabled by command or regulator window -/
  disabled : List Nat := []
  /-- measured line period of each source in ps, 0 while there is none (R155) -/
  tline : SMap Nat := []
  /-- the steps taken for each source, latest first, and the one that waits for its frame start (R443, R444) -/
  steps : SMap (List DegStep) := []
  wait : SMap (Option DegStep) := []
  /-- sprockets shed, latest first (R220) -/
  sheds : List Nat := []
  /-- thermal ceilings, and lowered ones that wait for a frame start; 8 and 0 where none (R440) -/
  ceil : SMap Nat := []
  ceilPend : SMap Nat := []
  /-- Table 17-5: the warning and the gear cap -/
  warn : Bool := false
  cap : Bool := false
  /-- last diode reading, highest since the last read of PWR_TMAX, and the highest island estimate, in 1/16 °C -/
  diode : Int := 0
  tmax : Option Int := none
  est : Int := 0
  /-- varactor pull in ppb (R439) -/
  pull : Int := 0
  /-- VALUE of the housekeeping channels, and rounds taken (R437) -/
  hk : SMap Nat := []
  rounds : Nat := 0
deriving DecidableEq, Repr

/-- The memories. -/
structure MemB where
  lpddr : Mem := []
  scan : Mem := []
  sram : Mem := []
  osram : Mem := []
  mram : Mem := []
deriving DecidableEq, Repr

end Sys2Proof
end

