-- ==== Sys2Proof/Machine/StTime.lean ====
section
/-! DEFINITION. State of time, the network ports and the Peloton (chapter 14). -/

namespace Sys2Proof

/-- An Ethernet port (R367). -/
structure Eth where
  up : Bool := false
  link : Bool := false
  /-- SPEED_ACT and FEC_ACT, as ETH_CFG -/
  speed : Nat := 0
  fec : Nat := 0
  /-- the speed that AUTO is trying: 1 or 2 -/
  trial : Nat := 1
deriving DecidableEq, Repr

/-- A two-step Sync that waits for its Follow_Up (R373): T2 on the domain counter. -/
structure PendSync where
  seq : Nat
  srcId : Nat
  srcPort : Nat
  t2 : Nat
  corr : Int
deriving DecidableEq, Repr

/-- A delay exchange: T3 and T4 in 2^-32 ns. -/
structure DelayEx where
  seq : Nat
  t3 : Nat
  t4 : Nat
  corr : Int
deriving DecidableEq, Repr

/-- A PTP domain instance (R371 to R374). -/
structure Dom where
  /-- 0 stopped, 1 LISTEN, 2 SLAVE, 3 MASTER (Table 14-6) -/
  role : Nat := 0
  /-- time counter and increment in 2^-32 ns (R372) -/
  counter : Nat := 0
  incr : Nat := 0x400000000
  locked : Bool := false
  masterId : Nat := 0
  masterPort : Nat := 0
  /-- grandmaster identity declared by NTU_DOM_ROLE -/
  gm : Nat := 0
  annSeq : Nat := 0
  syncSeq : Nat := 0
  dreqSeq : Nat := 0
  metaSeq : Nat := 0
  announce : Option (List Byte) := none
  metadata : Option (List Byte) := none
  pend : Option PendSync := none
  /-- Delay_Req sent and not answered: sequence and T3 -/
  asked : Option (Nat × Nat) := none
  exch : Option DelayEx := none
  /-- the exchange is newer than the last PTP_SAMPLE -/
  fresh : Bool := false
deriving DecidableEq, Repr

/-- A two-step Sync that the transparent clock tracks (R375): receiving port, identity, residence in 2^-16 ns. -/
structure TcTrack where
  port : Nat
  srcId : Nat
  seq : Nat
  residence : Int
deriving DecidableEq, Repr

/-- The Peloton membership (R379 to R384). -/
structure PelMember where
  id : Nat
  leader : Bool
  port : Nat
  group : Nat
  udp : Nat
  ip : Nat
  schedMs : Nat
  statusMs : Nat
  holdMs : Nat
deriving DecidableEq, Repr

/-- The Peloton state of NTU. -/
structure Pel where
  member : Option PelMember := none
  /-- the leader followed, and the sender and SEQ of the last SCHEDULE accepted -/
  follow : Option Nat := none
  last : Option (Nat × Nat) := none
  /-- the schedule in force, and the change to come -/
  cur : Option Sched := none
  pend : Option PelChange := none
  gm : Nat := 0
  ptpDomain : Nat := 0
  lost : Bool := false
  /-- SEQ of the next message sent -/
  seq : Nat := 0
deriving DecidableEq, Repr

/-- NTU. -/
structure NtuB where
  pel : Pel := {}
  ports : SMap Eth := []
  doms : SMap Dom := []
  /-- LTS in units of 2^-32 ns (R15, R376) -/
  lts : Nat := 0
  /-- NTU_STS.SELECTED, and the selected domain's increment last in force -/
  sel : Nat := 3
  incr : Nat := 0x400000000
  slewing : Bool := false
  /-- the selected domain's port lost its link while the LTS followed it (R376) -/
  held : Bool := false
  tc : List TcTrack := []
deriving DecidableEq, Repr

end Sys2Proof
end

