-- ==== Sys2Proof/Machine/StTw.lean ====
section
/-! DEFINITION. State of the two-wire controllers (chapter 15). -/

namespace Sys2Proof

/-- What a controller is apart from its bus (Table 15-3; a bus clear is one step, so CLEARING does not last). -/
inductive TwState where
  | disabled | enabled | stuck
deriving DecidableEq, Repr

/-- A transaction in hand: a write of an exposure program of a port, or a transaction of a TW_XFER. -/
inductive TwWork where
  | prog (port : Nat) (ref : CmdRef)
  | xfer (ref : CmdRef)
deriving DecidableEq, Repr

/-- A TW_XFER that waits or runs (Tables 15-5 to 15-7). -/
structure Xfer where
  ref : CmdRef
  entry : Nat
  op : Nat
  ptr : Nat
  data : List Byte
  wlen : Nat
  rlen : Nat
  dev : Bool
  raddr : Nat
  started : Bool := false
  /-- data bytes written and acknowledged, bytes read, over the transactions done (R392) -/
  written : Nat := 0
  got : List Byte := []
  /-- byte and bit of the last loss; byte NACKed -/
  loss : Nat × Nat := (0, 0)
  attempts : Nat := 1
  trunc : Bool := false
  count : Nat := 0
  /-- order of fetch (R390) -/
  num : Nat := 0
deriving DecidableEq, Repr

/-- Where a transaction in hand stands. -/
inductive TwHold where
  /-- on the bus -/
  | running
  /-- lost arbitration, or woken: waiting for bus free (R397, R400) -/
  | lost
  /-- sleeping target, waiting WAKE_US (R397) -/
  | waking
deriving DecidableEq, Repr

/-- A controller. -/
structure TwCtl where
  state : TwState := .disabled
  lastEntry : Nat := 0
  xfers : List Xfer := []
  cur : Option TwWork := none
  hold : TwHold := .running
  arbLeft : Nat := 0
  wakeLeft : Nat := 0
  /-- another controller holds the bus (R389) -/
  busBusy : Bool := false
  /-- SCL is held low and the STOP of an ended transaction is due (R395) -/
  sclHeld : Bool := false
  /-- TW_DISABLE waits for the transfer in hand (R402) -/
  disabling : Option CmdRef := none
  /-- SDA and SCL levels (TW_STS; log entry 7) -/
  sda : Bool := true
  scl : Bool := true
deriving DecidableEq, Repr

/-- TW. -/
structure TwB where
  ctl : SMap TwCtl := []
deriving DecidableEq, Repr

end Sys2Proof
end

