-- ==== Sys2Proof/Machine/StSco.lean ====
section
/-! DEFINITION. State of scan-out: rasters, their slots in ScanStore, DisplayPort transmitters and SDI inputs (chapter
13). -/

namespace Sys2Proof

/-- What last wrote a line of a chase slot: writer frame, pixels written, LTS of the last of them (R353). -/
structure SlotLine where
  serial : Nat := 0
  px : Nat := 0
  time : Nat := 0
deriving DecidableEq, Repr

/-- A writer frame: its serial number, the source's frame index, the slot it writes (R352, R353). -/
structure Writer where
  serial : Nat
  index : Nat
  slot : Nat
deriving DecidableEq, Repr

/-- What a raster frame shows (R352, R353, Table 13-6 CONTENT). -/
inductive Shows where
  | black
  | bars
  /-- a slot: slot number, writer frame serial, frame index -/
  | slot (slot : Nat) (serial : Nat) (index : Nat)
  /-- slots, of which none has been published or begun yet -/
  | none
deriving DecidableEq, Repr

/-- A frame whose last active line has left, and whose FRAME_OUT is due (Table 13-4). -/
structure FrameRep where
  out : Nat
  index : Nat
  time : Nat
  report : Bool
  flags : Nat
  slot : Nat
  crash : Bool
  under : Nat
  lead : Nat
  sdi : Nat
  /-- DisplayPort outputs, and those that the link carried from the first active line -/
  dp : Nat
  dpUp : Nat
  crcSdi : List Nat
  crcDp : List Nat
deriving DecidableEq, Repr

/-- A raster SCO0 to SCO3. -/
structure Raster where
  /-- running; after reset the standby raster of R42, whose settings follow the straps -/
  run : Bool := true
  ks : Bool := true
  /-- registers as latched, by offset in the raster's page -/
  latched : SMap Word := []
  cfgErr : Nat := 0
  locked : Bool := false
  /-- a phase error of more than one line is removed: CRASH_LOCK on the next report (R344) -/
  crash : Bool := false
  /-- frames begun since SCO_START, wrapping (R11), and whether there was one -/
  count : Nat := 0
  began : Bool := false
  /-- a frame is under way, its next active line, the LTS of line 0 -/
  active : Bool := false
  line : Nat := 0
  time : Nat := 0
  shows : Shows := .none
  front : Nat := 0
  /-- a published slot that has not been bound -/
  pub : Option Writer := none
  /-- content of the slot bound last -/
  bound : Option Writer := none
  writer : Option Writer := none
  serial : Nat := 0
  lines : SMap SlotLine := []
  repeated : Bool := false
  /-- underrun policy of the frame: REPEAT (R354) -/
  policy : Bool := false
  under : Nat := 0
  blank : Bool := false
  ecc : Bool := false
  lead : Option Nat := none
  dpUp : Nat := 0
  /-- the last pixel on the pins -/
  last : Option (Nat × Nat × Nat) := none
  crcSdi : List Nat := []
  crcDp : List Nat := []
  reports : List FrameRep := []
  stopRef : Option CmdRef := none
  restarts : List PendBlk := []
deriving DecidableEq, Repr

/-- A DisplayPort transmitter. -/
structure DpTx where
  hpd : Bool := false
  trained : Bool := false
  lanes : Nat := 0
  rate : Nat := 0
  sink : SinkFacts := ⟨2, 6, []⟩
deriving DecidableEq, Repr

/-- An SDI input. -/
structure SdiIn where
  run : Bool := false
  stopping : Bool := false
  locked : Bool := false
  format : SdiFormat := ⟨0, 0, 0, 0⟩
  /-- format expected -/
  want : SdiFormat := ⟨0, 0, 0, 0⟩
  auto : Bool := false
  nextIndex : Nat := 0
  lastIndex : Option Nat := none
deriving DecidableEq, Repr

/-- SCO. -/
structure ScoB where
  rasters : SMap Raster := []
  dp : SMap DpTx := []
  sdi : SMap SdiIn := []
deriving DecidableEq, Repr

end Sys2Proof
end

