-- ==== Sys2Proof/Machine/State.lean ====
section
/-! DEFINITION. The State of the Icelo 1680: every block's state, the set-up registers and counters, the memories, what
has left the block, and the queue of waiting commands. Plain data throughout. -/

namespace Sys2Proof.Machine

/-- The block. -/
structure Dev where
  boot : BootB := {}
  hif : HifB := {}
  sni : SniB := {}
  teu : TeuB := {}
  rfe : RfeB := {}
  cbe : CbeB := {}
  spk : SpkB := {}
  stu : StuB := {}
  codec : CodecB := {}
  lse : LseB := {}
  recd : RecB := {}
  ntu : NtuB := {}
  tw : TwB := {}
  sco : ScoB := {}
  hub : HubB := {}
  pwr : PwrB := {}
  eng : EngB := {}
  oms : OmsB := {}
  dbg : DbgB := {}
  mem : MemB := {}
  /-- BAR0 registers that are written, by offset: an entry is listed where it differs from the reset value of the
  register table, held as the exclusive or with that value -/
  regs : SMap Word := []
  /-- read-with-clear counters by BAR0 offset: OVF in bit 31, COUNT below (R8, R9); a counter listed in
  `RegTable.full` has no OVF -/
  ctrs : SMap Nat := []
  out : List Out := []
  free : Nat := 0
  hostRead : Nat := 0
deriving DecidableEq, Repr

/-- The machine: the block and the commands that wait for it, first in, first out (log entry 1). -/
structure State where
  dev : Dev
  pending : List Instr
deriving DecidableEq, Repr

/-- Why a step faults. No meaning of this model faults: the type is closed and its one reason is never raised. -/
inductive Fault where
  /-- raised by nothing (safe) -/
  | unused
deriving DecidableEq, Repr

/-- Why a step has no meaning. -/
inductive Refusal where
  /-- raised by an arm of `exec` whose row has no meaning yet (safe: the machine stops) -/
  | notModelled (mnemonic : String)
deriving DecidableEq, Repr

/-- The machine right after a cold reset and the rising edge of RESET_N with all straps 0 (log entries 8 and 9). -/
def State.reset : State := { dev := {}, pending := [] }

end Sys2Proof.Machine
end

