-- ==== Sys2Proof/Machine/RegTable.lean ====
section
/-! DEFINITION. The BAR0 registers: offsets, reset values and access masks, from the register tables of every chapter
(Table 1-6 gives the pages). -/

namespace Sys2Proof.Machine

/-- A register, or `n` of them `stride` bytes apart: reset value and the bits of each access code (Table 0-3). Bits in
no mask are RO or reserved. -/
structure RegRow where
  off : Nat
  stride : Nat := 4
  n : Nat := 1
  reset : Nat := 0
  sw : Nat := 0
  rw : Nat := 0
  w1c : Nat := 0
  wo : Nat := 0

/-- The bits [hi:lo]. -/
def msk (hi lo : Nat) : Nat := 2 ^ (hi + 1) - 2 ^ lo

/-- HIF page (Tables 2-4 to 2-17 and 3-4 to 3-13). -/
def regsHif : List RegRow :=
  [{ off := 0x00, reset := 0x16800100 }, { off := 0x04 }, { off := 0x08 }, { off := 0x10, n := 4 },
   { off := 0x20, n := 4, sw := msk 31 0 }, { off := 0x30, wo := 1 }, { off := 0x34 }, { off := 0x38, w1c := 0xF },
   { off := 0x40, reset := 100 * 65536, sw := msk 25 16 + 1 }, { off := 0x44 },
   { off := 0x48, reset := 0x3F, sw := msk 11 0 }, { off := 0x4C, reset := 0x80C, sw := msk 12 8 + msk 4 0 },
   { off := 0x50, stride := 8, n := 4, sw := msk 31 12 }, { off := 0x54, stride := 8, n := 4, sw := msk 31 0 }]

/-- LEVEL at reset of the requester ports (Table 16-2). -/
def hubLevels : List Nat :=
  [0, 0, 0, 0, 2, 1, 1, 3, 3, 2, 2, 2, 2, 2, 2, 2, 2, 2, 1, 1, 1, 1, 1, 1, 2, 2, 2, 2, 2, 3, 3, 2, 0, 0, 0, 0, 3, 3]

/-- HUB_PORT_CFG of port `n` (Table 16-10). -/
def hubPortRow (n : Nat) : RegRow :=
  let l := hubLevels.getD n 3
  { off := 0x10100 + 4 * n, reset := l, sw := msk 31 8 + if l = 0 then 0 else 3 }

/-- HUB page (Tables 16-6 to 16-10). -/
def regsHub : List RegRow :=
  [{ off := 0x10000, reset := 16 * 256, sw := msk 15 8 + 1 }, { off := 0x10010 }, { off := 0x10018 }, { off := 0x1001C },
   { off := 0x10020, w1c := msk 31 0 }, { off := 0x10024, w1c := msk 5 0 }, { off := 0x10050 }, { off := 0x10054 }]
  ++ (rangeFrom 0 38).map hubPortRow

/-- SNI page (Tables 4-2 to 4-12). -/
def regsSni : List RegRow :=
  [{ off := 0x20000, stride := 0x100, n := 4, reset := 1500 * 65536 + 4096 + 2048 + 64,
     sw := msk 28 16 + msk 15 8 + msk 6 0 },
   { off := 0x20004, stride := 0x100, n := 4, reset := 0x086F0EFF, sw := msk 29 16 + msk 14 0 },
   { off := 0x20008, stride := 0x100, n := 4, reset := 40000, sw := msk 23 0 },
   { off := 0x2000C, stride := 0x100, n := 4, reset := 0x2C0000, sw := msk 21 0 },
   { off := 0x20010, stride := 0x100, n := 4, sw := msk 31 4 },
   { off := 0x20020, stride := 0x100, n := 4, sw := msk 31 0 },
   { off := 0x20024, stride := 0x100, n := 4, sw := msk 31 0 },
   { off := 0x20028, stride := 0x100, n := 4, sw := msk 31 0 },
   { off := 0x2002C, stride := 0x100, n := 4, sw := msk 31 0 },
   { off := 0x20030, stride := 0x100, n := 4, sw := msk 29 0,
     reset := 2 ^ 5 + 2 * 2 ^ 10 + 3 * 2 ^ 15 + 4 * 2 ^ 20 + 5 * 2 ^ 25 },
   { off := 0x20034, stride := 0x100, n := 4, sw := msk 29 0,
     reset := 6 + 7 * 2 ^ 5 + 8 * 2 ^ 10 + 9 * 2 ^ 15 + 10 * 2 ^ 20 + 11 * 2 ^ 25 },
   { off := 0x20038, stride := 0x100, n := 4, sw := msk 29 0,
     reset := 12 + 13 * 2 ^ 5 + 14 * 2 ^ 10 + 15 * 2 ^ 15 + 16 * 2 ^ 20 + 17 * 2 ^ 25 },
   { off := 0x2003C, stride := 0x100, n := 4, sw := msk 9 0, reset := 18 + 19 * 2 ^ 5 },
   { off := 0x20080, stride := 0x100, n := 4 },
   { off := 0x20400, sw := msk 1 0 },
   { off := 0x20800, stride := 8, n := 4, sw := msk 1 0 },
   { off := 0x20804, stride := 8, n := 4, reset := 24000000, sw := msk 27 0 }]

/-- RFE page (Tables 5-4 to 5-8). -/
def regsRfe : List RegRow :=
  [{ off := 0x30000, n := 2, reset := 0xFFFFFFFF, sw := msk 31 0 }, { off := 0x30010 },
   { off := 0x30100, stride := 0x40, n := 5, sw := msk 29 16 + msk 14 0 },
   { off := 0x30104, stride := 0x40, n := 5, reset := 0x086F0EFF, sw := msk 29 16 + msk 14 0 },
   { off := 0x30108, stride := 0x40, n := 5, sw := msk 15 0 },
   { off := 0x3010C, stride := 0x40, n := 5, reset := 0x6410, sw := msk 15 4 + 1 },
   { off := 0x30110, stride := 0x40, n := 5, sw := msk 31 12 },
   { off := 0x30114, stride := 0x40, n := 5, sw := msk 31 0 },
   { off := 0x30120, stride := 0x40, n := 5 }]

/-- CBE and SPK page (Tables 6-12 to 6-15, 7-4, 7-5). -/
def regsSpk : List RegRow :=
  [{ off := 0x40000, stride := 0x40, n := 5, sw := msk 14 12 + msk 10 8 + msk 4 0 }, { off := 0x40200 },
   { off := 0x41000, stride := 0x100, n := 8, reset := 0x10000,
     sw := msk 17 16 + msk 13 12 + msk 10 8 + msk 6 4 + msk 2 0 },
   { off := 0x41004, stride := 0x100, n := 8, reset := 0x086F0EFF, sw := msk 29 16 + msk 13 0 },
   { off := 0x41008, stride := 0x100, n := 8, reset := 1024 + 160 + 2, sw := msk 11 0 },
   { off := 0x4100C, stride := 0x100, n := 8, reset := 0x101, sw := msk 20 16 + msk 12 8 + msk 4 0 },
   { off := 0x41010, stride := 0x100, n := 8, sw := msk 31 0 },
   { off := 0x41014, stride := 0x100, n := 8, reset := 60, sw := msk 31 0 },
   { off := 0x41018, stride := 0x100, n := 8, reset := 1, sw := msk 31 0 },
   { off := 0x41020, stride := 0x100, n := 8, sw := msk 31 0 },
   { off := 0x41024, stride := 0x100, n := 8, sw := msk 31 0 },
   { off := 0x41028, stride := 0x100, n := 8, sw := msk 31 0 },
   { off := 0x4102C, stride := 0x100, n := 8, sw := msk 23 16 + msk 13 8 + msk 6 0 },
   { off := 0x41040, stride := 0x100, n := 8 }]

/-- STU page (Tables 8-8 to 8-12). -/
def regsStu : List RegRow :=
  [{ off := 0x50000, stride := 0x40, n := 5, reset := 128 * 2 ^ 24 + 50 * 256, sw := msk 31 24 + msk 14 8 + msk 2 0 },
   { off := 0x50004, stride := 0x40, n := 5, reset := 4 * 2 ^ 24 + 8 * 2 ^ 16 + 4 * 2 ^ 8 + 12,
     sw := msk 28 24 + msk 20 16 + msk 12 8 + msk 4 0 },
   { off := 0x50008, stride := 0x40, n := 5, reset := 0xFFFFF, sw := msk 20 0 },
   { off := 0x50400, stride := 0x20, n := 2, reset := 0x2000, sw := msk 13 12 + msk 9 8 + msk 6 4 + 1 },
   { off := 0x50800 }]

/-- PXE/ENE, LSE and REC pages (Tables 9-5 to 9-9, 11-3 to 11-5, 12-6 to 12-11). -/
def regsCodec : List RegRow :=
  [{ off := 0x60000, reset := 4, sw := msk 2 0 }, { off := 0x60004 }, { off := 0x60008 },
   { off := 0x70000, reset := 0xFFF, sw := msk 11 0 }, { off := 0x70004 }, { off := 0x70008 },
   { off := 0x80000, reset := 2 * 2 ^ 24 + 5000 * 256, sw := msk 27 0 }, { off := 0x80100, n := 8 },
   { off := 0x80200, n := 4 }]

/-- Geometry and clock of a standby raster by KS_FMT: HACT, VACT, HTOTAL, HFP, HSW, VTOTAL, VFP, VSW, PCLK_HZ, DIV1001
(Tables 2-2 and 13-1). Porches and sync widths are those of CEA-861: PRESUMED (log entry 15). -/
def ksGeom : Nat → List Nat
  | 0 => [1920, 1080, 2640, 528, 44, 1125, 4, 5, 74250000, 0]
  | 1 => [1920, 1080, 2200, 88, 44, 1125, 4, 5, 74250000, 1]
  | 2 => [1920, 1080, 2640, 528, 44, 1125, 4, 5, 148500000, 0]
  | 3 => [1920, 1080, 2200, 88, 44, 1125, 4, 5, 148500000, 1]
  | 4 => [3840, 2160, 5280, 1056, 88, 2250, 8, 10, 297000000, 0]
  | 5 => [3840, 2160, 4400, 176, 88, 2250, 8, 10, 297000000, 1]
  | 6 => [3840, 2160, 5280, 1056, 88, 2250, 8, 10, 594000000, 0]
  | _ => [3840, 2160, 4400, 176, 88, 2250, 8, 10, 594000000, 1]

/-- KS value of register `o` of raster `k` (Tables 13-6 and 13-7): `ref` where the raster is genlocked (R43). -/
def ksReg (fmt : Nat) (pat ref : Bool) (k o : Nat) : Nat :=
  let g := fun i => (ksGeom fmt).getD i 0
  match o with
  | 0x00 => ref.toNat * 2 ^ 30 + 2 ^ 29 + (if k = 0 then 2 ^ 24 else 0) + 2 ^ (20 + k) + 10 * 4096 + 1 + pat.toNat
  | 0x04 => (g 2 - 1) * 65536 + g 0 - 1
  | 0x08 => (g 4 - 1) * 65536 + g 3
  | 0x0C => (g 5 - 1) * 65536 + g 1 - 1
  | 0x10 => (g 7 - 1) * 65536 + g 6
  | 0x14 => g 8
  | 0x18 => g 9
  | _ => 0

/-- Registers of raster `k` with KS_FMT and KS_PAT 0; a reset under other straps writes theirs. -/
def regsRaster (k : Nat) : List RegRow :=
  let b := 0x90000 + 0x100 * k
  let row := fun o m => { off := b + o, reset := ksReg 0 false false k o, sw := m : RegRow }
  [row 0x00 (msk 31 28 + msk 25 20 + msk 17 8 + 16 + 3), row 0x04 (msk 29 16 + msk 13 0),
   row 0x08 (2 ^ 31 + msk 29 16 + msk 13 0), row 0x0C (msk 28 16 + msk 12 0),
   row 0x10 (2 ^ 31 + msk 28 16 + msk 12 0), row 0x14 (msk 31 0), row 0x18 1, row 0x1C (msk 10 0),
   row 0x20 (msk 31 0), { off := b + 0x40 }]

/-- SCO page (Tables 13-6 to 13-8). -/
def regsSco : List RegRow :=
  (rangeFrom 0 4).flatMap regsRaster ++
  [{ off := 0x90400 }, { off := 0x90800, stride := 0x20, n := 2, reset := 0x26, sw := msk 5 4 + msk 2 0 },
   { off := 0x90804, stride := 0x20, n := 2 },
   { off := 0x90C00, stride := 0x40, n := 2, reset := 10 * 65536 + 1, sw := msk 19 16 + msk 13 12 + msk 10 4 + 1 },
   { off := 0x90C04, stride := 0x40, n := 2 }]

/-- NTU page (Table 14-6); the MAC address comes from the board table. -/
def regsNtu : List RegRow :=
  [{ off := 0xA0000, stride := 0x40, n := 2, sw := msk 27 16 + msk 14 12 + 256 + msk 5 4 + 3 },
   { off := 0xA0004, stride := 0x40, n := 2, sw := msk 31 0 }, { off := 0xA0008, stride := 0x40, n := 2, sw := msk 15 0 },
   { off := 0xA000C, stride := 0x40, n := 2, sw := msk 31 0 }, { off := 0xA0020, stride := 0x40, n := 2 },
   { off := 0xA0100, reset := 10 * 65536, sw := msk 23 16 + 1 },
   { off := 0xA0200, stride := 0x40, n := 2, reset := 127 * 2 ^ 24 + 13 * 65536 + 14 * 4096 + 13 * 256,
     sw := msk 31 24 + msk 19 8 + 3 },
   { off := 0xA0204, stride := 0x40, n := 2, sw := msk 31 0 }, { off := 0xA0300 }, { off := 0xA0304 }]

/-- TEU page (Table 4-20). -/
def regsTeu : List RegRow := [{ off := 0xB0000, n := 16, sw := msk 31 8 + msk 2 0 }, { off := 0xB0040 }]

/-- Registers of two-wire controller `c` (Tables 15-2 to 15-4). -/
def regsTwCtl (c : Nat) : List RegRow :=
  let b := 0xC0000 + 0x1000 * c
  [{ off := b, reset := 35 * 65536 + 3 * 4096 + 1, sw := msk 31 12 + msk 1 0 }, { off := b + 4 },
   { off := b + 0x100, stride := 0x10, n := 32, reset := 8 * 65536, sw := msk 31 11 + msk 6 0, rw := 128 },
   { off := b + 0x104, stride := 0x10, n := 32, reset := 100 * 65536, sw := msk 31 16 },
   { off := b + 0x108, stride := 0x10, n := 32, sw := msk 25 0 },
   { off := b + 0x10C, stride := 0x10, n := 32, sw := msk 23 0 }]

/-- TW page. -/
def regsTw : List RegRow := (rangeFrom 0 8).flatMap regsTwCtl

/-- PWR, OMS and DBG pages (Tables 17-7 to 17-11, 18-10, 18-11). -/
def regsPwr : List RegRow :=
  [{ off := 0xD0000, reset := 20 * 65536 + 4 * 4096 + 8 * 256 + 15, sw := msk 31 0 }, { off := 0xD0004 },
   { off := 0xD0008 }, { off := 0xD000C }, { off := 0xD0010 }, { off := 0xD0100, n := 56 },
   { off := 0xD0200, n := 56, reset := 0xFF, sw := msk 7 0 }, { off := 0xD0400, n := 24, w1c := 2 ^ 31 },
   { off := 0xE0000, n := 5 }, { off := 0xF0000 }]

/-- The registers of a page. -/
def regsOf : Nat → List RegRow
  | 0 => regsHif | 1 => regsHub | 2 => regsSni | 3 => regsRfe | 4 => regsSpk | 5 => regsStu | 6 => regsCodec
  | 7 => regsCodec | 8 => regsCodec | 9 => regsSco | 10 => regsNtu | 11 => regsTeu | 12 => regsTw
  | _ => regsPwr

/-- A row holds the offset. -/
def RegRow.holds (r : RegRow) (off : Nat) : Bool :=
  decide (r.off ≤ off) && (off - r.off) % r.stride == 0 && decide ((off - r.off) / r.stride < r.n)

/-- The register at an offset. -/
def regAt (off : Nat) : Option RegRow := (regsOf (off / 65536)).find? (·.holds off)

/-- The reset value at an offset. -/
def regReset (off : Nat) : Nat := ((regAt off).map (·.reset)).getD 0

/-- Read-with-clear counters by page (Tables 4-11, 5-8, 7-5, 8-13, 9-10, 10-3, 11-5, 12-12 and on): offset, stride,
how many. -/
def ctrRows : List (Nat × Nat × Nat) :=
  [(0x200A0, 4, 10), (0x201A0, 4, 10), (0x202A0, 4, 10), (0x203A0, 4, 10),
   (0x30124, 0x40, 5), (0x30128, 0x40, 5),
   (0x41060, 0x100, 8), (0x41064, 0x100, 8), (0x41068, 0x100, 8), (0x4106C, 0x100, 8), (0x41070, 0x100, 8),
   (0x50900, 4, 5), (0x50920, 4, 5), (0x50A00, 4, 7), (0x60040, 4, 4), (0x60840, 4, 3), (0x70040, 4, 3),
   (0x80300, 4, 5), (0xC0020, 0x1000, 8), (0xC0024, 0x1000, 8), (0xC0028, 0x1000, 8),
   (0xC002C, 0x1000, 8), (0xC0030, 0x1000, 8), (0xC0034, 0x1000, 8), (0xB0044, 4, 1), (0xD0090, 4, 1), (0xE0014, 4, 1),
   (0x90064, 0x100, 4), (0x90068, 0x100, 4), (0x9006C, 0x100, 4), (0x90070, 0x100, 4), (0x90404, 4, 2),
   (0x90C10, 4, 3), (0x90C50, 4, 3),
   (0x10040, 4, 4), (0xA0030, 4, 4), (0xA0070, 4, 4), (0xD0080, 4, 4)]

/-- Counters that give all 32 bits to the count (R8). -/
def ctrFull : List (Nat × Nat × Nat) := [(0x90060, 0x100, 4)]

/-- An offset is in a list of rows. -/
def inRows (l : List (Nat × Nat × Nat)) (off : Nat) : Bool :=
  l.any fun r => decide (r.1 ≤ off) && (off - r.1) % r.2.1 == 0 && decide ((off - r.1) / r.2.1 < r.2.2)

/-- The offset is a read-with-clear counter. -/
def isCtr (off : Nat) : Bool := inRows ctrRows off || inRows ctrFull off

end Sys2Proof.Machine
end

