-- ==== Sys2Proof/Machine/Operands.lean ====
section
/-! DEFINITION. Operand forms: bit fields, the fields of a submission entry (Table 3-14), LTS values (R15, R141), and
the offending positions of R77, R518 and R519. -/

namespace Sys2Proof.Machine

/-- Bits [hi:lo] of a number. -/
def bitsOf (v hi lo : Nat) : Nat := v / 2 ^ lo % 2 ^ (hi + 1 - lo)

/-- Sign-extend a `w`-bit number. -/
def toSigned (w v : Nat) : Int := if v < 2 ^ (w - 1) then (v : Int) else (v : Int) - 2 ^ w

/-- `v` in two's complement in `w` bits. -/
def fromSigned (w : Nat) (v : Int) : Nat := (v % (2 ^ w : Int)).toNat

/-- round(a / b) of R149: halves upward. -/
def roundDiv (a : Int) (b : Nat) : Int := (a + ((b / 2 : Nat) : Int)) / (b : Int)

/-- ceil(a / b). -/
def ceilDiv (a b : Nat) : Nat := (a + b - 1) / b

/-- Value clamped to [lo, hi]. -/
def clampI (lo hi v : Int) : Int := if v < lo then lo else if hi < v then hi else v

/-- Integer square root, rounded down: `n` binary digits from the top. -/
def isqrtAux (x : Nat) : Nat → Nat → Nat
  | 0, r => r
  | n + 1, r => let t := r + 2 ^ n; if t * t ≤ x then isqrtAux x n t else isqrtAux x n r

/-- isqrt of a number below 2^64. -/
def isqrt (x : Nat) : Nat := isqrtAux x 32 0

/-- Number of bits of `v` (0 for 0), for v below 2^n. -/
def bitLen : Nat → Nat → Nat
  | 0, _ => 0
  | n + 1, v => if v = 0 then 0 else bitLen n (v / 2) + 1

end Sys2Proof.Machine

namespace Sys2Proof

/-- Dword `i` of the entry. -/
def Cmd.w (c : Cmd) (i : Nat) : Nat := (c.dw.getD i 0).toNat

/-- Bits [hi:lo] of dword `i`. -/
def Cmd.f (c : Cmd) (i hi lo : Nat) : Nat := Machine.bitsOf (c.w i) hi lo

/-- Bit `b` of dword `i`. -/
def Cmd.b (c : Cmd) (i b : Nat) : Bool := (c.w i).testBit b

/-- The 64-bit value whose low word is dword `i`. -/
def Cmd.q (c : Cmd) (i : Nat) : Nat := c.w i + 4294967296 * c.w (i + 1)

def Cmd.cls (c : Cmd) : Nat := c.f 0 7 0
def Cmd.opc (c : Cmd) : Nat := c.f 0 15 8
def Cmd.handle (c : Cmd) : Nat := c.f 1 19 0
def Cmd.ordered (c : Cmd) : Bool := c.b 1 24
def Cmd.fence (c : Cmd) : Bool := c.b 1 25
def Cmd.nextPossible (c : Cmd) : Bool := c.b 1 26
def Cmd.tag (c : Cmd) : Nat := c.q 2
def Cmd.ref (c : Cmd) : CmdRef := ⟨c.qid, c.cid⟩

end Sys2Proof

namespace Sys2Proof.Machine

/-- 2^-32 ns in a second. -/
def tSec : Nat := 4294967296000000000

/-- 2^-32 ns in a microsecond. -/
def tUs : Nat := 4294967296000

/-- 2^-32 ns in a nanosecond. -/
def tNs : Nat := 4294967296

/-- An LTS value as a command or block carries it (R141: fractional ns 16, ns 32, seconds 48) in 2^-32 ns. -/
def ltsOf (v : Nat) : Nat :=
  (v / 281474976710656 % 281474976710656 * 1000000000 + v / 65536 % 4294967296) * tNs + v % 65536 * 65536

/-- The 96-bit form of a time in 2^-32 ns; the fraction's lower 16 bits are dropped (R15). -/
def ltsForm (t : Nat) : Nat :=
  t / tSec * 281474976710656 + t / tNs % 1000000000 * 65536 + t % tNs / 65536

/-- The LTS operand in dwords i to i+2 of an entry (R141). -/
def cmdLts (c : Cmd) (i : Nat) : Nat := ltsOf (c.q i + 18446744073709551616 * c.w (i + 2))

/-- An offending position: dword, bit, and the byte offset for a fault in a block that the field points to (R77, R519). -/
structure Offence where
  dw : Nat
  bit : Nat
  blk : Option Nat := none

/-- Positions in the order of R77: lowest dword first, then lowest bit, then lowest byte of the block. -/
def Offence.key (o : Offence) : Nat := (o.dw * 32 + o.bit) * 4294967296 + o.blk.getD 0

/-- The lowest offence. -/
def minOff : List Offence → Option Offence
  | [] => none
  | o :: t => match minOff t with
    | none => some o
    | some p => if o.key ≤ p.key then some o else some p

/-- RESULT of an INVALID_FIELD completion (R77, R519). -/
def Offence.result (o : Offence) : Nat :=
  o.dw + o.bit * 256 + match o.blk with | none => 0 | some k => 8192 + k * 4294967296

/-- One offence where `bad`. -/
def off (i b : Nat) (bad : Bool) : List Offence := if bad then [{ dw := i, bit := b }] else []

/-- Lowest set bit, looking at bits below `n`. -/
def lowBit (v : Nat) : Nat → Nat
  | 0 => 0
  | n + 1 => if v % 2 = 1 then 0 else lowBit (v / 2) n + 1

/-- The bits of dword `i` that the fields of a command use. -/
def usedMask (fields : List (Nat × Nat × Nat)) (i : Nat) : Nat :=
  (fields.filter (·.1 == i)).foldl (fun a f => a ||| msk f.2.1 f.2.2) 0

/-- Reserved bits of dwords 4 to 15 that are set, for a command whose fields are (dword, high bit, low bit). -/
def resOffs (c : Cmd) (fields : List (Nat × Nat × Nat)) : List Offence :=
  (rangeFrom 4 12).flatMap fun i =>
    let v := c.w i &&& (0xFFFFFFFF ^^^ usedMask fields i)
    off i (lowBit v 32) (v ≠ 0)

/-- Dword 1: reserved bits, NEXT_POSSIBLE outside class 0x01, CLASS_FLAGS (no class defines any), and HANDLE for a
command that takes none (R74, Table 3-14). Reserved bits offend each for itself, CLASS_FLAGS as a field at bit 28 (R77). -/
def dw1Offs (c : Cmd) (handle : Bool) : List Offence :=
  off 1 0 (!handle && c.handle ≠ 0) ++ off 1 (20 + lowBit (c.f 1 23 20) 4) (c.f 1 23 20 ≠ 0)
    ++ off 1 26 (c.nextPossible && c.cls ≠ 1) ++ off 1 27 (c.b 1 27)
    ++ off 1 28 (c.f 1 31 28 ≠ 0)

/-- The offence of a command that the mode does not run or the queue does not take (R518). -/
def modeOff (ok : Bool) : List Offence := off 0 0 (!ok)

/-- The offences of a block that the address field at dword `i` points to, by lowest byte offsets (R519). -/
def blkOffs (i : Nat) (bytes : List Nat) : List Offence := bytes.map fun k => { dw := i, bit := 0, blk := some k }

/-- Bytes of a block outside the listed (offset, length) fields that are not 0. -/
def resBytes (blk : List Byte) (fields : List (Nat × Nat)) : List Nat :=
  (blk.zipIdx.filter fun e => e.1 ≠ 0 && !fields.any fun f => decide (f.1 ≤ e.2) && decide (e.2 < f.1 + f.2)).map (·.2)

/-- A little-endian number of `n` bytes at `o` of a block (R4). -/
def bn (blk : List Byte) (o n : Nat) : Nat := leNat ((blk.drop o).take n)

/-- Byte `o` of a block. -/
def b8 (blk : List Byte) (o : Nat) : Nat := (blk.getD o 0).toNat

/-- A signed 32-bit number at `o`. -/
def bi32 (blk : List Byte) (o : Nat) : Int := toSigned 32 (bn blk o 4)

/-- Offset `o` where `bad`. -/
def bad (o : Nat) (p : Bool) : List Nat := if p then [o] else []

end Sys2Proof.Machine
end

