-- ==== Sys2Proof/Machine/Ops.lean ====
section
/-! DEFINITION. The shared operations: registers, counters, memory, what leaves the block, records and interrupts, log
entries, and the fetching, checking and completing of commands (chapters 0, 2 and 3, R466). -/

namespace Sys2Proof

/-- Free slots of a ring (R88). -/
def Ring.free (r : Ring) : Nat := (r.head + 2 * r.slots - r.tail - 1) % r.slots

/-- Slots a record of `n` slots needs at the ring's tail, PAD included (R86). -/
def Ring.need (r : Ring) (n : Nat) : Nat := if r.tail + n ≤ r.slots then n else r.slots - r.tail + n

/-- Advance the tail past `n` slots, inverting PHASE at the wrap (R87). -/
def Ring.advance (r : Ring) (n : Nat) : Ring :=
  if r.tail + n < r.slots then { r with tail := r.tail + n } else { r with tail := 0, phase := !r.phase }

/-- Capture, Playback, Generator, Analyser. -/
def Mode.working : Mode → Bool
  | .capture | .playback | .generator | .analyser => true
  | _ => false

/-- The modes under driver control (R30). -/
def Mode.driver : Mode → Bool
  | .capture | .playback | .generator | .analyser | .service => true
  | _ => false

end Sys2Proof

namespace Sys2Proof.Machine

open Host

/-- The part operates: supplied, out of reset, and not shut down at critical temperature (R37, R441, R501, R503). -/
def Dev.on (d : Dev) : Bool := d.boot.powered && !d.boot.inReset && !d.boot.tripped

/-! ## Registers and counters -/

/-- The stored value of a BAR0 register. -/
def Dev.reg (d : Dev) (off : Nat) : Nat := (SMap.get 0 d.regs off).toNat ^^^ regReset off

/-- Store a BAR0 register. -/
def Dev.setReg (d : Dev) (off v : Nat) : Dev :=
  { d with regs := SMap.put 0 d.regs off (BitVec.ofNat 32 (v ^^^ regReset off)) }

/-- Bits [hi:lo] of a register. -/
def Dev.fld (d : Dev) (off hi lo : Nat) : Nat := bitsOf (d.reg off) hi lo

/-- A 64-bit register held in two words, low word first (R34). -/
def Dev.reg64 (d : Dev) (off : Nat) : Nat := d.reg off + 4294967296 * d.reg (off + 4)

/-- Put registers back to their reset values where `p` holds of the offset. -/
def Dev.resetRegs (d : Dev) (p : Nat → Bool) : Dev := { d with regs := SMap.keep (fun o => !p o) d.regs }

/-- A counter value after `n` more (R8): COUNT saturates at 2^31 − 1, and reaching it sets OVF, bit 31. -/
def satCount (v n : Nat) : Nat :=
  let c := v % 2147483648 + n
  if c < 2147483647 then v / 2147483648 * 2147483648 + c else 4294967295

/-- A counter without OVF after `n` more (R8). -/
def satFull (v n : Nat) : Nat := min 4294967295 (v + n)

/-- Count `n` in the counter at `off`. -/
def Dev.count (d : Dev) (off n : Nat) : Dev :=
  let v := SMap.get 0 d.ctrs off
  { d with ctrs := SMap.put 0 d.ctrs off (if inRows ctrFull off then satFull v n else satCount v n) }

/-- A value saturating at all-ones of `w` bits (R8). -/
def satW (w v : Nat) : Nat := min (2 ^ w - 1) v

/-! ## Features, mode, time, free values -/

/-- A negotiated feature (R55, Table 2-11). -/
def Dev.feat (d : Dev) (k : Nat) : Bool := d.hif.features.testBit k

/-- MODE.CONSERVATIVE (Table 2-9). -/
def Dev.conservative (d : Dev) : Bool := d.boot.mode == .freewheel || d.boot.mode == .service || d.feat 8
  || d.boot.mode == .kickstand

/-- The LTS in 2^-32 ns (R15, R376). -/
def Dev.now (d : Dev) : Nat := d.ntu.lts

/-- A free value, and the block after drawing it (log entry 11). -/
def Dev.draw (d : Dev) : Nat × Dev := (Config.freeNat d.free, { d with free := d.free + 1 })

/-! ## What leaves, and the memories -/

/-- Append what leaves. -/
def Dev.emit (d : Dev) (o : Out) : Dev := { d with out := d.out ++ [o] }

/-- HUB_MEM_NET (R408, R411). -/
def Dev.memNet (d : Dev) : Nat :=
  if d.hub.trained then
    let b := d.hub.installed * 536870912
    if d.hub.inlineEcc then b / 32 * 31 else b
  else 0

/-- A device-memory range outside 0 to HUB_MEM_NET − 1 (R408). -/
def Dev.devBad (d : Dev) (addr len : Nat) : Bool := decide (d.memNet < addr + len) || decide (d.memNet ≤ addr)

/-- Write bytes to a buffer in device memory or host memory. -/
def Dev.writeBuf (d : Dev) (dev : Bool) (addr : Nat) (bytes : List Byte) : Dev :=
  if dev then { d with mem := { d.mem with lpddr := Mem.wrN d.mem.lpddr addr bytes } }
  else if bytes.isEmpty then d else d.emit (.hostWrite addr bytes)

/-- A buffer whose content the spec calls undefined: free bytes in device memory, a notice for host memory (log entries
5 and 11). -/
def Dev.undefBuf (d : Dev) (dev : Bool) (addr len : Nat) : Dev :=
  if dev then
    let bs := (rangeFrom d.free len).map fun k => BitVec.ofNat 8 (Config.freeNat k)
    { d with free := d.free + len, mem := { d.mem with lpddr := Mem.wrN d.mem.lpddr addr bs } }
  else d.emit (.hostUndef addr len)

/-- Bytes of a block of `len` bytes with the given fields, 0 elsewhere. -/
def fieldBytes (len : Nat) (body : List Fld) : List Byte :=
  body.foldl (fun bs f => bs.take f.off ++ leBytes f.len f.val ++ bs.drop (f.off + f.len)) (List.replicate len 0)

/-- Write a block given by its fields. -/
def Dev.writeFields (d : Dev) (dev : Bool) (addr len : Nat) (body : List Fld) : Dev :=
  if dev then d.writeBuf true addr (fieldBytes len body) else d.emit (.hostFields addr len body)

/-! ## MSI-X -/

/-- Signal a vector: a message, or the pending bit while it is masked (R63, R83). -/
def Dev.signal (d : Dev) (v : Nat) : Dev :=
  let e := SMap.get {} d.hif.msix v
  if e.masked then { d with hif := { d.hif with msix := SMap.put {} d.hif.msix v { e with pending := true } } }
  else d.emit (.msix v e.addr e.data)

/-! ## Log and records -/

def Dev.ring (d : Dev) (n : Nat) : Ring := SMap.get {} d.hif.rings n

def Dev.setRing (d : Dev) (n : Nat) (r : Ring) : Dev :=
  { d with hif := { d.hif with rings := SMap.put {} d.hif.rings n r } }

/-- The live ring that takes a kind (R85). -/
def Dev.ringOf (d : Dev) (kind : Nat) : Option Nat :=
  (d.hif.rings.find? fun e => e.2.live && e.2.kinds.testBit kind).map (·.1)

/-- Form a log entry and append it to the MRAM log, oldest dropped beyond the slots (R466, Table 18-1). -/
def Dev.appendLog (d : Dev) (sev code frame page inst : Nat) (tag : Option Nat) (arg0 arg1 : Nat) : Dev × LogEntry :=
  let e : LogEntry := {
    seq := d.oms.logSeq, boot := d.oms.bootCount, sev := sev, code := code, frame := frame,
    time := d.now, page := page, inst := inst, tag := tag, arg0 := arg0, arg1 := arg1 }
  let l := d.oms.log ++ [e]
  ({ d with oms := { d.oms with
      log := if l.length ≤ Config.logSlots then l else l.drop (l.length - Config.logSlots)
      logSeq := (d.oms.logSeq + 1) % 4294967296
      period := d.oms.period + 1 } }, e)

/-- Read HEAD of a ring again: the host's memory is outside, so the value is free (log entry 5). A value of N or more is
a doorbell fault, which makes the ring FAULTED (R88, R520). -/
def Dev.rereadHead (d : Dev) (n : Nat) : Dev :=
  let (v, d) := d.draw
  let r := d.ring n
  let h := v % 65536
  if h < r.slots then d.setRing n { r with head := h } else d.setRing n { r with faulted := true }

/-- Host address of a ring's doorbell slot (Table 3-16). -/
def Dev.ringSlot (d : Dev) (n : Nat) : Nat := d.reg64 0x60 + 65536 + 16 * n

/-- A record is generated and dropped: SEQ advances, GAP is set on the next (R88). -/
def Dev.dropRecord (d : Dev) (n : Nat) : Dev :=
  let r := d.ring n
  d.setRing n { r with seq := (r.seq + 1) % 4294967296, gap := true }

/-- Post a record that fits: PAD first where it does not fit before the end (R86), then the record, then the vector
(R83). -/
def Dev.putRecord (d : Dev) (n : Nat) (rc : Rec) : Dev :=
  let r := d.ring n
  let dp := if r.tail + rc.slots ≤ r.slots then (d, r) else
    (d.emit (.record n r.tail {
        type := 0, slots := r.slots - r.tail, gap := false, phase := r.phase,
        seq := (r.seq + 4294967295) % 4294967296, frame := ones64, time := ltsForm d.now, page := 0, inst := 0, body := [] }),
     r.advance (r.slots - r.tail))
  let d := dp.1
  let r := dp.2
  let d := d.emit (.record n r.tail { rc with gap := r.gap, phase := r.phase, seq := r.seq })
  let r : Ring := { r.advance rc.slots with seq := (r.seq + 1) % 4294967296, gap := false, unsig := r.unsig + 1 }
  if r.aggCount ≤ r.unsig then (d.setRing n { r with unsig := 0 }).signal r.vector else d.setRing n r

/-- The ring takes a record of `n` slots by its cached HEAD. -/
def Dev.fits (d : Dev) (n slots : Nat) : Bool :=
  let r := d.ring n
  !r.faulted && decide (r.need slots ≤ r.free)

/-- The log entry that is due now: none where the second's 1,000 are used up (R467). -/
def Dev.logEntry (d : Dev) (sev code frame page inst : Nat) (tag : Option Nat) (arg0 arg1 : Nat) :
    Dev × Option LogEntry :=
  if Config.logPerSecond ≤ d.oms.period ∧ sev ≠ 3 then
    (({ d with oms := { d.oms with suppressed := d.oms.suppressed + 1 } }).count 0xE0014 1, none)
  else
    let de := d.appendLog sev code frame page inst tag arg0 arg1
    (de.1, some de.2)

/-- The record of a log entry (Table 18-4), its TIME in the 96-bit form (R28). -/
def LogEntry.record (e : LogEntry) : Rec := {
  type := 0x3000 + e.code, slots := 1, gap := false, phase := false, seq := 0, frame := e.frame, time := ltsForm e.time,
  page := e.page, inst := e.inst
  body := [⟨32, 4, e.seq⟩, ⟨36, 4, e.boot⟩, ⟨40, 1, e.sev⟩, ⟨41, 1, if e.tag.isSome then 1 else 0⟩, ⟨44, 4, e.arg0⟩,
    ⟨48, 8, e.tag.getD 0⟩, ⟨56, 8, e.arg1⟩] }

/-- Post the record of a log entry to the ring of kind 0x3, if one takes it. A HEAD re-read that faults this very ring
leaves a log entry of its own, whose record is dropped as well. -/
def Dev.postLog (d : Dev) (e : LogEntry) : Dev :=
  match d.ringOf 3 with
  | none => d
  | some n =>
    if d.fits n 1 then d.putRecord n (LogEntry.record e)
    else if (d.ring n).faulted then d.dropRecord n
    else
      let d := d.rereadHead n
      if d.fits n 1 then d.putRecord n (LogEntry.record e)
      else if (d.ring n).faulted then
        let de := d.logEntry 2 0x073 ones64 0 0 none (n + 6 * 4096 + 4 * 65536) (d.ringSlot n)
        let d := de.1.dropRecord n
        if de.2.isSome then d.dropRecord n else d
      else d.dropRecord n

/-- Write a log entry and post it as a record of kind 0x3 (R466, R467). -/
def Dev.log (d : Dev) (sev code arg0 arg1 : Nat) (page inst : Nat) (frame : Nat := ones64)
    (tag : Option Nat := none) : Dev :=
  let de := d.logEntry sev code frame page inst tag arg0 arg1
  match de.2 with
  | none => de.1
  | some e => de.1.postLog e

/-- A host access fails: AER report unless `err` is 4, and log entry 0x073 with the HOST_TAG of the command whose access
it is (R78, R89, R520, Table 19-7). -/
def Dev.dmaFault (d : Dev) (n access err addr : Nat) (tag : Option Nat := none) : Dev :=
  let d := if err = 4 then d else d.emit (.aer addr)
  d.log 2 0x073 (n + access * 4096 + err * 65536) addr 0 0 ones64 tag

/-- Generate a record for a ring: HEAD is read again where the cached one shows too little space; then it is posted, or
dropped with GAP set on the next, SEQ advancing either way (R88). -/
def Dev.toRing (d : Dev) (n : Nat) (rc : Rec) : Dev :=
  if d.fits n rc.slots then d.putRecord n rc
  else if (d.ring n).faulted then d.dropRecord n
  else
    let d := d.rereadHead n
    if d.fits n rc.slots then d.putRecord n rc
    else if (d.ring n).faulted then (d.dropRecord n).dmaFault n 6 4 (d.ringSlot n)
    else d.dropRecord n

/-- Post a record, its kind in bits 15:12 of the type (R85), with a TIME given in 2^-32 ns and sent in the 96-bit form
(R15, R28): not posted where no ring takes the kind. -/
def Dev.post (d : Dev) (type slots frame page inst : Nat) (body : List Fld) (time : Nat) : Dev :=
  match d.ringOf (type / 4096) with
  | none => d
  | some n => d.toRing n {
      type := type, slots := slots, gap := false, phase := false, seq := 0, frame := frame,
      time := ltsForm time, page := page, inst := inst, body := body }

/-! ## Status codes (Table 3-21) -/

abbrev stSuccess : Nat := 0x0000
abbrev stOutOfSpace : Nat := 0x1002
abbrev stRcFloor : Nat := 0x1003
abbrev stConcealed : Nat := 0x1004
abbrev stLockBroken : Nat := 0x1005
abbrev stAppliedLater : Nat := 0x1006
abbrev stNotPending : Nat := 0x1007
abbrev stInvalidOpcode : Nat := 0x2001
abbrev stInvalidField : Nat := 0x2002
abbrev stNoFeature : Nat := 0x2003
abbrev stOrderViolation : Nat := 0x2004
abbrev stLate : Nat := 0x2005
abbrev stQueueDeleted : Nat := 0x2006
abbrev stAborted : Nat := 0x2007
abbrev stInvalidHandle : Nat := 0x2008
abbrev stLockNotHeld : Nat := 0x2009
abbrev stAuthFailed : Nat := 0x200A
abbrev stRollback : Nat := 0x200B
abbrev stEngineBusy : Nat := 0x200C
abbrev stEngineReset : Nat := 0x3002
abbrev stEngineDown : Nat := 0x3003
abbrev stInternal : Nat := 0x3004
abbrev stThermal : Nat := 0x3005
abbrev stMediaError : Nat := 0x4001
abbrev stMediaAbsent : Nat := 0x4002
abbrev stBusNack : Nat := 0x4003
abbrev stArbLost : Nat := 0x4004
abbrev stStuckLow : Nat := 0x4005
abbrev stStretchTimeout : Nat := 0x4006
abbrev stPec : Nat := 0x4007
abbrev stBitstream : Nat := 0x4008
abbrev stStretchViolation : Nat := 0x4009
abbrev stMediaTimeout : Nat := 0x400A
abbrev stLinkDown : Nat := 0x400B
abbrev stHostDma : Nat := 0x400C

/-! ## Queue pairs and completions -/

def Dev.qp (d : Dev) (q : Nat) : QP := SMap.get {} d.hif.queues q

def Dev.setQp (d : Dev) (q : Nat) (p : QP) : Dev :=
  { d with hif := { d.hif with queues := SMap.put {} d.hif.queues q p } }

/-- The fetched, uncompleted command that a row names. -/
def Dev.cmd? (d : Dev) (r : CmdRef) : Option Cmd := d.hif.cmds.find? fun c => c.qid == r.qid && c.cid == r.cid

/-- HOST_TAG of a fetched, uncompleted command (R78). -/
def Dev.tagOf (d : Dev) (r : CmdRef) : Option Nat := (d.cmd? r).map (·.tag)

/-- Drop a command's context. -/
def Dev.dropCmd (d : Dev) (r : CmdRef) : Dev :=
  { d with hif := { d.hif with cmds := d.hif.cmds.filter fun c => !(c.qid == r.qid && c.cid == r.cid) } }

/-- Mark a command begun (R72). -/
def Dev.begin (d : Dev) (r : CmdRef) : Dev :=
  { d with hif := { d.hif with
      cmds := updFirst (fun c => c.qid == r.qid && c.cid == r.cid) (fun c => { c with begun := true }) d.hif.cmds } }

/-- Write a completion entry of a live queue pair and signal its vector: at once for a status of class 3 or 4 (R84),
else by AGG_COUNT (R83). After a failed CQ write it is discarded; a pair FAULTED otherwise still completes what it has
fetched (Table 3-24). -/
def Dev.postCompletion (d : Dev) (q cid status result : Nat) : Dev :=
  let p := d.qp q
  if !p.live || p.cqLost then d else
  let d := d.emit (.completion q p.cqTail result p.head cid p.phase status)
  let wrap := decide (p.depth ≤ p.cqTail + 1)
  let p := { p with
    cqTail := if wrap then 0 else p.cqTail + 1, phase := if wrap then !p.phase else p.phase, unsig := p.unsig + 1 }
  if p.aggCount ≤ p.unsig || decide (0x3000 ≤ status) then (d.setQp q { p with unsig := 0 }).signal p.vector
  else d.setQp q p

/-- The first queue operation that waits for a command: what is left, what it counts (R92, R93). -/
def Dev.dropWait (d : Dev) (r : CmdRef) (flushed : Bool) : Dev :=
  let upd := fun o : QueueOp => if o.qid == r.qid && o.left.contains r.cid then
      { o with left := o.left.filter (· != r.cid), count := o.count + (if flushed then 1 else 0) }
    else o
  { d with hif := { d.hif with queueOps := d.hif.queueOps.map upd } }

/-- A command completes exactly once (R94): its context goes and its completion is posted, or is not where its queue
is being deleted (R92). -/
def Dev.complete (d : Dev) (r : CmdRef) (status result : Nat) : Dev :=
  match d.cmd? r with
  | none => d
  | some c =>
    let f := c.fail.getD (status, result)
    let d := d.dropCmd r
    let d := d.dropWait r (f.1 == stQueueDeleted || (d.qp r.qid).deleting)
    d.postCompletion r.qid r.cid f.1 f.2

/-- RESET_QP and DELETE_QP complete once all they wait for has ended (R92, R93). -/
def Dev.settleQueueOps (d : Dev) : Dev :=
  let done := d.hif.queueOps.filter (·.left.isEmpty)
  let d := { d with hif := { d.hif with queueOps := d.hif.queueOps.filter fun o => !o.left.isEmpty } }
  done.foldl (fun d o =>
    let d := if o.delete then d.setQp o.qid {} else d
    d.complete o.ref stSuccess (satW 32 o.count)) d

/-- Complete and let waiting queue operations settle. -/
def Dev.finish (d : Dev) (r : CmdRef) (status result : Nat) : Dev := (d.complete r status result).settleQueueOps

/-- Complete several commands in order. -/
def Dev.finishAll (d : Dev) (rs : List CmdRef) (status result : Nat) : Dev :=
  rs.foldl (fun d r => d.finish r status result) d

/-- Whether a command may begin by ORDERED and FENCE (R72). -/
def Dev.mayBegin (d : Dev) (c : Cmd) : Bool :=
  let earlier := d.hif.cmds.filter fun e => e.qid == c.qid && decide (e.num < c.num)
  if c.ordered || c.fence then earlier.isEmpty else !earlier.any (·.ordered)

/-! ## Checking a command (R74) -/

/-- What the checks of a command's class chapter are. -/
structure CmdSpec where
  cls : Nat
  opc : Nat
  /-- the feature it needs is negotiated -/
  feat : Dev → Cmd → Bool := fun _ _ => true
  /-- its handle is live and of the kind it needs -/
  handle : Dev → Cmd → Bool := fun _ _ => true
  /-- its offending fields, mode and queue included -/
  offs : Dev → Cmd → List Offence
  /-- where what it queues is taken in fetch order: a command of the row queues beside this one (R176, R216, R241) -/
  beside : Cmd → Cmd → Bool := fun _ _ => false

/-- The first failure of the checks in the order of R74, after the opcode: status and RESULT. -/
def CmdSpec.verdict (sp : CmdSpec) (d : Dev) (c : Cmd) : Option (Nat × Nat) :=
  if !sp.feat d c then some (stNoFeature, 0)
  else if !sp.handle d c then some (stInvalidHandle, 0)
  else (minOff (sp.offs d c)).map fun o => (stInvalidField, o.result)

/-- A command of the row that queues beside this one was fetched before it and has not begun: it is taken first. -/
def Dev.ahead (d : Dev) (sp : CmdSpec) (c : Cmd) : Bool :=
  d.hif.cmds.any fun e => e.cls == c.cls && e.opc == c.opc && decide (e.num < c.num) && !e.begun && sp.beside e c

/-- Two commands agree in bits [hi:lo] of dword 4. -/
def sameIn (hi lo : Nat) (e c : Cmd) : Bool := e.f 4 hi lo == c.f 4 hi lo

/-- The command that a row names, where it is of that row, has not begun, may begin, and is next in fetch order. -/
def Dev.ready? (d : Dev) (sp : CmdSpec) (r : CmdRef) : Option Cmd :=
  match d.cmd? r with
  | none => none
  | some c => if c.cls = sp.cls ∧ c.opc = sp.opc ∧ !c.begun ∧ d.mayBegin c ∧ !d.ahead sp c then some c else none

/-- Run a fetched command: nothing where it is not ready (log entries 2 and 3); the checks again as it begins (log
entry 4); then its effect. -/
def runCmd (sp : CmdSpec) (r : CmdRef) (eff : Cmd → Dev → Dev) (d : Dev) : Dev :=
  match d.ready? sp r with
  | none => d
  | some c => match sp.verdict d c with
    | some (st, res) => d.finish r st res
    | none => eff c d

/-- Run a fetched command that points to a block in memory: `addr` is the dword of its address field, `offs` the
offending bytes of the block (R519). -/
def runBlk (sp : CmdSpec) (addr : Nat) (offs : Dev → Cmd → List Nat) (r : CmdRef) (eff : Cmd → Dev → Dev)
    (d : Dev) : Dev :=
  runCmd sp r (fun c d => match minOff (blkOffs addr (offs d c)) with
    | some o => d.finish r stInvalidField o.result
    | none => eff c d) d

/-- Fail a command for a set-up register fault (R518: RESULT 4). -/
def Dev.setupFault (d : Dev) (r : CmdRef) : Dev := d.finish r stInvalidField 4

/-! ## Engines -/

/-- Engine number of MGMT_ENGINE_LOAD that an engine code belongs to: CODEC, LSE, REC, SNI (R459, R482). -/
def codeGroup (code : Nat) : Option Nat :=
  if 0x28 ≤ code ∧ code < 0x2E then some 0
  else if 0x30 ≤ code ∧ code < 0x34 then some 1
  else if code = 0x38 then some 2
  else if 0x40 ≤ code ∧ code < 0x44 then some 4
  else none

/-- Engine `e` has no code (R459). -/
def Dev.noCode (d : Dev) (e : Nat) : Bool := (SMap.get {} d.oms.code e).src == 255

/-- Disabled, or without code, not merely in reset; `island` is its island of Table 17-1. -/
def Dev.engOff (d : Dev) (code island : Nat) : Bool :=
  d.pwr.disabled.contains island || (codeGroup code).any d.noCode

/-- An engine is in reset, Disabled, or has no code (R459, R484). -/
def Dev.engDown (d : Dev) (code island : Nat) : Bool :=
  d.eng.resets.any (·.code == code) || d.engOff code island

/-- A token crosses a point (R478): not while the point is frozen and has no release left. `none`: it waits there. -/
def Dev.tokPass (d : Dev) (pt : Nat) : Option Dev :=
  let b := d.dbg
  if !b.frozen || b.point != pt then some d
  else if b.credits = 0 then none
  else some { d with dbg := { b with credits := b.credits - 1, released := satW 16 (b.released + 1), waits := false } }

/-- A token crosses the points of a list, at most one of which is frozen; it waits there with TOK_STS set. -/
def Dev.tokCross (d : Dev) (pts : List Nat) (f : Dev → Dev) : Dev :=
  match pts.find? fun p => d.dbg.frozen && d.dbg.point == p with
  | none => f d
  | some p => match d.tokPass p with
    | some d => f d
    | none => { d with dbg := { d.dbg with waits := true } }

/-- Run a command of class 0x09: ENGINE_DOWN while NTU has no code (R459). -/
def ntuCmd (sp : CmdSpec) (r : CmdRef) (eff : Cmd → Dev → Dev) (d : Dev) : Dev :=
  runCmd sp r (fun c d => if d.noCode 3 then d.finish r stEngineDown 0 else eff c d) d

/-! ## The end of a change of mode (R60), and the meanings -/

/-- The work that a SET_MODE outside the takeover ended is over. -/
def Dev.modeSettled (d : Dev) (m : ModeChange) : Bool :=
  (m.ports.all fun p => (SMap.get {} d.sni.ports p).state == .stopped)
    && (m.spks.all fun n => (SMap.get {} d.spk.spk n).state == .stopped)
    && (m.units.all fun u => !(SMap.get {} d.stu.units u).running)
    && (!m.mp || (SMap.get {} d.sni.ports 4).mpRun.isNone)
    && m.cmds.all fun r => (d.cmd? r).isNone

/-- RESULT of SET_MODE (Table 2-19). -/
def modeResult (m : ModeChange) : Nat := m.firstTag + m.old * 2 ^ 32 + m.new * 2 ^ 36

/-- SET_MODE completes once the last of that work has ended. -/
def Dev.settleMode (d : Dev) : Dev :=
  match d.hif.modeChange with
  | none => d
  | some m => if d.modeSettled m then
      ({ d with hif := { d.hif with modeChange := none } }).finish m.ref stSuccess (modeResult m) else d

/-- Every meaning acts on the block alone and leaves the queue of waiting commands as it is. -/
def liftAny (f : Dev → Dev) (s : State) : Outcome State Fault Refusal := .next { s with dev := f s.dev }

/-- A meaning that acts while the part operates: otherwise nothing happens (log entry 2). -/
def lift (f : Dev → Dev) (s : State) : Outcome State Fault Refusal :=
  liftAny (fun d => if d.on then (f d).settleMode else d) s

end Sys2Proof.Machine
end

