-- ==== Sys2Proof/Machine/Setup.lean ====
section
/-! DEFINITION. The set-up window: when a block's SW fields take writes (R36 and each chapter), and a BAR0 write by
access code (R6, R7, R34, R35, R55). -/

namespace Sys2Proof.Machine

def Dev.port (d : Dev) (p : Nat) : Port := SMap.get {} d.sni.ports p

def Dev.setPort (d : Dev) (p : Nat) (v : Port) : Dev :=
  { d with sni := { d.sni with ports := SMap.put {} d.sni.ports p v } }

/-- A port counts as stopped (R118): stopped, or streaming through a function reset. -/
def Dev.portStopped (d : Dev) (p : Nat) : Bool := (d.port p).state == .stopped || (d.port p).survives

/-- A raw source is stopped (R175): a port under R118, MP while no MP_FRAME is queued or running. -/
def Dev.srcStopped (d : Dev) (s : Nat) : Bool :=
  if s < 4 then d.portStopped s
  else if s = 4 then !d.hif.cmds.any fun c => c.cls == 1 && c.opc == 0x20
  else true

/-- SNI_CTL.GANG: the ports it joins, first port and count (Table 4-9). -/
def gangPorts : Nat → List (Nat × Nat)
  | 1 => [(0, 2)]
  | 2 => [(0, 2), (2, 2)]
  | 3 => [(0, 4)]
  | _ => []

/-- The ports that GANG `g` joins. -/
def gangJoined (g : Nat) : List Nat := (gangPorts g).flatMap fun e => rangeFrom e.1 e.2

/-- The gang of port `p`: its primary and how many ports (1 outside a gang). -/
def Dev.gangOf (d : Dev) (p : Nat) : Nat × Nat :=
  ((gangPorts (d.fld 0x20400 1 0)).find? fun e => decide (e.1 ≤ p) && decide (p < e.1 + e.2)).getD (p, 1)

def Dev.spkOf (d : Dev) (n : Nat) : Spk := SMap.get {} d.spk.spk n

def Dev.setSpk (d : Dev) (n : Nat) (s : Spk) : Dev :=
  { d with spk := { d.spk with spk := SMap.put {} d.spk.spk n s } }

/-- A sprocket is stopped and not the firmware's pilot (R221). -/
def Dev.spkStopped (d : Dev) (n : Nat) : Bool := (d.spkOf n).state == .stopped && !(n == 0 && d.boot.pilot.isSome)

/-- Open encode and decode sessions. -/
def Dev.codecOpen (d : Dev) : Nat :=
  (d.codec.enc.filter (·.2.isSome)).length + (d.codec.dec.filter (·.2.isSome)).length

/-- The source that a RFE_SPOKE_MAP nibble names is stopped; an unassigned spoke counts as stopped (R175). -/
def Dev.nibbleStopped (d : Dev) (v : Nat) : Bool := d.srcStopped v

/-- Bits of RFE_SPOKE_MAP that take the write `v`: each field is judged on its own (R175). -/
def Dev.spokeMask (d : Dev) (off v : Nat) : Nat :=
  (rangeFrom 0 8).foldl (fun m k =>
    if d.nibbleStopped (d.fld off (4 * k + 3) (4 * k)) && d.nibbleStopped (bitsOf v (4 * k + 3) (4 * k)) then
      m + 15 * 2 ^ (4 * k) else m) 0

/-- Set-up state of the HIF page: DRV_FEATURES by R55, the rest by R65. -/
def Dev.hifSetup (d : Dev) (off : Nat) : Bool :=
  if off < 0x40 then d.hif.neg != 1 && d.hif.neg != 2 else !d.hif.ready

/-- Set-up state of the SNI page (R118); SNI_CTL while every port joined before or after the write is stopped. -/
def Dev.sniSetup (d : Dev) (o v : Nat) : Bool :=
  if o < 0x400 then d.portStopped (o / 0x100)
  else if o = 0x400 then (gangJoined (d.fld 0x20400 1 0) ++ gangJoined (v % 4)).all d.portStopped
  else d.portStopped ((o - 0x800) / 8)

/-- Set-up state of the CBE/SPK page (R203, R221). -/
def Dev.spkSetup (d : Dev) (o : Nat) : Bool :=
  if o < 0x1000 then d.srcStopped (o / 0x40) else d.spkStopped ((o - 0x1000) / 0x100)

/-- Set-up state of the STU page (R243). -/
def Dev.stuSetup (d : Dev) (o : Nat) : Bool :=
  if o < 0x400 then d.srcStopped (o / 0x40) else !(SMap.get {} d.stu.units ((o - 0x400) / 0x20)).running

def Dev.ctl (d : Dev) (c : Nat) : TwCtl := SMap.get {} d.tw.ctl c

def Dev.setCtl (d : Dev) (c : Nat) (v : TwCtl) : Dev := { d with tw := { d.tw with ctl := SMap.put {} d.tw.ctl c v } }

/-- BAR0 offset of a target-table entry's TGT_A (Table 15-4). -/
def tgtOff (c e : Nat) : Nat := 0xC0000 + 0x1000 * c + 0x100 + 0x10 * e

/-- A controller is disabled or STUCK (R402, R405). -/
def Dev.twOff (d : Dev) (c : Nat) : Bool := (d.ctl c).state == .disabled || (d.ctl c).state == .stuck

/-- Set-up state of the TW page (R405): TW_CFG while the controller is disabled or STUCK, an entry while EN is 0. -/
def Dev.twSetup (d : Dev) (o : Nat) : Bool :=
  if o % 0x1000 < 0x100 then d.twOff (o / 0x1000)
  else !(d.reg (tgtOff (o / 0x1000) ((o % 0x1000 - 0x100) / 0x10))).testBit 7

/-- A pending class 0x0B command or exposure program names the entry (R405). -/
def Dev.entryNamed (d : Dev) (c e : Nat) : Bool :=
  (d.hif.cmds.any fun k => k.cls == 0x0B && k.opc == 0x10 && k.f 4 2 0 == c && k.f 4 12 8 == e)
    || (rangeFrom 0 4).any fun p =>
      (d.fld (0x20010 + 0x100 * p) 15 13) == c
        && ((d.port p).programs ++ (d.port p).waiting).any fun g => g.writes.any (·.entry == e)

def Dev.raster (d : Dev) (k : Nat) : Raster := SMap.get {} d.sco.rasters k

def Dev.setRaster (d : Dev) (k : Nat) (v : Raster) : Dev :=
  { d with sco := { d.sco with rasters := SMap.put {} d.sco.rasters k v } }

/-- Register `o` of a running raster's page as latched; the standby raster's follow the straps (R42, R43, R364). -/
def Dev.scoReg (d : Dev) (k o : Nat) : Nat :=
  let r := d.raster k
  if r.ks then ksReg d.boot.straps.fmt.toNat d.boot.straps.pat d.boot.refLocked k o
  else (SMap.get 0 r.latched o).toNat

/-- Bits [hi:lo] of it. -/
def Dev.scoFld (d : Dev) (k o hi lo : Nat) : Nat := bitsOf (d.scoReg k o) hi lo

/-- The running raster that drives DisplayPort transmitter `j`. -/
def Dev.dpRaster (d : Dev) (j : Nat) : Option Nat :=
  (rangeFrom 0 4).find? fun k => (d.raster k).run && (d.scoReg k 0).testBit (24 + j)

def Dev.sdiIn (d : Dev) (i : Nat) : SdiIn := SMap.get {} d.sco.sdi i

/-- Set-up state of the SCO page (R364). -/
def Dev.scoSetup (d : Dev) (o : Nat) : Bool :=
  if o < 0x400 then !(d.raster (o / 0x100)).run
  else if o < 0xC00 then (d.dpRaster ((o - 0x800) / 0x20)).isNone
  else !(d.sdiIn ((o - 0xC00) / 0x40)).run

/-! ## Time and the network ports -/

def Dev.dom (d : Dev) (k : Nat) : Dom := SMap.get {} d.ntu.doms k

def Dev.setDom (d : Dev) (k : Nat) (v : Dom) : Dev := { d with ntu := { d.ntu with doms := SMap.put {} d.ntu.doms k v } }

def Dev.eth (d : Dev) (p : Nat) : Eth := SMap.get {} d.ntu.ports p

def Dev.setEth (d : Dev) (p : Nat) (v : Eth) : Dev :=
  { d with ntu := { d.ntu with ports := SMap.put {} d.ntu.ports p v } }

def Dev.setPel (d : Dev) (v : Pel) : Dev := { d with ntu := { d.ntu with pel := v } }

/-- Ethernet port `p` has link: the port is up (R217). -/
def Dev.ethLink (d : Dev) (p : Nat) : Bool := (d.eth p).link

/-- NTU_DOM_CFG of domain `k`, bits [hi:lo] (Table 14-6). -/
def Dev.domCfg (d : Dev) (k hi lo : Nat) : Nat := d.fld (0xA0200 + 0x40 * k) hi lo

/-- The domain that the LTS follows: the selected one while it is started and its link has not dropped (R376). -/
def Dev.ltsFollows (d : Dev) : Option Nat :=
  if d.ntu.sel < 2 ∧ (d.dom d.ntu.sel).role ≠ 0 ∧ !d.ntu.held then some d.ntu.sel else none

/-- Any sensor port is in scheduled mode (R29). -/
def Dev.anyScheduled (d : Dev) : Bool := (rangeFrom 0 4).any fun p => (d.port p).scheduled

/-- Set-up state of the NTU page (R386). -/
def Dev.ntuSetup (d : Dev) (o : Nat) : Bool :=
  if o < 0x100 then !(d.eth (o / 0x40)).up
  else if o < 0x200 then !(d.eth 0).up && !(d.eth 1).up
  else (d.dom ((o - 0x200) / 0x40)).role == 0

/-- A message leaves an Ethernet port, tagged where VLAN_EN is set (R368, Table 14-6). -/
def Dev.netOut (d : Dev) (p : Nat) (m : NetMsg) : Dev :=
  let o := 0xA0000 + 0x40 * p
  d.emit (.net p (if d.fld o 8 8 = 1 then some (d.fld o 14 12 * 8192 + d.fld o 27 16) else none) m)

/-! ## Writes -/

/-- Write of HUB_PORT_CFG: LEVEL 0 for a port that is not fixed at it is ignored (R414, Table 16-10). -/
def hubLevelMask (off v sw : Nat) : Nat := if 0x10100 ≤ off ∧ sw.testBit 0 ∧ v % 4 = 0 then sw - 3 else sw

/-- SW bits of a register that take the write `v` now (R36). -/
def Dev.swMask (d : Dev) (off v : Nat) (sw : Nat) : Nat :=
  let o := off % 65536
  let ok := match off / 65536 with
    | 0 => d.hifSetup o
    | 1 => !d.hif.ready
    | 2 => d.sniSetup o v
    | 3 => d.srcStopped ((o - 0x100) / 0x40)
    | 4 => d.spkSetup o
    | 5 => d.stuSetup o
    | 6 => d.codecOpen == 0
    | 7 => d.lse.sessions.isEmpty && d.lse.raw.isEmpty
    | 8 => d.recd.vols.all fun e => e.2.state != 1
    | 9 => d.scoSetup o
    | 10 => d.ntuSetup o
    | 11 => !d.teu.enabled.testBit (o / 4)
    | 12 => d.twSetup o
    | 13 => !d.hif.ready
    | _ => true
  if off = 0x30000 ∨ off = 0x30004 then d.spokeMask off v else if !ok then 0
  else if off / 65536 = 1 then hubLevelMask off v sw else sw

/-- Raise a flag in SETUP_FLAGS with the page of the access (Table 2-17). -/
def Dev.setupFlag (d : Dev) (bit off : Nat) : Dev :=
  d.setReg 0x38 ((d.reg 0x38 % 16 ||| 2 ^ bit) + off / 65536 % 16 * 65536)

/-- A 32-bit write to BAR0 by access code (R6, R7, R35). -/
def Dev.writeReg (d : Dev) (off v : Nat) : Dev :=
  if off / 65536 = 15 then d.setupFlag 3 off
  else match regAt off with
    | none => if isCtr off then d else d.setupFlag 2 off
    | some r =>
      let old := d.reg off
      let m := d.swMask off v r.sw
      let barred := off / 65536 = 12 ∧ r.rw ≠ 0 ∧ old.testBit 7 ∧ !v.testBit 7
        ∧ d.entryNamed (off % 65536 / 0x1000) ((off % 0x1000 - 0x100) / 0x10)
      let set := m ||| (if barred then 0 else r.rw)
      let new := ((old &&& (0xFFFFFFFF ^^^ set)) ||| (v &&& set)) &&& (0xFFFFFFFF ^^^ (v &&& r.w1c))
      let d := d.setReg off new
      if barred ∨ (old ^^^ v) &&& (r.sw &&& (0xFFFFFFFF ^^^ m)) ≠ 0 then d.setupFlag 0 off else d

end Sys2Proof.Machine
end

