-- ==== Sys2Proof/Machine/Host.lean ====
section
/-! DEFINITION. Negotiation, HIF enable, doorbells, watch words and interrupts (chapters 2 and 3). -/

namespace Sys2Proof.Machine

open Host

/-! ## Negotiation (R53 to R56) -/

/-- DEV_FEATURES, 128 bits (R53, Table 2-10). -/
def Dev.offered (d : Dev) : Nat :=
  match d.boot.stage with
  | .freewheel | .driver => 0xFFFFF
  | _ => 0

/-- DRV_FEATURES as written, 128 bits. -/
def Dev.requested (d : Dev) : Nat :=
  d.reg 0x20 + 2 ^ 32 * d.reg 0x24 + 2 ^ 64 * d.reg 0x28 + 2 ^ 96 * d.reg 0x2C

/-- The feature that a feature bit requires (Table 2-11). -/
def featRequires : Nat → Option Nat
  | 6 => some 4
  | 8 => some 7
  | _ => none

/-- The first bit from `k` up, of `n`, that is set and fails: the bit and the reason (R54). -/
def firstBad (offered drv : Nat) : Nat → Nat → Option (Nat × Nat)
  | _, 0 => none
  | k, n + 1 =>
    if drv.testBit k then
      if !offered.testBit k then some (k, 0)
      else if (featRequires k).any (fun r => !drv.testBit r) then some (k, 1)
      else firstBad offered drv (k + 1) n
    else firstBad offered drv (k + 1) n

/-- Training starts on the enabled storage ports: their slots leave EMPTY where a drive is present (R319). -/
def Dev.trainPorts (d : Dev) (ports : Nat) : Dev :=
  let bifur := d.fld 0x80000 7 4
  let slots := (rangeFrom 0 8).filter fun s => ports.testBit (s / 2) && (s % 2 == 0 || bifur.testBit (s / 2))
  let train := fun (m : SMap Slot) s =>
    let v := SMap.get {} m s
    if v.state == .empty && v.present then SMap.put {} m s { v with state := .training, portOff := false } else m
  { d with recd := { d.recd with slots := slots.foldl train d.recd.slots } }

/-- Evaluate a committed set (R54, R55); accepted, it takes effect, inline ECC with it (R411). -/
def Dev.evalCommit (d : Dev) (drv : Nat) : Dev :=
  match firstBad d.offered drv 0 128 with
  | some (b, r) => { d with hif := { d.hif with neg := 3, reason := r, badBit := b } }
  | none =>
    let ecc := drv.testBit 19
    let d := { d with
      hif := { d.hif with neg := 2, reason := 0, badBit := 0, features := drv }
      hub := { d.hub with inlineEcc := ecc }
      mem := if ecc == d.hub.inlineEcc then d.mem else { d.mem with lpddr := [] } }
    if drv.testBit 7 then d.trainPorts (d.fld 0x80000 3 0) else d

/-- A write of COMMIT (Table 2-13): ignored while BUSY or ACCEPTED, flagged when ACCEPTED (R55); while the stage is
BOOTING it waits with the value found (R53). -/
def Dev.commitWrite (d : Dev) : Dev :=
  if d.hif.neg = 2 then d.setupFlag 0 0x30
  else if d.hif.neg = 1 then d
  else if d.boot.stage = .booting then
    { d with hif := { d.hif with neg := 1, reason := 0, badBit := 0, sampled := d.requested } }
  else d.evalCommit d.requested

/-- COMMIT (R54). -/
def execCommit (s : State) : Outcome State Fault Refusal := lift Dev.commitWrite s

/-! ## HIF enable (R65 to R68) -/

/-- A check of ENABLE on the context store: it lies in installed memory and its sizes are allowed (R66, Table 3-11), or
has the one form of the recovery case (R68). -/
def Dev.ctxBad (d : Dev) : Bool :=
  let ctx := d.fld 0x4C 4 0
  let cmd := d.fld 0x4C 12 8
  let base := d.reg64 0x68
  if !d.hub.trained then !(ctx == 12 && cmd == 8)
  else base == 0 || bitsOf base 19 12 != 0 || !(decide (8 ≤ cmd) && decide (cmd ≤ 16) && decide (cmd < ctx))
    || !(decide (12 ≤ ctx) && decide (ctx ≤ if d.feat 15 then 20 else 16)) || d.devBad base (128 * 2 ^ ctx)

/-- CFG_ERR of an ENABLE, 0 where every check passes, in the order of the codes (R66). -/
def Dev.enableErr (d : Dev) : Nat :=
  if d.hif.neg ≠ 2 then 1
  else if d.reg64 0x50 = 0 then 2
  else if d.reg64 0x58 = 0 then 3
  else if d.reg64 0x60 = 0 then 4
  else if d.ctxBad then 5
  else if d.fld 0x48 11 0 = 0 then 6
  else 0

/-- QP0 as ENABLE makes it live (R67). -/
def Dev.adminQp (d : Dev) : QP := {
  live := true, depth := d.fld 0x48 11 0 + 1, sqBase := d.reg64 0x50, cqBase := d.reg64 0x58 }

/-- A write to HIF_CTL: WATCH_HOLD as an SW field; ENABLE 1 runs the checks (R65 to R68). -/
def Dev.hifCtlWrite (d : Dev) (v : Nat) : Dev :=
  if d.hif.ready then
    if bitsOf v 25 16 = d.fld 0x40 25 16 ∧ v.testBit 0 then d else d.setupFlag 0 0x40
  else
    let d := d.setReg 0x40 (bitsOf v 25 16 * 65536)
    if !v.testBit 0 then d
    else match d.enableErr with
      | 0 =>
        let d := { d with hif := { d.hif with ready := true, recovery := !d.hub.trained, cfgErr := 0 } }
        d.setQp 0 d.adminQp
      | e => { d with hif := { d.hif with cfgErr := e } }

/-- HIF_CTL_ENABLE (R66). -/
def execHifCtlEnable (v : Word) (s : State) : Outcome State Fault Refusal := lift (fun d => d.hifCtlWrite v.toNat) s

/-! ## Doorbells and watch words (R64, R79 to R82, R520) -/

/-- Host address of a queue pair's doorbell slot (Table 3-16). -/
def Dev.slotAddr (d : Dev) (q : Nat) : Nat := d.reg64 0x60 + 16 * q

/-- A queue pair becomes FAULTED (R89, R520). -/
def Dev.faultQp (d : Dev) (q : Nat) : Dev := d.setQp q { d.qp q with faulted := true }

/-- Set WATCH to `v`, writing the host's word where it changes. -/
def Dev.setWatch (d : Dev) (q : Nat) (v : Bool) : Dev :=
  let p := d.qp q
  if p.watch = v then d else (d.setQp q { p with watch := v }).emit (.watch q v)

/-- Take the values read from a slot (R520): out of range, the queue pair faults and the values are not used. New
entries set WATCH where DOORBELL_WATCH is negotiated (R79, R82). -/
def Dev.takeSlot (d : Dev) (q : Nat) (sl : DbSlot) : Dev :=
  let p := d.qp q
  let t := bitsOf sl.sqTail.toNat 15 0
  let h := bitsOf sl.cqHead.toNat 15 0
  if p.depth ≤ t ∨ p.depth ≤ h then (d.faultQp q).dmaFault q 6 4 (d.slotAddr q)
  else
    let d := d.setQp q { p with tail := t, cqHead := h }
    if t ≠ p.tail ∧ d.feat 16 then d.setWatch q true else d

/-- The slot of a live queue pair that is not FAULTED is read; otherwise nothing happens. -/
def Dev.readSlot (d : Dev) (q : Nat) (sl : DbSlot) : Dev :=
  if (d.qp q).live && !(d.qp q).faulted then d.takeSlot q sl else d

/-- KICK (R64): ignored for a queue pair that is not live. -/
def execKick (qid : Nat) (slot : DbSlot) (s : State) : Outcome State Fault Refusal := lift (fun d => d.readSlot qid slot) s

/-- DOORBELL_POLL (R79): only while WATCH is set. -/
def execDoorbellPoll (qid : Nat) (slot : DbSlot) (s : State) : Outcome State Fault Refusal :=
  lift (fun d => if (d.qp qid).watch then d.readSlot qid slot else d) s

/-- A queue pair is idle: no uncompleted command, no entry left to fetch (R79). -/
def Dev.idleQp (d : Dev) (q : Nat) : Bool := (d.qp q).head == (d.qp q).tail && !d.hif.cmds.any (·.qid == q)

/-- Clear WATCH, read it back, read the slot again, and set WATCH again if either index has changed (R80). -/
def Dev.clearWatch (d : Dev) (q : Nat) (sl : DbSlot) : Dev :=
  let p := d.qp q
  let d := d.setWatch q false
  let d := d.readSlot q sl
  let p' := d.qp q
  if !p'.faulted && (p'.tail != p.tail || p'.cqHead != p.cqHead) then d.setWatch q true else d

/-- WATCH_CLEAR (R80): after WATCH_HOLD of idleness. -/
def execWatchClear (qid : Nat) (slot : DbSlot) (s : State) : Outcome State Fault Refusal :=
  lift (fun d => if (d.qp qid).live && (d.qp qid).watch && d.idleQp qid then d.clearWatch qid slot else d) s

/-! ## Interrupts (R83, R84) -/

/-- AGG_TIME after the first unsignalled entry of a CQ (R83). -/
def Dev.coalesceQp (d : Dev) (q : Nat) : Dev :=
  let p := d.qp q
  if p.live && decide (0 < p.unsig) && decide (0 < p.aggTime) then (d.setQp q { p with unsig := 0 }).signal p.vector
  else d

/-- AGG_TIME after the first unsignalled record of a ring (R83). -/
def Dev.coalesceRing (d : Dev) (n : Nat) : Dev :=
  let r := d.ring n
  if r.live && decide (0 < r.unsig) && decide (0 < r.aggTime) then (d.setRing n { r with unsig := 0 }).signal r.vector
  else d

/-- COALESCE_TIMEOUT (R83). -/
def execCoalesceTimeout (ring : Bool) (n : Nat) (s : State) : Outcome State Fault Refusal :=
  lift (fun d => if ring then d.coalesceRing n else d.coalesceQp n) s

/-- An access is good (R34): 32 bits aligned to 4, or 64 bits aligned to 8. -/
def goodAccess (off size : Nat) : Bool := (size == 4 && off % 4 == 0) || (size == 8 && off % 8 == 0)

/-- Word `i` of an MSI-X table entry: address low and high, data, vector control with the mask in bit 0. -/
def Vec.word (e : Vec) : Nat → Nat
  | 0 => e.addr % two32
  | 1 => e.addr / two32
  | 2 => e.data
  | _ => e.masked.toNat

/-- The entry with word `i` written; the two low bits of an address are 0. -/
def Vec.put (e : Vec) (i v : Nat) : Vec :=
  match i with
  | 0 => { e with addr := e.addr / two32 * two32 + v % two32 / 4 * 4 }
  | 1 => { e with addr := e.addr % two32 + v % two32 * two32 }
  | 2 => { e with data := v % two32 }
  | _ => { e with masked := v % 2 == 1 }

def Dev.vec (d : Dev) (v : Nat) : Vec := SMap.get {} d.hif.msix v

def Dev.setVec (d : Dev) (v : Nat) (e : Vec) : Dev :=
  { d with hif := { d.hif with msix := SMap.put {} d.hif.msix v e } }

/-- A 32-bit write to the MSI-X table: an entry that is then unmasked with its pending bit set sends its message, and
the bit clears (R63, R83). -/
def Dev.vecWrite (d : Dev) (off v : Nat) : Dev :=
  let n := (off - 0x1000) / 16
  let e := Vec.put (d.vec n) (off % 16 / 4) v
  if e.pending && !e.masked then (d.setVec n { e with pending := false }).emit (.msix n e.addr e.data) else d.setVec n e

/-- A 32-bit word of BAR2 as it reads: the MSI-X table, the pending-bit array, 0 elsewhere (Table 3-1). -/
def Dev.bar2Word (d : Dev) (off : Nat) : Nat :=
  if 0x1000 ≤ off ∧ off < 0x2000 then Vec.word (d.vec ((off - 0x1000) / 16)) (off % 16 / 4)
  else if 0x2000 ≤ off ∧ off < 0x2020 then
    (rangeFrom 0 32).foldl (fun m k => if (d.vec (8 * (off - 0x2000) + k)).pending then m + 2 ^ k else m) 0
  else 0

/-- An access to BAR2 other than to KICK (R63): naturally aligned, of 32 or 64 bits, it reads or writes the MSI-X table
and reads the pending bits; any other reads 0 and has no effect. -/
def Dev.bar2 (d : Dev) (a : Bar2Access) : Dev :=
  let good := goodAccess a.off a.size
  match a.write with
  | none => { d with hostRead :=
      if !good then 0 else d.bar2Word a.off + if a.size = 8 then d.bar2Word (a.off + 4) * two32 else 0 }
  | some v =>
    if !good || decide (a.off < 0x1000) || decide (0x2000 ≤ a.off) then d
    else
      let d := d.vecWrite a.off (v % two32)
      if a.size = 8 then d.vecWrite (a.off + 4) (v / two32) else d

/-- MSIX_UNMASK (R83): a host access to the MSI-X table or pending-bit array, a write that unmasks a vector among
them. -/
def execMsixUnmask (a : Bar2Access) (s : State) : Outcome State Fault Refusal := lift (fun d => d.bar2 a) s

/-- BAR0_BAD_ACCESS (R34): reads 0, no effect, BAD_SIZE and PAGE. -/
def execBar0BadAccess (off size : Nat) (s : State) : Outcome State Fault Refusal :=
  lift (fun d => if goodAccess off size then d else { d.setupFlag 1 off with hostRead := 0 }) s

end Sys2Proof.Machine
end

