-- ==== Sys2Proof/Machine/Admin.lean ====
section
/-! DEFINITION. Admin commands on queue pairs, rings, locks and latency (R69, R85, R91, R100 to R107, Table 3-22). -/

namespace Sys2Proof.Machine

open Host

/-- Offences common to the admin commands: queue and dword 1 (R91). -/
def adminOffs (c : Cmd) (fields : List (Nat × Nat × Nat)) : List Offence :=
  modeOff (c.qid == 0) ++ dw1Offs c false ++ resOffs c fields

/-- CREATE_QP (Table 3-22). -/
def specCreateQp : CmdSpec := {
  cls := 0, opc := 0x01
  offs := fun d c =>
    adminOffs c [(4, 11, 0), (4, 22, 16), (4, 31, 24), (5, 23, 0), (6, 15, 0), (7, 31, 0), (8, 31, 0), (9, 31, 0),
        (10, 31, 0)]
      ++ off 4 0 (c.f 4 11 0 == 0 || (d.qp (c.f 4 11 0)).live || (d.qp (c.f 4 11 0)).deleting)
      ++ off 4 16 (c.f 4 19 16 == 0) ++ off 5 0 (c.f 5 15 0 == 0)
      ++ off 7 0 (c.q 7 % 4096 != 0) ++ off 9 0 (c.q 9 % 4096 != 0) }

/-- The queue pair of a CREATE_QP entry. -/
def newQp (c : Cmd) : QP := {
  live := true, depth := c.f 5 15 0 + 1, weight := c.f 4 19 16, svc := c.f 4 22 20, vector := c.f 4 31 24,
  aggCount := c.f 5 23 16, aggTime := c.f 6 15 0, sqBase := c.q 7, cqBase := c.q 9 }

/-- CREATE_QP (R69). -/
def execCreateQp (r : CmdRef) (s : State) : Outcome State Fault Refusal :=
  lift (runCmd specCreateQp r fun c d => (d.setQp (c.f 4 11 0) (newQp c)).finish r stSuccess (c.f 4 11 0)) s

/-- CREATE_RING (Table 3-22): reserved kinds and kinds of another live ring offend at their bit. -/
def specCreateRing : CmdSpec := {
  cls := 0, opc := 0x04
  offs := fun d c =>
    adminOffs c [(4, 5, 0), (4, 31, 8), (5, 23, 0), (6, 15, 0), (7, 31, 0), (8, 31, 0)]
      ++ off 4 0 (d.ring (c.f 4 5 0)).live
      ++ (rangeFrom 0 16).flatMap (fun k =>
          off 4 (16 + k) (c.b 4 (16 + k) && (k == 0 || decide (6 ≤ k) || (d.ringOf k).isSome)))
      ++ off 5 0 (decide (c.f 5 15 0 < 63)) ++ off 7 0 (c.q 7 % 4096 != 0) }

/-- The ring of a CREATE_RING entry: SEQ from 0, PHASE 1 (R87, R88). -/
def newRing (c : Cmd) : Ring := {
  live := true, base := c.q 7, slots := c.f 5 15 0 + 1, kinds := c.f 4 31 16, vector := c.f 4 15 8,
  aggCount := c.f 5 23 16, aggTime := c.f 6 15 0 }

/-- CREATE_RING (R85). -/
def execCreateRing (r : CmdRef) (s : State) : Outcome State Fault Refusal :=
  lift (runCmd specCreateRing r fun c d => (d.setRing (c.f 4 5 0) (newRing c)).finish r stSuccess 0) s

/-- DELETE_RING. -/
def specDeleteRing : CmdSpec := {
  cls := 0, opc := 0x05
  offs := fun d c => adminOffs c [(4, 5, 0)] ++ off 4 0 (!(d.ring (c.f 4 5 0)).live) }

/-- DELETE_RING (R91): posting ends at once. -/
def execDeleteRing (r : CmdRef) (s : State) : Outcome State Fault Refusal :=
  lift (runCmd specDeleteRing r fun c d => (d.setRing (c.f 4 5 0) {}).finish r stSuccess 0) s

/-! ## Semaphores and bus locks (R100 to R104) -/

def Dev.lock (d : Dev) (n : Nat) : Lock := SMap.get {} d.hif.locks n

def Dev.setLock (d : Dev) (n : Nat) (l : Lock) : Dev :=
  { d with hif := { d.hif with locks := SMap.put {} d.hif.locks n l } }

/-- SEM_ACQUIRE and SEM_RELEASE: every queue but QP0 (R91), locks 0 to 71. -/
def semOffs (c : Cmd) : List Offence :=
  modeOff (c.qid != 0) ++ dw1Offs c false ++ resOffs c [(4, 6, 0)] ++ off 4 0 (decide (71 < c.f 4 6 0))

def specSemAcquire : CmdSpec := { cls := 0, opc := 0x10, offs := fun _ c => semOffs c }
def specSemRelease : CmdSpec := { cls := 0, opc := 0x11, offs := fun _ c => semOffs c }

/-- An earlier SEM command of the same SQ has not completed and holds this one back (R73). -/
def Dev.semHeld (d : Dev) (c : Cmd) : Bool :=
  d.hif.cmds.any fun e => e.qid == c.qid && decide (e.num < c.num) && e.cls == 0 && (e.opc == 0x10 || e.opc == 0x11)

/-- A queue holds a lock numbered `n` or above (R102). -/
def Dev.holdsFrom (d : Dev) (q n : Nat) : Bool := (rangeFrom n (72 - n)).any fun k => (d.lock k).owner == .queue q

/-- A queue waits for a lock numbered `n` or above (R102). -/
def Dev.waitsFrom (d : Dev) (q n : Nat) : Bool :=
  (rangeFrom n (72 - n)).any fun k => (d.lock k).waiters.any (·.1.qid == q)

/-- A SEM_ACQUIRE obtains its lock: LOCK_BROKEN with the cause where the mark stands, which is cleared (R103); WAIT_US
saturates (Table 3-23). -/
def Dev.grant (d : Dev) (n : Nat) (r : CmdRef) (since : Nat) : Dev :=
  let l := d.lock n
  let d := d.setLock n { l with owner := .queue r.qid, broken := none }
  let wait := satW 32 ((d.now - since) / tUs) * 4294967296
  match l.broken with
  | some cause => d.finish r stLockBroken (n + cause * 256 + wait)
  | none => d.finish r stSuccess (n + wait)

/-- A free lock goes to the oldest waiter (R101). -/
def Dev.grantNext (d : Dev) (n : Nat) : Dev :=
  let l := d.lock n
  match l.owner, l.waiters with
  | .free, w :: ws => (d.setLock n { l with waiters := ws }).grant n w.1 w.2
  | _, _ => d

/-- The effect of a SEM_ACQUIRE (R101, R102): taken, waiting, or out of order. It is out of order at once while its queue
waits for a lock at or above its own; else it takes its turn among the SEM commands of its queue (R73). -/
def semAcquire (r : CmdRef) (c : Cmd) (d : Dev) : Dev :=
  let n := c.f 4 6 0
  if d.waitsFrom r.qid n then d.finish r stOrderViolation 0
  else if d.semHeld c then d
  else if d.holdsFrom r.qid n then d.finish r stOrderViolation 0
  else if (d.lock n).owner = .free then d.grant n r d.now
  else (d.begin r).setLock n { d.lock n with waiters := (d.lock n).waiters ++ [(r, d.now)] }

/-- SEM_ACQUIRE (R101). -/
def execSemAcquire (r : CmdRef) (s : State) : Outcome State Fault Refusal :=
  lift (runCmd specSemAcquire r (semAcquire r)) s

/-- The effect of a SEM_RELEASE (R103, R104). -/
def semRelease (r : CmdRef) (c : Cmd) (d : Dev) : Dev :=
  let n := c.f 4 6 0
  if d.semHeld c then d
  else if (d.lock n).owner = .queue r.qid then
    ((d.setLock n { d.lock n with owner := .free, broken := none }).finish r stSuccess n).grantNext n
  else d.finish r stLockNotHeld 0

/-- SEM_RELEASE (R104). -/
def execSemRelease (r : CmdRef) (s : State) : Outcome State Fault Refusal :=
  lift (runCmd specSemRelease r (semRelease r)) s

/-! ## Latency tolerance (R105 to R107) -/

/-- SET_LATENCY needs LATENCY_TOLERANCE (R107). -/
def specSetLatency : CmdSpec := {
  cls := 0, opc := 0x20
  feat := fun d _ => d.feat 17
  offs := fun _ c => adminOffs c [(4, 2, 0), (4, 31, 16)] }

/-- The deepest state that a tolerance in us allows: 0 Idle, 1 Retention, 2 Off (R106). -/
def deepest (us : Nat) : Nat := if us < 3 then 0 else if us < 60 then 1 else 2

/-- SET_LATENCY (R106). -/
def execSetLatency (r : CmdRef) (s : State) : Outcome State Fault Refusal :=
  lift (runCmd specSetLatency r fun c d =>
    ({ d with hif := { d.hif with tol := SMap.put 0 d.hif.tol (c.f 4 2 0) (c.f 4 31 16) } }).finish r stSuccess
      (deepest (c.f 4 31 16))) s

end Sys2Proof.Machine
end

