-- ==== Sys2Proof/Machine/Predictor.lean ====
section
/-! DEFINITION. The Mosaic Predictor and its inverse (R302, R303). -/

namespace Sys2Proof.Machine

/-- Sample x of a row. -/
def smp (row : List Nat) (x : Nat) : Nat := row.getD x 0

/-- The prediction of site x from its row `cur` and the row PY above, none in the first PY rows of a band. -/
def mpPredict (m px : Nat) (cur : List Nat) (up : Option (List Nat)) (x : Nat) : Nat :=
  match up with
  | some u =>
    if px ≤ x then
      let a := smp cur (x - px)
      let b := smp u x
      let c := smp u (x - px)
      if max a b ≤ c then min a b else if c ≤ min a b then max a b else a + b - c
    else smp u x
  | none => if px ≤ x then smp cur (x - px) else m / 2

/-- The word of a site: the error folded modulo M and mapped by zig-zag. -/
def mpFold (m v p : Nat) : Nat :=
  let e : Int := ((v : Int) - p + ((m / 2 : Nat) : Int)) % m - ((m / 2 : Nat) : Int)
  if 0 ≤ e then (2 * e).toNat else (-2 * e - 1).toNat

/-- The site of a word. -/
def mpUnfold (m z p : Nat) : Nat :=
  let e : Int := if z % 2 = 1 then -(((z + 1) / 2 : Nat) : Int) else ((z / 2 : Nat) : Int)
  (((p : Int) + e) % m).toNat

/-- The row PY above row y of a band, where it lies in the band. -/
def rowUp (rows : List (List Nat)) (y py : Nat) : Option (List Nat) := if py ≤ y then some (rows.getD (y - py) []) else none

/-- Words of one row. -/
def mpRowWords (m px : Nat) (row : List Nat) (up : Option (List Nat)) : List Nat :=
  (rangeFrom 0 row.length).map fun x => mpFold m (smp row x) (mpPredict m px row up x)

/-- Words of one plane of a band, row by row (R303). -/
def mpWords (m px py : Nat) (rows : List (List Nat)) : List Nat :=
  (rangeFrom 0 rows.length).flatMap fun y => mpRowWords m px (rows.getD y []) (rowUp rows y py)

/-- A row from its words: the sites so far, then one site more for each word. -/
def mpRowBack (m px : Nat) (up : Option (List Nat)) : List Nat → List Nat → List Nat
  | cur, [] => cur
  | cur, z :: zs => mpRowBack m px up (cur ++ [mpUnfold m z (mpPredict m px cur up cur.length)]) zs

/-- The rows of a plane of a band from its words, `w` to a row. -/
def mpBack (m px py w : Nat) : Nat → List (List Nat) → List Nat → List (List Nat)
  | 0, rows, _ => rows
  | n + 1, rows, zs => mpBack m px py w n (rows ++ [mpRowBack m px (rowUp rows rows.length py) [] (zs.take w)]) (zs.drop w)

/-- Plane `k` of a row whose samples of `g` planes are interleaved (R114). -/
def planeOf (g k : Nat) (row : List Nat) : List Nat := (rangeFrom 0 (row.length / g)).map fun x => smp row (g * x + k)

/-- Interleave the planes of a row again (R311). -/
def weave (planes : List (List Nat)) (w : Nat) : List Nat := (rangeFrom 0 w).flatMap fun x => planes.map fun p => smp p x

end Sys2Proof.Machine
end

