-- ==== Sys2Proof/Machine/Sched.lean ====
section
/-! DEFINITION. Schedules: due times, the first exposure at or after a time, and the change of a group's schedule at a
frame index (R128, R381). -/

namespace Sys2Proof.Machine

/-- Rate between 1/60 and 400 frames per second, and OFFSET_NS less than one period (R128, Table 14-4). -/
def schedOk (s : Sched) : Bool :=
  s.num != 0 && s.den != 0 && decide (s.den ≤ 60 * s.num) && decide (s.num ≤ 400 * s.den)
    && decide (s.offNs * s.num < s.den * 1000000000)

/-- The due time of exposure `n` times the rate's numerator, in 2^-32 ns: (epoch + offset) · num + n · den (R128). -/
def dueNum (s : Sched) (n : Int) : Int := ((s.epoch + s.offNs * tNs) * s.num : Nat) + n * (s.den * tSec : Nat)

/-- D(n) under one schedule is earlier than D(m) under another. -/
def dueLt (s : Sched) (n : Int) (t : Sched) (m : Int) : Bool := decide (dueNum s n * t.num < dueNum t m * s.num)

/-- The due time of exposure `n` in 2^-32 ns, rounded down. -/
def dueTime (s : Sched) (n : Nat) : Nat := (dueNum s n / s.num).toNat

/-- The first exposure due at or after `now`: the least n with epoch + offset + n · den/num ≥ now: the reading of "the first
whole period after the command" of R128 (DEDUCED, log entry 74). -/
def firstExposure (s : Sched) (now : Nat) : Nat :=
  ceilDiv ((now - s.epoch - s.offNs * tNs) * s.num) (s.den * tSec)

/-- A change is valid: D_new(N) is later than D_old(N − 1), and floor((D_new(N) − NEW_EPOCH) × NEW_RATE) is N (R381). -/
def changeValid (old new : Sched) (n : Nat) : Bool :=
  schedOk new && dueLt old (n - 1 : Int) new n
    && (n * new.den * tSec + new.offNs * tNs * new.num) / (new.den * tSec) == n

/-- The change that a valid one received at `now` makes: at N exactly where it comes at least 1 ms before D_old(N),
otherwise at the first due time of the new schedule, of an index N or above, at least 1 ms away (R381). -/
def changeAt (old new : Sched) (n now : Nat) : PelChange :=
  if ((now + 1000 * tUs : Nat) : Int) * old.num ≤ dueNum old n then { n := n, idx := n, sched := new, late := false }
  else { n := n, idx := max n (firstExposure new (now + 1000 * tUs)), sched := new, late := true }

/-- Exposures of the old schedule at index N or above before the new one's first (CHANGE_LATE COUNT, R381). -/
def lateCount (old : Sched) (c : PelChange) : Nat :=
  (ceilDiv ((dueNum c.sched c.idx * old.num - dueNum old 0 * c.sched.num).toNat) (c.sched.num * old.den * tSec)) - c.n

/-- The change takes the place of exposure `n` of the old schedule. -/
def changeDue (old : Sched) (c : PelChange) (n : Nat) : Bool :=
  if c.late then !dueLt old n c.sched c.idx else decide (c.n ≤ n)

/-- The group's schedule for a port that starts now (R128, R381). -/
def Dev.pelSched (d : Dev) : Option Sched :=
  d.ntu.pel.cur.map fun s => match d.ntu.pel.pend with
    | some c => if changeDue s c (firstExposure s d.now) then c.sched else s
    | none => s

/-- The membership holds a schedule, and the LTS follows the domain that its PTP_DOMAIN names (R380). -/
def Dev.pelReady (d : Dev) : Bool :=
  d.ntu.pel.member.isSome && d.ntu.pel.cur.isSome
    && (d.ltsFollows.any fun k => d.domCfg k 31 24 == d.ntu.pel.ptpDomain)

end Sys2Proof.Machine
end

