-- ==== Sys2Proof/Machine/Cfa.lean ====
section
/-! DEFINITION. CFA descriptions, demosaic banks, spokes and stripes, and the registers of a raw source (R150 to R156,
R182, R183, R187). -/

namespace Sys2Proof.Machine

/-! ## The registers a running source works on -/

/-- BAR0 offsets that START_PORT and MP_FRAME latch for source `s` (R118, R175, R203, R243). -/
def latchOffs (s : Nat) : List Nat :=
  (if s < 4 then (rangeFrom 0 16).map fun i => 0x20000 + 0x100 * s + 4 * i else [])
    ++ [0x30000, 0x30004, 0x20400, 0x40000 + 0x40 * s, 0x50000 + 0x40 * s, 0x50004 + 0x40 * s, 0x50008 + 0x40 * s]
    ++ (rangeFrom 0 6).map fun i => 0x30100 + 0x40 * s + 4 * i

/-- The latched set of a source. -/
def Dev.latch (d : Dev) (s : Nat) : SMap Word :=
  (latchOffs s).foldl (fun m o => SMap.put 0 m o (BitVec.ofNat 32 (d.reg o))) []

/-- A register of source `s` as it works on it: latched while the source runs. -/
def Dev.sreg (d : Dev) (s o : Nat) : Nat :=
  let p := d.port s
  if p.latched.isEmpty then d.reg o else (SMap.get 0 p.latched o).toNat

/-- Bits [hi:lo] of it. -/
def Dev.sfld (d : Dev) (s o hi lo : Nat) : Nat := bitsOf (d.sreg s o) hi lo

/-- SP_CFG and SP_GEOM fields of port `s`; for MP those of the running MP_FRAME (R132). -/
def Dev.mpCmd (d : Dev) : Option Cmd := (d.port 4).mpRun.bind d.cmd?

def Dev.srcWidth (d : Dev) (s : Nat) : Nat :=
  if s < 4 then d.sfld s (0x20004 + 0x100 * s) 14 0 + 1 else (d.mpCmd.map fun c => c.f 5 14 0 + 1).getD 1

def Dev.srcHeight (d : Dev) (s : Nat) : Nat :=
  if s < 4 then d.sfld s (0x20004 + 0x100 * s) 29 16 + 1 else (d.mpCmd.map fun c => c.f 5 29 16 + 1).getD 1

/-- Raw depth in bits (Table 4-3 DEPTH). -/
def Dev.srcDepth (d : Dev) (s : Nat) : Nat :=
  10 + 2 * (if s < 4 then d.sfld s (0x20000 + 0x100 * s) 13 12 else (d.mpCmd.map fun c => c.f 4 1 0).getD 0)

/-- Two samples per site (R114). -/
def Dev.srcDual (d : Dev) (s : Nat) : Bool :=
  if s < 4 then d.sfld s (0x20000 + 0x100 * s) 14 14 == 1 else (d.mpCmd.map fun c => c.b 4 2).getD false

/-- The active window: X0, Y0, width, height (Table 5-8). -/
structure Win where
  x0 : Nat
  y0 : Nat
  w : Nat
  h : Nat

def Dev.win (d : Dev) (s : Nat) : Win := {
  x0 := d.sfld s (0x30100 + 0x40 * s) 14 0, y0 := d.sfld s (0x30100 + 0x40 * s) 29 16
  w := d.sfld s (0x30104 + 0x40 * s) 14 0 + 1, h := d.sfld s (0x30104 + 0x40 * s) 29 16 + 1 }

def Dev.pedestal (d : Dev) (s : Nat) : Nat := d.sfld s (0x30108 + 0x40 * s) 15 0
def Dev.histEn (d : Dev) (s : Nat) : Bool := d.sfld s (0x3010C + 0x40 * s) 0 0 == 1
def Dev.gapMax (d : Dev) (s : Nat) : Nat := d.sfld s (0x3010C + 0x40 * s) 7 4
def Dev.histShift (d : Dev) (s : Nat) : Nat := d.sfld s (0x3010C + 0x40 * s) 11 8
def Dev.proxyShift (d : Dev) (s : Nat) : Nat := d.sfld s (0x3010C + 0x40 * s) 15 12
def Dev.histBase (d : Dev) (s : Nat) : Nat :=
  d.sreg s (0x30110 + 0x40 * s) / 4096 * 4096 + 4294967296 * d.sreg s (0x30114 + 0x40 * s)

/-! ## Spokes and stripes (R151, R152) -/

/-- The source of a spoke, 15 for none (Table 5-5). -/
def Dev.spokeSrc (d : Dev) (s k : Nat) : Nat := d.sfld s (0x30000 + 4 * (k / 8)) (4 * (k % 8) + 3) (4 * (k % 8))

/-- The spokes of a source, in ascending order (R151). -/
def Dev.spokesOf (d : Dev) (s : Nat) : List Nat := (rangeFrom 0 16).filter fun k => d.spokeSrc s k == s

/-- First column and width of stripe `i` of `n` over a frame `w` wide (R152). -/
def stripe (w n i : Nat) : Nat × Nat :=
  let q := ceilDiv w (8 * n)
  (8 * q * i, if i + 1 = n then w - 8 * q * (n - 1) else 8 * q)

/-- The stripes of a source: spoke, first column, width. -/
def Dev.stripes (d : Dev) (s : Nat) : List (Nat × Nat × Nat) :=
  let ks := d.spokesOf s
  ks.zipIdx.map fun e => (e.1, stripe (d.srcWidth s) ks.length e.2)

/-- Lines that a spoke's ingest buffer holds for a stripe `w` wide (R155). -/
def ingestLines (w : Nat) (dual : Bool) : Nat := 262144 / ((w + 48) * if dual then 2 else 1)

/-! ## CFA descriptions (R182, R183) -/

/-- A CFA description: period, guide and the channel codes of its sites, row by row. -/
structure Cfa where
  px : Nat
  py : Nat
  guide : Nat
  codes : List Nat

/-- Table 6-3, codes row by row. -/
def builtinCfa : Nat → Option Cfa
  | 0 => some ⟨2, 2, 1, [0, 1, 1, 2]⟩
  | 1 => some ⟨4, 4, 1, [2, 1, 0, 1, 1, 4, 1, 4, 0, 1, 2, 1, 1, 4, 1, 4]⟩
  | 2 => some ⟨4, 4, 3, [0, 3, 1, 3, 3, 1, 3, 2, 1, 3, 0, 3, 3, 2, 3, 1]⟩
  | 3 => some ⟨2, 2, 3, [0, 3, 3, 2]⟩
  | 4 => some ⟨4, 4, 3, [3, 3, 3, 3, 3, 0, 3, 1, 3, 3, 3, 3, 3, 1, 3, 2]⟩
  | _ => none

/-- Nibble 8j + i of the CODES of a description (Table 6-2). -/
def cfaNibble (blk : List Byte) (i j : Nat) : Nat :=
  let k := 8 * j + i
  if k % 2 = 0 then b8 blk (4 + k / 2) % 16 else b8 blk (4 + k / 2) / 16

/-- A loaded description (Table 6-2). -/
def cfaOf (blk : List Byte) : Cfa := {
  px := b8 blk 0, py := b8 blk 1, guide := b8 blk 2
  codes := (rangeFrom 0 (b8 blk 1)).flatMap fun j => (rangeFrom 0 (b8 blk 0)).map fun i => cfaNibble blk i j }

/-- Offending bytes of a description (R182): period, guide, reserved byte, codes inside and outside the period. -/
def cfaBad (blk : List Byte) : List Nat :=
  let px := b8 blk 0
  let py := b8 blk 1
  let g := b8 blk 2
  bad 0 (!(decide (1 ≤ px) && decide (px ≤ 8))) ++ bad 1 (!(decide (1 ≤ py) && decide (py ≤ 8)))
    ++ bad 2 (!((g == 1 || g == 3) && (cfaOf blk).codes.contains g)) ++ bad 3 (b8 blk 3 != 0)
    ++ (rangeFrom 0 64).flatMap fun k =>
      let n := cfaNibble blk (k % 8) (k / 8)
      bad (4 + k / 2) (if k % 8 < px ∧ k / 8 < py then decide (4 < n) else n != 15)

/-- The description in a slot: built in 0 to 4, loaded 8 to 11. -/
def Dev.cfaSlot (d : Dev) (id : Nat) : Option Cfa :=
  if id < 5 then builtinCfa id
  else let b := SMap.get [] d.cbe.cfa id
    if b.isEmpty then none else some (cfaOf b)

/-- The description bound to a source; the Bayer one where its slot is not valid, which START_PORT refuses (R203). -/
def Dev.cfa (d : Dev) (s : Nat) : Cfa := (d.cfaSlot (d.sfld s (0x40000 + 0x40 * s) 4 0)).getD ⟨2, 2, 1, [0, 1, 1, 2]⟩

def Dev.shiftX (d : Dev) (s : Nat) : Nat := d.sfld s (0x40000 + 0x40 * s) 10 8
def Dev.shiftY (d : Dev) (s : Nat) : Nat := d.sfld s (0x40000 + 0x40 * s) 14 12

/-- (a − b) mod p for a phase that may lie left of or above the window. -/
def phaseOf (x x0 shift p : Nat) : Nat := (((x : Int) - x0 + shift) % (p : Int)).toNat

/-- The phase of frame site (x, y) of a source (R183). -/
def Dev.phase (d : Dev) (s x y : Nat) : Nat × Nat :=
  let c := d.cfa s
  (phaseOf x (d.win s).x0 (d.shiftX s) c.px, phaseOf y (d.win s).y0 (d.shiftY s) c.py)

/-- The channel at a phase: 0 R, 1 G, 2 B, 3 C, 4 I. -/
def Cfa.at? (c : Cfa) (ph : Nat × Nat) : Nat := c.codes.getD (ph.2 * c.px + ph.1) 0

/-- The channel of frame site (x, y). -/
def Dev.channel (d : Dev) (s x y : Nat) : Nat := Cfa.at? (d.cfa s) (d.phase s x y)

/-! ## Demosaic banks (R187, Table 6-4) -/

/-- PX, PY, GUIDE of a bank, where it is valid. -/
def Dev.bankKey (d : Dev) (b : Nat) : Option (Nat × Nat × Nat) :=
  if b < 5 then (builtinCfa b).map fun c => (c.px, c.py, c.guide)
  else let k := SMap.get [] d.cbe.banks b
    if k.isEmpty then none else some (b8 k 0, b8 k 1, b8 k 2)

/-- EPS of a bank: at least 1. Banks 0 to 4 and numbers from 256 have none that is stated (log entry 17). -/
def Dev.bankEps (d : Dev) (b : Nat) : Nat :=
  if b < 5 ∨ 256 ≤ b then Config.builtinEps b % 16777216 + 1 else bn (SMap.get [] d.cbe.banks b) 4 4

/-- Coefficient `i` (16-bit words after the header) of a bank. -/
def Dev.bankCoef (d : Dev) (b i : Nat) : Int :=
  if b < 5 ∨ 256 ≤ b then toSigned 16 (Config.builtinKernel b i).toNat
  else toSigned 16 (bn (SMap.get [] d.cbe.banks b) (16 + 2 * i) 2)

/-- Bytes of a bank with a PX × PY period (Table 6-4). -/
def bankLen (px py : Nat) : Nat := 16 + px * py * 1620

/-- A bank serves a description (R187). -/
def Dev.bankFits (d : Dev) (b : Nat) (c : Cfa) : Bool := d.bankKey b == some (c.px, c.py, c.guide)

/-- The colour block of a source in effect, by byte; the state of R204 before the first. -/
def Dev.colourOf (d : Dev) (s : Nat) : List Byte := SMap.get [] d.cbe.colour s

/-- BANK of a colour block; before the first block, CFA_ID (R204). -/
def Dev.bankOf (d : Dev) (s : Nat) (blk : List Byte) : Nat :=
  if blk.isEmpty then d.sfld s (0x40000 + 0x40 * s) 4 0 else b8 blk 0

end Sys2Proof.Machine
end

