-- ==== Sys2Proof/Machine/Programs.lean ====
section
/-! DEFINITION. Exposure programs: latch windows, readiness, reach, missing a target, and application to frames (R133 to
R140, R396, R522). -/

namespace Sys2Proof.Machine

/-! ## Target-table entries and the bound on issue time (R133, R134, Table 15-4) -/

/-- Bits [hi:lo] of word `w` (0 TGT_A to 3 TGT_D) of an entry. -/
def Dev.tgt (d : Dev) (c e w hi lo : Nat) : Nat := d.fld (tgtOff c e + 4 * w) hi lo

/-- TW_CTRL of a port (Table 4-8). -/
def Dev.portCtl (d : Dev) (p : Nat) : Nat := d.sfld p (0x20010 + 0x100 * p) 15 13

/-- t_bit and t_BUF in 0.1 us by TW_CFG.SPEED (R134). -/
def tBit : Nat → Nat | 0 => 100 | 1 => 25 | _ => 10
def tBuf : Nat → Nat | 0 => 47 | 1 => 13 | _ => 5

/-- D_max in 0.1 us of writes given as (entry, LEN) on controller `c` (R134). -/
def Dev.dMax (d : Dev) (c : Nat) (ws : List (Nat × Nat)) : Nat :=
  let sp := d.fld (0xC0000 + 0x1000 * c) 1 0
  (ws.map fun e => ((e.2 + 2) * 9 + 2) * tBit sp + (e.2 + 1) * d.tgt c e.1 0 31 24 * 10 + tBuf sp).sum

/-- The latch window of an entry: LATCH_LEAD, LATCH_OFFSET_US, LATCH_LEN_US (R133). -/
def Dev.latchWin (d : Dev) (c e : Nat) : Nat × Nat × Nat :=
  (d.tgt c e 2 25 24 + 1, d.tgt c e 2 23 0, d.tgt c e 3 23 0)

/-- The window of a program with writes. -/
def Dev.progWin (d : Dev) (g : Prog) : Nat × Nat × Nat :=
  d.latchWin (d.portCtl g.port) ((g.writes.head?.map (·.entry)).getD 0)

/-- D_max of a program in 2^-32 ns. -/
def Dev.progDMax (d : Dev) (g : Prog) : Nat :=
  d.dMax (d.portCtl g.port) (g.writes.map fun w => (w.entry, w.data.length)) * (100 * tNs)

/-! ## Which frame a program can reach (R133, R135, R136) -/

/-- LTS of a recorded frame start. -/
def portStart (p : Port) (n : Nat) : Option Nat := (p.starts.find? fun e => e.1 == n).map (·.2)

/-- Frame `n` already has a program bound to it: one applied to it, or one whose issue for it has begun (R136). -/
def portTaken (p : Port) (n : Nat) : Bool :=
  p.applied.any (·.target == n) || p.programs.any fun g => g.issuing && g.target == n

/-- The window of frame `n` for a program can still be met: its opening frame is still to start, or started and the
latest issue start has not passed (R135); a program without writes has no window (R522). -/
def Dev.inTime (d : Dev) (g : Prog) (n : Nat) : Bool :=
  let p := d.port g.port
  decide (p.nextIndex ≤ n) && (g.writes.isEmpty ||
    let w := d.progWin g
    decide (w.1 ≤ n) && (decide (p.nextIndex ≤ n - w.1) ||
      (portStart p (n - w.1)).any fun t => decide (d.now + d.progDMax g ≤ t + (w.2.1 + w.2.2) * tUs)))

/-- The window of frame `n` is open. -/
def Dev.isOpen (d : Dev) (g : Prog) (n : Nat) : Bool :=
  let p := d.port g.port
  let w := d.progWin g
  p.windows.contains n || (decide (w.1 ≤ n) && (portStart p (n - w.1)).any fun t => decide (t + w.2.1 * tUs ≤ d.now))

/-- Frame `n` can take the program. -/
def Dev.canReach (d : Dev) (g : Prog) (n : Nat) : Bool := d.inTime g n && !portTaken (d.port g.port) n

/-- The earliest reachable frame from index `n` up. -/
def Dev.reach (d : Dev) (g : Prog) : Nat → Nat → Nat
  | n, 0 => n
  | n, k + 1 => if d.canReach g n then n else d.reach g (n + 1) k

/-- The earliest frame after the missed target that the program can still reach (R135, log entry 74). The frames that it
passes over are those with a program bound to them and at most LATCH_LEAD others. -/
def Dev.nextReach (d : Dev) (g : Prog) : Nat :=
  let v := d.port g.port
  d.reach g (max (g.target + 1) v.nextIndex) (v.applied.length + v.programs.length + 10)

/-! ## Pending programs -/

def Dev.modPort (d : Dev) (p : Nat) (f : Port → Port) : Dev := d.setPort p (f (d.port p))

/-- Change a pending program. -/
def Dev.modProg (d : Dev) (p : Nat) (r : CmdRef) (f : Prog → Prog) : Dev :=
  d.modPort p fun v => { v with programs := updFirst (fun g => g.ref == r) f v.programs }

/-- Take a program out. -/
def Dev.dropProg (d : Dev) (p : Nat) (r : CmdRef) : Dev :=
  d.modPort p fun v => { v with
    programs := v.programs.filter fun g => g.ref != r, waiting := v.waiting.filter fun g => g.ref != r }

/-- The settings that a program puts in effect (R137, Table 4-14): without SET_DG the previous ratio is kept. -/
def progSettings (g : Prog) (prev : ProgSet) : ProgSet := {
  id := g.id, expNs := g.expNs, gain := g.gain, dg := g.dg.getD prev.dg }

/-- A program is applied to its target frame (R137, R138). -/
def Dev.applyProg (d : Dev) (g : Prog) : Dev :=
  d.modPort g.port fun v => { v with applied := v.applied ++ [g] }

/-- A program with writes misses its target (R135): LATE, or moved to the earliest frame it can reach. -/
def Dev.missWrites (d : Dev) (g : Prog) : Dev :=
  let n := d.nextReach g
  if g.next then d.modProg g.port g.ref fun _ => { g with target := n, later := true, opened := d.isOpen g n }
  else (d.dropProg g.port g.ref).finish g.ref stLate n

/-- Fetch number of the command of a program. -/
def Dev.fetchedAt (d : Dev) (g : Prog) : Nat := ((d.cmd? g.ref).map (·.num)).getD 0

/-- Other programs of the port that have not begun issue and aim at a frame that has just been taken miss it, in fetch
order (R136). Each has writes: one without completes as it comes (R522). -/
def Dev.missOthers (d : Dev) (p n : Nat) : Dev :=
  ((((d.port p).programs.filter fun g => !g.issuing && g.target == n)).mergeSort fun a b =>
    decide (d.fetchedAt a ≤ d.fetchedAt b)).foldl (fun d g => d.missWrites g) d

/-- A program misses its target (R135): one without writes completes LATE, or is applied to the next frame that it can
reach, which the others then miss (R136, R522). -/
def Dev.missProg (d : Dev) (g : Prog) : Dev :=
  if !g.writes.isEmpty || !g.next then d.missWrites g
  else
    let n := d.nextReach g
    (((d.dropProg g.port g.ref).applyProg { g with target := n, later := true }).finish g.ref stAppliedLater n).missOthers
      g.port n

/-- A pending program is judged (R135, R522): applied at once where it has no writes and its target can take it; missed
where the target cannot be reached; else it waits for its window, or is in it. On a stopped port one with writes stays
pending until the port starts (R139); R522 completes one without at once there too. -/
def Dev.judgeProg (d : Dev) (g : Prog) : Dev :=
  if (d.port g.port).state == .stopped && !g.writes.isEmpty then d
  else if !d.canReach g g.target then d.missProg g
  else if g.writes.isEmpty then
    (((d.dropProg g.port g.ref).applyProg g).finish g.ref stSuccess g.target).missOthers g.port g.target
  else d.modProg g.port g.ref fun g => { g with opened := d.isOpen g g.target }

/-- A program becomes pending. -/
def Dev.takeProg (d : Dev) (g : Prog) : Dev :=
  (d.modPort g.port fun v => { v with programs := v.programs ++ [g] }).judgeProg g

/-- The programs that stayed pending while the port was stopped are judged as it starts, by target and then in fetch
order (R136, R139). -/
def Dev.judgeAll (d : Dev) (p : Nat) : Dev :=
  (((d.port p).programs.filter (!·.issuing)).mergeSort fun a b =>
    decide (a.target < b.target ∨ a.target = b.target ∧ d.fetchedAt a ≤ d.fetchedAt b)).foldl Dev.judgeProg d

/-- Waiting SUBMIT_PROGRAMs take freed places (R139): `n` is the number that wait. -/
def Dev.admitWaiting (d : Dev) (p : Nat) : Nat → Dev
  | 0 => d
  | n + 1 =>
    let v := d.port p
    match v.waiting with
    | g :: t => if v.programs.length < 64 then ((d.setPort p { v with waiting := t }).takeProg g).admitWaiting p n else d
    | [] => d

/-- Places of a port have been freed. -/
def Dev.refill (d : Dev) (p : Nat) : Dev := d.admitWaiting p (d.port p).waiting.length

/-- The frame that a program was bound to, or would have taken, keeps what R137 gives it where a write fails: every
later frame takes the previous program again, or the frame that was aimed at carries PROGRAM_FAULT. -/
def Dev.unapply (d : Dev) (g : Prog) : Dev :=
  d.modPort g.port fun v =>
    if g.bound then (if v.effAt = g.target then { v with inEffect := v.previous } else v)
    else { v with faulted := g.target :: v.faulted }

/-- A program whose issue has begun ends: with `st` of its last write (R137, R139, R488). -/
def Dev.progEnd (d : Dev) (g : Prog) (st : Nat) : Dev :=
  let d := d.dropProg g.port g.ref
  let d :=
    if g.reset then
      (if g.bound then d.unapply g
       else if st = stSuccess then d else d.unapply g).finish g.ref stEngineReset g.target
    else if st = stSuccess then
      (if g.bound then d else d.applyProg g).finish g.ref (if g.later then stAppliedLater else stSuccess) g.target
    else (d.unapply g).finish g.ref st g.target
  d.refill g.port

/-- Its last STOP falls after the close of the window (R396). -/
def Dev.overrun (d : Dev) (g : Prog) : Bool :=
  let w := d.progWin g
  (portStart (d.port g.port) (g.target - w.1)).any fun t => decide (t + (w.2.1 + w.2.2) * tUs < d.now)

/-- WINDOW_OVERRUN (R396): counted, logged, and the frame carries PROGRAM_FAULT. -/
def Dev.noteOverrun (d : Dev) (g : Prog) (c : Nat) : Dev :=
  if d.overrun g then
    ((d.count (0xC0034 + 0x1000 * c) 1).log 1 0x020 c g.id 12 c ones64 ((d.cmd? g.ref).map (·.tag))).modPort g.port
      fun v => { v with faulted := g.target :: v.faulted }
  else d

end Sys2Proof.Machine
end

