-- ==== Sys2Proof/Machine/TwCore.lean ====
section
/-! DEFINITION. Two-wire transactions: choice, START, bytes on the bus, end, arbitration loss, and cuts (R388 to R400,
R103). -/

namespace Sys2Proof.Machine

/-- BAR0 offset of a register of controller `c`. -/
def twReg (c o : Nat) : Nat := 0xC0000 + 0x1000 * c + o

/-- SMBus CRC-8 of bytes (R393): polynomial x^8 + x^2 + x + 1. -/
def crc8Bit : Nat → Nat → Nat
  | 0, v => v
  | n + 1, v => crc8Bit n (if v.testBit 7 then (v * 2 % 256) ^^^ 7 else v * 2)

def crc8 (bs : List Byte) : Nat := bs.foldl (fun c b => crc8Bit 8 (c ^^^ b.toNat)) 0

/-- STYLE and PEC of an entry. -/
def Dev.tgtSmbus (d : Dev) (c e : Nat) : Bool := d.tgt c e 0 11 11 == 1
def Dev.tgtPec (d : Dev) (c e : Nat) : Bool := d.tgt c e 0 15 15 == 1 && d.tgtSmbus c e
def Dev.tgtPtr16 (d : Dev) (c e : Nat) : Bool := d.tgt c e 0 14 14 == 1

/-- Size of an entry's block (R392). -/
def Dev.wrapSize (d : Dev) (c e : Nat) : Nat :=
  let w := d.tgt c e 0 19 16
  if d.tgtPtr16 c e && w == 0 then 65536 else 2 ^ w

/-- An entry may be named (R391). -/
def Dev.tgtBad (d : Dev) (c e : Nat) : Bool :=
  let a := d.tgt c e 0 6 0
  let w := d.tgt c e 0 19 16
  d.tgt c e 0 7 7 == 0 || decide (a < 8) || decide (0x78 ≤ a)
    || (!d.tgtPtr16 c e && (w == 0 || decide (9 ≤ w)))

/-! ## What a transaction of a TW_XFER carries (R392, Table 15-6) -/

/-- Where a transfer of the pointer style stands: the pointer of its next transaction. -/
def ptrNow (x : Xfer) (p16 : Bool) : Nat := (x.ptr + x.written + x.got.length) % if p16 then 65536 else 256

/-- Data bytes of the next transaction of a transfer: split at block boundaries in the pointer style, RAW whole. -/
def Dev.chunk (d : Dev) (c : Nat) (x : Xfer) : Nat :=
  let left := x.wlen + x.rlen - x.written - x.got.length
  if d.tgtSmbus c x.entry || x.op == 2 then left
  else
    let w := d.wrapSize c x.entry
    min left (w - ptrNow x (d.tgtPtr16 c x.entry) % w)

/-- Data bytes that the next transaction of a transfer writes, at most: none in a read. -/
def Dev.sendLen (d : Dev) (c : Nat) (x : Xfer) : Nat := min (x.wlen - x.written) (d.chunk c x)

/-- The pointer bytes, most significant first. -/
def ptrBytes (p16 : Bool) (p : Nat) : List Byte :=
  if p16 then [BitVec.ofNat 8 (p / 256), BitVec.ofNat 8 p] else [BitVec.ofNat 8 p]

/-- Address byte of an entry. -/
def Dev.addrByte (d : Dev) (c e rd : Nat) : Byte := BitVec.ofNat 8 (2 * d.tgt c e 0 6 0 + rd)

/-- Append the packet error code (R393). -/
def withPec (p : Bool) (bs : List Byte) : List Byte := if p then bs ++ [BitVec.ofNat 8 (crc8 bs)] else bs

/-- Bytes that the controller sends in the next transaction of a transfer, address bytes included (Table 15-6). -/
def Dev.xferBytes (d : Dev) (c : Nat) (x : Xfer) : List Byte :=
  let aw := d.addrByte c x.entry 0
  let ar := d.addrByte c x.entry 1
  let cmd : Byte := BitVec.ofNat 8 x.ptr
  let pec := d.tgtPec c x.entry
  if d.tgtSmbus c x.entry then
    match x.op with
    | 0 => withPec pec [aw, cmd]
    | 1 => [ar]
    | 2 => withPec pec (aw :: cmd :: x.data)
    | 4 => withPec pec (aw :: cmd :: BitVec.ofNat 8 x.wlen :: x.data)
    | _ => [aw, cmd, ar]
  else
    let ptr := ptrBytes (d.tgtPtr16 c x.entry) (ptrNow x (d.tgtPtr16 c x.entry))
    match x.op with
    | 0 => aw :: ptr ++ (x.data.drop x.written).take (d.chunk c x)
    | 1 => aw :: ptr ++ [ar]
    | _ => if x.rlen = 0 then aw :: x.data else aw :: x.data ++ [ar]

/-- Bytes of a write of an exposure program (R393, Table 4-15). -/
def Dev.progBytes (d : Dev) (c : Nat) (w : ProgWrite) : List Byte :=
  let a := d.addrByte c w.entry 0
  if d.tgtPec c w.entry then withPec true (a :: w.data.dropLast) else a :: w.data

/-! ## Choosing and starting (R389, R390) -/

/-- Bus lock 64 + c lets the commands and programs of a queue run (R390). -/
def Dev.lockLets (d : Dev) (c qid : Nat) : Bool :=
  match (SMap.get {} d.hif.locks (64 + c)).owner with
  | .free => true
  | .queue q => q == qid
  | .firmware => false

/-- All pending programs, with the order of their fetch. -/
def Dev.allProgs (d : Dev) : List (Prog × Nat) :=
  (rangeFrom 0 4).flatMap fun p => (d.port p).programs.map fun g => (g, ((d.cmd? g.ref).map (·.num)).getD 0)

/-- The least element by a key, the earlier on a tie. -/
def minBy {α : Type} (key : α → Nat) : List α → Option α
  | [] => none
  | a :: t => match minBy key t with
    | none => some a
    | some b => if key a ≤ key b then some a else some b

/-- The TW_XFER to go on with: one split under R392 that has begun, which nothing stops between its transactions (R406),
else the oldest fetched (R390); while a TW_DISABLE waits, none begins (R402). -/
def Dev.twXferPick (d : Dev) (c : Nat) : Option Xfer :=
  let xs := (d.ctl c).xfers.filter fun x => d.lockLets c x.ref.qid
  match xs.find? (·.started) with
  | some x => some x
  | none => if (d.ctl c).disabling.isSome then none else minBy (·.num) xs

/-- The next transaction of controller `c`, in the order of R390. A program begins its issue only on a port that is not
stopped, no later than its latest issue start, and for a frame that no program has taken (R135, R136, R139). -/
def Dev.twPick (d : Dev) (c : Nat) : Option TwWork :=
  let ps := d.allProgs.filter fun e => d.lockLets c e.1.ref.qid
  match ps.find? fun e => e.1.issuing && e.1.ctl == c && decide (e.1.done < e.1.writes.length) with
  | some e => some (.prog e.1.port e.1.ref)
  | none =>
    let ready := ps.filter fun e => e.1.opened && !e.1.issuing && d.portCtl e.1.port == c
      && (d.port e.1.port).state != .stopped && d.canReach e.1 e.1.target && (d.ctl c).disabling.isNone
    match minBy (fun e : Prog × Nat => e.1.target * 18446744073709551616 + e.2) ready with
    | some e => some (.prog e.1.port e.1.ref)
    | none => (d.twXferPick c).map fun x => .xfer x.ref

/-- The controller can send a START: enabled, serving, bus free, nothing of its own on the bus. -/
def Dev.twFree (d : Dev) (c : Nat) : Bool :=
  let v := d.ctl c
  v.state == .enabled && !v.busBusy && !v.sclHeld && !d.eng.resets.any (·.code == 0x48 + c)

def Dev.modCtl (d : Dev) (c : Nat) (f : TwCtl → TwCtl) : Dev := d.setCtl c (f (d.ctl c))

def Dev.xfer? (d : Dev) (c : Nat) (r : CmdRef) : Option Xfer := (d.ctl c).xfers.find? fun x => x.ref == r

def Dev.modXfer (d : Dev) (c : Nat) (r : CmdRef) (f : Xfer → Xfer) : Dev :=
  d.modCtl c fun v => { v with xfers := updFirst (fun x => x.ref == r) f v.xfers }

def Dev.prog? (d : Dev) (p : Nat) (r : CmdRef) : Option Prog := (d.port p).programs.find? fun g => g.ref == r

/-- Entry and bytes of a transaction. -/
def Dev.workBytes (d : Dev) (c : Nat) : TwWork → Nat × List Byte
  | .xfer r => match d.xfer? c r with
    | some x => (x.entry, d.xferBytes c x)
    | none => (0, [])
  | .prog p r => match (d.prog? p r).bind fun g => g.writes[g.done]? with
    | some w => (w.entry, d.progBytes c w)
    | none => (0, [])

/-- Send the START of a transaction; a fresh one takes the retries of R397 and R400. The first START of a program is
the beginning of its issue, and takes its frame (R136). -/
def Dev.twStart (d : Dev) (c : Nat) (k : TwWork) (fresh : Bool) : Dev :=
  let eb := d.workBytes c k
  let v := d.ctl c
  let d := d.setCtl c { v with
    cur := some k, hold := .running, lastEntry := eb.1
    arbLeft := if fresh then d.fld (twReg c 0) 15 12 else v.arbLeft
    wakeLeft := if fresh then d.tgt c eb.1 0 23 20 else v.wakeLeft }
  let d := d.emit (.twStart c eb.2)
  match k with
  | .xfer r => d.modXfer c r fun x => { x with started := true }
  | .prog p r => match d.prog? p r with
    | none => d
    | some g => if g.issuing then d else
      (d.modProg p r fun g => { g with issuing := true, ctl := c }).missOthers p g.target

/-- At a boundary on a free bus: repeat the transaction that lost or woke, else start the next (R390, R397, R400). -/
def Dev.twNext (d : Dev) (c : Nat) : Dev :=
  if !d.twFree c then d else
  match (d.ctl c).cur with
  | some k => if (d.ctl c).hold = .lost then d.twStart c k false else d
  | none => match d.twPick c with
    | none => d
    | some k => d.twStart c k true

/-! ## Ending -/

/-- RESULT of a TW_XFER (Table 15-7). -/
def xferResult (x : Xfer) : Nat :=
  x.written % 8192 + x.got.length % 8192 * 65536 + (if x.trunc then 536870912 else 0)
    + (x.loss.1 % 256 + x.loss.2 % 8 * 256 + min x.attempts 15 * 4096 + x.count % 256 * 65536) * 4294967296

/-- A disable takes effect once nothing is in hand (R402): pending commands complete ENGINE_DOWN. -/
def Dev.twSettle (d : Dev) (c : Nat) : Dev :=
  let v := d.ctl c
  match v.disabling with
  | none => d
  | some r =>
    if v.cur.isSome || v.xfers.any (·.started) || d.allProgs.any (fun e => e.1.issuing && e.1.ctl == c) then d
    else
      let d := d.setCtl c { v with state := .disabled, disabling := none, sclHeld := false, xfers := [] }
      (d.finishAll (v.xfers.map (·.ref)) stEngineDown 0).finish r stSuccess 0

/-- The transaction in hand is off the bus. -/
def Dev.twClear (d : Dev) (c : Nat) : Dev := d.modCtl c fun v => { v with cur := none, hold := .running }

/-- A TW_XFER completes: its data is delivered, its place freed (Table 15-7). -/
def Dev.xferEnd (d : Dev) (c : Nat) (x : Xfer) (st : Nat) : Dev :=
  let d := if x.got.isEmpty then d else d.writeBuf x.dev x.raddr x.got
  let d := d.modCtl c fun v => { v with xfers := v.xfers.filter fun y => y.ref != x.ref }
  d.finish x.ref st (xferResult x)

/-- The work in hand fails with a status: the transfer or program completes with it (R137, R394, R398, R400). -/
def Dev.twFail (d : Dev) (c : Nat) (k : TwWork) (st : Nat) : Dev :=
  let d := d.twClear c
  let d := match k with
    | .xfer r => match d.xfer? c r with
      | some x => d.xferEnd c x st
      | none => d
    | .prog p r => match d.prog? p r with
      | some g => (d.noteOverrun g c).progEnd g st
      | none => d
  d.twSettle c

/-- Arbitration is lost (R399, R400): the controller lets the winner finish and repeats, or completes ARB_LOST. -/
def Dev.twLost (d : Dev) (c byte bit : Nat) : Dev :=
  let v := d.ctl c
  match v.cur, v.hold with
  | some k, .running =>
    let d := d.count (twReg c 0x20) 1
    let d := d.modCtl c fun v => { v with busBusy := true }
    let more := decide (0 < v.arbLeft)
    let d := match k with
      | .xfer r => d.modXfer c r fun x => { x with
          loss := (byte, bit), attempts := if more then x.attempts + 1 else x.attempts }
      | .prog _ _ => d
    if more then d.modCtl c fun v => { v with hold := .lost, arbLeft := v.arbLeft - 1 }
    else d.twFail c k stArbLost
  | _, _ => d

/-- A NACK (R397, R398): byte 0 of a sleepy target is repeated after WAKE_US; any other ends the transaction. -/
def Dev.twNack (d : Dev) (c byte acked : Nat) : Dev :=
  let v := d.ctl c
  match v.cur, v.hold with
  | some k, .running =>
    let d := d.emit (.twStop c)
    if byte = 0 ∧ d.tgt c v.lastEntry 0 13 13 = 1 ∧ 0 < v.wakeLeft then
      let d := d.count (twReg c 0x28) 1
      let d := match k with
        | .xfer r => d.modXfer c r fun x => { x with attempts := x.attempts + 1 }
        | .prog _ _ => d
      d.modCtl c fun v => { v with hold := .waking, wakeLeft := v.wakeLeft - 1 }
    else
      let d := d.count (twReg c 0x24) 1
      let d := match k with
        | .xfer r => d.modXfer c r fun x => { x with loss := (byte, 0), written := x.written + min acked (d.sendLen c x) }
        | .prog _ _ => d
      d.twFail c k stBusNack
  | _, _ => d

/-- A stretch ends the transaction (R394, R395): SDA is released and STOP is due once SCL rises. -/
def Dev.twStretch (d : Dev) (c acked st : Nat) : Dev :=
  let v := d.ctl c
  match v.cur, v.hold with
  | some k, .running =>
    let d := d.count (twReg c 0x2C) 1
    let d := match k with
      | .xfer r => d.modXfer c r fun x => { x with
          written := x.written + min acked (d.sendLen c x) }
      | .prog _ _ => d
    let d := d.modCtl c fun v => { v with sclHeld := true, scl := false }
    d.twFail c k st
  | _, _ => d

/-- A command ends without a completion (R103): a queue operation that waits for it counts it. -/
def Dev.vanish (d : Dev) (r : CmdRef) : Dev := ((d.dropCmd r).dropWait r true).settleQueueOps

/-- The work in hand on a bus is cut, after its byte where a transaction is under way (R103): STOP; its command ends with
`st`, or without a completion; and a TW_DISABLE that waited for it goes on. -/
def Dev.twCut (d : Dev) (c : Nat) (st : Option Nat) : Dev :=
  match (d.ctl c).cur with
  | none => d
  | some k =>
    let d := (if (d.ctl c).hold = .running then d.emit (.twStop c) else d).twClear c
    let fin := fun (d : Dev) r => match st with
      | some s => d.finish r s 0
      | none => d.vanish r
    let d := match k with
      | .xfer r => fin (d.modCtl c fun v => { v with xfers := v.xfers.filter fun y => y.ref != r }) r
      | .prog p r => match d.prog? p r with
        | none => d
        | some g => (fin ((d.unapply g).dropProg p r) r).refill p
    d.twSettle c

end Sys2Proof.Machine
end

