-- ==== Sys2Proof/Machine/StuRec.lean ====
section
/-! DEFINITION. Records and buffers of STU: the common body, CANCELLED records, taking a posted buffer (R224 to R231,
R240, R241). -/

namespace Sys2Proof.Machine

/-- Bits [hi:lo] of a latched register of a frame. -/
def ffld (f : PipeFrame) (o hi lo : Nat) : Nat := bitsOf (SMap.get 0 f.latched o).toNat hi lo

/-- The active window of a frame. -/
def fwin (f : PipeFrame) : Win := {
  x0 := ffld f (0x30100 + 0x40 * f.src) 14 0, y0 := ffld f (0x30100 + 0x40 * f.src) 29 16
  w := ffld f (0x30104 + 0x40 * f.src) 14 0 + 1, h := ffld f (0x30104 + 0x40 * f.src) 29 16 + 1 }

/-- Raw statistics measure a frame: EN, as its source latched it (R243). -/
def stuOn (f : PipeFrame) : Bool := ffld f (0x50000 + 0x40 * f.src) 0 0 == 1

/-- A raw statistics unit runs: its source's EN, while STU is not down (R235, Table 8-1). -/
def Dev.stuRawOn (d : Dev) (s : Nat) : Bool := d.sfld s (0x50000 + 0x40 * s) 0 0 == 1

/-- The 12 bytes of an LTS value in a record (R141). -/
def ltsFld (o t : Nat) : Fld := ⟨o, 12, ltsForm t⟩

/-- Bytes 32 to 63 of a statistics record (Table 8-3). -/
def stuBody (prog src state flags unitFlags expStart rows block : Nat) : List Fld :=
  [⟨32, 4, prog⟩, ⟨36, 1, src⟩, ⟨37, 1, state⟩, ⟨38, 1, flags⟩, ⟨39, 1, unitFlags⟩, ltsFld 40 expStart, ⟨52, 4, rows⟩,
   ⟨56, 8, block⟩]

/-- FLAGS of a raw frame (Table 8-3): SHORT, LONG, PROGRAM_FAULT. -/
def rawFlags (short long fault : Bool) : Nat := short.toNat + 2 * long.toNat + 16 * fault.toNat

/-- The conditions of a frame that its records carry, PROGRAM_FAULT and LONG also while it is open at its port (R229). -/
def Dev.pipeFlags (d : Dev) (f : PipeFrame) : Nat :=
  if f.closed then rawFlags f.short f.long f.fault
  else match (d.port f.src).frame with
    | none => 0
    | some g => rawFlags false (decide (0 < g.discarded)) g.progFault

/-- The second slot of FRAME_STATS (Table 8-4): black levels and dynamic replacements as stage 7 delivers them, and
what the rows measured so far hold. -/
def sxSlot (f : PipeFrame) : List Fld :=
  ((rangeFrom 0 5).map fun ch => ⟨64 + 4 * ch, 4, fromSigned 32 (SMap.get 0 f.bl ch)⟩)
    ++ ((rangeFrom 0 5).map fun ch => ⟨84 + 4 * ch, 4, if f.dual then fromSigned 32 (SMap.get 0 f.bl (5 + ch)) else 0⟩)
    ++ [⟨104, 4, satW 32 f.dpc⟩, ⟨108, 2, f.ovf⟩, ⟨112, 4, satW 32 f.clipped⟩]

/-- Frames of source `s` before frame `i` whose terminal record is still to come (R24). -/
def Dev.stuBehind (d : Dev) (s i : Nat) : List Nat :=
  (((d.rfe.frames.filter (·.src == s)).takeWhile (·.index != i)).filter fun g => !g.stuDone && stuOn g).map (·.index)

/-- A CANCELLED record of frame `i` of a raw source: it is posted once every earlier frame of the source has its
terminal record (R24, R224). -/
def Dev.cancelRaw (d : Dev) (s i : Nat) (body : List Fld) : Dev :=
  let b := d.stuBehind s i
  if b.isEmpty then d.post 0x1001 2 i 5 s body d.now
  else { d with stu := { d.stu with held := d.stu.held ++ [{ src := s, index := i, behind := b, body := body }] } }

/-- A held record still waits for a frame before its own. -/
def Dev.heldWaits (d : Dev) (h : HeldRec) : Bool :=
  d.rfe.frames.any fun g => g.src == h.src && h.behind.contains g.index && !g.stuDone

/-- Post the held records whose turn has come, in order. -/
def Dev.stuFlush (d : Dev) : Dev :=
  (d.stu.held.filter fun h => !d.heldWaits h).foldl (fun (d : Dev) h => d.post 0x1001 2 h.index 5 h.src h.body d.now)
    { d with stu := { d.stu with held := d.stu.held.filter d.heldWaits } }

/-- CANCELLED for a raw source's frame that is skipped at ingest: it reached no unit (R228). -/
def Dev.cancelSkipped (d : Dev) (s i prog flags expStart : Nat) : Dev :=
  d.cancelRaw s i (stuBody prog s 3 (flags + 4) 0 expStart 0 0)

/-- CANCELLED, SKIPPED clear, for a frame that STU has begun, unless it already has its terminal record (R228, R231). -/
def Dev.cancelFrame (d : Dev) (f : PipeFrame) : Dev :=
  if f.stuDone || !stuOn f then d
  else d.cancelRaw f.src f.index (stuBody f.prog.id f.src 3 (d.pipeFlags f + 8 * (decide (0 < f.ovf)).toNat) f.cfg.level
    f.expStart f.stuRow 0 ++ sxSlot f)

/-- The oldest posted buffer of a target, taken (R241). -/
def Dev.takeStuBuf (d : Dev) (t : Nat) : Option Buf × Dev :=
  match SMap.get [] d.stu.bufs t with
  | [] => (none, d)
  | b :: bs => (some b, { d with stu := { d.stu with bufs := SMap.put [] d.stu.bufs t bs } })

/-- Post a terminal or provisional record with a block (R241): the block is written, the record posted, the buffer
completed; without a buffer NO_BLOCK is set and counted. `rec` gives the record's body from its flags and block
address. -/
def Dev.postBlock (d : Dev) (t index type slots flags : Nat) (block : List Byte)
    (body : Nat → Nat → List Fld) : Dev :=
  let tb := d.takeStuBuf t
  match tb.1 with
  | none => ((d.count (0x50A00 + 4 * t) 1).post type slots index 5 t (body (flags + 32) 0) d.now)
  | some b =>
    let d := tb.2.writeBuf b.dev b.a0 block
    (d.post type slots index 5 t (body flags b.a0) d.now).finish b.ref stSuccess index

end Sys2Proof.Machine
end

