-- ==== Sys2Proof/Machine/PipeCfg.lean ====
section
/-! DEFINITION. What takes effect at a source's frame start: parameter blocks, tables, colour blocks, shared 3D LUTs,
the history decision, the search level and the degrade steps (R168 to R171, R176, R198, R440 to R444). -/

namespace Sys2Proof.Machine

def Dev.rfe? (d : Dev) (s : Nat) : RfeSrc := SMap.get {} d.rfe.src s

def Dev.setRfe (d : Dev) (s : Nat) (v : RfeSrc) : Dev :=
  { d with rfe := { d.rfe with src := SMap.put {} d.rfe.src s v } }

/-- A pending block or load binds at the frame start of index `i` (R176). -/
def blkDue (b : PendBlk) (i : Nat) : Bool := b.at?.all fun a => decide (a ≤ i)

/-- The bytes of the last of some blocks, else `old`. -/
def lastBytes (bs : List PendBlk) (old : List Byte) : List Byte := (bs.getLast?.map (·.bytes)).getD old

/-- Pending loads of one table that bind: in fetch order (R176). -/
def dueLoads (l : List PendBlk) (t i : Nat) : List PendBlk := (l.filter (·.table == t)).takeWhile (blkDue · i)

/-- RFE blocks and loads that bind to frame `i` of source `s`. -/
def Dev.bindRfe (d : Dev) (s i : Nat) : Dev :=
  let v := d.rfe? s
  let bs := v.blocks.filter (blkDue · i)
  let ls := (rangeFrom 0 4).flatMap fun t => dueLoads v.loads t i
  let tables := (rangeFrom 0 4).foldl (fun m t =>
    SMap.put [] m t (lastBytes (dueLoads v.loads t i) (SMap.get [] m t))) v.tables
  let d := d.setRfe s { v with
    params := lastBytes bs v.params, blocks := v.blocks.filter fun b => !blkDue b i
    tables := tables, loads := v.loads.filter fun b => !ls.contains b
    blFirst := v.blFirst || !bs.isEmpty, histReset := bs.any (·.reset) }
  d.finishAll ((bs ++ ls).map (·.ref)) stSuccess i

/-- The shared 3D LUT unit that a colour block selects (R197): 0 A, 1 B. -/
def lutUnit (blk : List Byte) : Option Nat :=
  match b8 blk 3 with
  | 1 => some 0
  | 2 => some 1
  | _ => none

/-- A source uses a unit: its colour block in effect selects it, and the source runs (R198). -/
def Dev.usesLut (d : Dev) (s u : Nat) : Bool := !d.srcStopped s && lutUnit (d.colourOf s) == some u

def Dev.lut (d : Dev) (u : Nat) : LutUnit := SMap.get {} d.cbe.luts u

def Dev.setLut (d : Dev) (u : Nat) (v : LutUnit) : Dev :=
  { d with cbe := { d.cbe with luts := SMap.put {} d.cbe.luts u v } }

/-- A frame start of source `s`: a load of unit `u` that names it binds, and it leaves the old bank (R198). -/
def Dev.bindLut (d : Dev) (s i u : Nat) : Dev :=
  let v := d.lut u
  let v := { v with behind := v.behind.filter (· != s) }
  match v.pend with
  | some b =>
    if v.pendSrc = s ∧ blkDue b i then
      (d.setLut u { v with
        loaded := true, old := v.cur, cur := b.bytes, pend := none
        behind := (rangeFrom 0 5).filter fun o => o != s && d.usesLut o u }).finish b.ref stSuccess i
    else d.setLut u v
  | none => d.setLut u v

/-- CBE blocks and loads that bind to frame `i` of source `s` (R204). -/
def Dev.bindCbe (d : Dev) (s i : Nat) : Dev :=
  let bs := (SMap.get [] d.cbe.blocks s).filter (blkDue · i)
  let d := { d with cbe := { d.cbe with
    colour := SMap.put [] d.cbe.colour s (lastBytes bs (d.colourOf s))
    blocks := SMap.put [] d.cbe.blocks s ((SMap.get [] d.cbe.blocks s).filter fun b => !blkDue b i) } }
  let d := d.finishAll (bs.map (·.ref)) stSuccess i
  (d.bindLut s i 0).bindLut s i 1

/-! ## Exposure compensation of history (R170) -/

/-- g_new / g_old is at least m / (2·65,536), by the 20,000th powers, which are exact. -/
def ratioGe (eNew gNew eOld gOld m : Nat) : Bool :=
  decide ((m * eOld) ^ 20000 * 10 ^ (gOld - gNew) ≤ (131072 * eNew) ^ 20000 * 10 ^ (gNew - gOld))

/-- The largest S in [lo, lo + 2^n) with S − 1/2 ≤ 65,536 × ratio: `n` halvings. -/
def scaleSearch (eNew gNew eOld gOld : Nat) : Nat → Nat → Nat
  | 0, lo => lo
  | n + 1, lo =>
    if ratioGe eNew gNew eOld gOld (2 * (lo + 2 ^ n) - 1) then scaleSearch eNew gNew eOld gOld n (lo + 2 ^ n)
    else scaleSearch eNew gNew eOld gOld n lo

/-- S of R170, none outside 4,096 to 1,048,576; GAIN_MDB is taken as unsigned. Gains more than 400 dB apart lie outside
for every pair of exposures of 32 bits. -/
def histScale (eNew gNew eOld gOld : Nat) : Option Nat :=
  if eNew = eOld ∧ gNew = gOld then some 65536
  else if eOld = 0 ∨ 400000 < gNew - gOld ∨ 400000 < gOld - gNew then none
  else
    let s := scaleSearch eNew gNew eOld gOld 21 0
    if 4096 ≤ s ∧ s ≤ 1048576 then some s else none

/-! ## Configuration of a processed frame -/

/-- STAGE_EN bit of a parameter block (Table 5-10). -/
def stageOn (blk : List Byte) (k : Nat) : Bool := (bn blk 0 2).testBit k

/-- History exists for frame `i` of source `s`, and its scale (R168, R170). -/
def Dev.histFor (d : Dev) (s i : Nat) (g : ProgSet) : Option Nat :=
  let v := d.rfe? s
  let near := v.lastIndex.any fun l => decide (i ≤ l + d.gapMax s + 1)
  if d.histEn s && !v.histBroken && !v.histReset && near && decide (0 < v.histRows) then
    if stageOn v.params 7 then histScale g.expNs g.gain v.histExp v.histGain else some 65536
  else none

/-- Stages that are on in a parameter block and work with a table: LIN_HG, LIN_LG, DEFECT_MAP, SHADING. -/
def tablesOn (blk : List Byte) (dual : Bool) : List Nat :=
  (rangeFrom 0 4).filter fun t => match t with
    | 0 => stageOn blk 0
    | 1 => stageOn blk 0 && dual
    | 2 => stageOn blk 2
    | _ => stageOn blk 6

/-- Bytes of a table that was staged and has not taken effect: as many as it takes, of a defect map any number of
entries. -/
def Dev.freeTable (d : Dev) (t : Nat) : List Byte :=
  let n := match t with
    | 0 | 1 => 4100
    | 2 => 4 * (Config.freeNat d.free % 262144 + 1)
    | _ => 31850
  (rangeFrom (d.free + 1) n).map fun k => BitVec.ofNat 8 (Config.freeNat k)

/-- The tables of a frame: one that a stage works with and that has never taken effect is free (log entry 21). -/
def Dev.frameTables (d : Dev) (s : Nat) : SMap (List Byte) × Dev :=
  let v := d.rfe? s
  (tablesOn v.params (d.srcDual s)).foldl (fun (m : SMap (List Byte) × Dev) t =>
    if (SMap.get [] m.1 t).isEmpty then
      let b := m.2.freeTable t
      (SMap.put [] m.1 t b, { m.2 with free := m.2.free + 1 + b.length })
    else m) (v.tables, d)

/-- What holds for frame `i`, formed at its frame start, and the source after it. -/
def Dev.frameCfg (d : Dev) (s i : Nat) (g : ProgSet) : FrameCfg × Dev :=
  let v := d.rfe? s
  let h := d.histFor s i g
  let blk := d.colourOf s
  let td := d.frameTables s
  let d := td.2
  let c : FrameCfg := {
    params := v.params, tables := td.1, colour := blk
    lut := ((lutUnit blk).map fun u => (d.lut u).cur).getD []
    lutOn := (lutUnit blk).isSome
    level := v.level, hist := h.isSome, scale := h.getD 65536, histRows := v.histRows, readB := v.histB }
  (c, d.setRfe s { v with
    lastLevel := v.level, histValid := h.isSome, lastIndex := some i, histB := !v.histB, histExp := g.expNs
    histGain := g.gain, histBroken := false, frameHwm := 0 })

/-! ## Degrade steps (R442 to R444) -/

/-- 7/8 and 1/2 of the smallest ingest buffer of the source's spokes. -/
def Dev.lBuf (d : Dev) (s : Nat) : Nat :=
  ((d.stripes s).map fun e => ingestLines e.2.2 (d.srcDual s)).foldl min 262144

/-- Island `i`. -/
def Dev.isl (d : Dev) (i : Nat) : Island := SMap.get {} d.pwr.isl i

def Dev.setIsl (d : Dev) (i : Nat) (v : Island) : Dev :=
  { d with pwr := { d.pwr with isl := SMap.put {} d.pwr.isl i v } }

/-- Guaranteed spoke rate of a gear in percent of G8 (Table 17-2). -/
def gearRate : Nat → Nat
  | 1 => 20 | 2 => 33 | 3 => 46 | 4 => 60 | 5 => 72 | 6 => 83 | 7 => 93 | 8 => 100 | _ => 0

/-- Level factor in percent (R432). -/
def levelFactor : Nat → Nat
  | 0 => 100 | 1 => 112 | 2 => 120 | _ => 125

/-- The predicted backlog of a spoke of source `s` at search level `lv` exceeds 7/8 of L_buf (R442): x / y is r × t_line / w,
with k and the level factor. A spoke without a gear, or a source without a measured line period, predicts nothing. -/
def Dev.predicted (d : Dev) (s lv : Nat) : Bool :=
  let t := SMap.get 0 d.pwr.tline s
  (d.stripes s).any fun e =>
    let v := d.isl e.1
    let x := gearRate v.gear * v.k * levelFactor lv * t
    let y := 2560000000 * e.2.2
    v.gear != 0 && t != 0 && decide (x < y) && decide (7 * d.lBuf s * y < 8 * d.srcHeight s * (y - x))

/-- The source is under pressure (R442): by the prediction, or by its previous processed frame. -/
def Dev.underPressure (d : Dev) (s : Nat) : Bool :=
  d.predicted s (d.rfe? s).level || decide (7 * d.lBuf s < 8 * (d.rfe? s).prevHwm)

def Dev.degSteps (d : Dev) (s : Nat) : List DegStep := SMap.get [] d.pwr.steps s

/-- Level at which the source would run with a step undone. -/
def undoneLevel (st : DegStep) (lv : Nat) : Nat := match st with | .level => lv - 1 | _ => lv

/-- Sprockets are restored in the reverse order of their shedding, whichever source they were shed for (R220): the step
sheds the last one that is still shed. -/
def Dev.lastShed (d : Dev) (st : DegStep) : Bool :=
  match st with
  | .shed k => (d.pwr.sheds.find? fun n => (d.spkOf n).shed).all (· == k)
  | _ => true

/-- Undo the last step taken, where the source shows no pressure, would show none with the step undone, and its last
frame kept within half its buffer (R444). -/
def Dev.undoStep (d : Dev) (s : Nat) : Dev :=
  if d.underPressure s || decide (d.lBuf s < 2 * (d.rfe? s).prevHwm) then d else
  match d.degSteps s with
  | [] => d
  | st :: t =>
    if d.predicted s (undoneLevel st (d.rfe? s).level) || !d.lastShed st then d
    else
      let d := { d with pwr := { d.pwr with steps := SMap.put [] d.pwr.steps s t } }
      match st with
      | .skip => d
      | .level => d.setRfe s { d.rfe? s with level := (d.rfe? s).level - 1 }
      | .shed k =>
        let d := { d with pwr := { d.pwr with sheds := d.pwr.sheds.filter (· != k) } }
        d.setSpk k { d.spkOf k with shed := false }

/-- A step that waits for the frame start binds, where the source is still under pressure (R443). -/
def Dev.bindStep (d : Dev) (s : Nat) : Dev :=
  match SMap.get none d.pwr.wait s with
  | none => d
  | some st =>
    let press := d.underPressure s
    let d := { d with pwr := { d.pwr with wait := SMap.put none d.pwr.wait s none } }
    if !press then d
    else
      let d := ({ d with pwr := { d.pwr with steps := SMap.put [] d.pwr.steps s (st :: d.degSteps s) } }).count 0xD0084 1
      match st with
      | .level => d.setRfe s { d.rfe? s with level := min 3 ((d.rfe? s).level + 1) }
      | _ => d

/-! ## What takes effect on a sprocket (R222 by R176) -/

/-- Path block and tables of a sprocket that bind to frame `i` of its source. -/
def Dev.bindSpk (d : Dev) (n i : Nat) : Dev :=
  let s := d.spkOf n
  let bs := s.paths.filter (blkDue · i)
  let ls := (rangeFrom 0 6).flatMap fun t => dueLoads s.loads t i
  let luts := (rangeFrom 0 6).foldl (fun m t =>
    SMap.put [] m t (lastBytes (dueLoads s.loads t i) (SMap.get [] m t))) s.luts
  let d := d.setSpk n { s with
    path := lastBytes bs s.path, paths := s.paths.filter fun b => !blkDue b i, luts := luts
    loads := s.loads.filter fun b => !ls.contains b }
  d.finishAll ((bs ++ ls).map (·.ref)) stSuccess i

/-- Sprocket `n` runs on live source `s`. -/
def Dev.spkTakes (d : Dev) (n s : Nat) : Bool :=
  let cfg := (SMap.get 0 (d.spkOf n).latched 0).toNat
  (d.spkOf n).state != .stopped && bitsOf cfg 2 0 == 1 && bitsOf cfg 6 4 == s

/-- A protected sprocket that takes source `s` holds CBE, and with it the source's spokes, back (R219). -/
def Dev.cbeHeld (d : Dev) (s : Nat) : Bool := (rangeFrom 0 8).any fun n => d.spkTakes n s && (d.spkOf n).held

/-- A frame that is skipped at ingest takes effect on the source's sprockets by its index (R176, R222); while a sprocket
is down its blocks wait. -/
def Dev.bindSkipped (d : Dev) (s i : Nat) : Dev :=
  (rangeFrom 0 8).foldl (fun (d : Dev) n =>
    if d.spkTakes n s && !d.engDown (0x18 + n) (19 + n) then d.bindSpk n i else d) d

/-- Islands of a source: its spokes, RFE shared, and the CBE slices of its spokes. -/
def Dev.srcIslands (d : Dev) (s : Nat) : List Nat :=
  d.spokesOf s ++ [16] ++ (if (d.spokesOf s).any (· < 8) then [17] else [])
    ++ if (d.spokesOf s).any (8 ≤ ·) then [18] else []

/-- A spoke, RFE shared or a CBE slice of the source is down or in reset (R157, R181). -/
def Dev.srcDown (d : Dev) (s : Nat) : Bool := (d.srcIslands s).any fun k => d.engDown k k

/-- CAUSE under which a frame of the source is skipped now (Table 4-18, R126, R157, R443). -/
def Dev.skipCause (d : Dev) (s : Nat) : Option Nat :=
  if d.srcDown s then some 2
  else if (d.degSteps s).contains .skip && d.underPressure s then
    some (if (d.srcIslands s).any fun k => decide (SMap.get 8 d.pwr.ceil k < 8) then 0 else 1)
  else none

/-- Islands that serve a source: those above, STU, and its sprockets (R440). -/
def Dev.servIslands (d : Dev) (s : Nat) : List Nat :=
  d.srcIslands s ++ [27] ++ ((rangeFrom 0 8).filter fun n => d.spkTakes n s).map (· + 19)

/-- A thermal ceiling takes effect: no island stays above it. -/
def Dev.setCeil (d : Dev) (i c : Nat) : Dev :=
  let d := { d with pwr := { d.pwr with ceil := SMap.put 8 d.pwr.ceil i c, ceilPend := SMap.put 0 d.pwr.ceilPend i 0 } }
  let v := d.isl i
  if c < v.gear then (d.setIsl i { v with gear := c }).count 0xD0080 1 else d

/-- Lowered ceilings of the islands that serve the source take effect at its frame start (R440). -/
def Dev.bindCeil (d : Dev) (s : Nat) : Dev :=
  (d.servIslands s).foldl (fun (d : Dev) i =>
    let p := SMap.get 0 d.pwr.ceilPend i
    if p = 0 then d else d.setCeil i p) d

/-- The frame has left RFE, CBE and STU, and no sprocket that takes its source still needs it. -/
def Dev.frameOver (d : Dev) (f : PipeFrame) : Bool :=
  f.closed && f.rfeDone && f.cbeDone && (f.stuDone || !stuOn f)
    && (rangeFrom 0 8).all fun n =>
      let s := d.spkOf n
      let cfg := (SMap.get 0 s.latched 0).toNat
      s.state == .stopped || bitsOf cfg 2 0 != 1 || bitsOf cfg 6 4 != f.src || s.stopping && s.cur.isNone
        || (decide (f.index < s.fromIndex) && !s.cur.any fun c => c.index == f.index)

/-- Drop the frames that nothing needs any more. -/
def Dev.sweepFrames (d : Dev) : Dev :=
  { d with rfe := { d.rfe with frames := d.rfe.frames.filter fun f => !d.frameOver f } }

end Sys2Proof.Machine
end

