-- ==== Sys2Proof/Machine/RawStage.lean ====
section
/-! DEFINITION. Packed streams of samples, and the staging ring of a raw record session (R132, R304 to R308). -/

namespace Sys2Proof.Machine

/-- Values of `w` bits as one little-endian bit stream, as a number. -/
def packBits (w : Nat) : List Nat → Nat
  | [] => 0
  | v :: t => v % 2 ^ w + 2 ^ w * packBits w t

/-- The bytes of values of `w` bits packed as a little-endian bit stream. -/
def packBytes (w : Nat) (vs : List Nat) : List Byte := leBytes (ceilDiv (vs.length * w) 8) (packBits w vs)

/-- `n` values of `w` bits from a little-endian bit stream held as a number. -/
def unpackBits (w : Nat) : Nat → Nat → List Nat
  | 0, _ => []
  | n + 1, v => v % 2 ^ w :: unpackBits w n (v / 2 ^ w)

def Dev.raw? (d : Dev) (p : Nat) : Option RawSession := SMap.get none d.lse.raw p

def Dev.setRaw (d : Dev) (p : Nat) (v : Option RawSession) : Dev :=
  { d with lse := { d.lse with raw := SMap.put none d.lse.raw p v } }

/-- Bytes of one staging slot (R304). -/
def slotBytes (s : RawSession) : Nat := ceilDiv (ceilDiv (s.width * s.height * s.planes * s.depth) 8) 4096 * 4096

/-- Every band of a staged frame has been compressed: its slot is free (R307). -/
def frameCoded (s : RawSession) (f : StagedFrame) : Bool := f.done.length == s.bands

/-- The lowest free slot of the ring. -/
def freeSlot (s : RawSession) : Option Nat :=
  (rangeFrom 0 s.slots).find? fun k => !s.ring.any fun f => f.slot == k && !frameCoded s f

/-- Rows 0 to `n` − 1 of a frame, missing ones filled with the pedestal code. -/
def fillRows (rows : List (List Nat)) (n w ped : Nat) : List (List Nat) :=
  rows ++ List.replicate (n - rows.length) (List.replicate w ped)

/-- RAW_STAGING_WRITE (R304, R307): a closed frame of port `p` goes into its session's ring, or is dropped and counted.
The flags are those of Table 11-2. -/
def Dev.stageRaw (d : Dev) (p : Nat) (f : Frame) (flags : Nat) : Dev :=
  match d.raw? p with
  | none => d
  | some s =>
    match freeSlot s with
    | none => (d.setRaw p (some { s with dropped := satW 32 (s.dropped + 1) })).count 0x70040 1
    | some k =>
      let rows := fillRows f.rows s.height (s.width * s.planes) (d.pedestal p)
      let g : StagedFrame := {
        index := f.index, flags := flags, lines := f.lines, progId := f.prog.id, expStart := f.expStart
        pedestal := d.pedestal p, rows := rows, slot := k, width := s.width, height := s.height
        depth := s.depth, planes := s.planes, px := s.px, py := s.py }
      let d := d.setRaw p (some { s with ring := s.ring ++ [g] })
      d.writeBuf true (s.stage + k * slotBytes s) (packBytes s.depth rows.flatten)

end Sys2Proof.Machine
end

