-- ==== Sys2Proof/Machine/Teu.lean ====
section
/-! DEFINITION. The Timing Event Unit: output levels, routing, stamps, scheduled pulses and class 0x0A commands (R143 to
R147, R521). -/

namespace Sys2Proof.Machine

open Host

/-- EV_CFG of a pin, bits [hi:lo] (Table 4-20). -/
def Dev.ev (d : Dev) (n hi lo : Nat) : Nat := d.fld (0xB0000 + 4 * n) hi lo

def Dev.evIn (d : Dev) (n : Nat) : Bool := d.teu.enabled.testBit n && d.ev n 1 0 == 1
def Dev.evOut (d : Dev) (n : Nat) : Bool := d.teu.enabled.testBit n && d.ev n 1 0 == 2

/-- A number with bit `n` set to `b`. -/
def setBit (v n : Nat) (b : Bool) : Nat := if v.testBit n == b then v else v ^^^ 2 ^ n

/-- An enabled input pin at its active level, after its own POL (R144). -/
def Dev.evActive (d : Dev) (n : Nat) : Bool := d.evIn n && (d.teu.levels.testBit n != (d.ev n 2 2 == 1))

/-- S of R144: the SNI signal that SIG selects. TRIG_EV adds nothing to it: the pin that it names shows the trigger where
that pin's SIG selects the port, as R129 requires of it, and none does where it does not (log entry 74). -/
def Dev.evSig (d : Dev) (n : Nat) : Bool :=
  let k := d.ev n 15 12
  if 1 ≤ k ∧ k ≤ 4 then (d.port (k - 1)).trigHigh
  else if 5 ≤ k ∧ k ≤ 8 then (d.port (k - 5)).fsUntil.isSome
  else false

/-- The level that an enabled output pin drives (R144). -/
def Dev.evLevel (d : Dev) (n : Nat) : Bool :=
  let r := (rangeFrom 0 16).any fun i => (d.ev n 31 16).testBit i && d.evActive i
  let p := d.teu.pulses.any fun q => q.pin == n && q.high
  (d.ev n 2 2 == 1) != (r || d.evSig n || p)

/-- Stamp an edge where STAMP selects it: into the stamp FIFO, or lost and counted where that is full (R146). The stamp
has 1 ns resolution: where in the 4 ns of the tick the edge falls is free (log entry 75). -/
def Dev.stamp (d : Dev) (n : Nat) (rising driven : Bool) : Dev :=
  if (d.ev n 9 8).testBit (if rising then 0 else 1) then
    if Config.stampDepth ≤ d.teu.fifo.length then d.count 0xB0044 1
    else
      let x := d.draw
      let t := (d.now / tNs + x.1 % 4) * tNs
      { x.2 with teu := { d.teu with fifo := d.teu.fifo ++ [{ pin := n, rising := rising, driven := driven, time := t }] } }
  else d

/-- The oldest stamp leaves the FIFO as an EDGE record (R146, Table 4-19): one a tick (log entry 75). -/
def Dev.stampOut (d : Dev) : Dev :=
  match d.teu.fifo with
  | [] => d
  | e :: es =>
    ({ d with teu := { d.teu with fifo := es } }).post 0x4001 1 ones64 0xB e.pin
      [⟨32, 1, e.pin⟩, ⟨33, 1, e.rising.toNat + 2 * e.driven.toNat⟩] e.time

/-- An edge that follows, or is followed by, another on its pin in less than 4 ns is not stamped and counts in TEU_LOST
(R146). -/
def Dev.stampEdge (d : Dev) (n : Nat) (rising driven near : Bool) : Dev :=
  let was := d.teu.near.contains n
  let rest := d.teu.near.filter (· != n)
  let d := { d with teu := { d.teu with near := if near then n :: rest else rest } }
  if was || near then d.count 0xB0044 1 else d.stamp n rising driven

/-- Drive the enabled output pins at their levels (R144); edges that change a pin are stamped. -/
def Dev.driveOuts (d : Dev) (near : Bool) : Dev :=
  (rangeFrom 0 16).foldl (fun d n =>
    if d.evOut n && d.evLevel n != d.teu.levels.testBit n then
      let v := d.evLevel n
      (({ d with teu := { d.teu with levels := setBit d.teu.levels n v } }).emit (.evPin n v)).stampEdge n v true near
    else d) d

/-- The outputs follow a change of a signal, a pulse or a route. -/
def Dev.teuUpdate (d : Dev) : Dev := d.driveOuts false

/-! ## Class 0x0A (R521, Table 4-21) -/

/-- Offences common to class 0x0A: mode, dword 1, reserved bits. -/
def Dev.evOffs (d : Dev) (c : Cmd) (fields : List (Nat × Nat × Nat)) : List Offence :=
  modeOff d.boot.mode.driver ++ dw1Offs c false ++ resOffs c fields

def specPinEnable : CmdSpec := { cls := 0x0A, opc := 0x01, offs := fun d c => d.evOffs c [(4, 15, 0)] }
def specPinDisable : CmdSpec := { cls := 0x0A, opc := 0x02, offs := fun d c => d.evOffs c [(4, 15, 0)] }

/-- EV_CFG of a pin holds a reserved value (Table 4-20). -/
def Dev.evBad (d : Dev) (n : Nat) : Bool := d.ev n 1 0 == 3 || decide (8 < d.ev n 15 12)

/-- The effect of PIN_ENABLE: a reserved DIR or SIG of a pin it enables is a set-up register fault (R518). An input pin
begins at the level last known, 0 at reset, until an edge event tells another (DESIGN CHOICE, log entry 74). -/
def pinEnable (r : CmdRef) (c : Cmd) (d : Dev) : Dev :=
  let m := c.f 4 15 0
  if (rangeFrom 0 16).any fun n => m.testBit n && !d.teu.enabled.testBit n && d.evBad n then d.setupFault r
  else
    let d := ({ d with teu := { d.teu with enabled := d.teu.enabled ||| m } }).teuUpdate
    d.finish r stSuccess d.teu.enabled

/-- PIN_ENABLE (R143). -/
def execPinEnable (r : CmdRef) (s : State) : Outcome State Fault Refusal :=
  lift (runCmd specPinEnable r (pinEnable r)) s

/-- The SCHEDULE_EDGEs of a disabled pin complete ENGINE_DOWN (R143). -/
def Dev.endPulses (d : Dev) (n : Nat) : Dev :=
  let ps := d.teu.pulses.filter (·.pin == n)
  ps.foldl (fun d p => d.finish p.ref stEngineDown p.driven)
    { d with teu := { d.teu with pulses := d.teu.pulses.filter (·.pin != n) } }

/-- The effect of PIN_DISABLE. -/
def pinDisable (r : CmdRef) (c : Cmd) (d : Dev) : Dev :=
  let m := c.f 4 15 0
  let d := { d with teu := { d.teu with enabled := d.teu.enabled &&& (0xFFFF ^^^ m) } }
  let d := ((rangeFrom 0 16).filter (m.testBit ·)).foldl Dev.endPulses d
  d.teuUpdate.finish r stSuccess d.teu.enabled

/-- PIN_DISABLE (R143). -/
def execPinDisable (r : CmdRef) (s : State) : Outcome State Fault Refusal :=
  lift (runCmd specPinDisable r (pinDisable r)) s

/-- A time operand is given and lies less than 2 us ahead of the command's fetch (R147). -/
def tooSoon (c : Cmd) (i : Nat) : Bool := decide (cmdLts c i < c.since + 2 * tUs)

def specSetRoute : CmdSpec := {
  cls := 0x0A, opc := 0x03
  offs := fun d c =>
    d.evOffs c [(4, 3, 0), (4, 31, 16), (5, 31, 0), (6, 31, 0), (7, 31, 0)] ++ off 4 0 (d.ev (c.f 4 3 0) 1 0 != 2)
      ++ off 5 0 ((c.w 5 != 0 || c.w 6 != 0 || c.w 7 != 0) && tooSoon c 5) }

/-- Replace ROUTE of a pin in one step (R147). -/
def Dev.putRoute (d : Dev) (n route : Nat) : Dev :=
  let o := 0xB0000 + 4 * n
  (d.setReg o (d.reg o % 65536 + route * 65536)).teuUpdate

/-- SET_ROUTE (R147): at once with AT 0, else at its LTS time. -/
def execSetRoute (r : CmdRef) (s : State) : Outcome State Fault Refusal :=
  lift (runCmd specSetRoute r fun c d =>
    let n := c.f 4 3 0
    let rt := c.f 4 31 16
    if c.w 5 = 0 ∧ c.w 6 = 0 ∧ c.w 7 = 0 then (d.putRoute n rt).finish r stSuccess 0
    else { d.begin r with teu := { d.teu with
      routes := d.teu.routes ++ [{ ref := r, pin := n, route := rt, time := cmdLts c 5 }] } }) s

/-- The waiting route change of a SET_ROUTE takes place, not before its LTS time. -/
def Dev.routeAt (d : Dev) (r : CmdRef) : Dev :=
  match d.teu.routes.find? (·.ref == r) with
  | none => d
  | some w =>
    if d.now < w.time then d else
    let d := { d with teu := { d.teu with routes := d.teu.routes.filter (·.ref != r) } }
    (d.putRoute w.pin w.route).finish r stSuccess 0

/-- ROUTE_AT (R147). -/
def execRouteAt (r : CmdRef) (s : State) : Outcome State Fault Refusal := lift (fun d => d.routeAt r) s

def specScheduleEdge : CmdSpec := {
  cls := 0x0A, opc := 0x10
  offs := fun d c =>
    d.evOffs c [(4, 3, 0), (4, 31, 16), (5, 31, 0), (6, 31, 0), (7, 31, 0), (8, 31, 0), (9, 31, 0)]
      ++ off 4 0 (d.ev (c.f 4 3 0) 1 0 != 2) ++ off 5 0 (tooSoon c 5) ++ off 8 0 (decide (c.w 8 < 4))
      ++ off 9 0 (c.f 4 31 16 != 0 && decide (c.w 9 < c.w 8 + 4)) }

/-- SCHEDULE_EDGE (R147): ENGINE_DOWN on a pin that is not enabled (R143). -/
def execScheduleEdge (r : CmdRef) (s : State) : Outcome State Fault Refusal :=
  lift (runCmd specScheduleEdge r fun c d =>
    let n := c.f 4 3 0
    if !d.teu.enabled.testBit n then d.finish r stEngineDown 0
    else { d.begin r with teu := { d.teu with pulses := d.teu.pulses ++ [{
        ref := r, pin := n, start := cmdLts c 5, width := c.w 8, period := c.w 9, count := c.f 4 31 16 + 1 }] } }) s

def Dev.pulse? (d : Dev) (r : CmdRef) : Option Pulses := d.teu.pulses.find? (·.ref == r)

def Dev.modPulse (d : Dev) (r : CmdRef) (f : Pulses → Pulses) : Dev :=
  { d with teu := { d.teu with pulses := updFirst (·.ref == r) f d.teu.pulses } }

/-- LTS at which pulse `k` of a train starts: START and k periods (R147). -/
def pulseAt (p : Pulses) (k : Nat) : Nat := p.start + k * p.period * tNs

/-- The next pulse of a train starts, not before its LTS time. -/
def Dev.pulseStart (d : Dev) (r : CmdRef) : Dev :=
  match d.pulse? r with
  | none => d
  | some p => if p.high || p.ending.isSome || decide (p.count ≤ p.driven) || decide (d.now < pulseAt p p.driven) then d
    else (d.modPulse r fun p => { p with high := true, driven := p.driven + 1 }).teuUpdate

/-- SCHEDULED_PULSE_START (R147). -/
def execScheduledPulseStart (r : CmdRef) (s : State) : Outcome State Fault Refusal := lift (fun d => d.pulseStart r) s

/-- The pulse in progress ends, not before WIDTH_NS have passed in the LTS since its time; after the last one, or under an ABORT, the command completes with the pulses driven. -/
def Dev.pulseEnd (d : Dev) (r : CmdRef) : Dev :=
  match d.pulse? r with
  | none => d
  | some p => if !p.high || decide (d.now < pulseAt p (p.driven - 1) + p.width * tNs) then d else
    let d := (d.modPulse r fun p => { p with high := false }).teuUpdate
    if p.ending.isSome || decide (p.count ≤ p.driven) then
      ({ d with teu := { d.teu with pulses := d.teu.pulses.filter (·.ref != r) } }).finish r
        (p.ending.getD stSuccess) p.driven
    else d

/-- SCHEDULED_PULSE_END (R147). -/
def execScheduledPulseEnd (r : CmdRef) (s : State) : Outcome State Fault Refusal := lift (fun d => d.pulseEnd r) s

/-! ## Input edges (R131, R145, R146) -/

/-- FILTER in ns (Table 4-20). -/
def filterNs : Nat → Nat | 0 => 0 | 1 => 10 | 2 => 100 | _ => 1000

/-- An edge on an enabled input: the outputs follow at once, past FILTER; an edge that stays for FILTER is stamped and
counts as the exposure strobe of the ports that use the pin (Table 4-8). -/
def Dev.evEdge (d : Dev) (n : Nat) (rising : Bool) (stable : Nat) : Dev :=
  if !d.evIn n then d else
  let d := { d with teu := { d.teu with levels := setBit d.teu.levels n rising } }
  let d := d.driveOuts (decide (stable < 4))
  if stable < filterNs (d.ev n 11 10) then d
  else
    let d := d.stampEdge n rising false (decide (stable < 4))
    (rangeFrom 0 4).foldl (fun d p =>
      if d.sfld p (0x20010 + 0x100 * p) 11 8 = n then d.modPort p fun v => { v with lastExpEdge := some d.now }
      else d) d

/-- EV_INPUT_EDGE (R145, R146). -/
def execEvInputEdge (pin : Fin 16) (rising : Bool) (stableNs : Nat) (s : State) : Outcome State Fault Refusal :=
  lift (fun d => d.evEdge pin.val rising stableNs) s

/-- TRIG_WIDTH_US after a due time the exposure trigger falls (R129). -/
def execExposureTriggerEnd (p : Fin 4) (s : State) : Outcome State Fault Refusal :=
  lift (fun d => if (d.port p.val).trigHigh && decide ((d.port p.val).trigEnd ≤ d.now) then (d.modPort p.val fun v => { v with trigHigh := false }).teuUpdate
    else d) s

end Sys2Proof.Machine
end

