-- ==== Sys2Proof/Machine/PortCheck.lean ====
section
/-! DEFINITION. The checks that START_PORT and MP_FRAME make on set-up registers, CFG_ERR by code (R109, R116, R119,
R152, R156, R159, R172, R197, R203, R243, R305, R306, Table 4-10). -/

namespace Sys2Proof.Machine

/-! ## Fractions of demand -/

/-- Sum of fractions given as (numerator, denominator). -/
def sumFrac (l : List (Nat × Nat)) : Nat × Nat :=
  l.foldl (fun a b => (a.1 * b.2 + b.1 * a.2, a.2 * b.2)) (0, 1)

/-- Expected frame time of a port in us, as a fraction: FRAME_US, or one schedule period (R124, R156). -/
def Dev.frameUs (d : Dev) (p : Nat) (sched : Option (Nat × Nat)) : Nat × Nat :=
  match sched with
  | some (num, den) => (den * 1000000, num)
  | none => (d.sfld p (0x20008 + 0x100 * p) 23 0, 1)

/-- Schedule of a running port. -/
def Dev.portRate (d : Dev) (p : Nat) : Option (Nat × Nat) :=
  if (d.port p).scheduled then some ((d.port p).rateNum, (d.port p).rateDen) else none

/-- `k` units a frame, over the frame time: units per us. -/
def perUs (k : Nat) (t : Nat × Nat) : Nat × Nat := (k * t.2, t.1)

/-- A fraction is at most `n`. -/
def fracLe (f : Nat × Nat) (n : Nat) : Bool := decide (f.1 ≤ n * f.2)

/-! ## SNI -/

/-- Lanes or links that the columns divide among (R112, R116). -/
def Dev.portLanes (d : Dev) (p : Nat) : Nat :=
  let o := 0x20000 + 0x100 * p
  if d.fld o 1 0 = 1 then d.fld o 6 2 else d.fld o 9 8 + 1

/-- Mode and lane count (Table 4-1). -/
def Dev.modeErr (d : Dev) (p : Nat) : Bool :=
  let o := 0x20000 + 0x100 * p
  match d.fld o 1 0 with
  | 1 => !([1, 2, 4, 8, 10, 16, 20].contains (d.fld o 6 2))
  | 2 => d.fld o 11 10 == 3
  | _ => true

/-- Lane rate (Table 4-1). -/
def Dev.rateErr (d : Dev) (p : Nat) : Bool :=
  let r := d.fld (0x20000 + 0x100 * p) 28 16
  decide (r < 80) || decide ((if d.fld (0x20000 + 0x100 * p) 1 0 = 1 then 4000 else 4500) < r)

/-- Registers that all ports of a gang must share: mode, lane count, rate, depth (R115). -/
def Dev.gangErr (d : Dev) (p : Nat) : Bool :=
  let o := 0x20000 + 0x100 * p
  let g := d.gangOf p
  (rangeFrom g.1 g.2).any fun k =>
    let q := 0x20000 + 0x100 * k
    !d.portStopped k || d.fld q 1 0 != d.fld o 1 0 || d.fld q 13 12 != d.fld o 13 12 || d.fld q 28 16 != d.fld o 28 16
      || (if d.fld o 1 0 = 1 then d.fld q 6 2 != d.fld o 6 2 else d.fld q 11 8 != d.fld o 11 8)

/-! ## RFE, CBE, STU (judged on the registers as they stand) -/

/-- Geometry of a source to be started: width, height, depth, dual gain. -/
structure Geom where
  w : Nat
  h : Nat
  depth : Nat
  dual : Bool

def Dev.portGeom (d : Dev) (p : Nat) : Geom := {
  w := d.fld (0x20004 + 0x100 * p) 14 0 + 1, h := d.fld (0x20004 + 0x100 * p) 29 16 + 1
  depth := 10 + 2 * d.fld (0x20000 + 0x100 * p) 13 12, dual := d.fld (0x20000 + 0x100 * p) 14 14 == 1 }

/-- Spokes that the map gives a source. -/
def Dev.spokesNow (d : Dev) (s : Nat) : List Nat :=
  (rangeFrom 0 16).filter fun k => d.fld (0x30000 + 4 * (k / 8)) (4 * (k % 8) + 3) (4 * (k % 8)) == s

/-- The window as the registers have it. -/
def Dev.winNow (d : Dev) (s : Nat) : Win := {
  x0 := d.fld (0x30100 + 0x40 * s) 14 0, y0 := d.fld (0x30100 + 0x40 * s) 29 16
  w := d.fld (0x30104 + 0x40 * s) 14 0 + 1, h := d.fld (0x30104 + 0x40 * s) 29 16 + 1 }

/-- The stripes are 8 to 1,280 sites wide (R152). -/
def stripesBad (w n : Nat) : Bool :=
  n == 0 || (rangeFrom 0 n).any fun i => decide ((stripe w n i).2 < 8) || decide (1280 < (stripe w n i).2)

/-- Width of a stripe (first column, width) inside a window. -/
def clipTo (st : Nat × Nat) (v : Win) : Nat := min (st.1 + st.2) (v.x0 + v.w) - max st.1 v.x0

def stripeInWin (w n i : Nat) (v : Win) : Nat := clipTo (stripe w n i) v

/-- Bytes of one slot of a history row (R172). -/
def histSlot (w : Nat) : Nat := ceilDiv (4 + 65 * ceilDiv w 32) 32 * 32

/-- Bytes of one history row, and of the region at RFE_HIST_BASE (R172). -/
def histRow (w n : Nat) (v : Win) : Nat := ((rangeFrom 0 n).map fun i => histSlot (stripeInWin w n i v)).sum

def histRegion (w n : Nat) (v : Win) : Nat := 2 * histRow w n v * v.h + 2 * (ceilDiv v.h 2 * ceilDiv v.w 2)

/-- Two ranges (base, length) overlap. -/
def overlaps (a b : Nat × Nat) : Bool := decide (a.1 < b.1 + b.2) && decide (b.1 < a.1 + a.2)

/-- The context store: base and bytes (Table 3-11). -/
def Dev.ctxRange (d : Dev) : Nat × Nat := (d.reg64 0x68 / 4096 * 4096, 128 * 2 ^ d.fld 0x4C 4 0)

/-- The history region breaks R172. -/
def Dev.histBad (d : Dev) (s w n : Nat) (v : Win) : Bool :=
  d.fld (0x3010C + 0x40 * s) 0 0 == 1 &&
    let b := d.reg64 (0x30110 + 0x40 * s) / 4096 * 4096
    b == 0 || d.devBad b (histRegion w n v) || overlaps (b, histRegion w n v) d.ctxRange

/-- OB windows of a parameter block fit the window and first stripe (R159). -/
def obBad (blk : List Byte) (w n : Nat) (v : Win) (px : Nat) : Bool :=
  let m := b8 blk 2
  let r0 := bitsOf (bn blk 44 4) 13 0
  let rn := bitsOf (bn blk 44 4) 29 16
  let c0 := bitsOf (bn blk 48 4) 14 0
  let cn := bitsOf (bn blk 48 4) 25 16
  (m != 0 && decide (v.y0 < r0 + rn)) || (m == 2 && (decide (cn < px) || decide ((stripe w n 0).2 < c0 + cn)))

/-- Parameter blocks that hold for a source from its first frame on: the one in effect there, and those still pending. -/
def Dev.paramsFrom (d : Dev) (s first : Nat) : List (List Byte) :=
  let v := SMap.get {} d.rfe.src s
  lastBytes (v.blocks.filter (blkDue · first)) v.params :: (v.blocks.filter fun b => !blkDue b first).map (·.bytes)

/-- The RFE checks of a source with geometry `g` and index `first` (R152). -/
def Dev.rfeErr (d : Dev) (s : Nat) (g : Geom) (px first : Nat) : Bool :=
  let n := (d.spokesNow s).length
  let v := d.winNow s
  stripesBad g.w n || decide (g.w < 32) || decide (g.h < 32) || decide (v.w < 32) || decide (v.h < 32)
    || decide (g.w < v.x0 + v.w) || decide (g.h < v.y0 + v.h) || decide (13 < d.fld (0x3010C + 0x40 * s) 15 12)
    || decide (5 < d.fld (0x3010C + 0x40 * s) 11 8) || d.histBad s g.w n v
    || (d.paramsFrom s first).any fun b => obBad b g.w n v px

/-- The largest average demand of a stripe exceeds 1.0 Gpixel/s (R156). -/
def Dev.demandErr (d : Dev) (s : Nat) (g : Geom) (t : Nat × Nat) : Bool :=
  let n := (d.spokesNow s).length
  (rangeFrom 0 n).any fun i => !fracLe (perUs ((stripe g.w n i).2 * g.h) t) 1000

/-- The description that CBE_SRC_CFG of a stopped source selects. -/
def Dev.cfaNow (d : Dev) (s : Nat) : Option Cfa := d.cfaSlot (d.fld (0x40000 + 0x40 * s) 4 0)

/-- Colour blocks in effect or pending for a frame `i` of a source. -/
def Dev.colourFor (d : Dev) (s i : Nat) : List (List Byte) :=
  d.colourOf s :: ((SMap.get [] d.cbe.blocks s).filter (blkDue · i)).map (·.bytes)

/-- The CBE checks (R203): slot, shifts, and for a loaded description a bank that matches, in effect or pending for the
first frame. -/
def Dev.cbeErr (d : Dev) (s first : Nat) : Bool :=
  match d.cfaNow s with
  | none => true
  | some c =>
    decide (c.px ≤ d.fld (0x40000 + 0x40 * s) 10 8) || decide (c.py ≤ d.fld (0x40000 + 0x40 * s) 14 12)
      || (decide (5 ≤ d.fld (0x40000 + 0x40 * s) 4 0)
        && !(d.colourFor s first).any fun b => !b.isEmpty && d.bankFits (b8 b 0) c)

/-- The STU checks (R243). -/
def Dev.stuErr (d : Dev) (s : Nat) : Bool :=
  let o := 0x50000 + 0x40 * s
  let e := d.fld o 14 8
  decide (e < 1) || decide (112 < e) || decide (20 < d.fld (o + 4) 28 24) || decide (20 < d.fld (o + 4) 20 16)
    || decide (20 < d.fld (o + 4) 12 8) || decide (20 < d.fld (o + 4) 4 0)

/-- Average demand of a running source on its 3D LUT unit (R197): its whole frame in pixels per us. -/
def Dev.lutDemand (d : Dev) (s : Nat) : Nat × Nat :=
  if s < 4 then perUs (d.srcWidth s * d.srcHeight s) (d.frameUs s (d.portRate s)) else (0, 1)

/-- Units that a source selects in a block in effect or pending. -/
def Dev.lutSelects (d : Dev) (s u : Nat) : Bool :=
  (d.colourOf s :: (SMap.get [] d.cbe.blocks s).map (·.bytes)).any fun b => lutUnit b == some u

/-- Adding `dem` on unit `u` for source `s` would pass 8 Gpixel/s (R197). -/
def Dev.lutOver (d : Dev) (s u : Nat) (dem : Nat × Nat) : Bool :=
  let others := (rangeFrom 0 4).filter fun o => o != s && !d.srcStopped o && d.lutSelects o u
  !fracLe (sumFrac (dem :: others.map d.lutDemand)) 8000

def Dev.lutErr (d : Dev) (s : Nat) (dem : Nat × Nat) : Bool :=
  (rangeFrom 0 2).any fun u => d.lutSelects s u && d.lutOver s u dem

/-! ## Raw record session (R305, R306, Table 11-1) -/

/-- Lane rate of a level at G8, in Mbit/s. -/
def laneRate : Nat → Nat
  | 1 => 16000 | 2 => 14000 | 3 => 12000 | 4 => 10000 | 5 => 8000 | 6 => 6000 | 7 => 4500 | 8 => 3000 | _ => 2000

/-- Rows of a band (R306). -/
def bandRows (h bands py : Nat) : Nat := ceilDiv (ceilDiv h bands) py * py

/-- The load of a session in lanes, as a fraction. -/
def rawLoad (level : Nat) (dem : Nat × Nat) : Nat × Nat := (dem.1, dem.2 * laneRate level)

/-- Demand of a bound port's session in Mbit/s (R305). -/
def Dev.rawDemand (d : Dev) (p : Nat) : Nat × Nat :=
  perUs (d.srcWidth p * d.srcHeight p * (if d.srcDual p then 2 else 1) * d.srcDepth p) (d.frameUs p (d.portRate p))

/-- Loads of the bound ports but `p`, a stopped one by its registers (R305). -/
def Dev.otherLoads (d : Dev) (p : Nat) : List (Nat × Nat) :=
  ((rangeFrom 0 4).filter (· != p)).filterMap fun q =>
    (d.raw? q).map fun s => rawLoad s.level (d.rawDemand q)

/-- Number of set bits below `n`. -/
def popCount (v n : Nat) : Nat := ((rangeFrom 0 n).filter (v.testBit ·)).length

/-- The raw session of the port does not take it. -/
def Dev.rawErr (d : Dev) (p : Nat) (g : Geom) (t : Nat × Nat) (py : Nat) : Bool :=
  match d.raw? p with
  | none => false
  | some s =>
    let planes := if g.dual then 2 else 1
    let dem := perUs (g.w * g.h * planes * g.depth) t
    !fracLe (dem.1, dem.2 * s.bands) (laneRate s.level)
      || !fracLe (sumFrac (rawLoad s.level dem :: d.otherLoads p)) (popCount (d.fld 0x70000 11 0) 12)
      || decide (g.h ≤ (s.bands - 1) * bandRows g.h s.bands py)
      || d.devBad s.stage (s.slots * slotBytes { s with width := g.w, height := g.h, planes := planes, depth := g.depth })

/-! ## CFG_ERR -/

/-- The schedule that a START_PORT gives its port: rate, epoch, offset; from the group with PELOTON (R128). -/
def Dev.startSched (d : Dev) (c : Cmd) : Option Sched :=
  if !c.b 4 2 then none
  else if c.b 4 3 then d.pelSched
  else some { num := c.w 5, den := c.w 6, epoch := cmdLts c 7, offNs := c.w 10 }

/-- Rate of the schedule. -/
def schedRate (s : Option Sched) : Option (Nat × Nat) := s.map fun v => (v.num, v.den)

/-- CFG_ERR of a START_PORT, 0 where every check passes (Table 4-10). R152, R197, R203, R243 and R305 give code 3 for the
stripes, LUT, CBE, STU and raw path; FRAME_US 0, the demand of R156, and OB_COLS and history against the stripes take it
as well, for which the spec names no code (DESIGN CHOICE, log entry 74). -/
def Dev.startErr (d : Dev) (p : Nat) (sc : Option Sched) (first : Nat) : Nat :=
  let g := d.portGeom p
  let t := match schedRate sc with
    | some (num, den) => (den * 1000000, num)
    | none => (d.fld (0x20008 + 0x100 * p) 23 0, 1)
  let cf := d.cfaNow p
  let px := (cf.map (·.px)).getD 1
  let py := (cf.map (·.py)).getD 1
  let ctl := d.fld (0x20010 + 0x100 * p) 15 13
  if d.modeErr p then 1
  else if d.rateErr p then 2
  else if decide (20480 < g.w) || decide (16384 < g.h) || g.w % ((d.gangOf p).2 * d.portLanes p) != 0 || t.1 == 0
      || d.rfeErr p g px first || d.demandErr p g t || d.cbeErr p first || d.stuErr p || d.lutErr p (perUs (g.w * g.h) t)
      || d.rawErr p g t py then 3
  else if d.gangErr p then 4
  else if d.fld (0x20010 + 0x100 * p) 12 12 == 1 && !d.evIn (d.fld (0x20010 + 0x100 * p) 11 8) then 5
  else if d.twOff ctl then 6
  else 0

end Sys2Proof.Machine
end

