-- ==== Sys2Proof/Machine/F24.lean ====
section
/-! DEFINITION. The f24 number format, its exact sums and products with one rounding, the LUT formats, and the built-in
encodings (R189 to R191, R194, R195, R200, R201). An f24 value is a whole multiple of 2^-78. -/

namespace Sys2Proof.Machine

/-! ## f24 (R189, R190) -/

/-- The value of an f24 word times 2^78. -/
def fx (w : Nat) : Int :=
  let e := w / 65536 % 128
  if e = 0 then 0
  else
    let m : Int := ((65536 + w % 65536) * 2 ^ (e - 1) : Nat)
    if w / 8388608 % 2 = 1 then -m else m

/-- Round a positive fraction to the nearest integer, ties to even. -/
def roundEven (n d : Nat) : Nat :=
  let q := n / d
  let r := n % d
  if 2 * r < d then q else if d < 2 * r then q + 1 else q + q % 2

/-- floor(log2(n / d)) of a positive fraction, plus 4,096. -/
def log2Frac (n d : Nat) : Nat :=
  let e := 4096 + Nat.log2 n - Nat.log2 d
  if d * 2 ^ (e - 4096) ≤ n * 2 ^ (4096 - e) then e else e - 1

/-- The f24 word without sign of a positive fraction (R190). -/
def f24Mag (n d : Nat) : Nat :=
  let e := log2Frac n d
  let m := roundEven (n * 2 ^ (4112 - e)) (d * 2 ^ (e - 4112))
  let e := if m = 131072 then e + 1 else e
  let m := if m = 131072 then 65536 else m
  if 4160 < e then 0x7FFFFF
  else if e < 4034 then 0
  else (e - 4033) * 65536 + (m - 65536)

/-- The f24 word of the exact value n / d (R190). -/
def f24Of (n : Int) (d : Nat) : Nat :=
  if n = 0 ∨ d = 0 then 0
  else
    let m := f24Mag n.natAbs d
    if m = 0 then 0 else if n < 0 then 8388608 + m else m

/-- The f24 word of an exact sum of products of `k` f24 values each, times 2^(78k). -/
def f24Fx (k : Nat) (n : Int) : Nat := f24Of n (2 ^ (78 * k))

/-- 2^78 and 2^156, the scales of one f24 value and of a product of two. -/
abbrev fxOne : Int := 2 ^ 78

/-- Word `i` of f24 containers from byte `o`. -/
def fw (blk : List Byte) (o i : Nat) : Nat := bn blk (o + 4 * i) 3

/-! ## 1D LUTs (R194, Table 6-8) -/

/-- A 1D LUT by its header and entries. -/
structure Lut1 where
  mode : Nat
  sign : Nat
  e0 : Nat
  min : Nat
  max : Nat
  slope : Nat
  e : Nat → Nat

/-- The record of a 1D LUT at byte `o`. -/
def lut1Of (blk : List Byte) (o : Nat) : Lut1 := {
  mode := b8 blk o, sign := b8 blk (o + 1), e0 := b8 blk (o + 2), min := fw blk (o + 4) 0, max := fw blk (o + 8) 0
  slope := fw blk (o + 12) 0, e := fun i => fw blk (o + 16) i }

/-- e[i] + (e[i+1] − e[i]) × n / d, exact and rounded once. -/
def between (l : Lut1) (i : Nat) (n : Int) (d : Nat) : Nat :=
  f24Of (fx (l.e i) * d + (fx (l.e (i + 1)) - fx (l.e i)) * n) (2 ^ 78 * d)

/-- MODE 0: UNIFORM. -/
def lutUniform (l : Lut1) (x : Int) : Nat :=
  let lo := fx l.min
  let span := (fx l.max - lo).toNat
  if x < lo then
    (if l.sign = 2 then f24Of (fx (l.e 0) * fxOne + (x - lo) * fx l.slope) (2 ^ 156) else l.e 0)
  else
    let p := (x - lo).toNat * 4095
    if 4095 * span ≤ p then l.e 4095 else between l (p / span) (p % span : Nat) span

/-- MODE 1 at or above the first knot, for a positive word. -/
def lutLogUp (l : Lut1) (w : Nat) : Nat :=
  let i := (w / 65536 % 128 - l.e0) * 64 + w % 65536 / 1024
  if 4095 ≤ i then l.e 4095 else between l i (w % 1024 : Nat) 1024

/-- Flip the sign of an f24 word. -/
def f24Neg (w : Nat) : Nat := if w = 0 then 0 else w ^^^ 8388608

/-- MODE 1: LOG2, for a word whose value is not negative, below the first knot. -/
def lutLogLow (l : Lut1) (x : Int) : Nat := f24Of (fx (l.e 0) * x * 2 ^ 63) (2 ^ 156 * 2 ^ l.e0)

/-- x reaches the first knot x0 = 2^(E0 − 63). -/
def reaches (l : Lut1) (x : Int) : Bool := decide (2 ^ (78 + l.e0) ≤ x * 2 ^ 63)

/-- MODE 1: LOG2. -/
def lutLog (l : Lut1) (w : Nat) : Nat :=
  let x := fx w
  if reaches l x then lutLogUp l w
  else
    match l.sign with
    | 2 => f24Of ((fx (l.e 0) * fxOne + x * fx l.slope) * 2 ^ 63 - fx l.slope * 2 ^ (78 + l.e0)) (2 ^ 156 * 2 ^ 63)
    | 1 =>
      if x < 0 then f24Neg (if reaches l (-x) then lutLogUp l (f24Neg w) else lutLogLow l (-x)) else lutLogLow l x
    | _ => lutLogLow l (max x 0)

/-- A 1D LUT evaluated at an f24 word. -/
def lut1 (l : Lut1) (w : Nat) : Nat := if l.mode = 0 then lutUniform l (fx w) else lutLog l w

/-- Offending bytes of a 1D LUT record at `o` (Table 6-8). -/
def lut1Bad (blk : List Byte) (o : Nat) : List Nat :=
  let m := b8 blk o
  bad o (decide (1 < m)) ++ bad (o + 1) (decide (2 < b8 blk (o + 1)) || (m == 0 && b8 blk (o + 1) == 1))
    ++ bad (o + 2) (m == 1 && decide (64 < b8 blk (o + 2))) ++ bad (o + 3) (b8 blk (o + 3) != 0)
    ++ bad (o + 4) (m == 0 && decide (fx (fw blk (o + 8) 0) ≤ fx (fw blk (o + 4) 0)))
    ++ (rangeFrom 1 4099).flatMap fun k => bad (o + 4 * k + 3) (b8 blk (o + 4 * k + 3) != 0)

/-! ## 3D LUTs (R195, Table 6-9) -/

/-- Clamp an f24 value (times 2^78) to 0..1 and scale by n − 1: node and fraction times 2^78. -/
def lutPos (n : Nat) (x : Int) : Nat × Int :=
  let u := (clampI 0 fxOne x).toNat * (n - 1)
  let i := min (u / 2 ^ 78) (n - 2)
  (i, (u : Int) - i * fxOne)

/-- Tetrahedral interpolation of three inputs; `node r g b` gives a node's f24 output of one channel. -/
def tetra (n : Nat) (node : Nat → Nat → Nat → Nat) (r g b : Nat) : Nat :=
  let pr := lutPos n (fx r)
  let pg := lutPos n (fx g)
  let pb := lutPos n (fx b)
  let c := fun (i j k : Nat) => fx (node (pr.1 + i) (pg.1 + j) (pb.1 + k))
  let fr := pr.2
  let fg := pg.2
  let fb := pb.2
  let v :=
    if fg ≤ fr ∧ fb ≤ fg then fr * (c 1 0 0 - c 0 0 0) + fg * (c 1 1 0 - c 1 0 0) + fb * (c 1 1 1 - c 1 1 0)
    else if fb ≤ fr ∧ fg < fb then fr * (c 1 0 0 - c 0 0 0) + fb * (c 1 0 1 - c 1 0 0) + fg * (c 1 1 1 - c 1 0 1)
    else if fr < fb ∧ fg ≤ fr then fb * (c 0 0 1 - c 0 0 0) + fr * (c 1 0 1 - c 0 0 1) + fg * (c 1 1 1 - c 1 0 1)
    else if fr < fg ∧ fb ≤ fr then fg * (c 0 1 0 - c 0 0 0) + fr * (c 1 1 0 - c 0 1 0) + fb * (c 1 1 1 - c 1 1 0)
    else if fb ≤ fg ∧ fr < fb then fg * (c 0 1 0 - c 0 0 0) + fb * (c 0 1 1 - c 0 1 0) + fr * (c 1 1 1 - c 0 1 1)
    else fb * (c 0 0 1 - c 0 0 0) + fg * (c 0 1 1 - c 0 0 1) + fr * (c 1 1 1 - c 0 1 1)
  f24Of (c 0 0 0 * fxOne + v) (2 ^ 156)

/-- Output channel `k` of node (r, g, b) of an N³ table at byte `o`: red fastest (R195). -/
def node3 (blk : List Byte) (o n k r g b : Nat) : Nat := fw blk (o + 12 * (r + n * (g + n * b))) k

/-- Three shapers at `o` and the nodes after them (R196). -/
def lut3 (blk : List Byte) (o n : Nat) (r g b : Nat) : Nat × Nat × Nat :=
  let r := lut1 (lut1Of blk o) r
  let g := lut1 (lut1Of blk (o + 16400)) g
  let b := lut1 (lut1Of blk (o + 32800)) b
  (tetra n (node3 blk (o + 49200) n 0) r g b, tetra n (node3 blk (o + 49200) n 1) r g b,
   tetra n (node3 blk (o + 49200) n 2) r g b)

/-! ## Logarithms and exponentials in fixed point, 160 bits after the point (log entry 20) -/

abbrev fpOne : Nat := 2 ^ 160

/-- Σ z^(2i+1) / (2i+1), `n` terms from i = `k`; `p` is z^(2k+1). -/
def atanhSum (z2 : Nat) : Nat → Nat → Nat → Nat
  | 0, _, _ => 0
  | n + 1, k, p => p / (2 * k + 1) + atanhSum z2 n (k + 1) (p * z2 / fpOne)

/-- ln of a number in [1, 2] in fixed point. -/
def lnUnit (m : Nat) : Nat :=
  let z := (m - fpOne) * fpOne / (m + fpOne)
  2 * atanhSum (z * z / fpOne) 56 0 z

def ln2 : Nat := lnUnit (2 * fpOne)

/-- ln of a positive fixed-point number. -/
def lnFp (x : Nat) : Int :=
  let k : Int := (Nat.log2 x : Int) - 160
  k * ln2 + lnUnit (if 0 ≤ k then x / 2 ^ k.toNat else x * 2 ^ (-k).toNat)

/-- Σ r^i / i!, `n` terms from i = `k`; `p` is r^k / k!. -/
def expSum (r : Nat) : Nat → Nat → Nat → Nat
  | 0, _, _ => 0
  | n + 1, k, p => p + expSum r n (k + 1) (p * r / fpOne / (k + 1))

/-- exp of a fixed-point number. -/
def expFp (x : Int) : Nat :=
  let k := x / ln2
  let v := expSum (x - k * ln2).toNat 60 0 fpOne
  if 0 ≤ k then v * 2 ^ k.toNat else v / 2 ^ (-k).toNat

/-- x^(n/d) of a fixed-point number; 0 for 0. -/
def powFp (x : Nat) (n d : Nat) : Nat := if x = 0 then 0 else expFp (lnFp x * n / d)

/-- log2 in fixed point. -/
def log2Fp (x : Nat) : Int := lnFp x * fpOne / ln2

/-- Σ (−1)^i / ((2i+1) m^(2i+1)), `n` terms from i = `k`; `p` is 1 / m^(2k+1). -/
def atanSum (m2 : Nat) : Nat → Nat → Int → Int
  | 0, _, _ => 0
  | n + 1, k, p => p / (2 * k + 1 : Nat) + atanSum m2 n (k + 1) (-(p / (m2 : Int)))

/-- π in fixed point: 16 atan(1/5) − 4 atan(1/239). -/
def piFp : Int := 16 * atanSum 25 72 0 (fpOne / 5 : Nat) - 4 * atanSum 57121 16 0 (fpOne / 239 : Nat)

/-- Σ (−1)^i x^(2i+1) / (2i+1)!, `n` terms from i = `k`; `p` is the first of them. -/
def sinSum (x2 : Int) : Nat → Nat → Int → Int
  | 0, _, _ => 0
  | n + 1, k, p => p + sinSum x2 n (k + 1) (-(p * x2 / fpOne / ((2 * k + 2) * (2 * k + 3) : Nat)))

/-- sin(π n / d) in fixed point. -/
def sinPi (n : Int) (d : Nat) : Int :=
  let r := n % (2 * d : Nat)
  let neg := decide ((d : Int) ≤ r)
  let r := if neg then r - d else r
  let r := if 2 * r ≤ d then r else d - r
  let x := piFp * r / d
  let v := sinSum (x * x / fpOne) 40 0 x
  if neg then -v else v

/-- A decimal n / 10^k in fixed point. -/
def dec (n : Int) (k : Nat) : Int := n * fpOne / (10 ^ k : Nat)

/-- Product of two fixed-point numbers. -/
def mulFp (a b : Int) : Int := a * b / fpOne

/-! ## Built-in encodings and their inverses (R199 to R201, Table 6-11) -/

/-- α and β of the BT.709 family. -/
def btConst (code : Nat) : Int × Int :=
  if code = 1 then (dec 1099 3, dec 18 3) else (dec 109929682680944 14, dec 18053968510807 15)

/-- PQ constants m1, m2 as fractions and c1, c2, c3 in fixed point. -/
def pqC1 : Int := 3424 * fpOne / 4096
def pqC2 : Int := 2413 * fpOne / 128
def pqC3 : Int := 2392 * fpOne / 128

/-- Formula of an encoding at L, in fixed point (Table 6-11). -/
def encodeFp (code : Nat) (l : Int) : Int :=
  match code with
  | 1 | 2 =>
    let ab := btConst code
    if l < ab.2 then 9 * l / 2 else mulFp ab.1 (powFp l.toNat 45 100) - (ab.1 - fpOne)
  | 3 =>
    let p : Int := powFp l.toNat 2610 16384
    powFp ((pqC1 + mulFp pqC2 p) * fpOne / (fpOne + mulFp pqC3 p)).toNat 2523 32
  | 4 =>
    if 12 * l ≤ fpOne then powFp (3 * l).toNat 1 2
    else mulFp (dec 17883277 8) (lnFp (12 * l - dec 28466892 8).toNat) + dec 55991073 8
  | 5 =>
    if l ≤ dec 78125 7 then mulFp (dec 105402377416545 13) l + dec 729055341958355 16
    else (log2Fp l.toNat + dec 972 2) * 100 / 1752
  | _ =>
    if 0 ≤ l then log2Fp (l + dec 390625 8).toNat / 16 + dec 55 2 else dec 5 2 + mulFp (16 * fpOne * fpOne / ln2) l

/-- Formula of an inverse encoding at V (R201). -/
def decodeFp (code : Nat) (v : Int) : Int :=
  match code with
  | 1 | 2 =>
    let ab := btConst code
    if 2 * v < 9 * ab.2 then 2 * v / 9 else powFp ((v + ab.1 - fpOne) * fpOne / ab.1).toNat 100 45
  | 3 =>
    if v < 0 then 0
    else
      let p : Int := powFp v.toNat 32 2523
      powFp ((max (p - pqC1) 0) * fpOne / (pqC2 - mulFp pqC3 p)).toNat 16384 2610
  | 4 =>
    if v < 0 then 0
    else if 2 * v ≤ fpOne then mulFp v v / 3
    else ((expFp ((v - dec 55991073 8) * fpOne / dec 17883277 8) : Int) + dec 28466892 8) / 12
  | 5 =>
    if v ≤ dec 155251141552511 15 then (v - dec 729055341958355 16) * fpOne / dec 105402377416545 13
    else expFp (mulFp (1752 * v / 100 - dec 972 2) ln2)
  | _ =>
    if dec 5 2 ≤ v then (expFp (mulFp ((v - dec 55 2) * 16) ln2) : Int) - dec 390625 8
    else mulFp (v - dec 5 2) ln2 / 16

/-- The f24 word of a fixed-point number. -/
def f24Fp (v : Int) : Nat := f24Of v fpOne

/-- Knot i of the built-in encodings: 2^-24 × 2^floor(i/64) × (1 + (i mod 64)/64) (R200). -/
def encKnot (i : Nat) : Int := ((2 ^ (160 - 24 - 6 + i / 64) * (64 + i % 64) : Nat) : Int)

/-- The built-in 1D LUT of an encoding 1 to 6 (R200). -/
def encLut (code : Nat) : Lut1 := {
  mode := 1, sign := if code = 5 ∨ code = 6 then 2 else 0, e0 := 39, min := 0, max := 0
  slope := if code = 5 then f24Fp (dec 105402377416545 13) else f24Fp (16 * fpOne * fpOne / ln2)
  e := fun i => f24Fp (encodeFp code (encKnot i)) }

/-- Knot i of the inverses, from −0.0625 to 1.125 (R201). -/
def decKnot (i : Nat) : Int := -((fpOne / 16 : Nat) : Int) + (19 * fpOne * i / (16 * 4095) : Nat)

/-- The built-in 1D LUT of an inverse encoding (R201). -/
def decLut (code : Nat) : Lut1 := {
  mode := 0, sign := 0, e0 := 0, min := f24Of (-1) 16, max := f24Of 9 8, slope := 0
  e := fun i => f24Fp (decodeFp code (decKnot i)) }

end Sys2Proof.Machine
end

