-- ==== Sys2Proof/Machine/Rfe.lean ====
section
/-! DEFINITION. The raw front end, stage by stage, for one site at a time (R148 to R174), the history packer, and the
spoke token. -/

namespace Sys2Proof.Machine

open Host

/-! ## What a spoke works with -/

/-- A frame, its CFA description and windows, and the stripe of one spoke. -/
structure Rx where
  f : PipeFrame
  cfa : Cfa
  sx : Nat
  sy : Nat
  win : Win
  /-- first column and width of the stripe -/
  st : Nat × Nat

/-- Spokes of a frame's source, in ascending order (R151). -/
def fspokes (f : PipeFrame) : List Nat :=
  (rangeFrom 0 16).filter fun k => ffld f (0x30000 + 4 * (k / 8)) (4 * (k % 8) + 3) (4 * (k % 8)) == f.src

/-- The CFA description of a frame. -/
def Dev.fcfa (d : Dev) (f : PipeFrame) : Cfa :=
  (d.cfaSlot (ffld f (0x40000 + 0x40 * f.src) 4 0)).getD ⟨2, 2, 1, [0, 1, 1, 2]⟩

def Dev.rx (d : Dev) (f : PipeFrame) (st : Nat × Nat) : Rx := {
  f := f, cfa := d.fcfa f, sx := ffld f (0x40000 + 0x40 * f.src) 10 8, sy := ffld f (0x40000 + 0x40 * f.src) 14 12
  win := fwin f, st := st }

/-- The stripe of the `i`-th spoke. -/
def fstripe (f : PipeFrame) (i : Nat) : Nat × Nat := stripe f.width (fspokes f).length i

/-- Reflection of R153 into [lo, hi] with period `p`. -/
def reflect (lo hi : Int) (p : Nat) (x : Int) : Int :=
  if x < lo then
    let c := lo - x - 1
    lo + ((p : Int) - 1 - c % (p : Int)) + c / (p : Int) * (p : Int)
  else if hi < x then
    let c := x - hi - 1
    hi - ((p : Int) - 1) + c % (p : Int) - c / (p : Int) * (p : Int)
  else x

/-- Saturation to the signed 21-bit range (R149). -/
def sat21 (v : Int) : Int := clampI (-1048576) 1048575 v

/-- Phase of a site (R150, R183). -/
def rxPhase (c : Rx) (x y : Int) : Nat × Nat :=
  (((x - c.win.x0 + c.sx) % (c.cfa.px : Int)).toNat, ((y - c.win.y0 + c.sy) % (c.cfa.py : Int)).toNat)

/-- Channel of a site. -/
def rxChan (c : Rx) (x y : Int) : Nat := Cfa.at? c.cfa (rxPhase c x y)

/-- Sites (x + i·Px, y + j·Py), i and j from −n to n, row by row. -/
def samePhase (c : Rx) (n : Nat) (x y : Int) : List (Int × Int) :=
  (rangeFrom 0 (2 * n + 1)).flatMap fun (j : Nat) => (rangeFrom 0 (2 * n + 1)).map fun (i : Nat) =>
    (x + ((i : Int) - n) * c.cfa.px, y + ((j : Int) - n) * c.cfa.py)

/-! ## Stage 1: linearisation and black level (R158, R159) -/

/-- Raw code of a site and gain (R114). -/
def rawCode (f : PipeFrame) (g : Nat) (x y : Int) : Nat :=
  (f.rows.getD y.toNat []).getD (if f.dual then 2 * x.toNat + g else x.toNat) 0

/-- The linearised sample (R158): LIN_LG serves only the low-gain sample of a dual-gain source. -/
def lin (f : PipeFrame) (g : Nat) (v : Nat) : Int :=
  if stageOn f.cfg.params 0 then
    let t := SMap.get [] f.cfg.tables g
    let s := f.depth - 10
    let i := v / 2 ^ s
    let fr := v % 2 ^ s
    let a := bi32 t (4 * i)
    let b := bi32 t (4 * (i + 1))
    a + roundDiv ((b - a) * fr) (2 ^ s)
  else v

/-- Sum and count of linearised sites of channel `ch` in rows `ys` and columns `xs`; fill lines do not enter (R159). -/
def obSum (c : Rx) (g ch : Nat) (xs ys : List Nat) : Int × Nat :=
  (ys.filter fun y => !c.f.fill.contains y && decide (y < c.f.lines)).foldl (fun a (y : Nat) =>
    (xs.filter fun (x : Nat) => rxChan c x y == ch).foldl (fun (a : Int × Nat) (x : Nat) =>
      (a.1 + lin c.f g (rawCode c.f g x y), a.2 + 1)) a) (0, 0)

/-- OB_ROWS and OB_COLS of a parameter block. -/
def obRows (blk : List Byte) : List Nat := rangeFrom (bitsOf (bn blk 44 4) 13 0) (bitsOf (bn blk 44 4) 29 16)

def obCols (blk : List Byte) : List Nat := rangeFrom (bitsOf (bn blk 48 4) 14 0) (bitsOf (bn blk 48 4) 25 16)

/-- BL_FIXED of a gain and channel. -/
def blFixed (blk : List Byte) (g ch : Nat) : Int := bi32 blk (4 + 20 * g + 4 * ch)

/-- Rounded mean; of no sites, free (log entry 19). -/
def meanOf (index k : Nat) (s : Int × Nat) : Int :=
  if s.2 = 0 then Config.freeMean index k else roundDiv s.1 s.2

/-- BL_frame of a gain and channel, from BL_prev (R159). -/
def blFrame (c : Rx) (prev : Int) (first : Bool) (g ch : Nat) : Int :=
  let blk := c.f.cfg.params
  if b8 blk 2 = 0 then blFixed blk g ch
  else
    let ys := obRows blk
    if (ys.getLast?.map fun y => decide (c.f.lines ≤ y)).getD false then prev
    else
      let m := meanOf c.f.index (5 * g + ch) (obSum c g ch (rangeFrom 0 c.f.width) ys)
      if first then m else prev + roundDiv (m - prev) (2 ^ b8 blk 3)

/-- round(m_band − m_ob) of a site's period band (R159, mode 2). -/
def blBand (c : Rx) (g ch : Nat) (y : Int) : Int :=
  let blk := c.f.cfg.params
  let b := c.win.y0 + (y - c.win.y0) / (c.cfa.py : Int) * (c.cfa.py : Int)
  let ys := (rangeFrom 0 c.cfa.py).filterMap fun (j : Nat) => if 0 ≤ b + j then some (b + j).toNat else none
  let m := obSum c g ch (obCols blk) ys
  let o := obSum c g ch (obCols blk) (obRows blk)
  if m.2 = 0 ∨ o.2 = 0 then Config.freeMean c.f.index (16 * (b.toNat + 1) + 5 * g + ch)
  else roundDiv (m.1 * o.2 - o.1 * m.2) (m.2 * o.2)

/-- Black level of a site (R159). -/
def blAt (c : Rx) (g : Nat) (x y : Int) : Int :=
  let ch := rxChan c x y
  let base := SMap.get 0 c.f.bl (5 * g + ch)
  if b8 c.f.cfg.params 2 = 2 then base + blBand c g ch y else base

/-- Stage 1 at a site of the frame: the exact difference, saturated once (R149, R159). -/
def stage1 (c : Rx) (g : Nat) (x y : Int) : Int := sat21 (lin c.f g (rawCode c.f g x y) - blAt c g x y)

/-! ## Stage 2: dual-gain merge (R160) -/

/-- The merge of a high-gain and a low-gain sample. -/
def merge (blk : List Byte) (ratio : Nat) (h l : Int) : Int :=
  let t0 := bi32 blk 52
  let t1 := bi32 blk 56
  let l' := roundDiv (l * (min ratio 1048576 : Nat)) 65536
  if h < t0 then h
  else if t1 ≤ h then l'
  else
    let w := 256 * (h - t0) / (t1 - t0)
    h + roundDiv ((l' - h) * w) 256

/-- Stage 2 at a site of the frame; switched off, the high-gain sample goes on. -/
def stage2At (c : Rx) (x y : Int) : Int :=
  if c.f.dual && stageOn c.f.cfg.params 1 then sat21 (merge c.f.cfg.params c.f.prog.dg (stage1 c 0 x y) (stage1 c 1 x y))
  else stage1 c 0 x y

/-- A column or row as the spoke holds it: its stripe with 24 sites on each side, the frame beyond its edges reflected
(R153, R154). -/
def haloX (c : Rx) (x : Int) : Int :=
  reflect 0 ((c.f.width : Int) - 1) c.cfa.px (reflect ((c.st.1 : Int) - 24) ((c.st.1 : Int) + c.st.2 + 23) c.cfa.px x)

def haloY (c : Rx) (y : Int) : Int := reflect 0 ((c.f.height : Int) - 1) c.cfa.py y

/-- Stage 2 wherever the spoke looks. -/
def stage2 (c : Rx) (x y : Int) : Int := stage2At c (haloX c x) (haloY c y)

/-! ## Stage 3: defect correction (R161) -/

/-- σ(x) of the noise model. -/
def sigma (blk : List Byte) (x : Int) : Nat :=
  isqrt (min 4294967295 (bn blk 60 4 + bn blk 64 2 * x.toNat / 256))

/-- max(1, round(K × σ / 16)). -/
def thresh (blk : List Byte) (k : Nat) (x : Int) : Int := max 1 (roundDiv (k * sigma blk x : Nat) 16)

/-- Median; for an even count, the rounded mean of the two middle values. -/
def median (l : List Int) : Int :=
  let s := l.mergeSort fun a b => decide (a ≤ b)
  let n := s.length
  if n % 2 = 1 then s.getD (n / 2) 0 else roundDiv (s.getD (n / 2 - 1) 0 + s.getD (n / 2) 0) 2

/-- A site is in the static defect map. -/
def mapped (c : Rx) (x y : Int) : Bool :=
  stageOn c.f.cfg.params 2 &&
    let t := SMap.get [] c.f.cfg.tables 2
    let hx := (haloX c x).toNat
    let hy := (haloY c y).toNat
    (rangeFrom 0 (t.length / 4)).any fun i =>
      let e := bn t (4 * i) 4
      bitsOf e 14 0 == hx && bitsOf e 29 16 == hy

/-- The eight same-phase neighbours. -/
def eight (c : Rx) (x y : Int) : List (Int × Int) := (samePhase c 1 x y).filter fun p => p != (x, y)

/-- Static correction. -/
def static3 (c : Rx) (x y : Int) : Int :=
  if mapped c x y then
    let ns := (eight c x y).filter fun p => !mapped c p.1 p.2
    if ns.isEmpty then stage2 c x y else median (ns.map fun p => stage2 c p.1 p.2)
  else stage2 c x y

/-- The value by which dynamic detection replaces a site, if it does. -/
def dyn3 (c : Rx) (x y : Int) : Option Int :=
  if !stageOn c.f.cfg.params 3 || mapped c x y then none
  else
    let v := static3 c x y
    let ns := (eight c x y).map fun p => static3 c p.1 p.2
    let m := median ns
    let t := thresh c.f.cfg.params (b8 c.f.cfg.params 68) m
    let hi := ns.foldl max (ns.headD 0)
    let lo := ns.foldl min (ns.headD 0)
    if t < v - hi ∨ t < lo - v then some m else none

/-- Stage 3. -/
def stage3 (c : Rx) (x y : Int) : Int := sat21 ((dyn3 c x y).getD (static3 c x y))

/-! ## Stage 4: spatial noise reduction (R162) -/

/-- A column or row reflected at the edges of the active window (R153). -/
def winX (c : Rx) (x : Int) : Int := reflect c.win.x0 ((c.win.x0 : Int) + c.win.w - 1) c.cfa.px x

def winY (c : Rx) (y : Int) : Int := reflect c.win.y0 ((c.win.y0 : Int) + c.win.h - 1) c.cfa.py y

/-- Stage 4 at a site of the window. -/
def stage4 (c : Rx) (x y : Int) : Int :=
  let v := stage3 c x y
  let blk := c.f.cfg.params
  if stageOn blk 4 then
    let t := thresh blk (b8 blk 69) v
    let s := (samePhase c 3 x y).foldl (fun (a : Int × Nat) p =>
      let n := stage3 c (winX c p.1) (winY c p.2)
      let w := b8 blk (74 + min 15 (4 * (n - v).natAbs / t.toNat))
      (a.1 + w * n, a.2 + w)) (0, 0)
    sat21 (v + roundDiv ((roundDiv s.1 s.2 - v) * (b8 blk 70 + 1)) 256)
  else v

/-! ## The history in memory (R167, R172, Table 5-3) -/

/-- The word a history code reads back as, and the code of a word. -/
def histCode (shift : Nat) (v : Int) : Nat := (clampI 0 65535 (v / 2 ^ shift + 4096)).toNat

def histVal (shift : Nat) (code : Nat) : Int := ((code : Int) - 4096) * 2 ^ shift

/-- Zig-zag residual and its inverse. -/
def zig (e : Int) : Nat := if 0 ≤ e then (2 * e).toNat else (-2 * e - 1).toNat

def unzig (z : Nat) : Int := if z % 2 = 0 then (z / 2 : Nat) else -(((z + 1) / 2 : Nat) : Int)

/-- Predictions of the codes of a group: the code Px places to the left, 4,096 for the first Px. -/
def groupPred (px : Nat) (l : List Nat) : List Nat := List.replicate (min px l.length) 4096 ++ l.take (l.length - px)

/-- A group of at most 32 codes as bytes. -/
def packGroup (px : Nat) (l : List Nat) : List Byte :=
  let z := (l.zip (groupPred px l)).map fun e => zig ((e.1 : Int) - e.2)
  let n := bitLen 20 (z.foldl max 0)
  if 16 ≤ n then 16#8 :: packBytes 16 l else BitVec.ofNat 8 n :: packBytes n z

/-- Groups of 32. -/
def groups32 (l : List Nat) : Nat → List (List Nat)
  | 0 => []
  | n + 1 => if l.isEmpty then [] else l.take 32 :: groups32 (l.drop 32) n

/-- A row record of Table 5-3, padded to a multiple of 32 bytes. -/
def packRow (px : Nat) (l : List Nat) : List Byte :=
  let gs := (groups32 l l.length).map (packGroup px)
  let lastOff := 4 + (gs.dropLast.map (·.length)).sum
  let r := leBytes 4 lastOff ++ gs.flatten
  r ++ List.replicate (ceilDiv r.length 32 * 32 - r.length) 0

/-- Codes of a group from its residuals, in order. -/
def unpredict (px : Nat) (acc : List Nat) : List Nat → List Nat
  | [] => acc
  | z :: t =>
    let p := if acc.length < px then 4096 else acc.getD (acc.length - px) 4096
    unpredict px (acc ++ [((p : Int) + unzig z).toNat]) t

/-- Code `k` of a row record of `w` sites, walking `n` groups at most from byte `o`. -/
def readCode (px : Nat) (r : List Byte) (w k : Nat) : Nat → Nat → Nat
  | 0, _ => 0
  | n + 1, o =>
    let cnt := min 32 w
    let b := b8 r o
    let sz := ceilDiv (cnt * b) 8
    if k < cnt then
      let v := unpackBits b cnt (bn r (o + 1) sz)
      (if b = 16 then v else unpredict px [] v).getD k 0
    else readCode px r (w - cnt) (k - cnt) n (o + 1 + sz)

/-- RFE_HIST_BASE of a frame. -/
def histBaseOf (f : PipeFrame) : Nat :=
  ((SMap.get 0 f.latched (0x30110 + 0x40 * f.src)).toNat / 4096 * 4096)
    + 4294967296 * (SMap.get 0 f.latched (0x30114 + 0x40 * f.src)).toNat

/-- Address of the slot of stripe `i` in row `wy` of history buffer A or B (R172). -/
def histAddr (f : PipeFrame) (b : Bool) (i wy : Nat) : Nat :=
  let n := (fspokes f).length
  let w := fwin f
  let row := histRow f.width n w
  histBaseOf f + (if b then row * w.h else 0) + row * wy
    + ((rangeFrom 0 i).map fun k => histSlot (stripeInWin f.width n k w)).sum

/-- Address of proxy sample (qx, qy) of buffer A or B. -/
def proxyAddr (f : PipeFrame) (b : Bool) (qx qy : Nat) : Nat :=
  let w := fwin f
  let pw := ceilDiv w.w 2
  histBaseOf f + 2 * histRow f.width (fspokes f).length w * w.h + (if b then pw * ceilDiv w.h 2 else 0) + pw * qy + qx

/-- The stripe whose part of the window holds column `x`: its number and the place of the column in that part. -/
def stripeAt (f : PipeFrame) (x : Nat) : Nat × Nat :=
  let n := (fspokes f).length
  let q := 8 * ceilDiv f.width (8 * n)
  let i := min (x / q) (n - 1)
  (i, x - max (stripe f.width n i).1 (fwin f).x0)

/-- The history code at window site (wx, wy). -/
def Dev.histRead (d : Dev) (f : PipeFrame) (px wx wy : Nat) : Nat :=
  let w := fwin f
  let ik := stripeAt f (w.x0 + wx)
  let sw := stripeInWin f.width (fspokes f).length ik.1 w
  readCode px (Mem.rdN d.mem.lpddr (histAddr f f.cfg.readB ik.1 wy) (histSlot sw)) sw ik.2 (ceilDiv sw 32) 4

/-! ## Stage 5: temporal noise reduction (R163 to R170) -/

/-- Sample (qx, qy) of the current proxy (R163). -/
def proxy (c : Rx) (qx qy : Nat) : Nat :=
  let x : Int := c.win.x0 + 2 * qx
  let y : Int := c.win.y0 + 2 * qy
  let v := fun (i j : Int) => (stage4 c (winX c (x + i)) (winY c (y + j))).toNat
  min 255 ((v 0 0 + v 1 0 + v 0 1 + v 1 1) / 2 ^ ffld c.f (0x3010C + 0x40 * c.f.src) 15 12)

/-- First proxy column and count of a stripe: the quads whose left site it holds. -/
def proxyCols (c : Rx) : Nat × Nat :=
  let lo := ceilDiv (c.st.1 - c.win.x0) 2
  let hi := min (ceilDiv (c.st.1 + c.st.2 - c.win.x0) 2) (ceilDiv c.win.w 2)
  (lo, hi - lo)

/-- RX, RY of a search level (Table 5-2). -/
def searchReach : Nat → Nat × Nat
  | 0 => (16, 8) | 1 => (8, 4) | 2 => (4, 2) | _ => (0, 0)

/-- A block: left, top, width, height in proxy samples. -/
structure Blk where
  x : Nat
  y : Nat
  w : Nat
  h : Nat

/-- The block of a stripe that holds proxy sample (qx, qy) (R164). -/
def blockAt (c : Rx) (qx qy : Nat) : Blk :=
  let p := proxyCols c
  let x := p.1 + (qx - p.1) / 8 * 8
  let y := qy / 8 * 8
  { x := x, y := y, w := min 8 (p.1 + p.2 - x), h := min 8 (ceilDiv c.win.h 2 - y) }

/-- A candidate vector is admitted (R164). -/
def admitted (c : Rx) (b : Blk) (dx dy : Int) : Bool :=
  let p := proxyCols c
  let x := (b.x : Int) + dx
  let y := (b.y : Int) + dy
  decide (0 ≤ x) && decide (0 ≤ y) && decide (x + b.w ≤ (ceilDiv c.win.w 2 : Nat))
    && decide (y + b.h ≤ (ceilDiv c.win.h 2 : Nat)) && decide ((p.1 : Int) - 16 ≤ x)
    && decide (x + b.w ≤ (p.1 : Int) + p.2 + 16)

/-- Sum of absolute differences of a block against the previous proxy. -/
def Dev.sad (d : Dev) (c : Rx) (b : Blk) (dx dy : Int) : Nat :=
  ((rangeFrom 0 b.h).flatMap fun j => (rangeFrom 0 b.w).map fun i =>
    let a : Int := proxy c (b.x + i) (b.y + j)
    let o : Int := (Mem.rd d.mem.lpddr
      (proxyAddr c.f c.f.cfg.readB ((b.x : Int) + i + dx).toNat ((b.y : Int) + j + dy).toNat)).toNat
    (a - o).natAbs).sum

/-- Lexicographic order of two candidates by (SAD, |dx|+|dy|, |dy|, dy, dx) (R164). -/
def candLe (a b : Nat × Int × Int) : Bool :=
  let k := fun (v : Nat × Int × Int) => [(v.1 : Int), v.2.1.natAbs + v.2.2.natAbs, v.2.2.natAbs, v.2.2, v.2.1]
  let rec go : List Int → List Int → Bool
    | x :: xs, y :: ys => if x < y then true else if y < x then false else go xs ys
    | _, _ => true
  go (k a) (k b)

/-- The best of candidates. -/
def bestCand : List (Nat × Int × Int) → Nat × Int × Int
  | [] => (0, 0, 0)
  | [a] => a
  | a :: t => let b := bestCand t; if candLe a b then a else b

/-- The winning vector of a block, in proxy units. -/
def Dev.blockVec (d : Dev) (c : Rx) (b : Blk) : Int × Int :=
  let r := searchReach c.f.cfg.level
  let cs := (rangeFrom 0 (2 * r.2 + 1)).flatMap fun (j : Nat) => (rangeFrom 0 (2 * r.1 + 1)).filterMap fun (i : Nat) =>
    let dx : Int := (i : Int) - r.1
    let dy : Int := (j : Int) - r.2
    if admitted c b dx dy then some (d.sad c b dx dy, dx, dy) else none
  (bestCand cs).2

/-- A vector in sites: rounded toward zero to a multiple of the period (R165). -/
def siteVec (v : Int) (p : Nat) : Int := (2 * v).tdiv p * p

/-- The history value that a site blends with, if it is there (R166, R169, R170). -/
def Dev.histFor5 (d : Dev) (c : Rx) (x y : Int) : Option Int :=
  if !c.f.cfg.hist then none
  else
    let qx := max ((x.toNat - c.win.x0) / 2) (proxyCols c).1
    let v := d.blockVec c (blockAt c qx ((y.toNat - c.win.y0) / 2))
    let hx := x + siteVec v.1 c.cfa.px - c.win.x0
    let hy := y + siteVec v.2 c.cfa.py - c.win.y0
    if 0 ≤ hx ∧ 0 ≤ hy ∧ hx < c.win.w ∧ hy < c.f.cfg.histRows then
      let h := histVal (ffld c.f (0x3010C + 0x40 * c.f.src) 11 8) (d.histRead c.f c.cfa.px hx.toNat hy.toNat)
      some (roundDiv (h * c.f.cfg.scale) 65536)
    else none

/-- Stage 5 at a site of the window (R166). -/
def Dev.stage5 (d : Dev) (c : Rx) (x y : Int) : Int :=
  let v := stage4 c x y
  let blk := c.f.cfg.params
  if stageOn blk 5 && ffld c.f (0x3010C + 0x40 * c.f.src) 0 0 == 1 then
    match d.histFor5 c x y with
    | none => v
    | some h =>
      let t := thresh blk (b8 blk 71) v
      let a := (b8 blk 72 : Int) * max 0 (t - (v - h).natAbs) / t
      sat21 (v + roundDiv ((h - v) * a) 256)
  else v

/-! ## Stage 6: lens shading (R173) -/

/-- Knot K(i, j) of a channel. -/
def knot (t : List Byte) (ch i j : Nat) : Nat := bn t (2 * ((ch * 49 + j) * 65 + i)) 2

/-- The gain at a window site. -/
def shadeGain (c : Rx) (ch wx wy : Nat) : Int :=
  let t := SMap.get [] c.f.cfg.tables 3
  let u := 262144 * wx / c.win.w
  let v := 196608 * wy / c.win.h
  let i := u / 4096
  let j := v / 4096
  let fx := u % 4096
  let fy := v % 4096
  roundDiv ((knot t ch i j * (4096 - fx) * (4096 - fy) + knot t ch (i + 1) j * fx * (4096 - fy)
    + knot t ch i (j + 1) * (4096 - fx) * fy + knot t ch (i + 1) (j + 1) * fx * fy : Nat) : Int) 16777216

/-- Stage 6 of a stage-5 value. -/
def stage6 (c : Rx) (x y : Int) (v : Int) : Int :=
  if stageOn c.f.cfg.params 6 then
    sat21 (roundDiv (v * shadeGain c (rxChan c x y) (x.toNat - c.win.x0) (y.toNat - c.win.y0)) 4096)
  else v

/-! ## Tokens (R174) -/

/-- Key of a window site in a mosaic map. -/
def siteKey (x y : Nat) : Nat := 32768 * y + x

/-- The black levels of a frame are formed once, with its first token (R159). -/
def Dev.formBl (d : Dev) (f : PipeFrame) : PipeFrame × Dev :=
  if f.blSet then (f, d) else
  let c := d.rx f (0, f.width)
  let v := d.rfe? f.src
  let bl := (rangeFrom 0 (if f.dual then 10 else 5)).foldl (fun m k =>
    SMap.put 0 m k (blFrame c (SMap.get 0 v.blPrev k) v.blFirst (k / 5) (k % 5))) []
  ({ f with blSet := true, bl := bl },
    d.setRfe f.src { v with blPrev := if b8 f.cfg.params 2 = 0 then v.blPrev else bl, blFirst := false })

/-- The sites of token `t` of a stripe: row in the window, and columns of the frame; none past the last row. -/
def tokenSites (f : PipeFrame) (st : Nat × Nat) (t : Nat) : Option (Nat × List Nat) :=
  let w := fwin f
  let cw := clipTo st w
  let n := ceilDiv cw 8
  if n = 0 ∨ w.h ≤ t / n then none
  else
    let x := max st.1 w.x0 + 8 * (t % n)
    some (t / n, rangeFrom x (min 8 (max st.1 w.x0 + cw - x)))

/-- Tokens of a stripe in a frame. -/
def tokenCount (f : PipeFrame) (st : Nat × Nat) : Nat := ceilDiv (clipTo st (fwin f)) 8 * (fwin f).h

/-- Stage 1 to 7 of the sites of a token. -/
def Dev.tokenRun (d : Dev) (f : PipeFrame) (st : Nat × Nat) (wy : Nat) (xs : List Nat) : PipeFrame :=
  let c := d.rx f st
  let y := (fwin f).y0 + wy
  xs.foldl (fun f (x : Nat) =>
    let v := d.stage5 c x y
    { f with nr := SMap.put 0 f.nr (siteKey x y) v, mos := SMap.put 0 f.mos (siteKey x y) (stage6 c x y v) }) f

/-- Write a stripe's history row, and its proxy row once its two site rows are done (R167, R172). -/
def Dev.writeHist (d : Dev) (f : PipeFrame) (i wy : Nat) : Dev :=
  if ffld f (0x3010C + 0x40 * f.src) 0 0 = 0 then d else
  let st := fstripe f i
  let c := d.rx f st
  let w := c.win
  let xs := rangeFrom (max st.1 w.x0) (clipTo st w)
  let sh := ffld f (0x3010C + 0x40 * f.src) 11 8
  let row := packRow c.cfa.px (xs.map fun x => histCode sh (SMap.get 0 f.nr (siteKey x (w.y0 + wy))))
  let d := d.writeBuf true (histAddr f (!f.cfg.readB) i wy) row
  if wy % 2 = 1 ∨ wy + 1 = w.h then
    let p := proxyCols c
    d.writeBuf true (proxyAddr f (!f.cfg.readB) p.1 (wy / 2))
      ((rangeFrom p.1 p.2).map fun q => BitVec.ofNat 8 (proxy c q (wy / 2)))
  else d

/-- Dynamic replacements over the whole frame (R161). -/
def Dev.dpcCount (d : Dev) (f : PipeFrame) : Nat :=
  ((rangeFrom 0 (fspokes f).length).map fun i =>
    let st := fstripe f i
    let c := d.rx f st
    ((rangeFrom 0 f.height).map fun (y : Nat) =>
      ((rangeFrom st.1 st.2).filter fun (x : Nat) => (dyn3 c x y).isSome).length).sum).sum

def Dev.modFrame (d : Dev) (s i : Nat) (g : PipeFrame → PipeFrame) : Dev :=
  { d with rfe := { d.rfe with frames := updFirst (fun f => f.src == s && f.index == i) g d.rfe.frames } }

/-- Every spoke of a closed frame has done its last token: the count of dynamic replacements goes to STU (R161, R174). -/
def Dev.rfeFinish (d : Dev) (f : PipeFrame) : Dev :=
  let done := f.closed && !f.rfeDone && (fspokes f).zipIdx.all fun e => decide (tokenCount f (fstripe f e.2) ≤ SMap.get 0 f.tok e.1)
  if done then
    let n := d.dpcCount f
    let d := if n = 0 then d else d.count (0x30124 + 0x40 * f.src) n
    d.modFrame f.src f.index fun f => { f with rfeDone := true, dpc := n }
  else d

/-- A spoke may take its next token: the rows it needs have arrived, or the frame has closed (log entry 18). -/
def rowsReady (f : PipeFrame) (wy : Nat) : Bool := f.closed || decide ((fwin f).y0 + wy + 57 ≤ f.lines)

/-- The effect of a spoke token: the oldest frame of its source that RFE has not finished goes on, unless CBE holds the
spoke back (R219). -/
def Dev.spokeToken (d : Dev) (k : Nat) : Dev :=
  if d.engDown k k || d.engDown 0x10 16 then d else
  match d.rfe.frames.find? fun f => !f.rfeDone && (fspokes f).contains k with
  | none => d
  | some f =>
    let i := (fspokes f).idxOf k
    let t := SMap.get 0 f.tok k
    match tokenSites f (fstripe f i) t with
    | none => d.rfeFinish f
    | some (wy, xs) =>
      if !rowsReady f wy || d.cbeHeld f.src then d else
      d.tokCross (rangeFrom (8 * k) 8) fun (d : Dev) =>
      let fd := d.formBl f
      let d := fd.2
      let g := { d.tokenRun fd.1 (fstripe f i) wy xs with tok := SMap.put 0 f.tok k (t + 1) }
      let d := d.modFrame f.src f.index fun _ => g
      let n := ceilDiv (clipTo (fstripe f i) (fwin f)) 8
      let d := if t % n + 1 = n then d.writeHist g i wy else d
      d.rfeFinish g

/-- SPOKE_TOKEN (R174). -/
def execSpokeToken (spoke : Fin 16) (s : State) : Outcome State Fault Refusal := lift (fun d => d.spokeToken spoke.val) s

end Sys2Proof.Machine
end

