-- ==== Sys2Proof/Machine/Cbe.lean ====
section
/-! DEFINITION. The colour back-end for one site at a time, and its token (R179 to R193, R196). -/

namespace Sys2Proof.Machine

open Host

/-! ## Demosaicking (R184 to R187) -/

/-- What CBE works with at a frame: the mosaic of RFE with reflection, and a bank. -/
structure Cx where
  rx : Rx
  bank : Nat

/-- The bank of a frame: BANK of its colour block, CFA_ID before the first (R204). -/
def fbank (f : PipeFrame) : Nat :=
  if f.cfg.colour.isEmpty then ffld f (0x40000 + 0x40 * f.src) 4 0 else b8 f.cfg.colour 0

/-- A bank of another period or guide than the description may not serve it (R187), and what then does is not stated:
its number is 256 and more (log entry 17). -/
def Dev.cx (d : Dev) (f : PipeFrame) : Cx := {
  rx := d.rx f (0, f.width), bank := if d.bankFits (fbank f) (d.fcfa f) then fbank f else 256 + fbank f }

/-- m(x, y). -/
def cbeM (c : Cx) (x y : Int) : Int := SMap.get 0 c.rx.f.mos (siteKey (winX c.rx x).toNat (winY c.rx y).toNat)

/-- L0(x, y) (R184). -/
def cbeL0 (c : Cx) (x y : Int) : Int :=
  let p := c.rx.cfa.px
  let q := c.rx.cfa.py
  (rangeFrom 0 q).foldl (fun a (j : Nat) => (rangeFrom 0 p).foldl (fun a (i : Nat) =>
    a + cbeM c (x - (p / 2 : Nat) + i) (y - (q / 2 : Nat) + j)) a) 0

/-- The horizontal weight a (R184). -/
def Dev.cbeA (d : Dev) (c : Cx) (x y : Int) : Int :=
  let g := fun (j : Int) => ((cbeL0 c (x + 1) (y + j) - cbeL0 c (x - 1) (y + j)).natAbs : Int)
  let h := fun (i : Int) => ((cbeL0 c (x + i) (y + 1) - cbeL0 c (x + i) (y - 1)).natAbs : Int)
  let dH := g (-1) + g 0 + g 1
  let dV := h (-1) + h 0 + h 1
  let e : Int := d.bankEps c.bank
  256 * (dV + e) / (dH + dV + 2 * e)

/-- First coefficient of kernel `k` (0 KYH, 1 KYV, then KDH and KDV by non-guide channel) at a phase (Table 6-4). -/
def kernelAt (c : Cfa) (ph : Nat × Nat) (k : Nat) : Nat := (ph.2 * c.px + ph.1) * 810 + 81 * k

/-- Kernel of channel `ch`: KDH, and KDV next. -/
def chanKernel (c : Cfa) (ch : Nat) : Nat := 2 + 2 * (if c.guide < ch then ch - 1 else ch)

/-- round(Σ K(i, j) × v(x + i, y + j) / 4,096) over the sites where `use` holds. -/
def Dev.kernelSum (d : Dev) (c : Cx) (x y : Int) (k : Nat) (use : Int → Int → Bool) (v : Int → Int → Int) : Int :=
  let b := kernelAt c.rx.cfa (rxPhase c.rx x y) k
  roundDiv ((rangeFrom 0 81).foldl (fun a (n : Nat) =>
    let i : Int := (n % 9 : Nat) - 4
    let j : Int := (n / 9 : Nat) - 4
    if use (x + i) (y + j) then a + d.bankCoef c.bank (b + n) * v (x + i) (y + j) else a) 0) 4096

/-- The guide plane Y (R185). -/
def Dev.cbeY (d : Dev) (c : Cx) (x y : Int) : Int :=
  if rxChan c.rx x y = c.rx.cfa.guide then cbeM c x y
  else
    let a := d.cbeA c x y
    let h := d.kernelSum c x y 0 (fun _ _ => true) (cbeM c)
    let v := d.kernelSum c x y 1 (fun _ _ => true) (cbeM c)
    sat21 (roundDiv (a * h + (256 - a) * v) 256)

/-- Y with reflected sites outside the window, for the difference image. -/
def Dev.cbeYw (d : Dev) (c : Cx) (x y : Int) : Int := d.cbeY c (winX c.rx x) (winY c.rx y)

/-- Channel `ch` at a site (R186). -/
def Dev.cbeP (d : Dev) (c : Cx) (x y : Int) (ch : Nat) : Int :=
  let cf := c.rx.cfa
  if ch = rxChan c.rx x y then cbeM c x y
  else if ch = cf.guide then d.cbeY c x y
  else if !cf.codes.contains ch then 0
  else
    let a := d.cbeA c x y
    let use := fun (i j : Int) => rxChan c.rx i j == ch
    let diff := fun (i j : Int) => cbeM c i j - d.cbeYw c i j
    let h := d.kernelSum c x y (chanKernel cf ch) use diff
    let v := d.kernelSum c x y (chanKernel cf ch + 1) use diff
    sat21 (d.cbeY c x y + roundDiv (a * h + (256 - a) * v) 256)

/-! ## IR, f24, matrix and working space (R188, R191 to R193) -/

/-- IRK of channel `ch`. -/
def irk (blk : List Byte) (ch : Nat) : Nat := if ch < 4 then bn blk (4 + 2 * ch) 2 else 0

/-- P′ of a channel (R188): a channel that the description does not hold enters as 0 (R192). -/
def Dev.cbeP' (d : Dev) (c : Cx) (x y : Int) (ch : Nat) : Int :=
  let p := d.cbeP c x y ch
  if !c.rx.cfa.codes.contains ch then 0
  else if ch < 4 then sat21 (p - roundDiv (d.cbeP c x y 4 * irk c.rx.f.cfg.colour ch) 4096) else p

/-- IN_SHIFT, WS and M[k][j] of a colour block; the state of R204 before the first. -/
def inShift (blk : List Byte) : Nat := if blk.isEmpty then 20 else b8 blk 2

def workSpace (blk : List Byte) : Nat := b8 blk 1

def camMatrix (blk : List Byte) (k j : Nat) : Nat :=
  if blk.isEmpty then (if k = j then 0x3F0000 else 0) else fw blk 12 (5 * k + j)

/-- Luminance weights as f24 words (Table 6-7). -/
def lumWeight : Nat → Nat → Nat
  | 0, 0 => f24Of 3439664498 (10 ^ 10)
  | 0, 1 => f24Of 7281660966 (10 ^ 10)
  | 0, _ => f24Of (-721325464) (10 ^ 10)
  | _, 0 => f24Of 260685 (10 ^ 6)
  | _, 1 => f24Of 774895 (10 ^ 6)
  | _, _ => f24Of (-35580) (10 ^ 6)

/-- Y_W = Σ w_k × W_k, exact (R193). -/
def lumOf (ws r g b : Nat) : Nat :=
  f24Fx 2 (fx (lumWeight ws 0) * fx r + fx (lumWeight ws 1) * fx g + fx (lumWeight ws 2) * fx b)

/-- Steps 1 to 5 at a site. -/
def Dev.cbeSite (d : Dev) (c : Cx) (x y : Int) : Px :=
  let blk := c.rx.f.cfg.colour
  let xs := (rangeFrom 0 5).map fun ch => fx (f24Of (d.cbeP' c x y ch) (2 ^ inShift blk))
  let w := fun (k : Nat) =>
    f24Fx 2 (((rangeFrom 0 5).map fun j => fx (camMatrix blk k j) * xs.getD j 0).foldl (· + ·) 0)
  { r := w 0, g := w 1, b := w 2, y := lumOf (workSpace blk) (w 0) (w 1) (w 2) }

/-- Step 6 (R196). A unit that has never been loaded gives free words (log entry 21). -/
def Dev.cbeLut (d : Dev) (f : PipeFrame) (p : Px) : Px :=
  if !f.cfg.lutOn then p
  else if f.cfg.lut.isEmpty then { p with
    r := Config.freeNat d.free % 16777216, g := Config.freeNat (d.free + 1) % 16777216
    b := Config.freeNat (d.free + 2) % 16777216 }
  else
    let o := lut3 f.cfg.lut 0 65 p.r p.g p.b
    { p with r := o.1, g := o.2.1, b := o.2.2 }

/-! ## The token -/

/-- RFE has delivered every row that window row `wy` takes: up to 9 rows below it, and the first 12 rows for the rows
that are reflected at the top edge with a period of up to 8 (R153, R180). -/
def mosReady (f : PipeFrame) (wy : Nat) : Bool :=
  f.rfeDone || (fspokes f).zipIdx.all fun e =>
    decide (ceilDiv (clipTo (fstripe f e.2) (fwin f)) 8 * min (max (wy + 10) 12) (fwin f).h ≤ SMap.get 0 f.tok e.1)

/-- CBE slice of a spoke: engine code and island (R180). -/
def sliceOf (k : Nat) : Nat × Nat := if k < 8 then (0x11, 17) else (0x12, 18)

/-- Every stripe has had its last token. -/
def cbeAll (f : PipeFrame) : Bool :=
  (fspokes f).zipIdx.all fun e => decide (tokenCount f (fstripe f e.2) ≤ SMap.get 0 f.cbeTok e.1)

/-- The effect of a CBE token of a spoke's stripe. -/
def Dev.cbeToken (d : Dev) (k : Nat) : Dev :=
  if d.engDown (sliceOf k).1 (sliceOf k).2 then d else
  match d.rfe.frames.find? fun f => !f.cbeDone && (fspokes f).contains k with
  | none => d
  | some f =>
    let st := fstripe f ((fspokes f).idxOf k)
    let t := SMap.get 0 f.cbeTok k
    match tokenSites f st t with
    | none => d.modFrame f.src f.index fun f => { f with cbeDone := cbeAll f }
    | some (wy, xs) =>
      if !mosReady f wy || d.cbeHeld f.src then d else
      d.tokCross [0x80 + k / 8] fun (d : Dev) =>
      let c := d.cx f
      let y := c.rx.win.y0 + wy
      let g := xs.foldl (fun g (x : Nat) =>
        let p := d.cbeSite c x y
        { g with work := SMap.put {} g.work (siteKey x y) p, col := SMap.put {} g.col (siteKey x y) (d.cbeLut f p) }) f
      let g := { g with cbeTok := SMap.put 0 f.cbeTok k (t + 1) }
      let g := { g with cbeDone := cbeAll g }
      let d := if f.cfg.lutOn && f.cfg.lut.isEmpty then { d with free := d.free + 3 } else d
      d.modFrame f.src f.index fun _ => g

/-- CBE_TOKEN (R179). -/
def execCbeToken (spoke : Fin 16) (s : State) : Outcome State Fault Refusal := lift (fun d => d.cbeToken spoke.val) s

end Sys2Proof.Machine
end

