-- ==== Sys2Proof/Machine/Ingest.lean ====
section
/-! DEFINITION. Sensor ports and the memory port: master clocks, start and stop, lanes, frames and lines (R108 to R127,
R130 to R132, R138, R139, R142). -/

namespace Sys2Proof.Machine

open Host

/-! ## Master clocks (R117, R118) -/

def Dev.mclk (d : Dev) (k : Nat) : Mclk := SMap.get {} d.sni.mclk k

def Dev.setMclk (d : Dev) (k : Nat) (v : Mclk) : Dev :=
  if d.mclk k = v then d
  else ({ d with sni := { d.sni with mclk := SMap.put {} d.sni.mclk k v } }).emit
    (.mclk k (if v.running then v.freq else 0) v.rate)

/-- The frequency of MCLKk under FREQ_HZ. Outside 6 to 100 MHz the spec gives none: free within that range (R117, log
entry 73). -/
def Dev.mclkHz (d : Dev) (k : Nat) : Nat × Dev :=
  let f := d.fld (0x20804 + 8 * k) 27 0
  if 6000000 ≤ f ∧ f ≤ 100000000 then (f, d)
  else
    let x := d.draw
    (6000000 + x.1 % 94000001, x.2)

/-- MCLKk follows EN, FREQ_HZ and TRACK of its registers. -/
def Dev.mclkFollow (d : Dev) (k : Nat) : Dev :=
  let o := 0x20800 + 8 * k
  if d.fld o 0 0 = 1 then
    let x := d.mclkHz k
    x.2.setMclk k {
      running := true, freq := x.1, rate := if d.fld o 1 1 = 1 then d.ntu.incr else Config.nominalIncr }
  else d.setMclk k { d.mclk k with running := false }

/-- The clocks that track the LTS rate follow a tick that advances the LTS by `adv` (R117). -/
def Dev.mclkTrack (d : Dev) (adv : Nat) : Dev :=
  (rangeFrom 0 4).foldl (fun (d : Dev) k =>
    if (d.mclk k).running && d.fld (0x20800 + 8 * k) 1 1 == 1 then d.setMclk k { d.mclk k with rate := adv } else d) d

/-- A write of MCLK_CFG or MCLK_FREQ acts as soon as it is taken (R118). -/
def Dev.mclkWrite (d : Dev) (k off v : Nat) : Dev := (d.writeReg off v).mclkFollow k

/-- MCLK_ENABLE: a write of EN 1. -/
def execMclkEnable (k : Fin 4) (v : Word) (s : State) : Outcome State Fault Refusal :=
  lift (fun d => if v.toNat.testBit 0 then d.mclkWrite k.val (0x20800 + 8 * k.val) v.toNat else d) s

/-- MCLK_DISABLE: a write of EN 0. -/
def execMclkDisable (k : Fin 4) (v : Word) (s : State) : Outcome State Fault Refusal :=
  lift (fun d => if v.toNat.testBit 0 then d else d.mclkWrite k.val (0x20800 + 8 * k.val) v.toNat) s

/-- MCLK_FREQ_WRITE. -/
def execMclkFreqWrite (k : Fin 4) (v : Word) (s : State) : Outcome State Fault Refusal :=
  lift (fun d => d.mclkWrite k.val (0x20804 + 8 * k.val) v.toNat) s

/-! ## Records (R142, Tables 4-17 to 4-19) -/

/-- PORT_EVENT. -/
def Dev.portEvent (d : Dev) (p ev lane spread : Nat) : Dev :=
  d.post 0x4012 1 ones64 2 p [⟨32, 1, ev⟩, ⟨33, 1, lane⟩, ⟨34, 2, spread⟩] d.now

/-- BAR0 offset of port counter `i` of Table 4-11. -/
def portCtr (p i : Nat) : Nat := 0x200A0 + 0x100 * p + 4 * i

/-- Count in a port counter; MP has none. -/
def Dev.portCount (d : Dev) (p i n : Nat) : Dev := if p < 4 ∧ 0 < n then d.count (portCtr p i) n else d

/-- FLAGS of a closed frame without bit 6 (Tables 4-18 and 11-2). -/
def frameFlags (f : Frame) (short : Bool) : Nat :=
  short.toNat + 2 * (decide (0 < f.discarded)).toNat + 4 * f.unterminated.toNat + 8 * f.inputLost.toNat
    + 16 * (decide (0 < f.lineErrs)).toNat + 32 * f.progFault.toNat + 128 * f.sched.toNat

/-- FRAME_DONE or FRAME_SKIPPED. -/
def Dev.frameRecord (d : Dev) (p : Nat) (f : Frame) (short raw : Bool) : Dev :=
  d.post (if f.skipped.isSome then 0x4011 else 0x4010) 1 f.index 2 p
    [⟨32, 4, f.prog.id⟩, ⟨36, 1, p⟩, ⟨37, 1, frameFlags f short + 64 * f.feMissing.toNat⟩, ⟨38, 1, f.skipped.getD 0⟩,
     ⟨39, 1, raw.toNat⟩, ⟨40, 4, f.lines⟩, ⟨44, 4, f.discarded⟩, ltsFld 48 f.expStart, ⟨60, 2, satW 16 f.lineErrs⟩,
     ⟨62, 2, satW 16 f.crcErrs⟩] d.now

/-! ## Closing a frame (R122 to R126) -/

/-- The pipeline's frame of a source that is still open. -/
def Dev.modOpen (d : Dev) (s : Nat) (f : PipeFrame → PipeFrame) : Dev :=
  { d with rfe := { d.rfe with frames := updFirst (fun g => g.src == s && !g.closed) f d.rfe.frames } }

/-- Rows of the history that the frame leaves valid (R169). -/
def Dev.histRowsAfter (d : Dev) (s : Nat) (lines : Nat) (short : Bool) : Nat :=
  let w := d.win s
  if short then min w.h (lines - w.y0) else w.h

/-- The pipeline learns that the frame has closed (R122, R174). -/
def Dev.closePipe (d : Dev) (s : Nat) (f : Frame) (short : Bool) : Dev :=
  let d := d.modOpen s fun g => { g with
    closed := true, short := short, long := decide (0 < f.discarded), fault := f.progFault, lines := f.lines
    rows := fillRows g.rows g.height (g.width * if g.dual then 2 else 1) (d.pedestal s) }
  let v := d.rfe? s
  d.setRfe s { v with
    histRows := if d.histEn s then d.histRowsAfter s f.lines short else 0, prevHwm := v.frameHwm }

/-- The frame whose tokens are all done when it closes leaves RFE (R161). -/
def Dev.closeRfe (d : Dev) (s i : Nat) : Dev :=
  match d.rfe.frames.find? fun g => g.src == s && g.index == i with
  | none => d
  | some g => d.rfeFinish g

/-- Close the open frame of a port or MP; `force` closes it SHORT whatever it holds. -/
def Dev.closeFrame (d : Dev) (p : Nat) (force : Bool) : Dev :=
  match (d.port p).frame with
  | none => d
  | some f =>
    let short := force || decide (f.lines < d.srcHeight p)
    let staged := (d.raw? p).isSome && (p < 4)
    let room := ((d.raw? p).bind freeSlot).isSome
    let d := if staged then d.stageRaw p f (frameFlags f short + 64 * f.skipped.isSome.toNat) else d
    let d := if f.skipped.isSome then d else (d.closePipe p f short).closeRfe p f.index
    let d := ((((d.portCount p 0 short.toNat).portCount p 5 f.feMissing.toNat).portCount p 6
      f.skipped.isSome.toNat).portCount p 7 f.inputLost.toNat)
    let d := d.frameRecord p f short (staged && room)
    let d := if f.skipped.isSome && !f.stuOver && d.stuRawOn p then
      d.cancelSkipped p f.index f.prog.id (rawFlags short (decide (0 < f.discarded)) f.progFault) f.expStart else d
    d.modPort p fun v => { v with
      frame := none, lastClosed := some f.index, faulted := v.faulted.filter (f.index < ·) }

/-! ## Stopping (R139) -/

/-- Index that the next frame would take. -/
def Dev.nextIndex (d : Dev) (p : Nat) : Nat := (d.port p).nextIndex

/-- Pending programs that have not begun, and submissions that wait, complete with a status (R139, R488). -/
def Dev.endPrograms (d : Dev) (p st : Nat) : Dev :=
  let v := d.port p
  let out := (v.programs.filter fun g => !g.issuing) ++ v.waiting
  (d.setPort p { v with programs := v.programs.filter (·.issuing), waiting := [] }).finishAll (out.map (·.ref)) st
    v.nextIndex

/-- The port stops: it returns to set-up, with the secondaries of its gang (R118). -/
def Dev.portStop (d : Dev) (p : Nat) : Dev :=
  let g := d.gangOf p
  let clear := fun (v : Port) => { v with
    state := .stopped, survives := false, latched := [], gang := 0, scheduled := false, peloton := false, change := none
    laneLock := 0, frame := none, blind := false, stopping := false, stopRef := none, triggers := [], trigHigh := false
    windows := [], nextIndex := v.counted }
  let d := (rangeFrom g.1 g.2).foldl (fun d k => d.modPort k clear) d
  d.teuUpdate

/-- Firmware runs a sequence of transactions on the board table's controller, where it is enabled (R46, R404). -/
def Dev.boardSeq (d : Dev) (seq : List (List Byte)) : Dev :=
  let c := d.boot.boardTw
  if (d.ctl c).state == .enabled then seq.foldl (fun (d : Dev) bs => (d.emit (.twStart c bs)).emit (.twStop c)) d else d

/-- The stop sequence that the takeover left due after the pilot's last frame (R59). -/
def Dev.boardStop (d : Dev) (p : Nat) : Dev :=
  if d.boot.stopDue = some p then
    ({ d with boot := { d.boot with stopDue := none } }).boardSeq d.boot.stopSeq
  else d

/-- LAST_INDEX of STOP_PORT. -/
def Dev.lastIndex (d : Dev) (p : Nat) : Nat := (d.port p).lastClosed.getD ones64

/-- Stop now: close the frame SHORT where one is open, end the programs, stop, and complete the STOP_PORT that waits. -/
def Dev.stopNow (d : Dev) (p : Nat) (force : Bool) : Dev :=
  let d := (d.closeFrame p force).endPrograms p stLate
  let r := (d.port p).stopRef
  let d := (d.portStop p).boardStop p
  match r with
  | some r => d.finish r stSuccess (d.lastIndex p)
  | none => d

/-- A stop that waits for the open frame takes effect once it has closed (R60, R139). -/
def Dev.settleStop (d : Dev) (p : Nat) : Dev :=
  if (d.port p).stopping && (d.port p).frame.isNone then d.stopNow p false else d

/-! ## START_PORT and STOP_PORT (R118, R119, R128) -/

/-- Offences common to class 0x01: mode, reserved bits; NEXT_POSSIBLE is this class's own. -/
def ingestOffs (ok : Bool) (c : Cmd) (fields : List (Nat × Nat × Nat)) : List Offence :=
  modeOff ok ++ dw1Offs c false ++ resOffs c fields

/-- The schedule operands of START_PORT in scheduled mode (R128, Table 4-14). RATE_NUM and RATE_DEN are read, and must
not be 0, only with SCHEDULED set and PELOTON clear; PELOTON without SCHEDULED offends (DESIGN CHOICE, log entry 74). -/
def Dev.schedOffs (d : Dev) (c : Cmd) : List Offence :=
  let n := c.w 5
  let m := c.w 6
  if !c.b 4 2 then off 4 3 (c.b 4 3)
  else off 4 16 (c.f 4 31 16 == 0) ++
    if c.b 4 3 then off 4 3 (!d.pelReady)
    else off 5 0 (n == 0 || (m != 0 && (decide (60 * n < m) || decide (400 * m < n)))) ++ off 6 0 (m == 0)
      ++ off 10 0 (n != 0 && m != 0 && decide (m * 1000000000 ≤ c.w 10 * n))

def specStartPort : CmdSpec := {
  cls := 0x01, opc := 0x01
  feat := fun d c => (!c.b 4 3 || d.feat 10) && (d.fld (0x50000 + 0x40 * c.f 4 1 0) 1 1 == 0 || d.feat 14)
  offs := fun d c =>
    ingestOffs (d.boot.mode == .capture) c [(4, 3, 0), (4, 31, 16), (5, 31, 0), (6, 31, 0), (7, 31, 0), (8, 31, 0),
        (9, 31, 0), (10, 31, 0)]
      ++ off 4 0 (!d.portStopped (c.f 4 1 0) || (d.gangOf (c.f 4 1 0)).1 != c.f 4 1 0) ++ d.schedOffs c }

/-- FIRST_INDEX of START_PORT (Table 4-16). -/
def Dev.firstIndex (d : Dev) (p : Nat) (sc : Option Sched) (pel : Bool) : Nat :=
  match sc with
  | some s => match d.ntu.pel.pend with
    | some c => if pel && s = c.sched then max c.idx (firstExposure s d.now) else firstExposure s d.now
    | none => firstExposure s d.now
  | none => (d.port p).counted

/-- The port as START_PORT arms it. What was applied to frames above the first one's index no longer bars a later
program from taking effect (R138). -/
def Dev.armed (d : Dev) (p : Nat) (c : Cmd) (sc : Option Sched) (first : Nat) : Port := { d.port p with
    state := .locking, survives := false, latched := d.latch p, gang := (d.gangOf p).2, scheduled := sc.isSome
    peloton := c.b 4 3 && sc.isSome
    change := if c.b 4 3 then d.ntu.pel.pend.filter fun g => sc != some g.sched else none
    rateNum := (sc.map (·.num)).getD 0, rateDen := (sc.map (·.den)).getD 0
    epoch := (sc.map (·.epoch)).getD 0, offNs := (sc.map (·.offNs)).getD 0, trigUs := c.f 4 31 16
    nextIndex := first, nextExp := first, laneLock := 0, cfgErr := 0, blind := false, triggers := []
    effAt := min (d.port p).effAt first
    starts := if sc.isSome then [] else (d.port p).starts }

/-- The effect of START_PORT. -/
def startPort (r : CmdRef) (c : Cmd) (d : Dev) : Dev :=
  let p := c.f 4 1 0
  if d.engOff (0x40 + p) (47 + p) then d.finish r stEngineDown 0
  else if d.engDown (0x40 + p) (47 + p) then d
  else
    let sc := d.startSched c
    let first := d.firstIndex p sc (c.b 4 3)
    let e := d.startErr p sc first
    if e ≠ 0 then (d.modPort p fun v => { v with cfgErr := e }).setupFault r
    else
      let d := d.closeFrame p true
      let d := (((d.setPort p (d.armed p c sc first)).judgeAll p).refill p).twNext (d.portCtl p)
      let d := (rangeFrom (p + 1) ((d.gangOf p).2 - 1)).foldl (fun d k =>
        d.modPort k fun v => { v with state := .gangSecondary, survives := false, latched := d.latch k, laneLock := 0 }) d
      let d := if (d.mclk p).running then d else (d.setReg (0x20800 + 8 * p) (d.reg (0x20800 + 8 * p) ||| 1)).mclkFollow p
      let d := d.setRfe p { d.rfe? p with
        blFirst := true, histBroken := true, hwm := 0, frameHwm := 0, prevHwm := 0 }
      let g := d.portGeom p
      let cf := d.cfa p
      let d := match d.raw? p with
        | none => d
        | some s => d.setRaw p (some { s with
            width := g.w, height := g.h, depth := g.depth, planes := if g.dual then 2 else 1, px := cf.px, py := cf.py })
      d.finish r stSuccess first

/-- START_PORT (R119). -/
def execStartPort (r : CmdRef) (s : State) : Outcome State Fault Refusal :=
  lift (runCmd specStartPort r (startPort r)) s

def specStopPort : CmdSpec := {
  cls := 0x01, opc := 0x02
  offs := fun d c =>
    ingestOffs (d.boot.mode == .capture) c [(4, 2, 0)]
      ++ off 4 0 ((d.port (c.f 4 1 0)).state == .stopped || (d.port (c.f 4 1 0)).state == .gangSecondary) }

/-- The effect of STOP_PORT. -/
def stopPort (r : CmdRef) (c : Cmd) (d : Dev) : Dev :=
  let p := c.f 4 1 0
  if c.b 4 2 ∨ (d.port p).frame.isNone then
    let d := d.stopNow p true
    d.finish r stSuccess (d.lastIndex p)
  else if (d.port p).stopping then d
  else (d.begin r).modPort p fun v => { v with stopping := true, stopRef := some r }

/-- STOP_PORT (R139). -/
def execStopPort (r : CmdRef) (s : State) : Outcome State Fault Refusal := lift (runCmd specStopPort r (stopPort r)) s

/-! ## Lanes (R108, R109, R125, R142) -/

/-- Active lanes of a port by the bit numbers of LANE_LOCK. -/
def Dev.activeLanes (d : Dev) (p : Nat) : List Nat :=
  let o := 0x20000 + 0x100 * p
  if d.sfld p o 1 0 = 1 then rangeFrom 0 (d.sfld p o 6 2)
  else (rangeFrom 0 (d.sfld p o 9 8 + 1)).flatMap fun j => rangeFrom (5 * j) (1 + 2 ^ d.sfld p o 11 10)

/-- Every active lane of every port of the gang is locked. -/
def Dev.allLocked (d : Dev) (p : Nat) : Bool :=
  let g := d.gangOf p
  (rangeFrom g.1 g.2).all fun k => (d.activeLanes k).all fun n => (d.port k).laneLock.testBit n

/-- A lane of a started port locks: PORT_EVENT; the port runs once all its lanes are locked. -/
def Dev.laneUp (d : Dev) (p n : Nat) : Dev :=
  let v := d.port p
  if v.state = .stopped ∨ !(d.activeLanes p).contains n ∨ v.laneLock.testBit n then d
  else
    let d := (d.setPort p { v with laneLock := v.laneLock ||| 2 ^ n }).portEvent p 1 n 0
    let m := (d.gangOf p).1
    if d.allLocked p && (d.port m).state == .locking then d.modPort m fun v => { v with state := .running } else d

/-- LANE_LOCK_ACQUIRED. -/
def execLaneLockAcquired (p : Fin 4) (lane : Fin 20) (s : State) : Outcome State Fault Refusal :=
  lift (fun d => d.laneUp p.val lane.val) s

/-- The open frame of a port ends as lost input (R125): SHORT with INPUT_LOST; reception resumes at the next good start. -/
def Dev.loseInput (d : Dev) (p : Nat) : Dev :=
  let d := d.modPort p fun v => { v with frame := v.frame.map fun f => { f with inputLost := true } }
  ((d.closeFrame p true).modPort p fun v => { v with blind := true }).settleStop p

/-- A lane loses lock. -/
def Dev.laneDown (d : Dev) (p n : Nat) : Dev :=
  let v := d.port p
  if v.state = .stopped ∨ !v.laneLock.testBit n then d
  else
    let d := (d.setPort p { v with laneLock := v.laneLock ^^^ 2 ^ n }).portEvent p 2 n 0
    let m := (d.gangOf p).1
    let d := if (d.port m).state = .running then d.modPort m fun v => { v with state := .locking } else d
    if (d.port m).frame.isSome then d.loseInput m else d

/-- LANE_LOCK_LOST (R125). -/
def execLaneLockLost (p : Fin 4) (lane : Fin 20) (s : State) : Outcome State Fault Refusal :=
  lift (fun d => d.laneDown p.val lane.val) s

/-- A frame is open on the port of a gang whose secondaries' codes fail to arrive (R115). -/
def execGangSkewTimeout (p : Fin 4) (s : State) : Outcome State Fault Refusal :=
  lift (fun d => if (d.gangOf p.val) = (p.val, (d.port p.val).gang) ∧ 1 < (d.port p.val).gang
      ∧ (d.port p.val).frame.isSome then d.loseInput p.val else d) s

/-! ## Frame start (R113, R120, R130, R131, R137, R138) -/

/-- Programs applied up to frame `i` take effect, in index order (R138). -/
def takeApplied (v : Port) (i : Nat) : Port :=
  let gs := (v.applied.filter (·.target ≤ i)).mergeSort fun a b => decide (a.target ≤ b.target)
  gs.foldl (fun v g => if g.target < v.effAt then v else
      { v with previous := v.inEffect, inEffect := progSettings g v.inEffect, effAt := g.target })
    { v with applied := v.applied.filter (i < ·.target) }

/-- A program that still issues binds to its frame at the frame start (R137). -/
def bindIssuing (v : Port) (i : Nat) : Port :=
  match v.programs.find? fun g => g.issuing && g.target == i && !g.bound && !g.reset with
  | none => v
  | some g => { v with
      previous := v.inEffect, inEffect := progSettings g v.inEffect, effAt := i, faulted := i :: v.faulted
      programs := updFirst (·.ref == g.ref) (fun g => { g with bound := true }) v.programs }

/-- The triggers that can still produce a frame: one whose exposure produced none goes once the frame of the next
trigger is due, EXP_LEAD_US after it (R27, R130, log entry 74). -/
def liveTriggers (lead now : Nat) : List Trigger → List Trigger
  | t :: u :: ts => if u.time + lead ≤ now then liveTriggers lead now (u :: ts) else t :: u :: ts
  | ts => ts

/-- Exposure start and index of a frame that starts now (R25, R130, R131). MP has no SP_EXP: its exposure start is its
frame start (log entry 74). -/
def Dev.identify (d : Dev) (p : Nat) : Nat × Nat × Dev :=
  let v := d.port p
  let lead := d.sfld p (0x20010 + 0x100 * p) 31 16 * tUs
  if v.scheduled then
    match liveTriggers lead d.now v.triggers with
    | t :: ts => (t.n, t.time, d.setPort p { v with triggers := ts })
    | [] =>
      let e := d.now - lead
      ((e - v.epoch) * v.rateNum / (v.rateDen * tSec), e, d.setPort p { v with triggers := [] })
  else if p = 4 then (v.nextIndex, d.now, d)
  else if d.sfld p (0x20010 + 0x100 * p) 12 12 = 1 then
    match v.lastExpEdge with
    | some e => (v.nextIndex, e, d)
    | none => let f := d.draw; (v.nextIndex, f.1, f.2)
  else (v.nextIndex, d.now - lead, d)

/-- Programs that the start of frame `i` leaves without a window they can meet miss their target (R133, R135). -/
def Dev.missLate (d : Dev) (p : Nat) : Dev :=
  ((d.port p).programs.filter fun g => !g.issuing && !d.inTime g g.target).foldl (fun d g => d.missProg g) d

/-- The PipeFrame of a frame that is not skipped. -/
def Dev.newPipe (d : Dev) (p i : Nat) (g : ProgSet) (expStart : Nat) (cfg : FrameCfg) : PipeFrame := {
  src := p, index := i, prog := g, expStart := expStart, cfg := cfg, width := d.srcWidth p, height := d.srcHeight p
  depth := d.srcDepth p, dual := d.srcDual p, latched := (d.port p).latched }

/-- A frame opens on port `p` or MP. While STU is down it is cancelled there (R235). -/
def Dev.openFrame (d : Dev) (p : Nat) : Dev :=
  let d := ((d.bindCeil p).undoStep p).bindStep p
  let skip := d.skipCause p
  let ie := d.identify p
  let i := ie.1
  let e := ie.2.1
  let d := ie.2.2.modPort p fun v =>
    let v := bindIssuing (takeApplied v i) i
    { v with
      starts := ((i, d.now) :: v.starts).take 8, nextIndex := i + 1, counted := i + 1
      windows := v.windows.filter (i < ·) }
  let d := (d.missLate p).refill p
  let v := d.port p
  let g := if p = 4 then { v.inEffect with id := (d.mpCmd.map fun c => c.w 9).getD 0 } else v.inEffect
  let fr : Frame := {
    index := i, prog := g, start := d.now, expStart := e, sched := v.scheduled, skipped := skip
    progFault := v.faulted.contains i }
  let d := d.setPort p { v with frame := some fr, blind := false, fsUntil := if p < 4 then some (d.now + tUs) else none }
  let d := ((d.bindRfe p i).bindCbe p i).teuUpdate
  if skip.isSome then d.bindSkipped p i else
    let cd := d.sweepFrames.frameCfg p i g
    let f := cd.2.newPipe p i g e cd.1
    let down := cd.2.engDown 0x20 27
    let d := if down then cd.2.cancelFrame f else cd.2
    { d with rfe := { d.rfe with frames := d.rfe.frames ++ [{ f with stuDone := down }] } }

/-- A frame starts while one is open: the open one closes first (R124). -/
def Dev.closeForNext (d : Dev) (p : Nat) : Dev :=
  match (d.port p).frame with
  | none => d
  | some f =>
    if d.srcHeight p ≤ f.lines then
      (d.modPort p fun v => { v with frame := v.frame.map fun f => { f with feMissing := true } }).closeFrame p false
    else d.closeFrame p true

/-- A frame starts on a running port (R120, R124). -/
def Dev.startNow (d : Dev) (p : Nat) : Dev :=
  let d := (d.closeForNext p).settleStop p
  if (d.port p).state = .running then d.openFrame p else d

/-- Lane mode of a port: 1 SLVS, 2 CSI-2 (Table 4-3). -/
def Dev.laneMode (d : Dev) (p : Nat) : Nat := d.sfld p (0x20000 + 0x100 * p) 1 0

/-- A sync word matches pattern `i` of a port: a bit that is 0 in MASK is ignored (R111). -/
def Dev.syncIs (d : Dev) (p i w : Nat) : Bool :=
  let o := 0x20020 + 0x100 * p + 4 * i
  (w ^^^ d.sfld p o 15 0) &&& d.sfld p o 31 16 == 0

/-- The virtual channel of link `j` (Table 4-7). -/
def Dev.linkVc (d : Dev) (p j : Nat) : Nat := d.sfld p (0x2000C + 0x100 * p) (4 * j + 3) (4 * j)

/-- A short packet on link 0: with an uncorrectable header, or of another virtual channel, it is discarded and counted;
a corrected header counts (R110). -/
def Dev.shortPacket (d : Dev) (p vc : Nat) (h : Header) (f : Dev → Dev) : Dev :=
  if h = .bad then d.portCount p 9 1
  else
    let d := if h = .corrected then d.portCount p 8 1 else d
    if vc ≠ d.linkVc p 0 then d.portCount p 9 1 else f d

/-- The effect of a start-of-frame code or packet on a running port (R110, R111, R113, R120). A word that is not the
start of a frame counts in SYNC_ERR. A code with wide spread, or missing on a lane, is no frame start: the port is blind
to the lines up to the next good one. On a port that is not running, a gang secondary included, a code does nothing
(log entry 74). MP's frame starts once its MP_FRAME runs. -/
def Dev.frameStart (d : Dev) (p : Nat) (code : CodeIn) (copies : LaneCopies) : Dev :=
  let v := d.port p
  if p = 4 then (if v.mpRun.isSome && v.frame.isNone then d.openFrame 4 else d)
  else if v.state ≠ .running then d
  else match code with
    | .memory => d
    | .sync w =>
      if d.laneMode p ≠ 1 then d
      else if !d.syncIs p 0 w then d.portCount p 4 1
      else if copies.missing ∨ 64 < copies.spreadUi then (d.portEvent p 3 0xFF copies.spreadUi).modPort p fun v => { v with blind := true }
      else d.startNow p
    | .packet vc h => if d.laneMode p ≠ 2 then d else d.shortPacket p vc h fun d => d.startNow p

/-- FRAME_START (R120). -/
def execFrameStart (p : Fin 5) (code : CodeIn) (copies : LaneCopies) (s : State) : Outcome State Fault Refusal :=
  lift (fun d => d.frameStart p.val code copies) s

/-! ## The memory port (R132) -/

def specMpFrame : CmdSpec := {
  cls := 0x01, opc := 0x20
  feat := fun d _ => d.fld 0x50100 1 1 == 0 || d.feat 14
  offs := fun d c =>
    let g : Geom := { w := c.f 5 14 0 + 1, h := c.f 5 29 16 + 1, depth := 10 + 2 * c.f 4 1 0, dual := c.b 4 2 }
    let n := g.w * if g.dual then 2 else 1
    let need := if c.b 4 3 then ceilDiv (n * g.depth) 8 else 2 * n
    ingestOffs (d.boot.mode == .capture || d.boot.mode == .playback || d.boot.mode == .analyser) c
        [(4, 3, 0), (5, 14, 0), (5, 29, 16), (6, 31, 0), (7, 31, 0), (8, 31, 0), (9, 31, 0)]
      ++ off 5 0 (decide (20480 < g.w)) ++ off 6 0 (c.w 6 % 64 != 0 || decide (c.w 6 < need))
      ++ off 7 0 (c.q 7 % 64 != 0 || d.devBad (c.q 7) (c.w 6 * (g.h - 1) + need)) }

/-- Set-up faults of an MP_FRAME: the RFE, CBE and STU checks on source 4 (R152, R203, R243). -/
def Dev.mpErr (d : Dev) (c : Cmd) : Bool :=
  let g : Geom := { w := c.f 5 14 0 + 1, h := c.f 5 29 16 + 1, depth := 10 + 2 * c.f 4 1 0, dual := c.b 4 2 }
  d.rfeErr 4 g (((d.cfaNow 4).map (·.px)).getD 1) (d.nextIndex 4) || d.cbeErr 4 (d.nextIndex 4) || d.stuErr 4

/-- MP_FRAME begins: one at a time, in fetch order; the source's registers are latched (R132, R175). -/
def mpFrame (r : CmdRef) (c : Cmd) (d : Dev) : Dev :=
  let v := d.port 4
  let earlier := d.hif.cmds.any fun e => e.cls == 1 && e.opc == 0x20 && decide (e.num < c.num)
  if v.mpRun.isSome || earlier then d
  else if d.mpErr c then d.setupFault r
  else (d.begin r).setPort 4 { v with mpRun := some r, mpAbort := none, latched := d.latch 4 }

/-- MP_FRAME (R132). -/
def execMpFrame (r : CmdRef) (s : State) : Outcome State Fault Refusal := lift (runCmd specMpFrame r (mpFrame r)) s

/-- The running MP_FRAME ends: it completes with its frame's index; the last one stops MP, so that the next frame has no
history (R168; COMMAND_FETCH marks it). -/
def Dev.mpEnd (d : Dev) (st index : Nat) : Dev :=
  match (d.port 4).mpRun with
  | none => d
  | some r =>
    (d.modPort 4 fun v => { v with mpRun := none, mpAbort := none, latched := [] }).finish r st index

/-- The open MP frame closes and its command completes. -/
def Dev.mpClose (d : Dev) (force : Bool) (st : Nat) : Dev :=
  match (d.port 4).frame with
  | none => d
  | some f => (d.closeFrame 4 force).mpEnd st f.index

/-- Samples of row `y` of the running MP_FRAME, from device memory (Table 4-14). -/
def Dev.mpRow (d : Dev) (c : Cmd) (y : Nat) : List Nat :=
  let w := (c.f 5 14 0 + 1) * if c.b 4 2 then 2 else 1
  let dep := 10 + 2 * c.f 4 1 0
  let a := c.q 7 + c.w 6 * y
  if c.b 4 3 then unpackBits dep w (leNat (Mem.rdN d.mem.lpddr a (ceilDiv (w * dep) 8)))
  else (rangeFrom 0 w).map fun x => leNat (Mem.rdN d.mem.lpddr (a + 2 * x) 2) % 2 ^ dep

/-! ## Lines (R121, R123, R156) -/

/-- A row as received, completed with the pedestal or cut at the width (R121). -/
def fitRow (w ped : Nat) (l : List Nat) : List Nat := (l ++ List.replicate (w - l.length) ped).take w

/-- Received lines of a frame that the spoke of stripe `e` has not taken: it has taken the row of its next token and 57
more, and all once it has done its last token (log entry 18). -/
def linesKept (g : PipeFrame) (e : Nat × Nat × Nat) : Nat :=
  let w := fwin g
  let n := ceilDiv (clipTo e.2 w) 8
  let t := SMap.get 0 g.tok e.1
  if n = 0 ∨ n * w.h ≤ t then 0 else g.lines - (w.y0 + t / n + 57)

/-- Lines in the ingest buffer of a spoke, of every frame of its source that RFE has not finished (R155, R156). -/
def Dev.backlog (d : Dev) (p : Nat) (e : Nat × Nat × Nat) : Nat :=
  ((d.rfe.frames.filter fun g => g.src == p && !g.rfeDone).map fun g => linesKept g e).sum

/-- The backlog is noted, and a spoke's ingest buffer that is full is an overrun (R156). -/
def Dev.ingest (d : Dev) (p : Nat) : Dev :=
  let b := ((d.stripes p).map (d.backlog p)).foldl max 0
  let full := (d.stripes p).any fun e => decide (ingestLines e.2.2 (d.srcDual p) < d.backlog p e)
  let v := d.rfe? p
  let d := d.setRfe p { v with hwm := max v.hwm (satW 16 b), frameHwm := max v.frameHwm b }
  if p < 4 ∧ full then (d.count (0x30128 + 0x40 * p) 1).loseInput p else d

/-- A line of the open frame. -/
def Dev.takeLine (d : Dev) (p : Nat) (f : Frame) (l : LineGot) : Dev :=
  if d.srcHeight p ≤ f.lines then
    (d.portCount p 1 1).modPort p fun v => { v with frame := some { f with
      discarded := f.discarded + 1, crcErrs := f.crcErrs + l.crcError.toNat } }
  else
    let d := d.portCount p 2 l.bad.toNat
    let d := d.modPort p fun v => { v with frame := some { f with
      lines := f.lines + 1, lineErrs := f.lineErrs + l.bad.toNat, crcErrs := f.crcErrs + l.crcError.toNat
      rows := f.rows ++ [l.samples], fill := if l.short then f.fill ++ [f.lines] else f.fill } }
    let d := if f.skipped.isSome then d else d.modOpen p fun g => { g with
      rows := g.rows ++ [l.samples], lines := g.lines + 1, fill := if l.short then g.fill ++ [f.lines] else g.fill }
    if f.skipped.isSome then d else d.ingest p

/-! ### Assembling a line from its lanes and links (R110 to R115) -/

/-- Samples of a whole line. -/
def Dev.lineLen (d : Dev) (p : Nat) : Nat := d.srcWidth p * if d.srcDual p then 2 else 1

/-- The parts of a line, each due in `share` samples, joined in column order: a part that is short is completed with the
pedestal and one that is long is cut (R121). -/
def Dev.joinParts (d : Dev) (p share : Nat) (parts : List (List Nat)) : LineGot := {
  samples := parts.flatMap fun l => fitRow share (d.pedestal p) (l.map (· % 2 ^ d.srcDepth p))
  bad := parts.any fun l => l.length != share
  short := parts.any fun l => decide (l.length < share) }

/-- The physical lane that SP_LANEMAP assigns to logical lane `l` (R112). -/
def Dev.laneOf (d : Dev) (p l : Nat) : Nat :=
  d.sfld p (0x20030 + 0x100 * p + 4 * (l / 6)) (5 * (l % 6) + 4) (5 * (l % 6))

/-- The words of a port's lanes in pixel order: pixel `i` travels on logical lane i mod N (R112), its two words with
DUAL_GAIN one after the other on that lane (R114, log entry 74). -/
def Dev.slvsWords (d : Dev) (p : Nat) (lanes : List (List Nat)) : List Nat :=
  let n := d.sfld p (0x20000 + 0x100 * p) 6 2
  let u := if d.srcDual p then 2 else 1
  let ls := (rangeFrom 0 n).map fun l => lanes.getD (d.laneOf p l) []
  let px := (rangeFrom 0 (n * (ls.map fun l => l.length / u).foldl max 0)).map fun i =>
    ((ls.getD (i % n) []).drop (u * (i / n))).take u
  (px.takeWhile fun g => g.length == u).flatten

/-- What a port of an SLVS gang received for a line: nothing where its code is no start of line; every sync word that
does not match its place counts in SYNC_ERR (R111). -/
def Dev.slvsPart (d : Dev) (p : Nat) (l : SlvsLine) : LineGot :=
  let ok := d.syncIs p 1 l.sol
  { samples := if ok then d.slvsWords p l.lanes else [], got := ok
    sync := l.stray.length + (!ok).toNat + (ok && !d.syncIs p 2 l.eol).toNat }

/-- A packet is taken: its header can be read, and its link is in use and has its virtual channel and data type (R110). -/
def Dev.csiOk (d : Dev) (p : Nat) (k : CsiPacket) : Bool :=
  k.header != .bad && decide (k.link ≤ d.sfld p (0x20000 + 0x100 * p) 9 8) && k.vc == d.linkVc p k.link
    && k.dt == d.sfld p (0x2000C + 0x100 * p) 21 16

/-- What each link of a port received for a line, and what the packets met (R110, R112). -/
def Dev.csiParts (d : Dev) (p : Nat) (ks : List CsiPacket) : List (List Nat) × LineGot :=
  let good := ks.filter (d.csiOk p)
  ((rangeFrom 0 (d.sfld p (0x20000 + 0x100 * p) 9 8 + 1)).map fun j =>
      ((good.find? (·.link == j)).map (·.words)).getD [],
    { got := !good.isEmpty, crcError := good.any (·.crcError)
      ecc := (ks.filter (·.header == .corrected)).length, discarded := (ks.filter fun k => !d.csiOk p k).length })

/-- What the parts of a line met, together. -/
def gotWith (l : LineGot) (ms : List LineGot) : LineGot := { l with
  got := ms.any (·.got), crcError := ms.any (·.crcError), ecc := (ms.map (·.ecc)).sum
  discarded := (ms.map (·.discarded)).sum, sync := (ms.map (·.sync)).sum }

/-- The line that a port or gang has received: port k of a gang of P carries columns k·W/P up, link j of L the columns
j·W/L up of them (R112, R115). -/
def Dev.assemble (d : Dev) (p : Nat) (l : LineIn) : LineGot :=
  let g := d.gangOf p
  let share := d.lineLen p / g.2
  match l with
  | .memory => {}
  | .slvs ps =>
    if d.laneMode p ≠ 1 then {} else
    let ms := (rangeFrom 0 g.2).map fun k => ((ps[k]?).map (d.slvsPart (g.1 + k))).getD {}
    gotWith (d.joinParts p share (ms.map (·.samples))) ms
  | .csi ps =>
    if d.laneMode p ≠ 2 then {} else
    let ms := (rangeFrom 0 g.2).map fun k => d.csiParts (g.1 + k) (ps.getD k [])
    gotWith (d.joinParts p (share / (d.sfld p (0x20000 + 0x100 * p) 9 8 + 1)) (ms.flatMap (·.1))) (ms.map (·.2))

/-- A row of the running MP_FRAME is read; its ABORT takes effect at this line boundary (R132). -/
def Dev.mpLine (d : Dev) (f : Frame) : Dev :=
  match d.mpCmd with
  | none => d
  | some c =>
    if (d.port 4).mpAbort.isSome then d.mpClose true ((d.port 4).mpAbort.getD 0)
    else if d.srcHeight 4 ≤ f.lines then d
    else d.takeLine 4 f (d.joinParts 4 (d.lineLen 4) [d.mpRow c f.lines])

/-- A received line, on a port that is its sensor's primary: what it met is counted there (R115); without an open
frame, while the port is blind, or where no part of it was taken it gives no line (R113, R125). A start-of-line code
outside a frame on a port that is not blind is out of sequence (Table 4-11, log entry 74). -/
def Dev.lineReceived (d : Dev) (p : Nat) (l : LineIn) : Dev :=
  let v := d.port p
  if p = 4 then
    match v.frame with
    | none => d
    | some f => d.mpLine f
  else if v.state = .stopped ∨ v.state = .gangSecondary then d
  else
    let g := d.assemble p l
    let lost := (g.got && d.laneMode p == 1 && v.state == .running && v.frame.isNone && !v.blind).toNat
    let d := (((d.portCount p 4 (g.sync + lost)).portCount p 8 g.ecc).portCount p 9 g.discarded).portCount p 3
      g.crcError.toNat
    match v.frame with
    | none => d
    | some f => if v.blind || !g.got then d else d.takeLine p f g

/-- LINE_RECEIVED (R121). -/
def execLineReceived (p : Fin 5) (line : LineIn) (s : State) : Outcome State Fault Refusal :=
  lift (fun d => d.lineReceived p.val line) s

/-! ## Frame end (R124) -/

/-- The end of the open frame of a port, which a blind port ignores (R113, log entry 74). -/
def Dev.endNow (d : Dev) (p : Nat) : Dev :=
  if (d.port p).frame.isNone ∨ (d.port p).blind then d else (d.closeFrame p false).settleStop p

/-- A frame-end code or packet (R110, R111, R124): a word that does not match its pattern, and one outside a frame on a
running port that is not blind, counts in SYNC_ERR. MP's frame ends when all its rows have been read. -/
def Dev.frameEnd (d : Dev) (p : Nat) (code : CodeIn) : Dev :=
  let v := d.port p
  if p = 4 then
    match v.frame with
    | none => d
    | some f =>
      if v.mpAbort.isSome then d.mpClose true (v.mpAbort.getD 0)
      else if d.srcHeight 4 ≤ f.lines then d.mpClose false stSuccess else d
  else if v.state ≠ .running then d
  else match code with
    | .memory => d
    | .sync w =>
      if d.laneMode p ≠ 1 then d
      else if !d.syncIs p 3 w || (v.frame.isNone && !v.blind) then d.portCount p 4 1
      else d.endNow p
    | .packet vc h => if d.laneMode p ≠ 2 then d else d.shortPacket p vc h fun d => d.endNow p

/-- FRAME_END. -/
def execFrameEnd (x : CodeAt) (s : State) : Outcome State Fault Refusal :=
  lift (fun d => d.frameEnd x.port.val x.code) s

/-- Twice the expected frame time of a port has passed since a frame start (R124). -/
def Dev.overdue (d : Dev) (p : Nat) (f : Frame) : Bool :=
  let t := d.frameUs p (d.portRate p)
  decide (2 * t.1 * tUs ≤ (d.now - f.start) * t.2)

/-- The open frame ends SHORT and UNTERMINATED once twice the expected frame time has passed without its end (R124). -/
def Dev.frameTimeout (d : Dev) (p : Nat) : Dev :=
  match (d.port p).frame with
  | none => d
  | some f =>
    if d.overdue p f then
      ((d.setPort p { d.port p with frame := some { f with unterminated := true } }).closeFrame p true).settleStop p
    else d

/-- FRAME_TIMEOUT (R124). -/
def execFrameTimeout (p : Fin 4) (s : State) : Outcome State Fault Refusal := lift (fun d => d.frameTimeout p.val) s

end Sys2Proof.Machine
end

