-- ==== Sys2Proof/Machine/Submit.lean ====
section
/-! DEFINITION. SUBMIT_PROGRAM, the opening of latch windows and the latest issue start (R133 to R136, R139, R391,
R392). -/

namespace Sys2Proof.Machine

open Host

/-- Entry `i` of the write list: bytes 16i to 16i + 15 (Table 4-15). -/
def listEntry (l : List Byte) (i : Nat) : List Byte := (l.drop (16 * i)).take 16

/-- The writes of a list. -/
def listWrites (l : List Byte) (n : Nat) : List ProgWrite :=
  (rangeFrom 0 n).map fun i =>
    let e := listEntry l i
    { entry := b8 e 0 % 32, data := (e.drop 4).take (b8 e 1) }

/-- A write's LEN is too short for its pointer, or it crosses a block boundary (R392). -/
def Dev.writeBad (d : Dev) (c : Nat) (w : ProgWrite) : Bool :=
  if d.tgtSmbus c w.entry then false
  else
    let p16 := d.tgtPtr16 c w.entry
    let n := if p16 then 2 else 1
    let k := w.data.length
    let ptr := if p16 then 256 * b8 w.data 0 + b8 w.data 1 else b8 w.data 0
    decide (k < n) || decide (d.wrapSize c w.entry < ptr % d.wrapSize c w.entry + (k - n))

/-- Offending bytes of entry `i` (R133, R391, R392). -/
def Dev.entryBad (d : Dev) (c : Nat) (l : List Byte) (i : Nat) : List Nat :=
  let e := listEntry l i
  let k := b8 e 1
  let en := b8 e 0 % 32
  let w : ProgWrite := { entry := en, data := (e.drop 4).take k }
  bad (16 * i) (decide (32 ≤ b8 e 0) || d.tgtBad c en || (d.latchWin c en).2.2 == 0 || d.tgt c en 0 13 13 == 1
      || d.latchWin c en != d.latchWin c (b8 l 0 % 32))
    ++ bad (16 * i + 1) (decide (k < 1) || decide (12 < k) || d.writeBad c w)
    ++ bad (16 * i + 2) (b8 e 2 != 0) ++ bad (16 * i + 3) (b8 e 3 != 0)

/-- Offending bytes of a write list: every entry, and D_max beyond LATCH_LEN_US at byte 0 (R133, R134). -/
def Dev.listBad (d : Dev) (cm : Cmd) (l : List Byte) : List Nat :=
  let n := cm.f 4 13 8
  let c := d.portCtl (cm.f 4 1 0)
  let ws := (rangeFrom 0 n).map fun i => (b8 l (16 * i) % 32, b8 l (16 * i + 1))
  (rangeFrom 0 n).flatMap (d.entryBad c l)
    ++ bad 0 (n != 0 && decide ((d.latchWin c (b8 l 0 % 32)).2.2 * 10 < d.dMax c ws))

def specSubmitProgram : CmdSpec := {
  cls := 0x01, opc := 0x10
  offs := fun d c =>
    ingestOffs (d.boot.mode == .capture) c [(4, 1, 0), (4, 13, 8), (5, 31, 0), (6, 31, 0), (7, 31, 0), (8, 31, 0),
        (9, 31, 0), (10, 31, 0), (11, 31, 0), (12, 31, 0), (13, 0, 0)]
      ++ off 4 0 ((d.port (c.f 4 1 0)).state == .gangSecondary) ++ off 4 8 (decide (32 < c.f 4 13 8))
      ++ off 5 0 (c.w 5 == 0) ++ off 8 0 (c.q 8 % 16 != 0 || (c.f 4 13 8 == 0 && c.q 8 != 0)) }

/-- The program of an entry and its list. -/
def newProg (c : Cmd) (l : List Byte) : Prog := {
  ref := c.ref, port := c.f 4 1 0, id := c.w 5, asked := c.q 6, target := c.q 6, next := c.nextPossible
  writes := listWrites l (c.f 4 13 8), expNs := c.w 10, gain := c.w 11, dg := if c.b 13 0 then some (c.w 12) else none }

/-- The program takes a place, or waits for one (R139); one without writes needs none (R522). -/
def submitProgram (l : List Byte) (r : CmdRef) (c : Cmd) (d : Dev) : Dev :=
  let p := c.f 4 1 0
  let g := newProg c l
  let d := d.begin r
  if g.writes.isEmpty || decide ((d.port p).programs.length < 64) then (d.takeProg g).twNext (d.portCtl p)
  else d.modPort p fun v => { v with waiting := v.waiting ++ [g] }

/-- SUBMIT_PROGRAM (R135). -/
def execSubmitProgram (r : CmdRef) (list : List Byte) (s : State) : Outcome State Fault Refusal :=
  lift (runBlk specSubmitProgram 8 (fun d c => d.listBad c list) r (submitProgram list r)) s

/-- The latch window of a target opens: its programs may issue, and one begins where the bus is free (R135). -/
def Dev.windowOpen (d : Dev) (p n : Nat) : Dev :=
  if (d.port p).state = .stopped then d else
  let d := d.modPort p fun v => { v with
    windows := if v.windows.contains n then v.windows else n :: v.windows
    programs := v.programs.map fun g => if g.target == n && !g.writes.isEmpty then { g with opened := true } else g }
  d.twNext (d.portCtl p)

/-- LATCH_WINDOW_OPEN (R135). -/
def execLatchWindowOpen (p : Fin 4) (target : Nat) (s : State) : Outcome State Fault Refusal :=
  lift (fun d => d.windowOpen p.val target) s

/-- The latest issue start of a target's program passes without issue: the one with the longest D_max, which has the
earliest such time, has missed its target (R135). -/
def Dev.issueLate (d : Dev) (p n : Nat) : Dev :=
  let gs := if (d.port p).state = .stopped then [] else (d.port p).programs.filter fun g => !g.issuing && g.target == n
  match minBy (fun g => 18446744073709551615 - d.progDMax g) gs with
  | none => d
  | some g => (d.missProg g).refill p

/-- LATEST_ISSUE_START (R135). -/
def execLatestIssueStart (p : Fin 4) (target : Nat) (s : State) : Outcome State Fault Refusal :=
  lift (fun d => d.issueLate p.val target) s

end Sys2Proof.Machine
end

