-- ==== Sys2Proof/Machine/RfeCmd.lean ====
section
/-! DEFINITION. Class 0x02 commands of RFE and CBE (R176 to R178, R182, R187, R197, R198, R204, R205, Tables 5-9, 5-10,
6-16, 6-17). -/

namespace Sys2Proof.Machine

open Host

/-- Modes that run the raw pipeline (R178, R204); in Analyser only source 4. -/
def Dev.pipeMode (d : Dev) (src : Option Nat) : Bool :=
  match d.boot.mode with
  | .freewheel | .capture | .playback => true
  | .analyser => src.all (· == 4)
  | _ => false

/-- In Analyser a command that names another source than MP offends at its source field (R178, R204). -/
def Dev.pipeOffs (d : Dev) (c : Cmd) (fields : List (Nat × Nat × Nat)) : List Offence :=
  modeOff (d.pipeMode none) ++ dw1Offs c false ++ resOffs c fields

/-- A host or device buffer as the block that a command reads: from device memory where DEV is 1. -/
def Dev.blockOf (d : Dev) (dev : Bool) (addr len : Nat) (host : List Byte) : List Byte :=
  if dev then Mem.rdN d.mem.lpddr addr len else (host ++ List.replicate (len - host.length) 0).take len

/-! ## RFE_SET_PARAMS -/

def specRfeSetParams : CmdSpec := {
  beside := sameIn 2 0
  cls := 0x02, opc := 0x01
  offs := fun d c =>
    d.pipeOffs c [(4, 2, 0), (4, 9, 8), (5, 31, 0), (6, 31, 0), (7, 31, 0), (8, 31, 0)]
      ++ off 4 0 (decide (4 < c.f 4 2 0) || (d.boot.mode == .analyser && c.f 4 2 0 != 4))
      ++ off 7 0 (c.q 7 % 64 != 0) }

/-- AT_FRAME of a command whose AT_VALID is dword 4 bit 9. -/
def atFrame (c : Cmd) (i : Nat) : Option Nat := if c.b 4 9 then some (c.q i) else none

/-- A source takes dual gain, as far as its set-up says. -/
def Dev.srcDualNow (d : Dev) (s : Nat) : Bool := s < 4 && d.sfld s (0x20000 + 0x100 * s) 14 14 == 1

/-- A table of the source has been loaded: it has taken effect, or a load of it is staged (R176, R178; log entry 70). -/
def Dev.tableLoaded (d : Dev) (s t : Nat) : Bool :=
  !(SMap.get [] (d.rfe? s).tables t).isEmpty || (d.rfe? s).loads.any (·.table == t)

/-- Offending bytes of a parameter block (Table 5-10, R159, R160, R178). MP has a first stripe only while an MP_FRAME
runs; otherwise the next MP_FRAME checks OB_COLS against its own (R152). -/
def Dev.paramsBad (d : Dev) (s : Nat) (b : List Byte) : List Nat :=
  let on := fun k => (b8 b 0).testBit k
  let m := b8 b 2
  let w := d.srcWidth s
  let n := (d.spokesOf s).length
  let v := d.win s
  let rows := bn b 44 4
  let cols := bn b 48 4
  bad 0 ((on 0 && (!d.tableLoaded s 0 || (d.srcDualNow s && !d.tableLoaded s 1))) || (on 2 && !d.tableLoaded s 2)
      || (on 6 && !d.tableLoaded s 3) || (on 5 && !d.histEn s))
    ++ bad 1 (b8 b 1 != 0) ++ bad 2 (decide (2 < m)) ++ bad 3 (decide (8 < b8 b 3))
    ++ bad 44 (m != 0 && decide (v.y0 < bitsOf rows 13 0 + bitsOf rows 29 16))
    ++ bad 45 (bitsOf rows 15 14 != 0)
    ++ bad 46 (decide (bitsOf rows 29 16 < 1) || decide (1024 < bitsOf rows 29 16)) ++ bad 47 (bitsOf rows 31 30 != 0)
    ++ bad 48 (m == 2 && (s < 4 || d.mpCmd.isSome) && decide ((stripe w n 0).2 < bitsOf cols 14 0 + bitsOf cols 25 16)) ++ bad 49 (bitsOf cols 15 15 != 0)
    ++ bad 50 (m == 2 && decide (bitsOf cols 25 16 < max 1 (d.cfa s).px)) ++ bad 51 (bitsOf cols 31 26 != 0)
    ++ bad 52 (decide (bi32 b 56 ≤ bi32 b 52)) ++ bad 74 (b8 b 74 == 0)
    ++ (resBytes b [(0, 66), (68, 5), (74, 16)])

/-- RFE_SET_PARAMS (R176): one of at most 8 pending blocks of its source. -/
def execRfeSetParams (r : CmdRef) (blk : List Byte) (s : State) : Outcome State Fault Refusal :=
  lift (runBlk specRfeSetParams 7 (fun d c => d.paramsBad (c.f 4 2 0) (d.blockOf false 0 256 blk)) r fun c d =>
    let n := c.f 4 2 0
    let v := d.rfe? n
    if d.engOff 0x10 16 then d.finish r stEngineDown 0
    else if v.blocks.length < 8 then (d.begin r).setRfe n { v with blocks := v.blocks ++ [{
      ref := r, at? := atFrame c 5, reset := c.b 4 8, bytes := d.blockOf false 0 256 blk }] }
    else d) s

/-! ## RFE_LOAD_TABLE -/

/-- Bytes of a table (Table 5-9). -/
def tableLen (t entries : Nat) : Nat :=
  match t with
  | 0 | 1 => 4100
  | 2 => 4 * entries
  | _ => 31850

def specRfeLoadTable : CmdSpec := {
  beside := fun e c => sameIn 2 0 e c && sameIn 7 4 e c
  cls := 0x02, opc := 0x02
  offs := fun d c =>
    d.pipeOffs c [(4, 2, 0), (4, 9, 4), (5, 18, 0), (6, 31, 0), (7, 31, 0), (8, 31, 0), (9, 31, 0)]
      ++ off 4 0 (decide (4 < c.f 4 2 0) || (d.boot.mode == .analyser && c.f 4 2 0 != 4))
      ++ off 4 4 (decide (3 < c.f 4 7 4))
      ++ off 5 0 ((c.f 4 7 4 != 2 && c.f 5 18 0 != 0) || decide (262144 < c.f 5 18 0))
      ++ off 6 0 (c.q 6 % 64 != 0 || (c.b 4 8 && d.devBad (c.q 6) (max 1 (tableLen (c.f 4 7 4) (c.f 5 18 0))))) }

/-- The table that a command loads. -/
def Dev.tableOf (d : Dev) (c : Cmd) (tbl : List Byte) : List Byte :=
  d.blockOf (c.b 4 8) (c.q 6) (tableLen (c.f 4 7 4) (c.f 5 18 0)) tbl

/-- Sort key of a defect-map entry: Y, then X. -/
def defectKey (b : List Byte) (i : Nat) : Nat :=
  let e := bn b (4 * i) 4
  bitsOf e 29 16 * 32768 + bitsOf e 14 0

/-- Offending bytes of a table: a defect map's reserved bits, and its order (R178). -/
def tableBad (t : Nat) (b : List Byte) : List Nat :=
  if t ≠ 2 then [] else
  (rangeFrom 0 (b.length / 4)).flatMap fun i =>
    let e := bn b (4 * i) 4
    bad (4 * i) (i != 0 && decide (defectKey b i ≤ defectKey b (i - 1))) ++ bad (4 * i + 1) (bitsOf e 15 15 != 0)
      ++ bad (4 * i + 3) (bitsOf e 31 30 != 0)

/-- RFE_LOAD_TABLE (R176): one of at most 2 pending loads of its table. An empty defect map is held as a map that marks
no site: one entry outside every frame. -/
def execRfeLoadTable (r : CmdRef) (tbl : List Byte) (s : State) : Outcome State Fault Refusal :=
  lift (runBlk specRfeLoadTable 6 (fun d c => tableBad (c.f 4 7 4) (d.tableOf c tbl)) r fun c d =>
    let n := c.f 4 2 0
    let t := c.f 4 7 4
    let v := d.rfe? n
    let b := d.tableOf c tbl
    if d.engOff 0x10 16 then d.finish r stEngineDown 0
    else if (v.loads.filter (·.table == t)).length < 2 then (d.begin r).setRfe n { v with loads := v.loads ++ [{
      ref := r, table := t, at? := atFrame c 8, bytes := if b.isEmpty then leBytes 4 0x3FFF7FFF else b }] }
    else d) s

/-! ## CBE_LOAD_CFA, CBE_LOAD_BANK, CBE_READ_BANK -/

/-- A slot is selected by a source that is not stopped (R205). -/
def Dev.cfaUsed (d : Dev) (id : Nat) : Bool :=
  (rangeFrom 0 5).any fun s => !d.srcStopped s && d.sfld s (0x40000 + 0x40 * s) 4 0 == id

def specCbeLoadCfa : CmdSpec := {
  cls := 0x02, opc := 0x10
  offs := fun d c =>
    d.pipeOffs c [(4, 3, 0), (4, 8, 8), (5, 31, 0), (6, 31, 0)]
      ++ off 4 0 (decide (c.f 4 3 0 < 8) || decide (11 < c.f 4 3 0) || d.cfaUsed (c.f 4 3 0))
      ++ off 5 0 (c.q 5 % 64 != 0 || (c.b 4 8 && d.devBad (c.q 5) 36)) }

/-- Both slices of CBE are disabled. -/
def Dev.cbeOff (d : Dev) : Bool := d.engOff 0x11 17 && d.engOff 0x12 18

/-- CBE_LOAD_CFA (R205). -/
def execCbeLoadCfa (r : CmdRef) (blk : List Byte) (s : State) : Outcome State Fault Refusal :=
  lift (runBlk specCbeLoadCfa 5 (fun d c => cfaBad (d.blockOf (c.b 4 8) (c.q 5) 36 blk)) r fun c d =>
    if d.cbeOff then d.finish r stEngineDown 0 else
    ({ d with cbe := { d.cbe with
      cfa := SMap.put [] d.cbe.cfa (c.f 4 3 0) (d.blockOf (c.b 4 8) (c.q 5) 36 blk) } }).finish r stSuccess 0) s

/-- A bank is named by a colour block in effect or pending (R205). -/
def Dev.bankUsed (d : Dev) (b : Nat) : Bool :=
  (rangeFrom 0 5).any fun s => (d.colourOf s :: (SMap.get [] d.cbe.blocks s).map (·.bytes)).any fun k =>
    !k.isEmpty && b8 k 0 == b

/-- The bytes of a bank that a command loads: the length follows from its period. -/
def Dev.bankBlock (d : Dev) (c : Cmd) (blk : List Byte) : List Byte :=
  let h := d.blockOf (c.b 4 8) (c.q 5) 16 blk
  d.blockOf (c.b 4 8) (c.q 5) (bankLen (b8 h 0) (b8 h 1)) blk

/-- Offending bytes of a bank (Table 6-4). -/
def bankBad (b : List Byte) : List Nat :=
  bad 0 (b8 b 0 == 0 || decide (8 < b8 b 0)) ++ bad 1 (b8 b 1 == 0 || decide (8 < b8 b 1))
    ++ bad 2 (b8 b 2 != 1 && b8 b 2 != 3) ++ bad 3 (b8 b 3 != 0)
    ++ bad 4 (bn b 4 4 == 0 || decide (16777216 < bn b 4 4)) ++ (rangeFrom 8 8).flatMap fun k => bad k (b8 b k != 0)

def specCbeLoadBank : CmdSpec := {
  cls := 0x02, opc := 0x11
  offs := fun d c =>
    d.pipeOffs c [(4, 3, 0), (4, 8, 8), (5, 31, 0), (6, 31, 0)]
      ++ off 4 0 (decide (c.f 4 3 0 < 8) || d.bankUsed (c.f 4 3 0))
      ++ off 5 0 (c.q 5 % 64 != 0 || (c.b 4 8 && d.devBad (c.q 5) 16)) }

/-- CBE_LOAD_BANK (R205). -/
def execCbeLoadBank (r : CmdRef) (blk : List Byte) (s : State) : Outcome State Fault Refusal :=
  lift (runBlk specCbeLoadBank 5 (fun d c => bankBad (d.bankBlock c blk)) r fun c d =>
    if d.cbeOff then d.finish r stEngineDown 0 else
    ({ d with cbe := { d.cbe with banks := SMap.put [] d.cbe.banks (c.f 4 3 0) (d.bankBlock c blk) } }).finish r
      stSuccess 0) s

def specCbeReadBank : CmdSpec := {
  cls := 0x02, opc := 0x14
  offs := fun d c =>
    d.pipeOffs c [(4, 3, 0), (4, 8, 8), (5, 31, 0), (6, 31, 0)] ++ off 4 0 (d.bankKey (c.f 4 3 0)).isNone
      ++ off 5 0 (c.q 5 % 64 != 0 || (c.b 4 8 && d.devBad (c.q 5) 103696)) }

/-- A bank in the layout of Table 6-4. -/
def Dev.bankBytes (d : Dev) (b : Nat) : List Byte :=
  if b < 5 then
    let k := (d.bankKey b).getD (0, 0, 0)
    [BitVec.ofNat 8 k.1, BitVec.ofNat 8 k.2.1, BitVec.ofNat 8 k.2.2, 0] ++ leBytes 4 (d.bankEps b) ++ List.replicate 8 0
      ++ (rangeFrom 0 (k.1 * k.2.1 * 810)).flatMap fun i => leBytes 2 (Config.builtinKernel b i).toNat
  else SMap.get [] d.cbe.banks b

/-- CBE_READ_BANK (R187). -/
def execCbeReadBank (r : CmdRef) (s : State) : Outcome State Fault Refusal :=
  lift (runCmd specCbeReadBank r fun c d =>
    if d.cbeOff then d.finish r stEngineDown 0 else
    (d.writeBuf (c.b 4 8) (c.q 5) (d.bankBytes (c.f 4 3 0))).finish r stSuccess 0) s

/-! ## CBE_SET_COLOUR -/

def specCbeSetColour : CmdSpec := {
  beside := sameIn 2 0
  cls := 0x02, opc := 0x12
  offs := fun d c =>
    d.pipeOffs c [(4, 2, 0), (4, 9, 9), (5, 31, 0), (6, 31, 0), (7, 31, 0), (8, 31, 0)]
      ++ off 4 0 (decide (4 < c.f 4 2 0) || (d.boot.mode == .analyser && c.f 4 2 0 != 4))
      ++ off 7 0 (c.q 7 % 64 != 0) }

/-- The description that a source selects, as it works on it. -/
def Dev.cfaSel (d : Dev) (s : Nat) : Option Cfa := d.cfaSlot (d.sfld s (0x40000 + 0x40 * s) 4 0)

/-- Offending bytes of a colour block (Table 6-17, R197, R205). -/
def Dev.colourBad (d : Dev) (s : Nat) (b : List Byte) : List Nat :=
  let l := b8 b 3
  let unit := lutUnit b
  bad 0 (!((d.cfaSel s).any fun c => d.bankFits (b8 b 0) c)) ++ bad 1 (decide (1 < b8 b 1)) ++ bad 2 (decide (20 < b8 b 2))
    ++ bad 3 (decide (2 < l) || unit.any fun u => (!(d.lut u).loaded && (d.lut u).pend.isNone)
        || (!d.srcStopped s && d.lutOver s u (d.lutDemand s)))
    ++ (rangeFrom 0 4).flatMap (fun k => bad (4 + 2 * k) (decide (8191 < bn b (4 + 2 * k) 2)))
    ++ (rangeFrom 0 15).flatMap (fun k => bad (15 + 4 * k) (b8 b (15 + 4 * k) != 0)) ++ resBytes b [(0, 72)]

/-- CBE_SET_COLOUR (R204). -/
def execCbeSetColour (r : CmdRef) (blk : List Byte) (s : State) : Outcome State Fault Refusal :=
  lift (runBlk specCbeSetColour 7 (fun d c => d.colourBad (c.f 4 2 0) (d.blockOf false 0 128 blk)) r fun c d =>
    let n := c.f 4 2 0
    let bs := SMap.get [] d.cbe.blocks n
    if d.cbeOff then d.finish r stEngineDown 0
    else if bs.length < 8 then
      let b : PendBlk := { ref := r, at? := atFrame c 5, bytes := d.blockOf false 0 128 blk }
      let d := d.begin r
      { d with cbe := { d.cbe with blocks := SMap.put [] d.cbe.blocks n (bs ++ [b]) } }
    else d) s

/-! ## CBE_LOAD_LUT3D (R196, R198) -/

def specCbeLoadLut3d : CmdSpec := {
  beside := sameIn 0 0
  cls := 0x02, opc := 0x13
  offs := fun d c =>
    d.pipeOffs c [(4, 0, 0), (4, 6, 4), (4, 9, 8), (5, 31, 0), (6, 31, 0), (7, 31, 0), (8, 31, 0)]
      ++ off 4 4 (decide (4 < c.f 4 6 4) || (d.boot.mode == .analyser && c.f 4 6 4 != 4))
      ++ off 7 0 (c.q 7 % 64 != 0 || (c.b 4 8 && d.devBad (c.q 7) 3344700)) }

/-- Offending bytes of a shared 3D LUT record: its shapers, and reserved bits of its nodes. -/
def lut3Bad (b : List Byte) (nodes : Nat) : List Nat :=
  lut1Bad b 0 ++ lut1Bad b 16400 ++ lut1Bad b 32800
    ++ (rangeFrom 0 (3 * nodes)).flatMap fun k => bad (49203 + 4 * k) (b8 b (49203 + 4 * k) != 0)

/-- The effect: at once where no running source uses the unit, else at the frame start of its source; a further load
waits until every source that uses the unit has switched. -/
def cbeLoadLut3d (blk : List Byte) (r : CmdRef) (c : Cmd) (d : Dev) : Dev :=
  let u := c.f 4 0 0
  let v := d.lut u
  let b := d.blockOf (c.b 4 8) (c.q 7) 3344700 blk
  if d.cbeOff then d.finish r stEngineDown 0
  else if v.pend.isSome || v.behind.any (d.usesLut · u) then d
  else if (rangeFrom 0 5).any fun s => d.usesLut s u then
    (d.begin r).setLut u { v with pend := some { ref := r, at? := atFrame c 5, bytes := b }, pendSrc := c.f 4 6 4 }
  else (d.setLut u { v with loaded := true, old := [], cur := b }).finish r stSuccess ones64

/-- CBE_LOAD_LUT3D (R198). -/
def execCbeLoadLut3d (r : CmdRef) (blk : List Byte) (s : State) : Outcome State Fault Refusal :=
  lift (runBlk specCbeLoadLut3d 7 (fun d c => lut3Bad (d.blockOf (c.b 4 8) (c.q 7) 3344700 blk) 274625) r
    (cbeLoadLut3d blk r)) s

end Sys2Proof.Machine
end

