-- ==== Sys2Proof/Machine/SpkPix.lean ====
section
/-! DEFINITION. The picture stages of a sprocket, for one output pixel at a time (R202, R208, R210 to R215, R218,
Tables 7-2, 7-3, 7-7). -/

namespace Sys2Proof.Machine

/-! ## Quantisation (R202) -/

/-- Kr and Kb in 1/10,000 of the standard YCC 1 or 2. -/
def ycc (std : Nat) : Int × Int := if std = 2 then (2627, 593) else (2126, 722)

/-- An exact value as a fraction. -/
structure Frac where
  n : Int
  d : Nat

/-- round(scale × E + offset), halves upward, with scale and offset whole. -/
def quantFrac (e : Frac) (scale offset : Int) : Int :=
  (2 * (scale * e.n + offset * e.d) + e.d) / (2 * e.d : Nat)

/-- The code of a component value (R202): `chroma` for Cb and Cr. -/
def quant (bits : Nat) (full chroma : Bool) (e : Frac) : Nat :=
  let top : Int := 2 ^ bits - 1
  let u : Int := 2 ^ (bits - 8)
  let v :=
    if full then quantFrac e top (if chroma then 2 ^ (bits - 1) else 0)
    else quantFrac e ((if chroma then 224 else 219) * u) ((if chroma then 128 else 16) * u)
  (if full then clampI 0 top v else clampI u (top - u) v).toNat

/-- The inverse, rounded to f24 (R208). -/
def dequant (bits : Nat) (full chroma : Bool) (c : Nat) : Nat :=
  let u : Nat := 2 ^ (bits - 8)
  if full then f24Of ((c : Int) - if chroma then 2 ^ (bits - 1) else 0) (2 ^ bits - 1)
  else f24Of ((c : Int) - ((if chroma then 128 else 16) * u : Nat)) ((if chroma then 224 else 219) * u)

/-- E′Y, E′Cb and E′Cr of R′G′B′ (times 2^78), exact (R202). -/
def toYcc (std : Nat) (r g b : Int) : Frac × Frac × Frac :=
  let k := ycc std
  let y := k.1 * r + (10000 - k.1 - k.2) * g + k.2 * b
  (⟨y, 10000 * 2 ^ 78⟩, ⟨10000 * b - y, (2 * (10000 - k.2)).toNat * 2 ^ 78⟩, ⟨10000 * r - y, (2 * (10000 - k.1)).toNat * 2 ^ 78⟩)

/-- R′, G′, B′ of Y′CbCr words, each rounded once (R208). -/
def fromYcc (std : Nat) (y cb cr : Nat) : Nat × Nat × Nat :=
  let k := ycc std
  let g := 10000 - k.1 - k.2
  let r := 10000 * fx y + 2 * (10000 - k.1) * fx cr
  let b := 10000 * fx y + 2 * (10000 - k.2) * fx cb
  (f24Of r (10000 * 2 ^ 78),
   f24Of (10000 * 10000 * fx y - k.1 * r - k.2 * b) (10000 * g.toNat * 2 ^ 78), f24Of b (10000 * 2 ^ 78))

/-! ## Input of memory and SDI sources (R208, Table 7-2) -/

/-- Bytes of a row of plane 0 of a format, tight. -/
def fmtRow (fmt w : Nat) : Nat :=
  match fmt with
  | 0 => 8 * w
  | 1 => 4 * w
  | 2 => 4 * w
  | 6 => 16 * w
  | _ => 2 * w

/-- Planes of a format and the rows of the second. -/
def fmtPlanes (fmt : Nat) : Nat := if fmt = 3 ∨ fmt = 4 then 2 else if fmt = 5 then 3 else 1

/-- `n` bytes of a submitted frame at `a`: of device memory, or of the decoder's host buffer (log entry 71). -/
def submitBytes (m : Mem) (s : Submit) (a n : Nat) : List Byte :=
  match s.seen with
  | none => Mem.rdN m a n
  | some l => (l.drop (a - s.addr)).take n

/-- The code of component `k` at (x, y) of a submitted frame; chroma of a subsampled format at even columns. -/
def memCode (m : Mem) (s : Submit) (k x y : Nat) : Nat :=
  let at16 := fun (a : Nat) => leNat (submitBytes m s a 2) / 2 ^ (16 - s.bits)
  let row := s.addr + s.stride * y
  let plane := s.stride * s.h
  match s.format with
  | 0 => at16 (row + 8 * x + 2 * k)
  | 1 => leNat (submitBytes m s (row + 4 * x) 4) / 2 ^ (20 - 10 * k) % 1024
  | 2 => if k = 0 then at16 (row + 4 * x + 2) else at16 (row + 8 * (x / 2) + if k = 1 then 0 else 4)
  | 3 => if k = 0 then at16 (row + 2 * x) else at16 (row + plane + 4 * (x / 2) + 2 * (k - 1))
  | 4 => if k = 0 then at16 (row + 2 * x) else at16 (s.addr + plane + s.stride * (y / 2) + 4 * (x / 2) + 2 * (k - 1))
  | 5 => at16 (row + k * plane + 2 * x)
  | _ => leNat (submitBytes m s (row + 16 * x + 4 * k) 3)

/-- Chroma of a format is subsampled horizontally. -/
def fmtSub (fmt : Nat) : Bool := fmt == 2 || fmt == 3 || fmt == 4

/-- The f24 word of component `k` at (x, y), brought to every site: an odd site of subsampled chroma takes the mean of
its horizontal neighbours, the last one its left neighbour alone. -/
def siteWord (w bits : Nat) (full sub isYcc : Bool) (code : Nat → Nat → Nat) (k x : Nat) : Nat :=
  let v := fun (x : Nat) => dequant bits full (isYcc && k != 0) (code k x)
  if sub && k != 0 && x % 2 == 1 then
    (if x + 1 < w then f24Of (fx (v (x - 1)) + fx (v (x + 1))) (2 * 2 ^ 78) else v (x - 1))
  else v x

/-- Bytes of a path block: IN_ENC, IN_YCC and the rest (Table 7-7). -/
def pathInEnc (p : List Byte) : Nat := b8 p 13
def pathInYcc (p : List Byte) : Nat := b8 p 14

/-- The inverse of IN_ENC; 0 applies none (R208, R201). -/
def inverseEnc (p : List Byte) (v : Nat) : Nat := if pathInEnc p = 0 then v else lut1 (decLut (pathInEnc p)) v

/-- Stages 1 and 2 of a coded input pixel. -/
def decodePx (p : List Byte) (w bits : Nat) (full sub : Bool) (code : Nat → Nat → Nat) (x : Nat) : Nat × Nat × Nat :=
  let y := pathInYcc p
  let c := fun k => siteWord w bits full sub (y != 0) code k x
  let rgb := if y = 0 then (c 0, c 1, c 2) else fromYcc y (c 0) (c 1) (c 2)
  (inverseEnc p rgb.1, inverseEnc p rgb.2.1, inverseEnc p rgb.2.2)

/-- The PipeFrame of a live source that a sprocket's frame copies. -/
def Dev.liveFrame (d : Dev) (s i : Nat) : Option PipeFrame := d.rfe.frames.find? fun f => f.src == s && f.index == i

/-- Linear f24 at input pixel (x, y): the active window's for a live source (R207, R208). -/
def Dev.spkIn (d : Dev) (f : SpkFrame) (x y : Nat) : Nat × Nat × Nat :=
  match f.input with
  | .live s => match d.liveFrame s f.index with
    | none => (0, 0, 0)
    | some g =>
      let p := SMap.get {} g.col (siteKey ((fwin g).x0 + x) ((fwin g).y0 + y))
      (p.r, p.g, p.b)
  | .memory s =>
    if s.format = 6 then
      let inv := fun k => inverseEnc f.path (memCode d.mem.lpddr s k x y)
      (inv 0, inv 1, inv 2)
    else decodePx f.path s.w s.bits s.full (fmtSub s.format) (fun k x => memCode d.mem.lpddr s k x y) x
  | .sdi _ bits sub px =>
    let row := px.getD y []
    decodePx f.path row.length bits false sub (fun k x =>
      let t := row.getD x (0, 0, 0)
      if k = 0 then t.1 else if k = 1 then t.2.1 else t.2.2) x
  | .pattern => (0, 0, 0)

/-- Width and height of a frame's input area. -/
def Dev.spkArea (d : Dev) (f : SpkFrame) : Nat × Nat :=
  match f.input with
  | .live s => match d.liveFrame s f.index with
    | none => (1, 1)
    | some g => ((fwin g).w, (fwin g).h)
  | .memory s => (s.w, s.h)
  | .sdi _ _ _ px => ((px.headD []).length, px.length)
  | .pattern => (1, 1)

/-! ## Crop, box and polyphase (R210 to R213) -/

/-- Crop: x0, y0, width, height; the whole input before the first path block (R222). -/
def cropOf (p : List Byte) (area : Nat × Nat) : Nat × Nat × Nat × Nat :=
  if p.isEmpty then (0, 0, area.1, area.2) else (bn p 0 2, bn p 2 2, bn p 4 2 + 1, bn p 6 2 + 1)

/-- Box factor (R211). -/
def boxFactor (crop out : Nat) : Nat :=
  if crop ≤ 2 * out then 1 else if ceilDiv crop 2 ≤ 2 * out then 2 else if ceilDiv crop 4 ≤ 2 * out then 4 else 8

/-- Component `k` of a pixel. -/
def comp3 (k : Nat) (p : Nat × Nat × Nat) : Nat := if k = 0 then p.1 else if k = 1 then p.2.1 else p.2.2

/-- Box sample (i, j) of a component (R211). -/
def Dev.boxSample (d : Dev) (f : SpkFrame) (c : Nat × Nat × Nat × Nat) (bx by_ : Nat) (k i j : Nat) : Nat :=
  let xs := rangeFrom (bx * i) (min bx (c.2.2.1 - bx * i))
  let ys := rangeFrom (by_ * j) (min by_ (c.2.2.2 - by_ * j))
  let s := ys.foldl (fun a y => xs.foldl (fun a x => a + fx (comp3 k (d.spkIn f (c.1 + x) (c.2.1 + y)))) a) 0
  f24Of s (xs.length * ys.length * 2 ^ 78)

/-- sinc(n / 64) · sinc(n / (64 a)) in fixed point, 0 outside |n| < 64 a. -/
def windowed (a : Nat) (n : Int) : Int :=
  if n = 0 then fpOne
  else if n.natAbs < 64 * a then
    let s := fun (m : Nat) => sinPi n m * fpOne / (piFp * n / m)
    s 64 * s (64 * a) / fpOne
  else 0

/-- round(4,096 × w / Σ w) of a phase's taps; the remainder goes to the largest, lowest-numbered one (R213). -/
def sincTaps (a lo n p : Nat) : List Int :=
  let ws := (rangeFrom 0 n).map fun (i : Nat) => windowed a (64 * ((i : Int) - lo) - p)
  let sum := ws.foldl (· + ·) 0
  let cs := ws.map fun w => (2 * 4096 * w + sum) / (2 * sum)
  let top := cs.foldl max (cs.headD 0)
  let i := cs.idxOf top
  cs.set i (top + 4096 - cs.foldl (· + ·) 0)

/-- Taps of phase `p` of a filter set: `n` taps, the lowest at −`lo` (R213). -/
def filterTaps (set : Nat) (tbl : List Byte) (a lo n p : Nat) : List Int :=
  match set with
  | 0 => sincTaps a lo n p
  | 1 => (rangeFrom 0 n).map fun i => if i = lo then 4096 - 64 * (p : Int) else if i = lo + 1 then 64 * (p : Int) else 0
  | _ => (rangeFrom 0 n).map fun i => toSigned 16 (bn tbl (2 * (n * p + i)) 2)

/-- Position of output `x`: first box sample index and phase (R212). -/
def polyPos (nIn nOut x : Nat) : Int × Nat :=
  let s := roundDiv (65536 * (nIn : Int)) nOut
  let p := x * s + s / 2 - 32768
  (p / 65536, (p % 65536).toNat / 1024)

/-- Exact Σ c × s / 4,096 over taps at clamped indices. -/
def polySum (taps : List Int) (i : Int) (lo nIn : Nat) (s : Nat → Nat) : Nat :=
  f24Of ((taps.zipIdx.map fun e => e.1 * fx (s (clampI 0 ((nIn : Int) - 1) (i + e.2 - lo)).toNat)).foldl (· + ·) 0)
    (4096 * 2 ^ 78)

/-- The table of filter set 2 on an axis: the loaded table, free where it was never loaded (log entry 21). -/
def Dev.filterTable (d : Dev) (f : SpkFrame) (t : Nat) : List Byte :=
  let l := SMap.get [] f.luts t
  if l.isEmpty then (rangeFrom (d.free + 6) 1024).map fun k => BitVec.ofNat 8 (Config.freeNat k) else l

/-- Stages 3 to 5 of a component at output (x, y). -/
def Dev.scaled (d : Dev) (f : SpkFrame) (ow oh k x y : Nat) : Nat :=
  let c := cropOf f.path (d.spkArea f)
  let bx := boxFactor c.2.2.1 ow
  let by_ := boxFactor c.2.2.2 oh
  let nx := ceilDiv c.2.2.1 bx
  let ny := ceilDiv c.2.2.2 by_
  let px := polyPos nx ow x
  let py := polyPos ny oh y
  let th := filterTaps (b8 f.path 8) (d.filterTable f 4) 4 3 8 px.2
  let tv := filterTaps (b8 f.path 9) (d.filterTable f 5) 3 2 6 py.2
  polySum tv py.1 2 ny fun j => polySum th px.1 3 nx fun i => d.boxSample f c bx by_ k i j

/-- Last input row that output row `y` needs. -/
def lastRow (crop : Nat × Nat × Nat × Nat) (oh y : Nat) : Nat :=
  let b := boxFactor crop.2.2.2 oh
  let n := ceilDiv crop.2.2.2 b
  let j := (clampI 0 ((n : Int) - 1) ((polyPos n oh y).1 + 3)).toNat
  crop.2.1 + min (b * j + b - 1) (crop.2.2.2 - 1)

/-! ## Colour path (R199, Table 6-10) -/

/-- OT-M of a path block; the identity before the first. -/
def otM (p : List Byte) (k j : Nat) : Nat := if p.isEmpty then (if k = j then 0x3F0000 else 0) else fw p 16 (3 * k + j)

/-- Stage 6 of a pixel. A table that is switched on and was never loaded gives free words (log entry 21). -/
def Dev.colourPath (d : Dev) (f : SpkFrame) (p : Nat × Nat × Nat) : Nat × Nat × Nat :=
  let blk := f.path
  let sh := fun k v => if (b8 blk 10).testBit k then
      (if (SMap.get [] f.luts k).isEmpty then Config.freeNat (d.free + k) % 16777216
       else lut1 (lut1Of (SMap.get [] f.luts k) 0) v)
    else v
  let r := sh 0 p.1
  let g := sh 1 p.2.1
  let b := sh 2 p.2.2
  let t := SMap.get [] f.luts 3
  let l3 := fun k v => if b8 blk 11 = 0 then v
    else if t.isEmpty then Config.freeNat (d.free + 3 + k) % 16777216 else tetra 33 (node3 t 0 33 k) r g b
  let q := (l3 0 r, l3 1 g, l3 2 b)
  let m := fun k => f24Fx 2 (fx (otM blk k 0) * fx q.1 + fx (otM blk k 1) * fx q.2.1 + fx (otM blk k 2) * fx q.2.2)
  let e := fun v => if b8 blk 12 = 0 then v else lut1 (encLut (b8 blk 12)) v
  (e (m 0), e (m 1), e (m 2))

/-! ## Patterns (R218, Table 7-3) -/

/-- An f24 product of words and a fraction: AMPL × n / d. -/
def amplTimes (a n d : Nat) : Nat := if d = 0 then 0 else f24Of (fx a * n) (d * 2 ^ 78)

/-- The channels that a bar turns on. -/
def barOn (c k : Nat) : Bool :=
  ((#[7, 6, 3, 2, 5, 4, 1, 0] : Array Nat).toList.getD c 0).testBit (2 - k)

/-- Pattern value at (x, y) of a W × H picture of frame `n`. -/
def pattern (p : List Byte) (w h n x y : Nat) : Nat × Nat × Nat :=
  let ampl := fw p 132 0
  let a := (fw p 136 0, fw p 136 1, fw p 136 2)
  let b := (fw p 148 0, fw p 148 1, fw p 148 2)
  let all := fun (v : Nat) => (v, v, v)
  match b8 p 128 with
  | 1 =>
    let c := 8 * x / w
    let on := fun k => if barOn c k then ampl else 0
    (on 0, on 1, on 2)
  | 2 => all (amplTimes ampl x (w - 1))
  | 3 => all (amplTimes ampl y (h - 1))
  | 4 => if (x / 2 ^ b8 p 129 + y / 2 ^ b8 p 129) % 2 = 0 then a else b
  | 5 =>
    let dx : Int := (x : Int) - bn p 168 2
    let dy : Int := (y : Int) - bn p 170 2
    let ph := ((bn p 160 4 : Int) * (dx * dx + dy * dy) + (bn p 164 4 * (n % 16777216) : Nat)) % 16777216
    let cos := f24Fp (sinPi (ph / 4096 + 1024) 2048)
    all (f24Of (fx ampl * (fxOne + fx cos)) (2 * 2 ^ 156))
  | _ => a

/-! ## Stage 7 (R215) -/

/-- Output format of a run (SPK_SIZE, SPK_FMT). -/
structure OutFmt where
  w : Nat
  h : Nat
  fmt : Nat
  bits : Nat
  full : Bool
  ycc : Nat

/-- E′ R′G′B′ at an output pixel, times 2^78. -/
def Dev.outE (d : Dev) (f : SpkFrame) (o : OutFmt) (x y : Nat) : Int × Int × Int :=
  let p := match f.input with
    | .pattern => pattern f.path o.w o.h f.index x y
    | _ => d.colourPath f (d.scaled f o.w o.h 0 x y, d.scaled f o.w o.h 1 x y, d.scaled f o.w o.h 2 x y)
  (fx p.1, fx p.2.1, fx p.2.2)

/-- Sum of R′G′B′ with weights, for chroma on several sites. -/
def addE (a b : Int × Int × Int) (k : Int) : Int × Int × Int := (a.1 + k * b.1, a.2.1 + k * b.2.1, a.2.2 + k * b.2.2)

/-- R′G′B′ (times 2^78 and `d`) from which the chroma at even column x is formed: (E[x−1] + 2E[x] + E[x+1]) / 4, and the
mean of two rows for 4:2:0; edge columns are repeated. -/
def Dev.chromaE (d : Dev) (f : SpkFrame) (o : OutFmt) (x y : Nat) : (Int × Int × Int) × Nat :=
  let row := fun y => addE (addE (d.outE f o (x - 1) y) (d.outE f o x y) 2) (d.outE f o (min (x + 1) (o.w - 1)) y) 1
  if o.fmt = 4 then (addE (row y) (row (min (y + 1) (o.h - 1))) 1, 8) else (row y, 4)

/-- Stage-7 codes at an output pixel: Y′ or R′, Cb or G′, Cr or B′; chroma of a subsampled format stands at its co-sited
sample, 0 elsewhere. Format 6 carries the f24 words. -/
def Dev.outCodes (d : Dev) (f : SpkFrame) (o : OutFmt) (x y : Nat) : Nat × Nat × Nat :=
  let e := d.outE f o x y
  if o.fmt = 6 then (f24Fx 1 e.1, f24Fx 1 e.2.1, f24Fx 1 e.2.2)
  else if o.ycc = 0 then
    let q := fun v => quant o.bits o.full false ⟨v, 2 ^ 78⟩
    (q e.1, q e.2.1, q e.2.2)
  else
    let luma := quant o.bits o.full false (toYcc o.ycc e.1 e.2.1 e.2.2).1
    if fmtSub o.fmt then
      if x % 2 = 1 ∨ (o.fmt = 4 ∧ y % 2 = 1) then (luma, 0, 0)
      else
        let c := d.chromaE f o x y
        let v := toYcc o.ycc c.1.1 c.1.2.1 c.1.2.2
        (luma, quant o.bits o.full true ⟨v.2.1.n, v.2.1.d * c.2⟩, quant o.bits o.full true ⟨v.2.2.n, v.2.2.d * c.2⟩)
    else
      let v := toYcc o.ycc e.1 e.2.1 e.2.2
      (luma, quant o.bits o.full true v.2.1, quant o.bits o.full true v.2.2)

/-! ## Packing (Table 7-2) -/

/-- Row `y` of plane `p` of a picture, tight. -/
def packPlane (o : OutFmt) (code : Nat → Nat → Nat × Nat × Nat) (p y : Nat) : List Byte :=
  let u := fun (v : Nat) => leBytes 2 (v * 2 ^ (16 - o.bits))
  let xs := rangeFrom 0 o.w
  let even := (rangeFrom 0 (o.w / 2)).map (2 * ·)
  match o.fmt, p with
  | 0, _ => xs.flatMap fun x => let c := code x y; u c.1 ++ u c.2.1 ++ u c.2.2 ++ [255, 255]
  | 1, _ => xs.flatMap fun x => let c := code x y; leBytes 4 (c.1 * 1048576 + c.2.1 * 1024 + c.2.2)
  | 2, _ => even.flatMap fun x => let c := code x y; u c.2.1 ++ u c.1 ++ u c.2.2 ++ u (code (x + 1) y).1
  | 6, _ => xs.flatMap fun x => let c := code x y; leBytes 4 c.1 ++ leBytes 4 c.2.1 ++ leBytes 4 c.2.2 ++ leBytes 4 0
  | 5, 1 => xs.flatMap fun x => u (code x y).2.1
  | 5, 2 => xs.flatMap fun x => u (code x y).2.2
  | 3, 1 => even.flatMap fun x => u (code x y).2.1 ++ u (code x y).2.2
  | 4, 1 => even.flatMap fun x => u (code x (2 * y)).2.1 ++ u (code x (2 * y)).2.2
  | _, _ => xs.flatMap fun x => u (code x y).1

/-- The three component planes of a picture, by format code; `code k x y` is component k at a site. -/
def planesOf (fmt w h : Nat) (code : Nat → Nat → Nat → Nat) : List (List (List Nat)) :=
  (rangeFrom 0 3).map fun k =>
    let ax := if k ≠ 0 ∧ fmtSub fmt then 2 else 1
    let ay := if k ≠ 0 ∧ fmt = 4 then 2 else 1
    (rangeFrom 0 (h / ay)).map fun y => (rangeFrom 0 (w / ax)).map fun x => code k (ax * x) (ay * y)

/-- Rows of plane `p`. -/
def planeRows (o : OutFmt) (p : Nat) : Nat := if o.fmt = 4 ∧ p = 1 then o.h / 2 else o.h

end Sys2Proof.Machine
end

