-- ==== Sys2Proof/Machine/Sums.lean ====
section
/-! DEFINITION. The checksums of the compressed formats that R293 names: XXH64 (RFC 8878), Adler-32 (RFC 1950), CRC-32
(RFC 1952); and SHA-256, which R469 names. PRESUMED (log entry 78): the spec cites them and does not print them. -/

namespace Sys2Proof.Machine

/-! ## XXH64 with seed 0 -/

def xxP1 : Nat := 11400714785074694791
def xxP2 : Nat := 14029467366897019727
def xxP3 : Nat := 1609587929392839161
def xxP4 : Nat := 9650029242287828579
def xxP5 : Nat := 2870177450012600261

def two64 : Nat := 18446744073709551616

/-- Rotate 64 bits left. -/
def rotl64 (x k : Nat) : Nat := (x * 2 ^ k % two64) ||| (x / 2 ^ (64 - k))

def xxRound (acc lane : Nat) : Nat := rotl64 ((acc + lane * xxP2) % two64) 31 * xxP1 % two64

def xxMerge (acc v : Nat) : Nat := ((acc ^^^ xxRound 0 v) * xxP1 + xxP4) % two64

/-- Stripes of 32 bytes, `n` at most, into four lanes; the rest of the bytes. -/
def xxStripes : Nat → Nat × Nat × Nat × Nat → List Byte → (Nat × Nat × Nat × Nat) × List Byte
  | 0, v, bs => (v, bs)
  | n + 1, v, bs =>
    if bs.length < 32 then (v, bs)
    else xxStripes n (xxRound v.1 (bn bs 0 8), xxRound v.2.1 (bn bs 8 8), xxRound v.2.2.1 (bn bs 16 8),
      xxRound v.2.2.2 (bn bs 24 8)) (bs.drop 32)

/-- The last bytes: by eight, by four, by one. -/
def xxTail : Nat → Nat → List Byte → Nat
  | 0, h, _ => h
  | n + 1, h, bs =>
    if 8 ≤ bs.length then xxTail n ((rotl64 (h ^^^ xxRound 0 (bn bs 0 8)) 27 * xxP1 + xxP4) % two64) (bs.drop 8)
    else if 4 ≤ bs.length then
      xxTail n ((rotl64 (h ^^^ bn bs 0 4 * xxP1 % two64) 23 * xxP2 + xxP3) % two64) (bs.drop 4)
    else if 1 ≤ bs.length then xxTail n (rotl64 (h ^^^ b8 bs 0 * xxP5 % two64) 11 * xxP1 % two64) (bs.drop 1)
    else h

def xxFinal (h : Nat) : Nat :=
  let h := (h ^^^ h / 2 ^ 33) * xxP2 % two64
  let h := (h ^^^ h / 2 ^ 29) * xxP3 % two64
  h ^^^ h / 2 ^ 32

/-- XXH64 of some bytes. -/
def xxh64 (bs : List Byte) : Nat :=
  let s := xxStripes bs.length ((xxP1 + xxP2) % two64, xxP2, 0, two64 - xxP1) bs
  let v := s.1
  let h := if bs.length < 32 then xxP5
    else xxMerge (xxMerge (xxMerge (xxMerge ((rotl64 v.1 1 + rotl64 v.2.1 7 + rotl64 v.2.2.1 12 + rotl64 v.2.2.2 18)
      % two64) v.1) v.2.1) v.2.2.1) v.2.2.2
  xxFinal (xxTail bs.length ((h + bs.length) % two64) s.2)

/-! ## Adler-32 and CRC-32 -/

def adler32 (bs : List Byte) : Nat :=
  let s := bs.foldl (fun (s : Nat × Nat) b =>
    let a := (s.1 + b.toNat) % 65521
    (a, (s.2 + a) % 65521)) (1, 0)
  s.2 * 65536 + s.1

/-- One bit, and one byte, of the reflected CRC-32. -/
def crcBit (c : Nat) : Nat := if c % 2 = 1 then c / 2 ^^^ 0xEDB88320 else c / 2

def crcByte (c b : Nat) : Nat := crcBit (crcBit (crcBit (crcBit (crcBit (crcBit (crcBit (crcBit (c ^^^ b))))))))

def crc32 (bs : List Byte) : Nat := (bs.foldl (fun c b => crcByte c b.toNat) 0xFFFFFFFF) ^^^ 0xFFFFFFFF

/-! ## SHA-256 (FIPS 180-4) -/

def shaK0 : List Nat := [0x428A2F98, 0x71374491, 0xB5C0FBCF, 0xE9B5DBA5, 0x3956C25B, 0x59F111F1, 0x923F82A4, 0xAB1C5ED5,
  0xD807AA98, 0x12835B01, 0x243185BE, 0x550C7DC3, 0x72BE5D74, 0x80DEB1FE, 0x9BDC06A7, 0xC19BF174,
  0xE49B69C1, 0xEFBE4786, 0x0FC19DC6, 0x240CA1CC, 0x2DE92C6F, 0x4A7484AA, 0x5CB0A9DC, 0x76F988DA,
  0x983E5152, 0xA831C66D, 0xB00327C8, 0xBF597FC7, 0xC6E00BF3, 0xD5A79147, 0x06CA6351, 0x14292967]
def shaK : List Nat := shaK0 ++ [0x27B70A85, 0x2E1B2138, 0x4D2C6DFC, 0x53380D13, 0x650A7354, 0x766A0ABB, 0x81C2C92E, 0x92722C85,
  0xA2BFE8A1, 0xA81A664B, 0xC24B8B70, 0xC76C51A3, 0xD192E819, 0xD6990624, 0xF40E3585, 0x106AA070,
  0x19A4C116, 0x1E376C08, 0x2748774C, 0x34B0BCB5, 0x391C0CB3, 0x4ED8AA4A, 0x5B9CCA4F, 0x682E6FF3,
  0x748F82EE, 0x78A5636F, 0x84C87814, 0x8CC70208, 0x90BEFFFA, 0xA4506CEB, 0xBEF9A3F7, 0xC67178F2]

def shaH : List Nat := [0x6A09E667, 0xBB67AE85, 0x3C6EF372, 0xA54FF53A, 0x510E527F, 0x9B05688C, 0x1F83D9AB, 0x5BE0CD19]

/-- Rotate 32 bits right. -/
def rotr32 (x k : Nat) : Nat := (x / 2 ^ k) ||| (x * 2 ^ (32 - k) % two32)

/-- The message schedule, `n` words more. -/
def shaWords : Nat → List Nat → List Nat
  | 0, w => w
  | n + 1, w =>
    let a := w.getD (w.length - 15) 0
    let b := w.getD (w.length - 2) 0
    let s0 := rotr32 a 7 ^^^ rotr32 a 18 ^^^ a / 8
    let s1 := rotr32 b 17 ^^^ rotr32 b 19 ^^^ b / 1024
    shaWords n (w ++ [(w.getD (w.length - 16) 0 + s0 + w.getD (w.length - 7) 0 + s1) % two32])

/-- One round with its constant and word. -/
def shaRound (h : List Nat) (kw : Nat × Nat) : List Nat :=
  let g := fun i => h.getD i 0
  let s1 := rotr32 (g 4) 6 ^^^ rotr32 (g 4) 11 ^^^ rotr32 (g 4) 25
  let ch := (g 4 &&& g 5) ^^^ ((two32 - 1 - g 4) &&& g 6)
  let t1 := g 7 + s1 + ch + kw.1 + kw.2
  let s0 := rotr32 (g 0) 2 ^^^ rotr32 (g 0) 13 ^^^ rotr32 (g 0) 22
  let mj := (g 0 &&& g 1) ^^^ (g 0 &&& g 2) ^^^ (g 1 &&& g 2)
  [(t1 + s0 + mj) % two32, g 0, g 1, g 2, (g 3 + t1) % two32, g 4, g 5, g 6]

/-- A block of 64 bytes. -/
def shaBlock (h : List Nat) (bs : List Byte) : List Nat :=
  let w := shaWords 48 ((rangeFrom 0 16).map fun i => leNat ((bs.drop (4 * i)).take 4).reverse)
  ((shaK.zip w).foldl shaRound h).zip h |>.map fun e => (e.1 + e.2) % two32

/-- Blocks, `n` at most. -/
def shaBlocks : Nat → List Nat → List Byte → List Nat
  | 0, h, _ => h
  | n + 1, h, bs => if bs.isEmpty then h else shaBlocks n (shaBlock h (bs.take 64)) (bs.drop 64)

/-- SHA-256 of some bytes. -/
def sha256 (bs : List Byte) : List Byte :=
  let z := (119 - bs.length % 64) % 64
  let m := bs ++ 0x80 :: (List.replicate z 0 ++ (leBytes 8 (8 * bs.length)).reverse)
  (shaBlocks (m.length / 64) shaH m).flatMap fun w => (leBytes 4 w).reverse

end Sys2Proof.Machine
end

