-- ==== Sys2Proof/Machine/ScoCore.lean ====
section
/-! DEFINITION. Rasters: geometry, slots, writers, the reader, CRCs and DisplayPort training (R340 to R360). -/

namespace Sys2Proof.Machine

/-! ## Settings -/

/-- A raster's settings, from a function that gives its registers by offset (Tables 13-6 and 13-7). -/
structure RasterCfg where
  lock : Nat
  report : Bool
  quad : Bool
  dp : Nat
  sdi : Nat
  colo : Nat
  bits : Nat
  full : Bool
  samp : Nat
  chase : Bool
  content : Nat
  htotal : Nat
  hact : Nat
  hsw : Nat
  hfp : Nat
  vtotal : Nat
  vact : Nat
  vsw : Nat
  vfp : Nat
  pclk : Nat
  div : Bool
  base : Nat
  phase : Int
deriving DecidableEq, Repr

def rasterCfg (g : Nat → Nat) : RasterCfg := {
  lock := bitsOf (g 0) 31 30, report := (g 0).testBit 29, quad := (g 0).testBit 28, dp := bitsOf (g 0) 25 24
  sdi := bitsOf (g 0) 23 20, colo := bitsOf (g 0) 17 16, bits := bitsOf (g 0) 15 12, full := (g 0).testBit 11
  samp := bitsOf (g 0) 10 8, chase := (g 0).testBit 4, content := bitsOf (g 0) 1 0
  htotal := bitsOf (g 4) 29 16 + 1, hact := bitsOf (g 4) 13 0 + 1, hsw := bitsOf (g 8) 29 16 + 1
  hfp := bitsOf (g 8) 13 0, vtotal := bitsOf (g 12) 28 16 + 1, vact := bitsOf (g 12) 12 0 + 1
  vsw := bitsOf (g 16) 28 16 + 1, vfp := bitsOf (g 16) 12 0, pclk := g 20, div := (g 24).testBit 0
  base := bitsOf (g 28) 10 0, phase := toSigned 32 (g 32) }

/-- Settings of a running raster. -/
def Dev.rcfg (d : Dev) (k : Nat) : RasterCfg := rasterCfg (d.scoReg k)

/-- PCLK in Hz as a fraction (R342). -/
def pclkOf (c : RasterCfg) : Nat × Nat := if c.div then (c.pclk * 1000, 1001) else (c.pclk, 1)

/-- Frame rate as a fraction (R342). -/
def rasterRate (c : RasterCfg) : Nat × Nat := ((pclkOf c).1, (pclkOf c).2 * c.htotal * c.vtotal)

/-- Samples per pixel (R348). -/
def sppOf (c : RasterCfg) : Nat := if c.samp = 0 then 2 else 3

/-- Bytes of a slot row, and granules of a slot (R348). -/
def rowBytes (c : RasterCfg) : Nat := ceilDiv (ceilDiv (c.hact * sppOf c * c.bits) 8) 64 * 64
def slotGranules (c : RasterCfg) : Nat := ceilDiv (rowBytes c * c.vact) 65536

/-- The granules a raster holds: first and number (R349). -/
def granulesOf (c : RasterCfg) : Nat × Nat := (c.base, slotGranules c * if c.chase then 1 else 2)

/-- YCC of a raster as in SPK_FMT (R350). -/
def rasterYcc (c : RasterCfg) : Nat := if c.samp = 2 then 0 else c.colo + 1

/-- Running rasters. -/
def Dev.running (d : Dev) : List Nat := (rangeFrom 0 4).filter fun k => (d.raster k).run

/-- UR_POLICY (R354): REPEAT while any running raster chases. -/
def Dev.urPolicy (d : Dev) : Bool := d.running.any fun k => (d.rcfg k).chase

/-- Granules held by running rasters; one that several hold counts once (DEDUCED). -/
def Dev.granulesUsed (d : Dev) : Nat :=
  let gs := d.running.map fun k => granulesOf (d.rcfg k)
  ((rangeFrom 0 2048).filter fun g => gs.any fun e => decide (e.1 ≤ g) && decide (g < e.1 + e.2)).length

/-! ## SDI inputs (R361) -/

/-- The format that SDI_IN_CFG names. -/
def Dev.sdiWant (d : Dev) (i : Nat) : SdiFormat :=
  let o := 0x90C00 + 0x40 * i
  ⟨d.fld o 10 4, d.fld o 19 16, d.fld o 13 12, 0⟩

/-- The format that an input expects: while it is stopped, the one its register names (R362, R364). -/
def Dev.sdiExpect (d : Dev) (i : Nat) : SdiFormat := if (d.sdiIn i).run then (d.sdiIn i).want else d.sdiWant i

/-- Active size of a format code (R361). -/
def sdiSize (fmt : Nat) : Nat × Nat :=
  match fmt / 8 with
  | 0 => (1920, 1080)
  | 1 => (2048, 1080)
  | 2 => (3840, 2160)
  | _ => (4096, 2160)

/-! ## Colours at a raster (R355, R358) -/

/-- Black (R355). -/
def blackOf (bits : Nat) (full rgb : Bool) : Nat × Nat × Nat :=
  let y := if full then 0 else 16 * 2 ^ (bits - 8)
  let c := if full then 2 ^ (bits - 1) else 128 * 2 ^ (bits - 8)
  if rgb then (y, y, y) else (y, c, c)

/-- Bars with AMPL 0.75 (Table 13-6) as the picture of a pattern source. -/
def barFrame : SpkFrame := {
  index := 0, input := .pattern, expStart := 0, path := fieldBytes 256 [⟨128, 1, 1⟩, ⟨132, 4, f24Of 3 4⟩] }

/-- Stage-7 format of a raster's sampling (R350). -/
def rasterFmt (c : RasterCfg) : OutFmt := {
  w := c.hact, h := c.vact, fmt := if c.samp = 0 then 2 else 5, bits := c.bits, full := c.full, ycc := rasterYcc c }

/-- A row of bars; an odd column of 4:2:2 carries the chroma of its pair. -/
def Dev.barsRow (d : Dev) (o : OutFmt) : List (Nat × Nat × Nat) :=
  (rangeFrom 0 o.w).map fun x =>
    let p := d.outCodes barFrame o x 0
    if fmtSub o.fmt && x % 2 == 1 then (p.1, (d.outCodes barFrame o (x - 1) 0).2) else p

/-! ## CRC-32 of RFC 1952, one component at a time (R358) -/

/-- A sample as two bytes, low byte first. -/
def crcSample (c v : Nat) : Nat := crcByte (crcByte c (v % 256)) (v / 256 % 256)

/-- A row of pixels into three running CRCs; `sub` takes chroma of even columns alone. -/
def crcRow (sub : Bool) (row : List (Nat × Nat × Nat)) (cs : List Nat) : List Nat :=
  let ch := if sub then (row.zipIdx.filter fun e => e.2 % 2 == 0).map (·.1) else row
  [row.foldl (fun c p => crcSample c p.1) (cs.getD 0 ones32), ch.foldl (fun c p => crcSample c p.2.1) (cs.getD 1 ones32),
   ch.foldl (fun c p => crcSample c p.2.2) (cs.getD 2 ones32)]

/-- Final values. -/
def crcEnd (cs : List Nat) : List Nat := cs.map (· ^^^ 0xFFFFFFFF)

/-! ## Slots (R348, R349, R352, R353) -/

/-- ScanStore address of the 8-pixel group of pixel `x` in row `y` of a slot. -/
def slotAddrOf (c : RasterCfg) (slot x y : Nat) : Nat :=
  (c.base + slot * slotGranules c) * 65536 + y * rowBytes c + x / 8 * (sppOf c * c.bits)

/-- Pixel (x, y) of a slot: C0, C1, C2, with the chroma of its pair for 4:2:2. -/
def Dev.slotPx (d : Dev) (c : RasterCfg) (slot x y : Nat) : Nat × Nat × Nat :=
  let v := leNat (Mem.rdN d.mem.scan (slotAddrOf c slot x y) (sppOf c * c.bits))
  let s := fun i => v / 2 ^ (c.bits * i) % 2 ^ c.bits
  let i := x % 8
  if c.samp = 0 then (s (4 * (i / 2) + 1 + 2 * (i % 2)), s (4 * (i / 2)), s (4 * (i / 2) + 2))
  else (s (3 * i), s (3 * i + 1), s (3 * i + 2))

/-- The samples of pixels from an even column on, in slot order. -/
def slotSamples (c : RasterCfg) : List (Nat × Nat × Nat) → List Nat
  | [] => []
  | [p] => if c.samp = 0 then [p.2.1, p.1, p.2.2] else [p.1, p.2.1, p.2.2]
  | p :: q :: t =>
    (if c.samp = 0 then [p.2.1, p.1, p.2.2, q.1] else [p.1, p.2.1, p.2.2, q.1, q.2.1, q.2.2]) ++ slotSamples c t

/-- A writer frame begins: the slot that is not scanned, or the chase slot; a publication it revokes before it was shown
is SUPERSEDED (R352). -/
def Dev.rasterBegin (d : Dev) (k index : Nat) : Dev :=
  let r := d.raster k
  let w : Writer := {
    serial := r.serial + 1, index := index, slot := if (d.rcfg k).chase then 0 else 1 - r.front }
  let d := if r.pub.isSome then d.count (0x9006C + 0x100 * k) 1 else d
  d.setRaster k { r with serial := r.serial + 1, writer := some w, pub := none }

/-- The writer may write line `y` of a frame now (R353): in chase mode a frame that the reader has not bound waits until
the reader has scanned that line. -/
def Dev.rasterMayWrite (d : Dev) (k serial y : Nat) : Bool :=
  let r := d.raster k
  match r.shows with
  | .slot _ s _ => !(d.rcfg k).chase || s == serial || decide (y < r.line)
  | _ => true

/-- Pixels from column `x` on are written into row `y` of a writer frame's slot. -/
def Dev.rasterWrite (d : Dev) (k serial slot x y : Nat) (px : List (Nat × Nat × Nat)) : Dev :=
  let c := d.rcfg k
  let r := d.raster k
  let scan := Mem.wrN d.mem.scan (slotAddrOf c slot x y) (packBytes c.bits (slotSamples c px))
  let d := { d with mem := { d.mem with scan := scan } }
  if c.chase then d.setRaster k { r with lines := SMap.put {} r.lines y ⟨serial, x + px.length, d.now⟩ } else d

/-- A whole frame is in its slot (R216, R352). The first pilot frame makes SCO0 change to the pilot picture (R49). -/
def Dev.rasterPublish (d : Dev) (k : Nat) (w : Writer) : Dev :=
  let r := d.raster k
  if !r.run || r.writer != some w || (d.rcfg k).chase then d else
  let d := d.setRaster k { r with pub := some w }
  if r.ks && k == 0 && d.boot.pilot.isSome then { d with boot := { d.boot with pilotReady := true } } else d

/-! ## DisplayPort training (R346, R347) -/

def Dev.dpTx (d : Dev) (j : Nat) : DpTx := SMap.get {} d.sco.dp j

def Dev.setDp (d : Dev) (j : Nat) (v : DpTx) : Dev := { d with sco := { d.sco with dp := SMap.put {} d.sco.dp j v } }

/-- Usable capacity, in units of 125 kbit/s, at a lanes code and a rate code. -/
def dpCap (l r : Nat) : Nat :=
  2 ^ l * match r with
  | 0 => 162 * 64 | 1 => 270 * 64 | 2 => 540 * 64 | 3 => 810 * 64 | 4 => 1000 * 75 | 5 => 1350 * 75 | _ => 2000 * 75

/-- The setting carries the raster at `bpp` bits a pixel. -/
def dpCarries (c : RasterCfg) (bpp l r : Nat) : Bool :=
  decide ((pclkOf c).1 * bpp * c.hact ≤ dpCap l r * 125000 * ((pclkOf c).2 * c.htotal))

/-- Settings within limits that carry the raster. -/
def dpSettings (c : RasterCfg) (bpp lanes rate : Nat) : List (Nat × Nat) :=
  (rangeFrom 0 (min lanes 2 + 1)).flatMap fun l =>
    ((rangeFrom 0 (min rate 6 + 1)).map fun r => (l, r)).filter fun e => dpCarries c bpp e.1 e.2

/-- A setting for the standby raster: the lowest HBR or UHBR rate that carries it, on the fewest lanes that do (R41). -/
def dpStandby (es : List (Nat × Nat)) : Option (Nat × Nat) :=
  (rangeFrom 1 6).findSome? fun r => (rangeFrom 0 3).findSome? fun l => es.find? (· == (l, r))

/-- The setting of lowest capacity (R346); of equal ones the one with fewer lanes (DEDUCED). -/
def dpLowest : List (Nat × Nat) → Option (Nat × Nat)
  | [] => none
  | e :: t => match dpLowest t with
    | none => some e
    | some f => if dpCap e.1 e.2 ≤ dpCap f.1 f.2 then some e else some f

/-- Bits per pixel of a raster on DisplayPort; the standby raster is RGB 4:4:4 at 10 bits there (R41). -/
def Dev.dpBpp (d : Dev) (k : Nat) : Nat :=
  if (d.raster k).ks then 30 else sppOf (d.rcfg k) * (d.rcfg k).bits

/-- LINK_EVENT (Table 13-5). -/
def Dev.linkEvent (d : Dev) (inst ev rate lanes w h fmt : Nat) : Dev :=
  d.post 0x2002 1 ones64 9 inst
    [⟨32, 1, ev⟩, ⟨33, 1, rate⟩, ⟨34, 1, lanes⟩, ⟨36, 2, w⟩, ⟨38, 2, h⟩, ⟨40, 1, fmt⟩] d.now

def Dev.dpEvent (d : Dev) (j ev : Nat) : Dev :=
  let t := d.dpTx j
  d.linkEvent j ev t.rate (if t.trained then 2 ^ t.lanes else 0) 0 0 0xFF

/-- Train transmitter `j` for the raster that drives it, where a sink is present. -/
def Dev.dpTrain (d : Dev) (j : Nat) : Dev :=
  let t := d.dpTx j
  match d.dpRaster j with
  | none => d
  | some k =>
    if !t.hpd then d else
    let o := 0x90800 + 0x20 * j
    let all := dpSettings (d.rcfg k) (d.dpBpp k) (min (d.fld o 5 4) t.sink.maxLanes) (min (d.fld o 2 0) t.sink.maxRate)
    let all := all.filter fun e => !t.sink.failing.contains e
    match if (d.raster k).ks then dpStandby all else dpLowest all with
    | some e => ((d.setDp j { t with trained := true, lanes := e.1, rate := e.2 }).emit (.dpLink j (2 ^ e.1) e.2)).dpEvent j 3
    | none => ((d.setDp j { t with trained := false, lanes := 0, rate := 0 }).emit (.dpLink j 0 0)).dpEvent j 4

/-- Train the transmitters of raster `k`. -/
def Dev.dpTrainOf (d : Dev) (k : Nat) : Dev :=
  (rangeFrom 0 2).foldl (fun d j => if (d.scoReg k 0).testBit (24 + j) then d.dpTrain j else d) d

/-! ## The reader (R352 to R357) -/

/-- Line period count of a time (lines of raster `c`, rounded down). -/
def linesIn (c : RasterCfg) (t : Nat) : Nat := t * (pclkOf c).1 / (c.htotal * (pclkOf c).2 * tSec)

/-- What the next frame shows, the raster after its reader has bound, and whether it repeats (R352, R353). -/
def rasterShows (c : RasterCfg) (slots : Bool) (r : Raster) : Raster :=
  if !slots then { r with shows := if c.content = 2 then .bars else .black, repeated := false }
  else if c.chase then
    match r.writer with
    | none => { r with shows := .none, repeated := false }
    | some w => { r with shows := .slot 0 w.serial w.index, repeated := false }
  else match r.pub, r.bound with
    | some w, _ => { r with
      shows := .slot w.slot w.serial w.index, front := w.slot, bound := some w, pub := none, repeated := false }
    | none, some w => { r with shows := .slot w.slot w.serial w.index, repeated := true }
    | none, none => { r with shows := .none, repeated := false }

/-- A SCO_RESTART's set is put in force (R366): slots whose layout changed hold no frame yet. -/
def Dev.rasterSet (d : Dev) (k : Nat) (blk : List Byte) : Dev :=
  let old := d.rcfg k
  let r := d.raster k
  let l := (rangeFrom 0 9).foldl (fun m i => SMap.put 0 m (4 * i) (BitVec.ofNat 32 (bn blk (4 * i) 4))) []
  let d := d.setRaster k { r with ks := false, latched := l }
  let new := d.rcfg k
  if old.base = new.base ∧ old.samp = new.samp ∧ old.bits = new.bits ∧ old.chase = new.chase then d
  else d.setRaster k { d.raster k with pub := none, bound := none, writer := none, front := 0, lines := [] }

/-- Transmitters of raster `k` whose trained setting does not carry the raster under its new set train again (R346). -/
def Dev.dpFit (d : Dev) (k : Nat) : Dev :=
  (rangeFrom 0 2).foldl (fun d j =>
    let t := d.dpTx j
    if d.dpRaster j = some k ∧ t.trained = true ∧ dpCarries (d.rcfg k) (d.dpBpp k) t.lanes t.rate = false then d.dpTrain j
    else d) d

/-- The sets that wait are taken in order; each command completes with the OUT_FRAME of the first frame under it. -/
def Dev.rasterRestarts (d : Dev) (k : Nat) : Dev :=
  match (d.raster k).restarts with
  | [] => d
  | bs =>
    let d := d.setRaster k { d.raster k with restarts := [] }
    (bs.foldl (fun d b => (d.rasterSet k b.bytes).finish b.ref stSuccess (d.raster k).count) d).dpFit k

/-- The reader binds for the next frame. -/
def Dev.readerBind (d : Dev) (k : Nat) : Dev :=
  let d := d.rasterRestarts k
  let c := d.rcfg k
  let r := d.raster k
  let r := rasterShows c (c.content == 0 || (r.ks && k == 0 && d.boot.pilotReady)) r
  d.setRaster k { r with
    active := true, line := 0, count := (r.count + 1) % two32, began := true, policy := d.urPolicy, under := 0, blank := false
    ecc := false, lead := none, crcSdi := [], crcDp := [] }

/-- Raster `k` begins in the middle of a frame, at line `line`, as the phase of its reference calls for (R43): what is
left of that frame is its first, partial one. -/
def Dev.rasterEnter (d : Dev) (k line : Nat) : Dev :=
  if (d.rcfg k).vact ≤ line then d else
  let d := d.readerBind k
  d.setRaster k { d.raster k with line := line, time := d.now, dpUp := 0 }

/-- A row as the slot or the generator gives it, before underrun. -/
def Dev.rasterSource (d : Dev) (k y : Nat) : List (Nat × Nat × Nat) :=
  let c := d.rcfg k
  match (d.raster k).shows with
  | .bars => d.barsRow (rasterFmt c)
  | .slot s _ _ => (rangeFrom 0 c.hact).map fun x => d.slotPx c s x y
  | _ => List.replicate c.hact (blackOf c.bits c.full (c.samp == 2))

/-- First pixel of line `y` that cannot be taken from the slot, HACT where all can (R353, R356). -/
def Dev.firstLost (d : Dev) (k y : Nat) (badPixel : Option Nat) : Nat :=
  let c := d.rcfg k
  match (d.raster k).shows with
  | .slot _ s _ =>
    let l := SMap.get {} (d.raster k).lines y
    let w := if !c.chase then c.hact else if l.serial = s then l.px else 0
    min c.hact (min w (badPixel.getD c.hact))
  | _ => c.hact

/-- A row with every pixel from `n` on replaced by the last one delivered (R356). -/
def repeatRow (n : Nat) (last : Nat × Nat × Nat) (row : List (Nat × Nat × Nat)) : List (Nat × Nat × Nat) :=
  row.take n ++ List.replicate (row.length - n) ((row.take n).getLast?.getD last)

/-- The frame's report, once its last active line has left (Table 13-4); its MISMATCH comes with FRAME_OUT. -/
def Dev.frameRep (d : Dev) (k : Nat) : FrameRep :=
  let c := d.rcfg k
  let r := d.raster k
  let b := fun (p : Bool) (n : Nat) => if p then n else 0
  let down := c.dp &&& (3 ^^^ r.dpUp)
  { out := (r.count + (two32 - 1)) % two32
    index := match r.shows with | .slot _ _ i => i | _ => ones64
    time := r.time, report := c.report
    flags := b r.repeated 1 + b (decide (0 < r.under)) 2 + b r.blank 4 + b c.chase 16 + b r.ecc 32 + b (down != 0) 64
      + b (r.shows == .black || r.shows == .bars) 128
    slot := match r.shows with | .slot s _ _ => s | _ => 0
    crash := r.crash, under := satW 32 r.under
    lead := if c.chase then (if 0 < r.under then 0 else (r.lead.map (satW 16 ·)).getD 0xFFFF) else 0xFFFF
    sdi := c.sdi, dp := c.dp, dpUp := r.dpUp, crcSdi := crcEnd r.crcSdi, crcDp := crcEnd r.crcDp }

/-- The last active line has left: counters and the report that FRAME_OUT will post. -/
def Dev.rasterEnd (d : Dev) (k : Nat) : Dev :=
  let r := d.raster k
  let d := d.setRaster k { r with active := false, crash := false, reports := r.reports ++ [d.frameRep k] }
  let d := if 0 < r.under then d.count (0x90064 + 0x100 * k) 1 else d
  if r.repeated then d.count (0x90068 + 0x100 * k) 1 else d

/-- The row that leaves at line `y`, and the block's error counters and marks. -/
def Dev.rasterRead (d : Dev) (k y : Nat) (badPixel : Option Nat) (eccCorr : Nat) : List (Nat × Nat × Nat) × Dev :=
  let c := d.rcfg k
  let r := d.raster k
  let black := blackOf c.bits c.full (c.samp == 2)
  let slot := match r.shows with | .slot _ _ _ => true | _ => false
  let bad := slot && badPixel.any fun x => decide (x < c.hact)
  let d := if slot then d.count 0x90404 eccCorr else d
  let d := if bad then d.count 0x90408 1 else d
  let n := d.firstLost k y badPixel
  let blank := r.blank || (bad && !r.policy)
  let lost := if blank then c.hact else c.hact - n
  let row := if blank then List.replicate c.hact black
    else if n < c.hact then repeatRow n (r.last.getD black) (d.rasterSource k y) else d.rasterSource k y
  let d := if 0 < lost then d.count (0x90060 + 0x100 * k) lost else d
  let lead := if slot && c.chase then
      some (min (linesIn c (d.now - (SMap.get {} r.lines y).time)) (r.lead.getD 65535)) else r.lead
  (row, d.setRaster k { r with
    under := r.under + lost, blank := blank, ecc := r.ecc || bad, lead := lead, last := row.getLast? })

/-- A row in RGB 4:4:4 at 10 bits, as DP0 carries the standby raster (R41). The pilot's codes pass as SCO0 has them: R49
has DP0 follow SCO0 and names no conversion (DESIGN CHOICE, log entry 77). -/
def Dev.dpRow (d : Dev) (k : Nat) (row : List (Nat × Nat × Nat)) : List (Nat × Nat × Nat) :=
  let c := d.rcfg k
  let r := d.raster k
  if !r.ks then row
  else match r.shows with
    | .bars => d.barsRow { w := c.hact, h := c.vact, fmt := 5, bits := 10, full := false, ycc := 0 }
    | .black => List.replicate c.hact (blackOf 10 false true)
    | _ => row

/-- One active line (R355, R356): read, sent, into the CRCs; line 0 is the frame start, at which a change of policy takes
effect (R354). -/
def Dev.rasterLine (d : Dev) (k : Nat) (badPixel : Option Nat) (eccCorr : Nat) : Dev :=
  let y := (d.raster k).line
  let up := (rangeFrom 0 2).foldl (fun m j => m + if (d.dpTx j).trained then 2 ^ j else 0) 0
  let d := if y = 0 then d.setRaster k { d.raster k with time := d.now, dpUp := up, policy := d.urPolicy } else d
  let e := d.rasterRead k y badPixel eccCorr
  let row := e.1
  let d := e.2
  let c := d.rcfg k
  let dp := d.dpRow k row
  let r := d.raster k
  let d := (d.setRaster k { r with
    line := y + 1, crcSdi := crcRow true row r.crcSdi
    crcDp := crcRow (c.samp == 0 && !r.ks) dp r.crcDp }).emit (.rasterLine k y row)
  let d := if c.dp = 0 then d else d.emit (.dpLine k y dp)
  if c.vact ≤ y + 1 then d.rasterEnd k else d

end Sys2Proof.Machine
end

