-- ==== Sys2Proof/Machine/Stu.lean ====
section
/-! DEFINITION. Statistics: raw units, scopes, SDI statistics, buffers (R224 to R245). -/

namespace Sys2Proof.Machine

open Host

/-! ## Counting into bins -/

/-- Add `n` at a key. -/
def bump (m : SMap Nat) (k n : Nat) : SMap Nat := SMap.put 0 m k (SMap.get 0 m k + n)

/-- `n` counts of `w` bytes from a map, from key `a` on, saturating. -/
def binBytes (m : SMap Nat) (w a n : Nat) : List Byte :=
  (rangeFrom a n).flatMap fun k => leBytes w (satW (8 * w) (SMap.get 0 m k))

/-- A map has a value that saturates at `w` bits, among keys from `a` to `a` + `n`. -/
def binsFull (m : SMap Nat) (w a n : Nat) : Bool :=
  m.any fun e => decide (a ≤ e.1) && decide (e.1 < a + n) && decide (2 ^ w - 1 ≤ e.2)

/-! ## Raw statistics (R232 to R234) -/

/-- What a raw unit measures a frame with. -/
structure Sx where
  rx : Rx
  /-- active-window rows measured -/
  rows : Nat
  rawShift : Nat
  zone : Nat
  flick : Nat
  sharp : Nat
  clip : Int
  ye0 : Nat

def Dev.sx (d : Dev) (f : PipeFrame) (rows : Nat) : Sx :=
  let o := 0x50000 + 0x40 * f.src
  { rx := d.rx f (0, f.width), rows := rows, rawShift := ffld f (o + 4) 4 0, zone := ffld f (o + 4) 12 8
    flick := ffld f (o + 4) 20 16, sharp := ffld f (o + 4) 28 24, clip := ffld f (o + 8) 20 0, ye0 := ffld f o 14 8 }

/-- m at a site of the measured rows. -/
def sxM (c : Sx) (x y : Int) : Int := SMap.get 0 c.rx.f.mos (siteKey (winX c.rx x).toNat (winY c.rx y).toNat)

/-- Sites of the measured rows, row by row. -/
def sxSites (c : Sx) : List (Nat × Nat) :=
  (rangeFrom c.rx.win.y0 c.rows).flatMap fun y => (rangeFrom c.rx.win.x0 c.rx.win.w).map fun x => (x, y)

/-- Y bin of an f24 word (R232). -/
def yBin (ye0 w : Nat) : Nat :=
  if w = 0 ∨ 8388608 ≤ w then 0
  else (clampI 0 255 (((w / 65536 : Nat) : Int) * 16 - ye0 * 16 + (w % 65536 / 4096 : Nat))).toNat

/-- The histograms: 256 bins for each of R, G, B, C, I and Y. -/
def sxHist (c : Sx) : SMap Nat :=
  (sxSites c).foldl (fun m s =>
    let v := (max (sxM c s.1 s.2) 0).toNat
    let m := bump m (256 * rxChan c.rx s.1 s.2 + min 255 (v / 2 ^ c.rawShift)) 1
    bump m (1280 + yBin c.ye0 (SMap.get {} c.rx.f.work (siteKey s.1 s.2)).y) 1) []

/-- Zone of a window position along an axis: floor(i × n / k) ≤ p < floor((i + 1) × n / k). -/
def zoneOf (p n k : Nat) : Nat := (k * (p + 1) + n - 1) / n - 1

/-- Zone values, exact: key 6·zone + (0 to 3 R, G, B, C; 4 clipped; 5 sharpness). -/
def sxZones (c : Sx) : SMap Nat :=
  (sxSites c).foldl (fun m s =>
    let z := 6 * (zoneOf (s.2 - c.rx.win.y0) c.rx.win.h 48 * 64 + zoneOf (s.1 - c.rx.win.x0) c.rx.win.w 64)
    let v := sxM c s.1 s.2
    let ch := rxChan c.rx s.1 s.2
    let m := if ch < 4 then bump m (z + ch) (max v 0).toNat else m
    let m := if c.clip ≤ v then bump m (z + 4) 1 else m
    if ch = c.rx.cfa.guide then
      bump m (z + 5) (sxM c (s.1 + c.rx.cfa.px) s.2 - sxM c ((s.1 : Int) - c.rx.cfa.px) s.2).natAbs else m) []

/-- Flicker profile: the sum of a row. -/
def sxFlick (c : Sx) : SMap Nat :=
  (sxSites c).foldl (fun m s => bump m (s.2 - c.rx.win.y0) (max (sxM c s.1 s.2) 0).toNat) []

/-- Stored zone value: sums shifted, counts as they are. -/
def zoneStored (c : Sx) (k v : Nat) : Nat :=
  if k % 6 < 4 then v / 2 ^ c.zone else if k % 6 = 4 then v else v / 2 ^ c.sharp

/-- OVF_MAP (Table 8-4). -/
def sxOvf (c : Sx) (h z fl : SMap Nat) : Nat :=
  let zs := z.map fun e => (e.1, zoneStored c e.1 e.2)
  let anyZ := fun (p : Nat → Bool) => zs.any fun e => p (e.1 % 6) && decide (4294967295 ≤ e.2)
  ((rangeFrom 0 6).foldl (fun a k => a + if binsFull h 32 (256 * k) 256 then 2 ^ k else 0) 0)
    + (anyZ (· < 4)).toNat * 64 + (anyZ (· == 4)).toNat * 128 + (anyZ (· == 5)).toNat * 256
    + (fl.any fun e => decide (4294967295 ≤ e.2 / 2 ^ c.flick)).toNat * 512

/-- Clipped sites of the measured rows. -/
def sxClipped (z : SMap Nat) : Nat := (z.map fun e => if e.1 % 6 = 4 then e.2 else 0).foldl (· + ·) 0

/-- The block (Table 8-6). -/
def sxBlock (c : Sx) (state flags ovf : Nat) (h z fl : SMap Nat) : List Byte :=
  leBytes 8 c.rx.f.index ++ leBytes 1 state ++ leBytes 1 flags ++ leBytes 2 ovf ++ leBytes 4 c.rows ++ leBytes 48 0
    ++ binBytes h 4 0 1536
    ++ (rangeFrom 0 18432).flatMap (fun k => leBytes 4 (satW 32 (zoneStored c k (SMap.get 0 z k))))
    ++ (rangeFrom 0 16384).flatMap fun r => leBytes 4 (satW 32 (SMap.get 0 fl r / 2 ^ c.flick))

/-- A PROVISIONAL or FINAL record of a raw unit; a provisional one takes a block where BLOCK_PROV is set (R241). -/
def Dev.statsRecord (d : Dev) (f : PipeFrame) (state rows flags : Nat) : Dev :=
  let c := d.sx f rows
  let h := sxHist c
  let z := sxZones c
  let fl := sxFlick c
  let f := { f with clipped := sxClipped z, ovf := sxOvf c h z fl }
  let flags := flags + if 0 < f.ovf then 8 else 0
  let body := fun fg addr => stuBody f.prog.id f.src state fg f.cfg.level f.expStart rows addr ++ sxSlot f
  if state = 2 ∨ ffld f (0x50000 + 0x40 * f.src) 2 2 = 1 then
    d.postBlock f.src f.index 0x1001 2 flags (sxBlock c state flags f.ovf h z fl) body
  else d.post 0x1001 2 f.index 5 f.src (body flags 0) d.now

/-- CBE has delivered window row `wy`. -/
def cbeRow (f : PipeFrame) (wy : Nat) : Bool :=
  f.cbeDone || (fspokes f).zipIdx.all fun e =>
    decide (ceilDiv (clipTo (fstripe f e.2) (fwin f)) 8 * (wy + 1) ≤ SMap.get 0 f.cbeTok e.1)

/-- Rows of the active window that a closed frame received (R227). -/
def rowsGot (f : PipeFrame) : Nat := min (fwin f).h (f.lines - (fwin f).y0)

/-- The early row (R225). -/
def earlyRow (f : PipeFrame) : Nat := max 1 ((fwin f).h * ffld f (0x50000 + 0x40 * f.src) 31 24 / 256)

/-- FINAL (R227): the frame is measured. -/
def Dev.statsFinal (d : Dev) (f : PipeFrame) : Dev :=
  let d := d.statsRecord f 2 f.stuRow (rawFlags f.short f.long f.fault)
  (d.modFrame f.src f.index fun g => { g with stuDone := true }).stuFlush.sweepFrames

/-- The frame after one more row of it has been measured. -/
def Dev.rowMeasured (d : Dev) (f : PipeFrame) : PipeFrame :=
  let c := d.sx f (f.stuRow + 1)
  let z := sxZones c
  { f with stuRow := f.stuRow + 1, clipped := sxClipped z, ovf := sxOvf c (sxHist c) z (sxFlick c) }

/-- The last received row of a closed frame is measured, and stage 7 has delivered what STU needs of it (R174). -/
def rowsOver (f : PipeFrame) : Bool := f.closed && f.rfeDone && decide (rowsGot f ≤ f.stuRow)

/-- One more row of the oldest frame that the unit of source `s` measures; then PROVISIONAL where it is due (R225), and
FINAL once the last received row of a closed frame is done. -/
def Dev.stuRow (d : Dev) (s : Nat) : Dev :=
  if d.engDown 0x20 27 then d else
  match d.rfe.frames.find? fun f => f.src == s && !f.stuDone && stuOn f with
  | none => d
  | some f =>
    if rowsOver f then d.statsFinal f
    else if (if f.closed then rowsGot f else (fwin f).h) ≤ f.stuRow ∨ !cbeRow f f.stuRow then d
    else
      let g := d.rowMeasured f
      let prov := g.stuRow == earlyRow g && !g.closed && ffld f (0x50000 + 0x40 * s) 1 1 == 1
      let g := { g with prov := g.prov || prov }
      let d := d.modFrame s f.index fun _ => g
      let d := if prov then d.statsRecord g 1 g.stuRow (d.pipeFlags g) else d
      if rowsOver g then d.statsFinal g else d

/-- STU_ROW_PROCESSED (R225, R227). -/
def execStuRowProcessed (src : Fin 5) (s : State) : Outcome State Fault Refusal := lift (fun d => d.stuRow src.val) s

/-! ## Scopes (R236 to R239) -/

def Dev.stuUnit (d : Dev) (u : Nat) : StuUnit := SMap.get {} d.stu.units u

def Dev.setUnit (d : Dev) (u : Nat) (v : StuUnit) : Dev :=
  { d with stu := { d.stu with units := SMap.put {} d.stu.units u v } }

/-- A code of `n` bits at `m` bits (R236). -/
def levelOf (n m c : Nat) : Nat := if m ≤ n then c / 2 ^ (n - m) else c * 2 ^ (m - n)

/-- A picture as a scope sees it: size, bits of a code, chroma subsampling by columns and rows, rows measured. -/
structure Pic where
  w : Nat
  h : Nat
  bits : Nat
  subX : Bool
  subY : Bool
  rows : Nat
  code : Nat → Nat → Nat × Nat × Nat

/-- Sites that carry component `k`. -/
def picSites (p : Pic) (k : Nat) : List (Nat × Nat) :=
  let xs := (rangeFrom 0 p.w).filter fun x => k == 0 || !p.subX || x % 2 == 0
  let ys := (rangeFrom 0 p.rows).filter fun y => k == 0 || !p.subY || y % 2 == 0
  ys.flatMap fun y => xs.map fun x => (x, y)

/-- Waveform of component `k`, by level × 512 + bucket (R237). -/
def waveform (p : Pic) (k : Nat) : SMap Nat :=
  (picSites p k).foldl (fun m s =>
    bump m (levelOf p.bits 10 (comp3 k (p.code s.1 s.2)) % 1024 * 512 + 512 * s.1 / p.w) 1) []

/-- Vectorscope, by Cr level × 512 + Cb level (R238). -/
def vectorscope (p : Pic) : SMap Nat :=
  (picSites p 1).foldl (fun m s =>
    let c := p.code s.1 s.2
    bump m (levelOf p.bits 9 c.2.2 % 512 * 512 + levelOf p.bits 9 c.2.1 % 512) 1) []

/-- A scope's FINAL record of a frame: `u` is 0 or 1 (Table 8-7). -/
def Dev.scopeFinal (d : Dev) (u : Nat) (p : Pic) (index prog src flags expStart : Nat) : Dev :=
  let cfg := (d.stuUnit u).latched.toNat
  let wf := if cfg.testBit 13 then waveform p (bitsOf cfg 9 8) else []
  let vs := if cfg.testBit 12 then vectorscope p else []
  let uf := (binsFull wf 16 0 524288).toNat + 2 * (binsFull vs 16 0 262144).toNat
  let flags := flags + if 0 < uf then 8 else 0
  let block := leBytes 8 index ++ leBytes 1 2 ++ leBytes 1 flags ++ leBytes 1 uf ++ leBytes 53 0
    ++ binBytes wf 2 0 524288 ++ binBytes vs 2 0 262144
  d.postBlock (5 + u) index 0x1002 1 flags block fun fg addr => stuBody prog src 2 fg uf expStart p.rows addr

/-- SRC of a sprocket's frame in a statistics record (Table 8-3). -/
def frameSrc (f : SpkFrame) : Nat :=
  match f.input with
  | .live s => s
  | .memory _ => 5
  | .pattern => 6
  | .sdi i _ _ _ => 7 + i

/-- Flags of Table 8-3 that the frame's source gives it. -/
def Dev.spkFlags (d : Dev) (f : SpkFrame) : Nat :=
  match f.input with
  | .live s => match d.liveFrame s f.index with
    | none => 0
    | some g => d.pipeFlags g
  | _ => 0

/-- What the record of a scope's frame in hand says of it: PROGRAM_ID, SRC, FLAGS, EXPOSURE_START, and the lines measured
(R229, Table 8-3). -/
def Dev.scopeAbout (d : Dev) (u : Nat) : Nat × Nat × Nat × Nat × Nat :=
  let cfg := (d.stuUnit u).latched.toNat
  let id := bitsOf cfg 6 4
  if cfg.testBit 0 then (0, 7 + id, 0, d.now, 0)
  else match (d.spkOf id).cur with
    | none => (0, 5, 0, d.now, 0)
    | some f => (f.progId, frameSrc f, d.spkFlags f, f.expStart,
        f.tok / ceilDiv (bitsOf (SMap.get 0 f.latched 4).toNat 13 0 + 1) 8)

/-- A scope's CANCELLED record, about a frame of which it says `a`. -/
def Dev.scopeCancelAs (d : Dev) (u index flags : Nat) (a : Nat × Nat × Nat × Nat × Nat) : Dev :=
  d.post 0x1002 1 index 5 (5 + u) (stuBody a.1 a.2.1 3 (a.2.2.1 + flags) 0 a.2.2.2.1 a.2.2.2.2 0) d.now

/-- A scope's CANCELLED record of the frame in hand. -/
def Dev.scopeCancel (d : Dev) (u index : Nat) (flags : Nat) : Dev := d.scopeCancelAs u index flags (d.scopeAbout u)

/-- Scopes that take an input: kind 0 sprocket, 1 SDI input. -/
def Dev.scopesOf (d : Dev) (kind id : Nat) : List Nat :=
  (rangeFrom 0 2).filter fun u =>
    let v := d.stuUnit u
    v.running && (v.latched.toNat % 2 == kind) && bitsOf v.latched.toNat 6 4 == id && !d.engDown 0x20 27

/-- The unit stops and completes the command that waits: the last frame with a terminal record. -/
def Dev.unitStop (d : Dev) (u : Nat) : Dev :=
  let v := d.stuUnit u
  let d := d.setUnit u { v with running := false, stopping := false, stopRef := none, cur := none }
  match v.stopRef with
  | some r => d.finish r stSuccess (v.lastTerm.getD ones64)
  | none => d

/-- A unit has posted the terminal record of frame `i`. -/
def Dev.unitDone (d : Dev) (u i : Nat) : Dev :=
  let d := d.setUnit u { d.stuUnit u with cur := none, lastTerm := some i }
  if (d.stuUnit u).stopping then d.unitStop u else d

/-- A frame of an input begins: scopes that run take it, unless they are stopping. -/
def Dev.scopeBegin (d : Dev) (kind id i : Nat) : Dev :=
  (d.scopesOf kind id).foldl (fun d u =>
    if (d.stuUnit u).stopping then d else d.setUnit u { d.stuUnit u with cur := some i }) d

/-- The input drops or abandons its frame: no record (R236). -/
def Dev.scopeDrop (d : Dev) (kind id : Nat) : Dev :=
  (d.scopesOf kind id).foldl (fun d u =>
    let d := d.setUnit u { d.stuUnit u with cur := none }
    if (d.stuUnit u).stopping then d.unitStop u else d) d

/-- Scopes that the input outruns: they abandon the frame with STALL and resume at the next one (R239). -/
def Dev.scopeStall (d : Dev) (kind id : Nat) (outrun : BitVec 2) : Dev :=
  (d.scopesOf kind id).foldl (fun d u =>
    match (d.stuUnit u).cur with
    | some i => if outrun.toNat.testBit u then (d.scopeCancel u i 64).unitDone u i else d
    | none => d) d

/-- Scopes that SDI input `i` outruns, and the frame it ends before it is whole: CANCELLED (R224, R239, R363). A scope
that is outrun has measured no whole row of the frame (log entry 65). -/
def Dev.scopeSdiCancel (d : Dev) (i index flags expStart rows : Nat) (sel : Nat → Bool) : Dev :=
  (d.scopesOf 1 i).foldl (fun d u =>
    if (d.stuUnit u).cur = some index ∧ sel u then
      (d.scopeCancelAs u index flags (0, 7 + i, 0, expStart, rows)).unitDone u index else d) d

/-- A whole frame of an input has been measured by the scopes that took its start. -/
def Dev.scopeEnd (d : Dev) (kind id i : Nat) (p : Pic) (prog src flags expStart : Nat) : Dev :=
  (d.scopesOf kind id).foldl (fun d u =>
    if (d.stuUnit u).cur = some i then (d.scopeFinal u p i prog src flags expStart).unitDone u i else d) d

/-! ## SDI statistics -/

/-- SDI_IN_STATS (Table 8-5) of a frame as far as it was received, and the running totals. -/
def Dev.sdiRecord (d : Dev) (i index state : Nat) (locked : Bool) (f : SdiFrame) (expStart : Nat) : Dev :=
  let u := 2 + i
  if !(d.stuUnit u).running || d.engDown 0x20 27 then d else
  let cs := [f.lines, f.yCrc, f.cCrc, f.lnErr, f.trsErr, f.ancErr]
  let o := 0x50900 + 0x20 * i
  let d := (rangeFrom 0 5).foldl (fun d k => if cs.getD (k + 1) 0 = 0 then d else d.count (o + 4 * k) (cs.getD (k + 1) 0)) d
  let flags := if cs.any (65535 ≤ ·) then 8 else 0
  let slot : List Fld := (rangeFrom 0 6).map (fun k => ⟨64 + 2 * k, 2, satW 16 (cs.getD k 0)⟩)
    ++ [⟨76, 2, f.firstErr⟩, ⟨78, 2, f.lastErr⟩, ⟨80, 1, f.format.std⟩]
  (d.post 0x1003 2 index 5 (7 + i) (stuBody 0 (7 + i) state flags locked.toNat expStart f.pixels.length 0 ++ slot)
    d.now).unitDone u index

/-- FINAL of a whole frame, locked throughout. -/
def Dev.sdiStats (d : Dev) (i index : Nat) (f : SdiFrame) (expStart : Nat) : Dev := d.sdiRecord i index 2 true f expStart

/-- CANCELLED of a frame that ends before it is whole (DEDUCED from R224, log entry 65). -/
def Dev.sdiStatsCancel (d : Dev) (i index : Nat) (locked : Bool) (f : SdiFrame) (expStart : Nat) : Dev :=
  d.sdiRecord i index 3 locked f expStart

/-! ## Commands (R244, Table 8-14) -/

/-- Modes of class 0x03. -/
def Dev.stuMode (d : Dev) : Bool := d.boot.mode.working

/-- Setup of a scope. -/
def Dev.scopeCfg (d : Dev) (u : Nat) : Nat := d.reg (0x50400 + 0x20 * u)

/-- The unit takes an SDI input. -/
def Dev.unitSdi (d : Dev) (u : Nat) : Bool := decide (2 ≤ u) || (d.scopeCfg u).testBit 0

def specUnitStart : CmdSpec := {
  cls := 0x03, opc := 0x01
  feat := fun d c => !d.unitSdi (c.f 4 1 0) || d.feat 11
  offs := fun d c => modeOff d.stuMode ++ dw1Offs c false ++ resOffs c [(4, 1, 0)]
    ++ off 4 0 (d.stuUnit (c.f 4 1 0)).running }

/-- A register of a sprocket: as latched while it runs. -/
def Dev.spkReg (d : Dev) (n o : Nat) : Nat :=
  if (d.spkOf n).state == .running then (SMap.get 0 (d.spkOf n).latched o).toNat else d.reg (0x41000 + 0x100 * n + o)

/-- The scope's set-up is at fault: WF_COMP 3, an SDI input above 1, or a vectorscope on RGB (R238). -/
def Dev.scopeBad (d : Dev) (u : Nat) : Bool :=
  let cfg := d.scopeCfg u
  let id := bitsOf cfg 6 4
  let rgb := if cfg.testBit 0 then (d.sdiExpect id).sampling == 2 else bitsOf (d.spkReg id 8) 11 10 == 0
  bitsOf cfg 9 8 == 3 || (cfg.testBit 0 && decide (1 < id)) || (cfg.testBit 12 && rgb)

/-- Index of the first frame a unit will measure: an SDI input's next, else not known. -/
def Dev.unitFirst (d : Dev) (u : Nat) : Nat :=
  let i := if 2 ≤ u then u - 2 else bitsOf (d.scopeCfg u) 6 4
  if d.unitSdi u && (d.sdiIn i).run then (d.sdiIn i).nextIndex else ones64

/-- The effect of STU_UNIT_START. -/
def unitStart (r : CmdRef) (c : Cmd) (d : Dev) : Dev :=
  let u := c.f 4 1 0
  if d.engOff 0x20 27 then d.finish r stEngineDown 0
  else if d.engDown 0x20 27 then d
  else if u < 2 ∧ d.scopeBad u then d.setupFault r
  else
    let d := d.setUnit u { running := true, latched := if u < 2 then BitVec.ofNat 32 (d.scopeCfg u) else 0 }
    d.finish r stSuccess (d.unitFirst u)

/-- STU_UNIT_START (R243). -/
def execStuUnitStart (r : CmdRef) (s : State) : Outcome State Fault Refusal :=
  lift (runCmd specUnitStart r (unitStart r)) s

def specUnitStop : CmdSpec := {
  cls := 0x03, opc := 0x02
  offs := fun d c => modeOff d.stuMode ++ dw1Offs c false ++ resOffs c [(4, 1, 0), (4, 8, 8)]
    ++ off 4 0 (!(d.stuUnit (c.f 4 1 0)).running || (d.stuUnit (c.f 4 1 0)).stopping) }

/-- The effect of STU_UNIT_STOP: NOW 1 cancels the frame in hand (R228), NOW 0 finishes it. -/
def unitStopCmd (r : CmdRef) (c : Cmd) (d : Dev) : Dev :=
  let u := c.f 4 1 0
  let v := d.stuUnit u
  let d := (d.begin r).setUnit u { v with stopping := true, stopRef := some r }
  match v.cur with
  | none => d.unitStop u
  | some i => if c.b 4 8 then (d.scopeCancel u i 0).unitDone u i else d

/-- STU_UNIT_STOP (R228). -/
def execStuUnitStop (r : CmdRef) (s : State) : Outcome State Fault Refusal :=
  lift (runCmd specUnitStop r (unitStopCmd r)) s

/-- Bytes that a buffer of a target must hold (R240). -/
def stuLen (t : Nat) : Nat := if t < 5 then 145472 else 1572928

/-- Modes of STU_BUFFER by target (R244). -/
def Dev.stuBufMode (d : Dev) (t : Nat) : Bool :=
  match d.boot.mode with
  | .capture | .playback => true
  | .analyser => decide (4 ≤ t)
  | .generator => decide (5 ≤ t)
  | _ => false

def specStuBuffer : CmdSpec := {
  beside := sameIn 3 0
  cls := 0x03, opc := 0x03
  offs := fun d c => modeOff d.stuMode ++ dw1Offs c false
    ++ resOffs c [(4, 3, 0), (4, 8, 8), (5, 31, 0), (6, 31, 0), (7, 31, 0)]
    ++ off 4 0 (decide (6 < c.f 4 3 0) || !d.stuBufMode (c.f 4 3 0))
    ++ off 5 0 (c.q 5 % 64 != 0 || (c.b 4 8 && d.devBad (c.q 5) (c.w 7)))
    ++ off 7 0 (decide (c.w 7 < stuLen (c.f 4 3 0))) }

/-- STU_BUFFER (R240). -/
def execStuBuffer (r : CmdRef) (s : State) : Outcome State Fault Refusal :=
  lift (runCmd specStuBuffer r fun c d =>
    let t := c.f 4 3 0
    let bs := SMap.get [] d.stu.bufs t
    if bs.length < 16 then
      let b : Buf := { ref := r, a0 := c.q 5, dev := c.b 4 8, len := c.w 7 }
      let d := d.begin r
      { d with stu := { d.stu with bufs := SMap.put [] d.stu.bufs t (bs ++ [b]) } }
    else d) s

end Sys2Proof.Machine
end

