-- ==== Sys2Proof/Machine/Spk.lean ====
section
/-! DEFINITION. A sprocket at work: configuration, frame starts, tokens, delivery and stopping (R206 to R223). -/

namespace Sys2Proof.Machine

open Host

/-! ## Configuration -/

/-- A sprocket's settings, from a function that gives its registers by offset (Tables 7-4 and 7-5). -/
structure SpkCfg where
  kind : Nat
  id : Nat
  dest : Nat
  destId : Nat
  prot : Bool
  pace : Bool
  out : OutFmt
  phase : Nat
  m : Nat
  n : Nat
  stride : Nat
  num : Nat
  den : Nat
  group : Nat
  pt : Nat

def spkCfg (g : Nat → Nat) : SpkCfg := {
  kind := bitsOf (g 0) 2 0, id := bitsOf (g 0) 6 4, dest := bitsOf (g 0) 10 8, destId := bitsOf (g 0) 13 12
  prot := (g 0).testBit 16, pace := (g 0).testBit 17
  out := { w := bitsOf (g 4) 13 0 + 1, h := bitsOf (g 4) 29 16 + 1, fmt := bitsOf (g 8) 3 0, bits := bitsOf (g 8) 8 4,
           full := (g 8).testBit 9, ycc := bitsOf (g 8) 11 10 }
  phase := bitsOf (g 12) 20 16, m := bitsOf (g 12) 12 8, n := bitsOf (g 12) 4 0, stride := g 16, num := g 20, den := g 24
  group := g 32, pt := bitsOf (g 44) 6 0 }

/-- Settings in force for a running sprocket. -/
def Dev.skc (d : Dev) (n : Nat) : SpkCfg := spkCfg fun o => (SMap.get 0 (d.spkOf n).latched o).toNat

/-- Settings of a frame in hand. -/
def frameSkc (f : SpkFrame) : SpkCfg := spkCfg fun o => (SMap.get 0 f.latched o).toNat

/-- Output format: a raster's slot layout for DEST 3, whatever FORMAT says (R350). -/
def Dev.spkFmt (d : Dev) (c : SpkCfg) : OutFmt := if c.dest = 3 then rasterFmt (d.rcfg c.destId) else c.out

def Dev.modSpk (d : Dev) (n : Nat) (f : Spk → Spk) : Dev := d.setSpk n (f (d.spkOf n))

/-- The sprocket's engine is down or in reset (Table 19-1). -/
def Dev.spkDown (d : Dev) (n : Nat) : Bool := d.engDown (0x18 + n) (19 + n)

/-- BAR0 offset of counter `i` of sprocket `n`: 0 FRAMES_OUT, 1 DROP_SHED, 2 DROP_STALL, 3 DROP_NO_BUFFER, 4 DROP_LINK. -/
def spkCtr (n i : Nat) : Nat := 0x41060 + 0x100 * n + 4 * i

/-- R214. -/
def keptFrame (c : SpkCfg) (i : Nat) : Bool := decide ((i + c.phase) * c.m % c.n < c.m)

/-! ## ST 2110-20 (R217) -/

/-- What stands before a packet's payload: the MAC address of a multicast group is 01-00-5E and its low 23 bits. -/
def rtpHead (g : Nat → Nat) (seq stamp line offset : Nat) (marker : Bool) : RtpHead := {
  ip := g 32, mac := 0x01005E000000 + g 32 % 8388608, srcPort := bitsOf (g 36) 31 16, dstPort := bitsOf (g 36) 15 0
  ttl := bitsOf (g 44) 23 16, dscp := bitsOf (g 44) 13 8, ssrc := g 40, pt := bitsOf (g 44) 6 0
  seq := seq, stamp := stamp, marker := marker, line := line, offset := offset }

/-- Bits of a value, most significant first, appended below `a`. -/
def beJoin (w a v : Nat) : Nat := a * 2 ^ w + v % 2 ^ w

/-- Bytes of a number of `n` bytes, most significant first. -/
def beBytes (n v : Nat) : List Byte := (leBytes n v).reverse

/-- Pixels in a pgroup and its bytes, by sampling and depth: PRESUMED from SMPTE ST 2110-20 (log entry 22). -/
def pgroupOf (rgb : Bool) (bits : Nat) : Nat × Nat :=
  if !rgb then (2, bits / 2) else if bits = 10 then (4, 15) else (2, 9)

/-- The bytes of a line: Cb, Y0, Cr, Y1 of each pair, or R, G, B of each pixel, most significant bit first; a last
pgroup that the line does not fill ends in zeros (log entry 22). -/
def lineBytes (rgb : Bool) (bits : Nat) (row : List (Nat × Nat × Nat)) : List Byte :=
  let vs := if rgb then row.flatMap fun p => [p.1, p.2.1, p.2.2] else
    row.zipIdx.flatMap fun e => if e.2 % 2 = 0 then [e.1.2.1, e.1.1, e.1.2.2] else [e.1.1]
  let n := if rgb then 3 * (pgroupOf rgb bits).1 else 4
  let vs := vs ++ List.replicate ((n - vs.length % n) % n) 0
  beBytes (ceilDiv (vs.length * bits) 8) (vs.foldl (beJoin bits) 0)

/-- Split into parts of `n`, at most `k` of them. -/
def partsOf (n : Nat) : Nat → List Byte → List (List Byte)
  | 0, _ => []
  | k + 1, l => if l.isEmpty then [] else l.take n :: partsOf n k (l.drop n)

/-- RTP timestamp of an exposure start. -/
def rtpStamp (t : Nat) : Nat := t * 90000 / tSec % two32

/-- The packets of a picture leave: whole pgroups of a line, at most 1,200 bytes, the marker on the last. -/
def Dev.sendPicture (d : Dev) (n : Nat) (f : SpkFrame) (o : OutFmt) (port : Nat) : Dev :=
  let rgb := o.ycc == 0
  let pg := pgroupOf rgb o.bits
  let parts := (rangeFrom 0 o.h).flatMap fun y =>
    let row := (rangeFrom 0 o.w).map fun x => SMap.get (0, 0, 0) f.codes (siteKey x y)
    (partsOf (1200 / pg.2 * pg.2) (2 * o.w) (lineBytes rgb o.bits row)).zipIdx.map fun b =>
      (y, b.2 * (1200 / pg.2) * pg.1, b.1)
  let s := d.spkOf n
  let head := rtpHead fun k => (SMap.get 0 f.latched k).toNat
  let d := parts.zipIdx.foldl (fun d e =>
    d.netOut port (.st2110 n (head ((s.rtpSeq + e.2) % two32) (rtpStamp f.expStart) e.1.1 e.1.2.1
      (e.2 + 1 == parts.length)) e.1.2.2)) d
  d.setSpk n { s with rtpSeq := (s.rtpSeq + parts.length) % two32 }

/-! ## Stopping -/

/-- A memory frame's command completes; a decoder's buffer with what the decoder says of it, once the sprocket is done
with the frame, and with the status of a stop or reset that comes before (R282, Table 10-6). -/
def Dev.submitEnd (d : Dev) (s : Submit) (st res : Nat) : Dev :=
  match s.dec with
  | some p => if st = stSuccess then d.finish s.ref p.1 p.2 else d.finish s.ref st 0
  | none => d.finish s.ref st res

/-- SPK_SUBMIT_FRAMEs and buffers not yet taken complete ABORTED with all ones (R223); the sprocket is stopped, SPK0 no
longer the pilot's (R59). -/
def Dev.spkHalt (d : Dev) (n : Nat) : Dev :=
  let s := d.spkOf n
  let refs := s.bufs.map (·.ref) ++ s.restarts.map (·.ref) ++ s.applied
  let d := d.setSpk n { s with
    state := .stopped, stopping := false, stopRef := none, bufs := [], submits := [], restarts := [], applied := []
    arrivals := [], cur := none, latched := [], paceDue := false, held := false, shed := false, shedNow := false }
  let d := if n = 0 then { d with boot := { d.boot with pilot := none } } else d
  let d := s.submits.foldl (fun (d : Dev) m => d.submitEnd m stAborted ones64) d
  let d := (d.finishAll refs stAborted ones64).sweepFrames
  match s.stopRef with
  | some r => d.finish r stSuccess (s.lastDone.getD ones64)
  | none => d

/-- The frame in hand is over, delivered or not: a stop that waits takes effect. -/
def Dev.spkNext (d : Dev) (n : Nat) : Dev :=
  let d := d.modSpk n fun s => { s with cur := none, held := false }
  if (d.spkOf n).stopping then d.spkHalt n else d.sweepFrames

/-- A memory source's SPK_SUBMIT_FRAME completes once its frame is done with (R209). -/
def Dev.submitDone (d : Dev) (f : SpkFrame) (st res : Nat) : Dev :=
  match f.input with
  | .memory s => d.submitEnd s st res
  | _ => d

/-- The buffer of the frame in hand completes with its content undefined (R223). -/
def Dev.spkSpoil (d : Dev) (n st res : Nat) : Dev :=
  match (d.spkOf n).cur with
  | none => d
  | some f => match f.buf with
    | none => d
    | some b =>
      let o := (frameSkc f).out
      let undef := fun (d : Dev) p => d.undefBuf b.dev (if p = 0 then b.a0 else if p = 1 then b.a1 else b.a2)
        ((frameSkc f).stride * planeRows o p)
      let d := d.modSpk n fun s => { s with cur := some { f with buf := none } }
      ((rangeFrom 0 (fmtPlanes o.fmt)).foldl undef d).finish b.ref st res

/-- The frame in hand is abandoned (R219, R223): nothing is published; its buffer goes back to the head of the queue
(DEDUCED: "partial output is never completed"), or completes with `st`, as its SPK_SUBMIT_FRAME does. -/
def Dev.spkAbandon (d : Dev) (n : Nat) (st : Option (Nat × Nat)) : Dev :=
  match (d.spkOf n).cur with
  | none => d
  | some f =>
    let d := match f.buf, st with
      | some b, none => d.modSpk n fun s => { s with bufs := b :: s.bufs }
      | _, some e => d.spkSpoil n e.1 e.2
      | none, none => d
    let e := st.getD (stSuccess, f.index)
    ((d.submitDone f e.1 e.2).scopeDrop 0 n).spkNext n

/-! ## Frame start (R209, R214, R216, R219, R220, R222) -/

/-- The sprocket's destination takes a frame now (R209): a posted buffer, a port with link. -/
def Dev.spkAccepts (d : Dev) (n : Nat) : Bool :=
  let c := d.skc n
  if c.dest < 2 then !(d.spkOf n).bufs.isEmpty else c.dest != 4 || d.ethLink c.destId

/-- The next frame of the sprocket's source, and the sprocket after taking it. A memory frame waits until the sprocket
serves and its destination takes it, where decimation keeps it; its index is the one it is given, else that of the
source's previous frame, however given, plus 1 (Table 1-4, R209). -/
def Dev.spkTake (d : Dev) (n : Nat) : Option (SpkFrame × Spk) :=
  let s := d.spkOf n
  let c := d.skc n
  match c.kind with
  | 1 =>
    (d.rfe.frames.find? fun f => f.src == c.id && decide (s.fromIndex ≤ f.index)).map fun f =>
      ({ index := f.index, input := .live c.id, expStart := f.expStart, progId := f.prog.id },
       { s with fromIndex := f.index + 1 })
  | 2 =>
    if c.pace && c.dest == 3 && !s.paceDue then none
    else match s.submits with
      | [] => none
      | m :: ms =>
        let i := m.index.getD s.memIndex
        if d.spkDown n || (keptFrame c i && !d.spkAccepts n) then none
        else some ({ index := i, input := .memory m, expStart := d.now },
          { s with submits := ms, paceDue := false, memIndex := i + 1 })
  | 3 => match s.arrivals with
    | [] => none
    | f :: fs => if d.spkDown n then none else some ({ f with expStart := d.now }, { s with arrivals := fs })
  | _ => match s.arrivals with
    | [] => none
    | f :: fs => some (f, { s with arrivals := fs })

/-- Words of an SPK_RESTART block (Table 7-6). -/
def spkWords (blk : List Byte) : SMap Word :=
  (rangeFrom 0 12).foldl (fun m i => SMap.put 0 m (4 * i) (BitVec.ofNat 32 (bn blk (4 * i) 4))) []

/-- The sets that wait come into force, the last one prevailing (R221). Under another source nothing of the old one is
taken any more, and frames of a live one from its next on. -/
def Dev.spkRestarts (d : Dev) (n : Nat) : Dev :=
  let s := d.spkOf n
  match s.restarts.getLast? with
  | none => d
  | some b =>
    let l := spkWords b.bytes
    let old := d.skc n
    let new := spkCfg fun o => (SMap.get 0 l o).toNat
    let same := new.kind == old.kind && new.id == old.id
    d.setSpk n { s with
      latched := l, restarts := [], applied := s.applied ++ s.restarts.map (·.ref)
      fromIndex := if same then s.fromIndex else if new.kind = 1 then d.nextIndex new.id else 0
      arrivals := if same then s.arrivals else [] }

/-- The SPK_RESTARTs of the set in force complete with the first frame under it. -/
def Dev.spkApplied (d : Dev) (n i : Nat) : Dev :=
  let rs := (d.spkOf n).applied
  (d.modSpk n fun s => { s with applied := [] }).finishAll rs stSuccess i

/-- A kept frame that the sprocket drops at its start: counted, and a memory frame is done with. -/
def Dev.spkDrop (d : Dev) (n : Nat) (f : SpkFrame) (ctr : Nat) : Dev :=
  ((d.count (spkCtr n ctr) 1).submitDone f stSuccess f.index).sweepFrames

/-- A kept frame begins, with a posted buffer where the destination is memory. -/
def Dev.spkBegin (d : Dev) (n : Nat) (f : SpkFrame) : Dev :=
  let s := d.spkOf n
  let c := d.skc n
  let f := { f with path := s.path, luts := s.luts, latched := s.latched }
  if c.dest < 2 then
    match s.bufs with
    | [] => d.spkDrop n f 3
    | b :: bs => (d.setSpk n { s with bufs := bs, cur := some { f with buf := some b } }).scopeBegin 0 n f.index
  else if c.dest = 4 ∧ !d.ethLink c.destId then d.spkDrop n f 4
  else (d.setSpk n { s with cur := some f }).scopeBegin 0 n f.index

/-- A frame start of the source. While the sprocket is down, its blocks wait and a kept frame that a live source or an
SDI input brings is a stall (R219, R363, R484). A set that waits takes force with it first, unless a raster is fed (R221),
and then the frame is the new source's. -/
def Dev.spkFrameStart (d : Dev) (n : Nat) : Dev :=
  let s := d.spkOf n
  if s.state != .running || s.stopping || s.cur.isSome || (d.spkTake n).isNone then d else
  let d := if (d.skc n).dest = 3 then d else d.spkRestarts n
  match d.spkTake n with
  | none => d
  | some (f, s') =>
    let down := d.spkDown n
    let d := d.setSpk n { s' with shedNow := s'.shed }
    let d := if down then d else d.bindSpk n f.index
    let d := d.spkApplied n f.index
    let c := d.skc n
    if !keptFrame c f.index then (d.submitDone f stSuccess f.index).sweepFrames
    else if (d.spkOf n).shedNow then d.spkDrop n f 1
    else if down then d.spkDrop n f 2
    else d.spkBegin n f

/-- SPK_FRAME_START (R214). -/
def execSpkFrameStart (n : Fin 8) (s : State) : Outcome State Fault Refusal := lift (fun d => d.spkFrameStart n.val) s

/-- A pattern frame: at its rate, or one for each frame start of a pacing raster (R209). The generator is the
sprocket's own, and makes none while it is down. -/
def Dev.patternTick (d : Dev) (n : Nat) : Dev :=
  let s := d.spkOf n
  let c := d.skc n
  if s.state != .running || s.stopping || c.kind != 3 || d.spkDown n || (c.pace && c.dest == 3 && !s.paceDue) then d
  else d.setSpk n { s with
    paceDue := false, nextIndex := s.nextIndex + 1
    arrivals := s.arrivals ++ [{ index := s.nextIndex, input := .pattern, expStart := d.now }] }

/-- PATTERN_FRAME_TICK (R209). -/
def execPatternFrameTick (n : Fin 8) (s : State) : Outcome State Fault Refusal := lift (fun d => d.patternTick n.val) s

/-! ## Tokens -/

/-- Input that output row `y` needs has reached the sprocket: for a live source, CBE's rows. -/
def Dev.spkReady (d : Dev) (f : SpkFrame) (o : OutFmt) (y : Nat) : Bool :=
  match f.input with
  | .live s => match d.liveFrame s f.index with
    | none => true
    | some g => cbeRow g (lastRow (cropOf f.path (d.spkArea f)) o.h (if o.fmt = 4 then min (y + 1) (o.h - 1) else y))
  | _ => true

/-- Rows of a picture that hold no fill row of a SHORT frame (R227). -/
def Dev.picRows (d : Dev) (f : SpkFrame) (o : OutFmt) : Nat :=
  match f.input with
  | .live s => match d.liveFrame s f.index with
    | none => o.h
    | some g => ((rangeFrom 0 o.h).takeWhile fun y =>
        decide ((fwin g).y0 + lastRow (cropOf f.path (d.spkArea f)) o.h y < g.lines)).length
  | _ => o.h

/-- The frame as a scope sees it. -/
def Dev.spkPic (d : Dev) (f : SpkFrame) (o : OutFmt) : Pic := {
  w := o.w, h := o.h, bits := if o.fmt = 6 then 24 else o.bits, subX := fmtSub o.fmt, subY := o.fmt == 4
  rows := d.picRows f o, code := fun x y => SMap.get (0, 0, 0) f.codes (siteKey x y) }

/-- Write the planes of a whole picture into its buffer, rows STRIDE apart. -/
def Dev.writePlanes (d : Dev) (f : SpkFrame) (o : OutFmt) (stride : Nat) (b : Buf) : Dev :=
  let code := fun x y => SMap.get (0, 0, 0) f.codes (siteKey x y)
  (rangeFrom 0 (fmtPlanes o.fmt)).foldl (fun d p =>
    let a := if p = 0 then b.a0 else if p = 1 then b.a1 else b.a2
    (rangeFrom 0 (planeRows o p)).foldl (fun d y => d.writeBuf b.dev (a + stride * y) (packPlane o code p y)) d) d

/-- A whole frame is delivered (R216); one whose port has lost its link meanwhile is dropped (R217). -/
def Dev.spkDeliver (d : Dev) (n : Nat) (f : SpkFrame) : Dev :=
  let c := frameSkc f
  let o := d.spkFmt c
  if c.dest = 4 ∧ !d.ethLink c.destId then (d.count (spkCtr n 4) 1).spkAbandon n none else
  let d := match c.dest, f.buf with
    | 2, _ =>
      let b : EncBind := {
        index := f.index, expStart := f.expStart, progId := f.progId
        planes := planesOf o.fmt o.w o.h fun k x y => comp3 k (SMap.get (0, 0, 0) f.codes (siteKey x y)) }
      d.modSpk n fun s => { s with encOut := s.encOut ++ [(s.handle, b)] }
    | 3, _ => d.rasterPublish c.destId { serial := (f.writer.getD (0, 0)).1, index := f.index, slot := (f.writer.getD (0, 0)).2 }
    | 4, _ => d.sendPicture n f o c.destId
    | _, some b => (d.writePlanes f o c.stride b).finish b.ref stSuccess f.index
    | _, none => d
  let d := (d.count (spkCtr n 0) 1).scopeEnd 0 n f.index (d.spkPic f o) f.progId (frameSrc f) (d.spkFlags f) f.expStart
  let d := (d.modSpk n fun s => { s with lastDone := some f.index }).submitDone f stSuccess f.index
  d.spkNext n

/-- Codes of a token's pixels. -/
def Dev.tokenCodes (d : Dev) (f : SpkFrame) (o : OutFmt) (x y : Nat) : List (Nat × Nat × Nat) :=
  (rangeFrom x (min 8 (o.w - x))).map fun x => d.outCodes f o x y

/-- The sprocket cannot take or pass on the token: on a live source a protected one holds CBE back and an expendable one
abandons the frame, as any does an SDI frame; a memory or pattern frame waits (R209, R219, R353, R363). -/
def Dev.spkHeld (d : Dev) (n : Nat) (f : SpkFrame) : Dev :=
  let stall := (d.count (spkCtr n 2) 1).spkAbandon n none
  match f.input with
  | .live _ => if (frameSkc f).prot then d.modSpk n fun s => { s with held := true } else stall
  | .sdi _ _ _ _ => stall
  | _ => d

/-- The free values that the switched-on tables never loaded have used: 6 words, and filter bytes (log entry 21). -/
def spkDraws (f : SpkFrame) : Nat :=
  let none := fun t => (SMap.get [] f.luts t).isEmpty
  let words := (rangeFrom 0 3).any (fun k => (b8 f.path 10).testBit k && none k) || (b8 f.path 11 == 1 && none 3)
  let filters := (b8 f.path 8 == 2 && none 4) || (b8 f.path 9 == 2 && none 5)
  if filters then 1030 else if words then 6 else 0

/-- One token of the frame in hand; `outrun` names the scopes that fall behind it (R239). -/
def Dev.spkToken (d : Dev) (n : Nat) (accepted : Bool) (outrun : BitVec 2) : Dev :=
  match (d.spkOf n).cur with
  | none => d
  | some f =>
    let c := frameSkc f
    let o := d.spkFmt c
    let g := ceilDiv o.w 8
    let y := f.tok / g
    let x := f.tok % g * 8
    if d.spkDown n then d
    else if !d.spkReady f o y then d
    else
      let df := if c.dest = 3 ∧ f.writer.isNone then
          let d := d.rasterBegin c.destId f.index
          (d, { f with writer := (d.raster c.destId).writer.map fun w => (w.serial, w.slot) })
        else (d, f)
      let d := df.1.modSpk n fun s => { s with cur := some df.2 }
      let f := df.2
      let w := f.writer.getD (0, 0)
      if !accepted || (c.dest == 3 && !d.rasterMayWrite c.destId w.1 y) then d.spkHeld n f
      else
        let px := d.tokenCodes f o x y
        let codes := px.zipIdx.foldl (fun m e => SMap.put (0, 0, 0) m (siteKey (x + e.2) y) e.1) f.codes
        let f := { f with tok := f.tok + 1, codes := codes }
        let d := { d with free := d.free + spkDraws f }
        let d := if c.dest = 3 then d.rasterWrite c.destId w.1 w.2 x y px else d
        let d := (d.modSpk n fun s => { s with cur := some f, held := false }).scopeStall 0 n outrun
        if g * o.h ≤ f.tok then d.spkDeliver n f else d

/-- SPK_TOKEN (R206, R219). -/
def execSpkToken (n : Fin 8) (accepted : Bool) (outrun : BitVec 2) (s : State) : Outcome State Fault Refusal :=
  lift (fun d => d.spkToken n.val accepted outrun) s

end Sys2Proof.Machine
end

