-- ==== Sys2Proof/Machine/SpkCmd.lean ====
section
/-! DEFINITION. Class 0x02 commands of the sprockets (R210, R216, R217, R221 to R223, R250, R350, Tables 7-6 to 7-8). -/

namespace Sys2Proof.Machine

open Host

/-! ## Checks of a set (Table 7-5 CFG_ERR) -/

/-- A source is allowed in the mode (R207, R209, R214, R222). A decimation out of range counts as a source fault
(DEDUCED). -/
def Dev.spkSrcBad (d : Dev) (c : SpkCfg) : Bool :=
  let mode := d.boot.mode
  let kind := match c.kind with
    | 1 => decide (c.id ≤ 4) && (mode == .capture || mode == .playback || (mode == .analyser && c.id == 4))
    | 2 => true
    | 3 => (c.pace && c.dest == 3) || (c.num != 0 && c.den != 0 && decide (c.den ≤ 60 * c.num) && decide (c.num ≤ 400 * c.den))
    | 4 => decide (c.id ≤ 1)
    | _ => false
  !kind || !(decide (1 ≤ c.n) && decide (c.n ≤ 16) && decide (1 ≤ c.m) && decide (c.m ≤ c.n) && decide (c.phase < c.n))

/-- An encode session by handle. -/
def Dev.enc? (d : Dev) (h : Nat) : Option EncSession := SMap.get none d.codec.enc h

/-- The destination does not exist or does not take a sprocket (R216, R217). -/
def Dev.spkDestBad (d : Dev) (c : SpkCfg) (handle : Nat) : Bool :=
  match c.dest with
  | 0 | 1 => false
  | 2 => !(d.enc? handle).any (·.src)
  | 3 => !(d.raster c.destId).run
  | 4 => decide (1 < c.destId) || c.group / 268435456 != 14 || decide (c.pt < 96)
  | _ => true

/-- Formats of Table 7-2 with their constraints. -/
def fmtBad (o : OutFmt) : Bool :=
  (decide (6 < o.fmt) || (o.fmt != 6 && (decide (o.bits < 8) || decide (16 < o.bits))) || (o.fmt == 1 && o.bits != 10)
    || (fmtSub o.fmt && o.w % 2 == 1) || (o.fmt == 4 && o.h % 2 == 1)
    || (if fmtSub o.fmt then o.ycc == 0 || o.ycc == 3 else if o.fmt == 5 then o.ycc == 3 else o.ycc != 0))

/-- The format does not suit the destination (R217, R250, R350). A memory stride holds a row (DEDUCED). -/
def Dev.spkFmtBad (d : Dev) (c : SpkCfg) (handle : Nat) : Bool :=
  let o := c.out
  if c.dest = 3 then
    let r := d.rcfg c.destId
    o.ycc != rasterYcc r || o.full != r.full || o.bits != r.bits
  else fmtBad o || match c.dest with
    | 2 =>
      let b := ((d.enc? handle).map (·.block)).getD []
      !(match b8 b 4 with | 1 => o.fmt == 4 | 2 => o.fmt == 3 | _ => o.fmt == 5) || o.ycc == 0 || o.bits != b8 b 5
    | 4 => !((o.fmt == 2 && (o.bits == 8 || o.bits == 10 || o.bits == 12))
        || (o.fmt == 5 && o.ycc == 0 && (o.bits == 10 || o.bits == 12)))
    | _ => c.stride % 64 != 0 || decide (c.stride < fmtRow o.fmt o.w)

/-- An output length out of reach of a crop length (R210). -/
def scaleBad (crop out : Nat) : Bool := decide (out < ceilDiv crop 16) || decide (4 * crop < out)

/-- Input area of a source before its frames arrive: a live source's window, an SDI input's expected size. -/
def Dev.areaNow (d : Dev) (c : SpkCfg) : Option (Nat × Nat) :=
  match c.kind with
  | 1 => some ((d.win c.id).w, (d.win c.id).h)
  | 4 => some (sdiSize (d.sdiExpect c.id).fmt)
  | _ => none

/-- Indices and frames of the memory frames that wait, in the order they are taken (Table 1-4). -/
def submitIdx : Nat → List Submit → List (Nat × Submit)
  | _, [] => []
  | i, m :: ms => (m.index.getD i, m) :: submitIdx (m.index.getD i + 1) ms

/-- The memory frames that wait for sprocket `n`. -/
def Dev.queued (d : Dev) (n : Nat) : List (Nat × Submit) := submitIdx (d.spkOf n).memIndex (d.spkOf n).submits

/-- The index that a memory frame counted in next takes. -/
def Dev.memNext (d : Dev) (n : Nat) : Nat := ((d.queued n).getLast?.map (·.1 + 1)).getD (d.spkOf n).memIndex

/-- Crop of the path in effect for frame `i`: the last block that binds by then, else the one that holds (R210, R222). -/
def Dev.cropAt (d : Dev) (n i : Nat) (area : Nat × Nat) : Nat × Nat × Nat × Nat :=
  cropOf (lastBytes ((d.spkOf n).paths.filter (blkDue · i)) (d.spkOf n).path) area

/-- The first index from `i` that decimation keeps: `n` tries. -/
def firstKept (c : SpkCfg) : Nat → Nat → Nat
  | 0, i => i
  | n + 1, i => if keptFrame c i then i else firstKept c n (i + 1)

/-- Index of the first frame the sprocket will take, where it is known: of a live source that runs, a memory frame that
waits, the pattern generator, an SDI input that runs. -/
def Dev.spkFirst (d : Dev) (n : Nat) (c : SpkCfg) : Nat :=
  match c.kind with
  | 1 => if c.id = 4 ∨ (d.port c.id).state ≠ .stopped then firstKept c 16 (d.nextIndex c.id) else ones64
  | 2 => (((d.queued n).find? fun e => keptFrame c e.1).map (·.1)).getD ones64
  | 3 => firstKept c 16 (d.spkOf n).nextIndex
  | 4 => if (d.sdiIn c.id).run then firstKept c 16 (d.sdiIn c.id).nextIndex else ones64
  | _ => ones64

/-- A crop rectangle lies outside its area, or cannot be scaled to the output (R210). -/
def cropBad (o : OutFmt) (a : Nat × Nat) (r : Nat × Nat × Nat × Nat) : Bool :=
  decide (a.1 < r.1 + r.2.2.1) || decide (a.2 < r.2.1 + r.2.2.2) || scaleBad r.2.2.1 o.w || scaleBad r.2.2.2 o.h

/-- Frames that a set is held against: the memory frames that wait, else the first frame of the source with its area. -/
def Dev.areasNow (d : Dev) (n : Nat) (c : SpkCfg) : List (Nat × Nat × Nat) :=
  match c.kind with
  | 1 => [(d.nextIndex c.id, (d.win c.id).w, (d.win c.id).h)]
  | 2 => (d.queued n).map fun e => (e.1, e.2.w, e.2.h)
  | 4 => [((d.sdiIn c.id).nextIndex, sdiSize (d.sdiExpect c.id).fmt)]
  | _ => []

/-- Size or scale (R210, R250, R350). -/
def Dev.spkSizeBad (d : Dev) (n : Nat) (c : SpkCfg) (handle : Nat) : Bool :=
  let o := c.out
  (c.dest == 3 && (o.w != (d.rcfg c.destId).hact || o.h != (d.rcfg c.destId).vact))
    || (c.dest == 2 && (d.enc? handle).any fun e => o.w != bn e.block 8 2 + 1 || o.h != bn e.block 10 2 + 1)
    || (d.areasNow n c).any fun a => cropBad o a.2 (d.cropAt n a.1 a.2)

/-- Another running sprocket feeds the raster, the Ethernet port or the session (R216, R250). -/
def Dev.spkDestUsed (d : Dev) (n : Nat) (c : SpkCfg) (handle : Nat) : Bool :=
  (rangeFrom 0 8).any fun k =>
    let e := d.skc k
    k != n && (d.spkOf k).state == .running && e.dest == c.dest
      && ((decide (3 ≤ c.dest) && e.destId == c.destId) || (c.dest == 2 && (d.spkOf k).handle == handle))

/-- CFG_ERR of a set, 0 where every check passes. -/
def Dev.spkErr (d : Dev) (n : Nat) (c : SpkCfg) (handle : Nat) : Nat :=
  if d.spkSrcBad c then 1
  else if d.spkDestBad c handle then 2
  else if d.spkFmtBad c handle then 3
  else if d.spkSizeBad n c handle then 4
  else if d.spkDestUsed n c handle then 5
  else 0

/-! ## SPK_START (R221) -/

/-- Settings in the sprocket's registers. -/
def Dev.spkRegs (d : Dev) (n : Nat) : SpkCfg := spkCfg fun o => d.reg (0x41000 + 0x100 * n + o)

/-- Common offences of the sprocket commands (R222). -/
def Dev.spkOffs (d : Dev) (c : Cmd) (handle : Bool) (fields : List (Nat × Nat × Nat)) : List Offence :=
  modeOff d.boot.mode.working ++ dw1Offs c handle ++ resOffs c ((4, 2, 0) :: fields)

def specSpkStart : CmdSpec := {
  cls := 0x02, opc := 0x20
  feat := fun d c =>
    let k := d.spkRegs (c.f 4 2 0)
    (k.kind != 4 || d.feat 11) && (k.dest != 4 || d.feat 18)
  handle := fun d c => (d.spkRegs (c.f 4 2 0)).dest != 2 || (d.enc? c.handle).isSome
  offs := fun d c => d.spkOffs c ((d.spkRegs (c.f 4 2 0)).dest == 2) []
    ++ off 4 0 ((d.spkOf (c.f 4 2 0)).state == .running) }

/-- The registers of sprocket `n` as SPK_START latches them. -/
def Dev.spkLatch (d : Dev) (n : Nat) : SMap Word :=
  (rangeFrom 0 12).foldl (fun m i => SMap.put 0 m (4 * i) (BitVec.ofNat 32 (d.reg (0x41000 + 0x100 * n + 4 * i)))) []

/-- A set is in force from now on. -/
def Dev.spkRun (d : Dev) (n : Nat) (c : SpkCfg) (handle : Nat) (l : SMap Word) : Dev :=
  d.modSpk n fun s => { s with
    state := .running, cfgErr := 0, latched := l, handle := handle, fromIndex := if c.kind = 1 then d.nextIndex c.id else 0
    lastDone := none, shed := false, shedNow := false, stopping := false }

/-- The effect of SPK_START. -/
def spkStart (r : CmdRef) (c : Cmd) (d : Dev) : Dev :=
  let n := c.f 4 2 0
  let k := d.spkRegs n
  if d.engOff (0x18 + n) (19 + n) then d.finish r stEngineDown 0
  else if d.engDown (0x18 + n) (19 + n) then d
  else match d.spkErr n k c.handle with
    | 0 =>
      if k.dest = 4 ∧ !d.ethLink k.destId then d.finish r stLinkDown 0
      else (d.spkRun n k c.handle (d.spkLatch n)).finish r stSuccess (d.spkFirst n k)
    | e => (d.modSpk n fun s => { s with cfgErr := e }).setupFault r

/-- SPK_START (R221). -/
def execSpkStart (r : CmdRef) (s : State) : Outcome State Fault Refusal := lift (runCmd specSpkStart r (spkStart r)) s

/-! ## SPK_STOP (R223) -/

/-- The sprocket runs and is not stopping. -/
def Dev.spkRunning (d : Dev) (n : Nat) : Bool := (d.spkOf n).state == .running && !(d.spkOf n).stopping

def specSpkStop : CmdSpec := {
  cls := 0x02, opc := 0x21
  offs := fun d c => d.spkOffs c false [(4, 8, 8)] ++ off 4 0 (!d.spkRunning (c.f 4 2 0)) }

/-- Stop a sprocket: NOW 0 finishes the frame in hand, NOW 1 abandons it. -/
def Dev.spkStop (d : Dev) (n : Nat) (now : Bool) (ref : Option CmdRef) : Dev :=
  let d := d.modSpk n fun s => { s with stopping := true, stopRef := ref }
  if (d.spkOf n).cur.isNone then d.spkHalt n
  else if now then d.spkAbandon n (some (stAborted, ones64))
  else d

/-- SPK_STOP (R223). -/
def execSpkStop (r : CmdRef) (s : State) : Outcome State Fault Refusal :=
  lift (runCmd specSpkStop r fun c d => (d.begin r).spkStop (c.f 4 2 0) (c.b 4 8) (some r)) s

/-! ## SPK_RESTART (R221) -/

def specSpkRestart : CmdSpec := {
  beside := sameIn 2 0
  cls := 0x02, opc := 0x22
  offs := fun d c => d.spkOffs c false [(5, 31, 0), (6, 31, 0)] ++ off 4 0 (!d.spkRunning (c.f 4 2 0))
    ++ off 5 0 (c.q 5 % 64 != 0) }

/-- SW bits of the register at offset `o` of a sprocket's page. -/
def spkMask (o : Nat) : Nat := ((regAt (0x41000 + o)).map (·.sw)).getD 0

/-- Bytes of a register block of `n` words that are set outside their fields. -/
def blkReserved (mask : Nat → Nat) (n : Nat) (blk : List Byte) : List Nat :=
  (rangeFrom 0 64).flatMap fun k =>
    let m := if k < 4 * n then mask (k / 4 * 4) / 256 ^ (k % 4) % 256 else 0
    bad k (b8 blk k &&& (255 ^^^ m) != 0)

/-- The lowest byte of the register that a CFG_ERR code judges (DEDUCED from R519). -/
def errByte : Nat → List Nat
  | 0 => [] | 1 => [0] | 2 => [1] | 3 => [8] | 4 => [4] | _ => [1]

/-- Offending bytes of an SPK_RESTART block. -/
def Dev.restartBad (d : Dev) (n : Nat) (blk : List Byte) : List Nat :=
  let new := spkCfg fun o => bn blk o 4
  let old := d.skc n
  blkReserved spkMask 12 blk ++ bad 1 (new.dest != old.dest || new.destId != old.destId)
    ++ errByte (d.spkErr n new (d.spkOf n).handle)

/-- The row's checks with a block that names an SDI source, which needs SDI_IN (R56, R207). -/
def specSpkRestartTo (blk : List Byte) : CmdSpec :=
  { specSpkRestart with feat := fun d _ => bn (d.blockOf false 0 64 blk) 0 1 % 8 != 4 || d.feat 11 }

/-- The checks at the fetch, before the block is read: without SDI_IN the block decides first (R74). -/
def specSpkRestartFetch : CmdSpec :=
  { specSpkRestart with offs := fun d c => if d.feat 11 then specSpkRestart.offs d c else [] }

/-- SPK_RESTART (R221): waits for the frame start of its raster, or of its source where it feeds none (DEDUCED). -/
def execSpkRestart (r : CmdRef) (blk : List Byte) (s : State) : Outcome State Fault Refusal :=
  lift (runBlk (specSpkRestartTo blk) 5 (fun d c => d.restartBad (c.f 4 2 0) (d.blockOf false 0 64 blk)) r fun c d =>
    let b : PendBlk := { ref := r, bytes := d.blockOf false 0 64 blk }
    (d.begin r).modSpk (c.f 4 2 0) fun s => { s with restarts := s.restarts ++ [b] }) s

/-! ## SPK_SET_PATH and SPK_LOAD_LUT (R222) -/

def specSpkSetPath : CmdSpec := {
  beside := sameIn 2 0
  cls := 0x02, opc := 0x23
  offs := fun d c => d.spkOffs c false [(4, 9, 9), (5, 31, 0), (6, 31, 0), (7, 31, 0), (8, 31, 0)]
    ++ off 7 0 (c.q 7 % 64 != 0) }

/-- Settings that the sprocket runs with, or its registers while it is stopped. -/
def Dev.spkNow (d : Dev) (n : Nat) : SpkCfg := if (d.spkOf n).state = .running then d.skc n else d.spkRegs n

/-- Offending bytes of a path block that binds at `at?` (Table 7-7, R210): every frame that waits from there on, or the
source's frames, must hold its crop. -/
def Dev.pathBad (d : Dev) (n : Nat) (at? : Option Nat) (b : List Byte) : List Nat :=
  let c := d.spkNow n
  let area := ((d.areasNow n c).filter fun a => c.kind != 2 || at?.all fun i => decide (i ≤ a.1)).map (·.2)
  let x1 := bn b 0 2 + bn b 4 2 + 1
  let y1 := bn b 2 2 + bn b 6 2 + 1
  bad 0 (area.any fun a => decide (a.1 < x1)) ++ bad 2 (area.any fun a => decide (a.2 < y1))
    ++ bad 4 (c.kind != 3 && scaleBad (bn b 4 2 + 1) c.out.w) ++ bad 6 (c.kind != 3 && scaleBad (bn b 6 2 + 1) c.out.h)
    ++ bad 8 (decide (2 < b8 b 8)) ++ bad 9 (decide (2 < b8 b 9)) ++ bad 10 (decide (7 < b8 b 10))
    ++ bad 11 (decide (1 < b8 b 11)) ++ bad 12 (decide (6 < b8 b 12)) ++ bad 13 (decide (6 < b8 b 13))
    ++ bad 14 (decide (2 < b8 b 14)) ++ bad 128 (decide (5 < b8 b 128)) ++ bad 129 (decide (10 < b8 b 129))
    ++ ((rangeFrom 0 9).flatMap fun k => bad (19 + 4 * k) (b8 b (19 + 4 * k) != 0))
    ++ ((rangeFrom 0 7).flatMap fun k => bad (135 + 4 * k) (b8 b (135 + 4 * k) != 0))
    ++ resBytes b [(0, 15), (16, 36), (128, 2), (132, 40)]

/-- SPK_SET_PATH (R222): one of at most 8 pending blocks. -/
def execSpkSetPath (r : CmdRef) (blk : List Byte) (s : State) : Outcome State Fault Refusal :=
  lift (runBlk specSpkSetPath 7 (fun d c => d.pathBad (c.f 4 2 0) (atFrame c 5) (d.blockOf false 0 256 blk)) r fun c d =>
    let n := c.f 4 2 0
    if d.engOff (0x18 + n) (19 + n) then d.finish r stEngineDown 0
    else if (d.spkOf n).paths.length < 8 then
      let b : PendBlk := { ref := r, at? := atFrame c 5, bytes := d.blockOf false 0 256 blk }
      (d.begin r).modSpk n fun s => { s with paths := s.paths ++ [b] }
    else d) s

/-- Bytes of a sprocket's table (Table 7-6). -/
def spkTableLen : Nat → Nat
  | 0 | 1 | 2 => 16400
  | 3 => 431244
  | 4 => 1024
  | _ => 768

def specSpkLoadLut : CmdSpec := {
  beside := fun e c => sameIn 2 0 e c && sameIn 7 4 e c
  cls := 0x02, opc := 0x24
  offs := fun d c => d.spkOffs c false [(4, 9, 4), (5, 31, 0), (6, 31, 0), (7, 31, 0), (8, 31, 0)]
    ++ off 4 4 (decide (5 < c.f 4 7 4))
    ++ off 7 0 (c.q 7 % 64 != 0 || (c.b 4 8 && d.devBad (c.q 7) (spkTableLen (c.f 4 7 4)))) }

/-- Offending bytes of a table: a shaper record, reserved bytes of nodes, a filter phase that does not sum to 4,096. -/
def spkTableBad (t : Nat) (b : List Byte) : List Nat :=
  match t with
  | 0 | 1 | 2 => lut1Bad b 0
  | 3 => (rangeFrom 0 107811).flatMap fun k => bad (4 * k + 3) (b8 b (4 * k + 3) != 0)
  | _ =>
    let n := if t = 4 then 8 else 6
    (rangeFrom 0 64).flatMap fun p =>
      bad (2 * n * p) (((rangeFrom 0 n).map fun i => toSigned 16 (bn b (2 * (n * p + i)) 2)).foldl (· + ·) 0 != 4096)

/-- SPK_LOAD_LUT (R213, R222): at most 2 pending loads of a table. -/
def execSpkLoadLut (r : CmdRef) (blk : List Byte) (s : State) : Outcome State Fault Refusal :=
  lift (fun d => runBlk specSpkLoadLut 7
    (fun d c => spkTableBad (c.f 4 7 4) (d.blockOf (c.b 4 8) (c.q 7) (spkTableLen (c.f 4 7 4)) blk)) r (fun c d =>
    let n := c.f 4 2 0
    let t := c.f 4 7 4
    if d.engOff (0x18 + n) (19 + n) then d.finish r stEngineDown 0
    else if ((d.spkOf n).loads.filter (·.table == t)).length < 2 then
      let b : PendBlk := {
        ref := r, table := t, at? := atFrame c 5, bytes := d.blockOf (c.b 4 8) (c.q 7) (spkTableLen t) blk }
      (d.begin r).modSpk n fun s => { s with loads := s.loads ++ [b] }
    else d) d) s

/-! ## SPK_BUFFER and SPK_SUBMIT_FRAME (R209, R216) -/

/-- Plane `p` of a buffer at dword `i` is at fault: not aligned, outside device memory, or given for an unused plane. -/
def Dev.planeBad (d : Dev) (c : Cmd) (k : SpkCfg) (p : Nat) : Bool :=
  let a := c.q (5 + 2 * p)
  if p < fmtPlanes k.out.fmt then a % 64 != 0 || (k.dest == 0 && d.devBad a (k.stride * planeRows k.out p)) else a != 0

def specSpkBuffer : CmdSpec := {
  beside := sameIn 2 0
  cls := 0x02, opc := 0x25
  offs := fun d c =>
    let k := d.spkNow (c.f 4 2 0)
    d.spkOffs c false [(5, 31, 0), (6, 31, 0), (7, 31, 0), (8, 31, 0), (9, 31, 0), (10, 31, 0)]
      ++ off 4 0 (decide (1 < k.dest)) ++ off 5 0 (d.planeBad c k 0) ++ off 7 0 (d.planeBad c k 1)
      ++ off 9 0 (d.planeBad c k 2) }

/-- SPK_BUFFER (R216): up to 16 pending, filled in fetch order. -/
def execSpkBuffer (r : CmdRef) (s : State) : Outcome State Fault Refusal :=
  lift (runCmd specSpkBuffer r fun c d =>
    let n := c.f 4 2 0
    if d.engOff (0x18 + n) (19 + n) then d.finish r stEngineDown 0
    else if (d.spkOf n).bufs.length < 16 then
      let b : Buf := { ref := r, a0 := c.q 5, a1 := c.q 7, a2 := c.q 9, dev := (d.spkNow n).dest == 0 }
      (d.begin r).modSpk n fun s => { s with bufs := s.bufs ++ [b] }
    else d) s

/-- The frame of a SPK_SUBMIT_FRAME entry. -/
def submitOf (c : Cmd) : Submit := {
  ref := c.ref, format := c.f 4 11 8, bits := c.f 4 20 16, full := c.b 4 21, addr := c.q 5, stride := c.w 7
  w := c.f 8 13 0 + 1, h := c.f 8 29 16 + 1, index := if c.q 9 = ones64 then none else some (c.q 9) }

/-- Rows that the planes of a submitted frame take, all STRIDE apart. -/
def submitRows (s : Submit) : Nat := if s.format = 4 then s.h + s.h / 2 else s.h * fmtPlanes s.format

def specSpkSubmitFrame : CmdSpec := {
  beside := sameIn 2 0
  cls := 0x02, opc := 0x26
  offs := fun d c =>
    let s := submitOf c
    let n := c.f 4 2 0
    let r := d.cropAt n (s.index.getD (d.memNext n)) (s.w, s.h)
    let o := (d.spkNow n).out
    let f : OutFmt := { w := s.w, h := s.h, fmt := s.format, bits := s.bits, full := s.full, ycc := 0 }
    d.spkOffs c false [(4, 11, 8), (4, 21, 16), (5, 31, 0), (6, 31, 0), (7, 31, 0), (8, 13, 0), (8, 29, 16), (9, 31, 0),
        (10, 31, 0)]
      ++ off 4 0 ((d.spkNow n).kind != 2) ++ off 4 8 (decide (6 < s.format))
      ++ off 4 16 (s.format != 6 && (decide (s.bits < 8) || decide (16 < s.bits) || (s.format == 1 && s.bits != 10)))
      ++ off 5 0 (c.q 5 % 64 != 0 || d.devBad (c.q 5) (s.stride * submitRows s))
      ++ off 7 0 (s.stride % 64 != 0 || decide (s.stride < fmtRow f.fmt f.w))
      ++ off 8 0 ((fmtSub s.format && s.w % 2 == 1) || decide (s.w < r.1 + r.2.2.1) || scaleBad r.2.2.1 o.w)
      ++ off 8 16 ((s.format == 4 && s.h % 2 == 1) || decide (s.h < r.2.1 + r.2.2.2) || scaleBad r.2.2.2 o.h) }

/-- SPK_SUBMIT_FRAME (R209): up to 4 pending. -/
def execSpkSubmitFrame (r : CmdRef) (s : State) : Outcome State Fault Refusal :=
  lift (runCmd specSpkSubmitFrame r fun c d =>
    let n := c.f 4 2 0
    if d.engOff (0x18 + n) (19 + n) then d.finish r stEngineDown 0
    else if (d.spkOf n).submits.length < 4 then
      (d.begin r).modSpk n fun s => { s with submits := s.submits ++ [submitOf c] }
    else d) s

end Sys2Proof.Machine
end

