-- ==== Sys2Proof/Machine/CodecCore.lean ====
section
/-! DEFINITION. What the encode and decode sessions share: engines, handles, workspace and admission (R97, R246 to R248,
R253, R272, R275, R277). -/

namespace Sys2Proof.Machine

open Host

/-! ## Engines (Table 19-1) -/

/-- Some PXE slice, some ENE slice can work. -/
def Dev.pxeUp (d : Dev) : Bool := (rangeFrom 0 4).any fun i => !d.engDown (0x28 + i) (28 + i)
def Dev.eneUp (d : Dev) : Bool := (rangeFrom 0 2).any fun i => !d.engDown (0x2C + i) (32 + i)

/-- A codec engine is Disabled (R272). -/
def Dev.codecOff (d : Dev) : Bool := (rangeFrom 0 6).any fun i => d.engOff (0x28 + i) (28 + i)

/-- No slice of PXE or of ENE is left to a job (R447; DEDUCED: a job needs one slice of each). -/
def Dev.codecGone (d : Dev) : Bool :=
  ((rangeFrom 0 4).all fun i => d.engOff (0x28 + i) (28 + i)) || (rangeFrom 0 2).all fun i => d.engOff (0x2C + i) (32 + i)

/-! ## Handles (R97, R268) -/

def Dev.dec? (d : Dev) (h : Nat) : Option DecSession := SMap.get none d.codec.dec h

/-- A session context that no session uses. -/
def Dev.freeHandle (d : Dev) (h : Nat) : Bool :=
  decide (1 ≤ h) && decide (h + 2 ^ d.fld 0x4C 12 8 < 2 ^ d.fld 0x4C 4 0) && (d.enc? h).isNone && (d.dec? h).isNone
    && (SMap.get none d.lse.sessions h).isNone && !d.lse.raw.any fun e => e.2.any (·.handle == h)

/-- A command fetched after the command that closes its session (DEDUCED: the handle is on its way out). -/
def Dev.tooLate (d : Dev) (closing : Option CmdRef) (c : Cmd) : Bool :=
  (closing.bind d.cmd?).any fun k => decide (k.num < c.num)

/-! ## Levels (R248): the limits are those of ITU-T H.265 and H.266, PRESUMED (log entry 23) -/

/-- Largest luma picture size and luma sample rate of a level: by the number 10·major + minor. -/
def levelLimit : Nat → Option (Nat × Nat)
  | 10 => some (36864, 552960)
  | 20 => some (122880, 3686400)
  | 21 => some (245760, 7372800)
  | 30 => some (552960, 16588800)
  | 31 => some (983040, 33177600)
  | 40 => some (2228224, 66846720)
  | 41 => some (2228224, 133693440)
  | 50 => some (8912896, 267386880)
  | 51 => some (8912896, 534773760)
  | 52 => some (8912896, 1069547520)
  | 60 => some (35651584, 1069547520)
  | 61 => some (35651584, 2139095040)
  | 62 => some (35651584, 4278190080)
  | _ => none

/-- The level that LEVEL_IDC names: HEVC 30 × level, VVC 16 × major + 3 × minor (Table 9-12). -/
def levelOfIdc (vvc : Bool) (idc : Nat) : Option (Nat × Nat) :=
  if vvc then (if idc % 16 % 3 = 0 ∧ idc ≤ 102 then levelLimit (idc / 16 * 10 + idc % 16 / 3) else none)
  else if idc % 3 = 0 ∧ idc ≤ 186 then levelLimit (idc / 3) else none

/-- The offending byte of LEVEL_IDC at byte `o`: an invalid value, or one valid for the other codec only. -/
def levelBad (vvc : Bool) (o idc : Nat) : List Nat :=
  if (levelOfIdc vvc idc).isSome then [] else if (levelOfIdc (!vvc) idc).isSome then [0] else [o]

/-- Picture size or dimension beyond the level. -/
def sizeOver (lim : Nat × Nat) (w h : Nat) : Bool :=
  decide (lim.1 < w * h) || decide (8 * lim.1 < w * w) || decide (8 * lim.1 < h * h)

/-- A rate outside 1/60 to 400 per second. -/
def rateBad (num den : Nat) : Bool := num == 0 || den == 0 || decide (den > 60 * num) || decide (num > 400 * den)

/-! ## Workspace (R253, R277) -/

/-- 2(1 + k) by chroma_format_idc. -/
def chroma2 : Nat → Nat
  | 1 => 3 | 2 => 4 | _ => 6

def roundUp (n v : Nat) : Nat := ceilDiv v n * n

/-- CTU size. -/
def ctuSize (codec : Nat) : Nat := if codec = 0 then 64 else 128

/-- A picture store with its motion field: P + M. -/
def storeBytes (w h chroma : Nat) : Nat :=
  let wp := roundUp 8 w
  let hp := roundUp 8 h
  wp * hp * chroma2 chroma + ceilDiv wp 16 * ceilDiv hp 16 * 16

/-- The syntax buffer S. -/
def syntaxBytes (codec w chroma ahead : Nat) : Nat :=
  (ahead + 1) * ceilDiv (roundUp 8 w) (ctuSize codec) * (ctuSize codec * ctuSize codec * chroma2 chroma + 1024)

/-- The history regions of the sources with HIST_EN (R172); MP's width is its window's (DEDUCED). -/
def Dev.histRanges (d : Dev) : List (Nat × Nat) :=
  ((rangeFrom 0 5).filter fun s => d.fld (0x3010C + 0x40 * s) 0 0 == 1).map fun s =>
    let v := d.winNow s
    let w := if s < 4 then (d.portGeom s).w else v.x0 + v.w
    (d.reg64 (0x30110 + 0x40 * s) / 4096 * 4096, histRegion w (d.spokesNow s).length v)

/-- Offences of WORK_ADDR and WORK_LEN at dwords 7 and 9 against `need` bytes. -/
def Dev.workOffs (d : Dev) (c : Cmd) (need : Nat) : List Offence :=
  let r := (c.q 7, 4096 * c.w 9)
  off 7 0 (c.q 7 % 4096 != 0 || d.devBad r.1 r.2 || overlaps r d.ctxRange || d.histRanges.any (overlaps r))
    ++ off 9 0 (decide (r.2 < need))

/-! ## Admission (R247, R275) -/

/-- A luma rate as a fraction, weighted 4/3 for 4:4:4. -/
def lumaRate (w h chroma num den : Nat) : Nat × Nat :=
  if chroma = 3 then (4 * w * h * num, 3 * den) else (w * h * num, den)

def fadd (a b : Nat × Nat) : Nat × Nat := (a.1 * b.2 + b.1 * a.2, a.2 * b.2)

/-- Declared peak of a rate-control block at byte `o`, in kbit/s (R247). -/
def rcPeak (b : List Byte) (o : Nat) : Nat := if b8 b o = 1 then bn b (o + 8) 4 else bn b (o + 12) 4

def encLuma (s : EncSession) : Nat × Nat :=
  lumaRate (bn s.block 12 2 + 1) (bn s.block 14 2 + 1) (b8 s.block 4) (bn s.block 20 4) (bn s.block 24 4)

def decLuma (s : DecSession) : Nat × Nat :=
  lumaRate (bn s.block 8 2 + 1) (bn s.block 10 2 + 1) (b8 s.block 3) (bn s.block 12 4) (bn s.block 16 4)

/-- Sum of the reserved luma rates of all open sessions. -/
def Dev.lumaSum (d : Dev) : Nat × Nat :=
  (d.codec.enc.filterMap fun e => e.2.map encLuma).foldl fadd
    ((d.codec.dec.filterMap fun e => e.2.map decLuma).foldl fadd (0, 1))

/-- Sum of the declared peaks, in kbit/s. -/
def Dev.peakSum (d : Dev) : Nat :=
  ((d.codec.enc.filterMap fun e => e.2.map fun s => rcPeak s.rc 0) ++
    d.codec.dec.filterMap fun e => e.2.map fun s => bn s.block 20 4).foldl (· + ·) 0

/-- Adding a luma rate exceeds 4.25 Gsample/s. -/
def Dev.lumaOver (d : Dev) (l : Nat × Nat) : Bool :=
  let t := fadd d.lumaSum l
  decide (4250000000 * t.2 < t.1)

/-- Adding a peak exceeds 2.4 Gbit/s, or the peak alone 2.0. -/
def Dev.peakOver (d : Dev) (k : Nat) : Bool := decide (2000000 < k) || decide (2400000 < d.peakSum + k)

/-- Modes of classes 0x04 and 0x05 (R268, R292), and at most 64 open sessions for an opening command. -/
def Dev.codecOffs (d : Dev) (c : Cmd) (fields : List (Nat × Nat × Nat)) : List Offence :=
  modeOff d.boot.mode.working ++ dw1Offs c true ++ resOffs c fields

/-- A fetched job of class `cls`, opcode 3, of the same session that comes before `c` and has not begun (R268, R279). -/
def Dev.jobAhead (d : Dev) (c : Cmd) : Bool :=
  d.hif.cmds.any fun e => e.cls == c.cls && e.opc == 3 && e.handle == c.handle && decide (e.num < c.num) && !e.begun

/-! ## ENE slices (R246, R275) -/

/-- The slices that code a picture. -/
def Dev.eneTaken (d : Dev) : List Nat := d.codec.enc.filterMap fun e => e.2.bind fun s => s.cur.bind (·.ene)

/-- A decode job that ENE could parse: first of its session, its session neither flushing nor waiting for a slot. -/
def Dev.decReady (d : Dev) (c : Cmd) : Bool :=
  c.cls == 5 && c.opc == 3 && !c.begun && d.mayBegin c && !d.jobAhead c
    && (d.dec? c.handle).any fun s => s.flushing.isNone && s.need != some c.num

/-- Fetch numbers of the pictures that are ready and have no slice yet: encode pictures with a row that PXE has begun,
and decode jobs. -/
def Dev.eneReady (d : Dev) : List Nat :=
  (d.codec.enc.filterMap fun e => e.2.bind fun s => s.cur.bind fun p =>
      if p.ene.isNone && decide (p.committed < p.begun) then (d.cmd? p.ref).map (·.num) else none)
    ++ (d.hif.cmds.filter d.decReady).map (·.num)

/-- The slice for the picture of the command that was fetched as `num`: the one it has; else one that serves and is free,
where no ready picture of any session was fetched earlier. -/
def Dev.eneFor (d : Dev) (num : Nat) (has : Option Nat) : Option Nat :=
  let serves := fun i => !d.engDown (0x2C + i) (32 + i)
  match has with
  | some i => if serves i then some i else none
  | none =>
    if d.eneReady.any (· < num) then none
    else (rangeFrom 0 2).find? fun i => serves i && !d.eneTaken.contains i

/-- Fetched jobs of a session that have not begun. -/
def Dev.jobsLeft (d : Dev) (cls h : Nat) : List CmdRef :=
  (d.hif.cmds.filter fun e => e.cls == cls && e.opc == 3 && e.handle == h && !e.begun).map (·.ref)

end Sys2Proof.Machine
end

