-- ==== Sys2Proof/Machine/Encode.lean ====
section
/-! DEFINITION. The encoder: sessions, jobs, rate control, row commit and floor coding (chapter 9). What PXE and ENE
choose inside the rules, and the bytes they emit, are operands and unknown content (log entry 12). -/

namespace Sys2Proof.Machine

open Host

def Dev.setEnc (d : Dev) (h : Nat) (v : Option EncSession) : Dev :=
  { d with codec := { d.codec with enc := SMap.put none d.codec.enc h v } }

def Dev.modEnc (d : Dev) (h : Nat) (f : EncSession → EncSession) : Dev :=
  match d.enc? h with
  | none => d
  | some s => d.setEnc h (some (f s))

/-! ## Geometry and reserves (R253, R257, R263) -/

def encCodec (s : EncSession) : Nat := b8 s.block 0
def encW (s : EncSession) : Nat := bn s.block 12 2 + 1
def encH (s : EncSession) : Nat := bn s.block 14 2 + 1
def encCols (s : EncSession) : Nat := ceilDiv (roundUp 8 (encW s)) (ctuSize (encCodec s))
def encRows (s : EncSession) : Nat := ceilDiv (roundUp 8 (encH s)) (ctuSize (encCodec s))

/-- Workspace of a session block (R253). -/
def encWork (b : List Byte) (ahead : Nat) : Nat :=
  let w := bn b 12 2 + 1
  let staged := b8 b 16 % 2 = 1 ∨ 2 ≤ b8 b 17
  (if b8 b 6 = 0 then 1 else b8 b 7 + 1) * storeBytes w (bn b 14 2 + 1) (b8 b 4) + syntaxBytes (b8 b 0) w (b8 b 4) ahead
    + (if staged then (bn b 8 2 + 1) * (bn b 10 2 + 1) * chroma2 (b8 b 4) else 0) + 65536

/-- Floor-coding bounds of Table 9-4: inter, and intra by chroma_format_idc. -/
def interFloor (codec : Nat) : Nat := if codec = 0 then 24 else 40
def intraFloor (codec chroma : Nat) : Nat := (if codec = 0 then 224 else 896) + (if codec = 0 then 64 else 256) * chroma

/-- CTUs of row `r` that take the intra bound: all of an IDR picture, the clean and refresh areas of picture `k` of a
sweep (R257, R263). -/
def intraCtus (s : EncSession) (idr : Bool) (sweep : Option Nat) (r : Nat) : Nat :=
  if idr then encCols s else
  match sweep with
  | none => 0
  | some k =>
    if b8 s.block 28 = 1 then min (encCols s) ((k + 1) * encCols s / b8 s.block 29)
    else if r < (k + 1) * encRows s / b8 s.block 29 then encCols s else 0

/-- The reserve of row `r`. -/
def rowReserve (s : EncSession) (idr : Bool) (sweep : Option Nat) (r : Nat) : Nat :=
  let n := intraCtus s idr sweep r
  n * intraFloor (encCodec s) (b8 s.block 4) + (encCols s - n) * interFloor (encCodec s)

/-- The reserve of rows `r` and after. -/
def reserveFrom (s : EncSession) (idr : Bool) (sweep : Option Nat) (r : Nat) : Nat :=
  ((rangeFrom r (encRows s - r)).map (rowReserve s idr sweep)).foldl (· + ·) 0

/-! ## Rate control (Table 9-3, R261, R262) -/

/-- 2^16. -/
abbrev one16 : Int := 65536

/-- Bits per picture of a bit rate in kbit/s, in 2^-16 bit, rounded once: halves upward. -/
def perPicture (kbps num den : Nat) : Int := roundDiv ((kbps * 1000 * 65536 * den : Nat) : Int) num

def rcMode (s : EncSession) : Nat := b8 s.rc 0
def rcCpb (s : EncSession) : Int := bn s.rc 16 4

/-- The session with a rate-control block in force. -/
def withRc (s : EncSession) (rc : List Byte) : EncSession :=
  let num := bn s.block 20 4
  let den := bn s.block 24 4
  { s with rc := rc, rate := perPicture (bn rc 8 4) num den, rateMax := perPicture (bn rc 12 4) num den }

/-- An ENC_SET_RC that waits comes into force: F and D carry over, clamped to the new CPB_BITS (R269). -/
def takeRc (s : EncSession) : EncSession :=
  match s.pendRc with
  | none => s
  | some rc =>
    let s := withRc { s with pendRc := none } rc
    let c := rcCpb s * one16
    { s with full := clampI 0 c s.full, debt := clampI (-c) c s.debt }

/-- C_k in bits, none for no cap. -/
def capOf (s : EncSession) : Option Nat :=
  if rcMode s = 0 then (if bn s.rc 24 4 = 0 then none else some (bn s.rc 24 4)) else some (s.full / one16).toNat

/-- The smaller of two caps. -/
def capMin (a : Option Nat) (b : Nat) : Option Nat := some (match a with | none => b | some a => min a b)

/-- C_eff (R262). -/
def capEff (s : EncSession) (outLen jobCap : Nat) : Option Nat :=
  let c := capMin (capOf s) (8 * (outLen - 32))
  if jobCap = 0 then c else capMin c jobCap

/-- The part of C_eff that the host gives (R263): OUT_LEN, the job's CAP_BITS, the CAP_BITS of mode 0. -/
def capHost (s : EncSession) (outLen jobCap : Nat) : Nat :=
  let c := 8 * (outLen - 32)
  let c := if jobCap = 0 then c else min c jobCap
  if rcMode s = 0 ∧ bn s.rc 24 4 ≠ 0 then min c (bn s.rc 24 4) else c

/-- T_k of modes 1 and 2 in whole bits, before TARGET_BITS and C_eff. -/
def rcTarget (s : EncSession) (idr : Bool) : Int :=
  let w : Int := if idr then b8 s.rc 5 else 16
  if rcMode s = 1 then
    let n := (4 * s.rate + (s.full - bn s.rc 28 4 * one16)) * w
    roundDiv (clampI ((s.full + s.rate - rcCpb s * one16) * 64) (s.full * 64) n) 4194304
  else
    let n := (16 * s.rate + s.debt) * w
    roundDiv (clampI (64 * s.rate) (s.full * 256) n) 16777216

/-- T_k as used (R262); none in CQP without TARGET_BITS, where the spec states no value. -/
def targetOf (s : EncSession) (idr : Bool) (cap : Option Nat) (jobTarget : Nat) : Option Nat :=
  let lim := fun t => match cap with | none => t | some c => min t c
  if jobTarget ≠ 0 then some (lim jobTarget)
  else if rcMode s = 0 then none
  else some (lim (rcTarget s idr).toNat)

/-- Filler that keeps the CBR model at or below CPB_BITS: the least b_k, in bits. -/
def cbrFloor (s : EncSession) : Nat :=
  if rcMode s = 1 then (-((rcCpb s * one16 - s.full - s.rate) / one16)).toNat else 0

/-- The model after a picture of `b` bits (Table 9-3). -/
def rcAfter (s : EncSession) (b : Nat) : EncSession :=
  let bits := (b : Int) * one16
  let c := rcCpb s * one16
  match rcMode s with
  | 1 => { s with full := s.full - bits + s.rate }
  | 2 => { s with full := min c (s.full - bits + s.rateMax), debt := clampI (-c) c (s.debt + s.rate - bits) }
  | _ => s

/-! ## Checks of the blocks (Tables 9-12 and 9-13, R248, R252, R263, R272) -/

/-- Chroma formats and depths of a profile (Table 9-2): largest chroma_format_idc, largest depth. -/
def profileOf (codec profile : Nat) : Option (Nat × Nat) :=
  match codec, profile with
  | 0, 0 => some (1, 8) | 0, 1 => some (1, 10) | 0, 2 => some (1, 12) | 0, 3 => some (2, 10) | 0, 4 => some (2, 12)
  | 0, 5 => some (3, 8) | 1, 0 => some (1, 10) | 1, 1 => some (3, 10)
  | _, _ => none

/-- A QP outside its range: a signed byte from −6 × (BITS − 8) up. -/
def qpBad (codec bits v : Nat) : Bool :=
  let q := toSigned 8 v
  decide (q < -(6 * ((bits : Int) - 8))) || decide ((if codec = 0 then 51 else 63) < q)

/-- Least INIT_FULL and bits per picture of modes 1 and 2 under a rate-control block (R263). -/
def rcNeed (s : EncSession) (rc : List Byte) : Nat :=
  Config.encHeaderMax (s.block.take 64 ++ rc ++ s.block.drop 128) + reserveFrom s true none 0

/-- Offending bytes of a rate-control block `b` for a session of block `s.block` (Table 9-13, R263). -/
def rcBad (s : EncSession) (b : List Byte) : List Nat :=
  let m := b8 b 0
  let qb := qpBad (encCodec s) (b8 s.block 5)
  let t := withRc s b
  let need := (rcNeed s b : Int) * one16
  bad 0 (decide (2 < m)) ++ bad 1 (m == 0 && qb (b8 b 1)) ++ bad 2 (m == 0 && qb (b8 b 2))
    ++ bad 3 (m != 0 && (qb (b8 b 3) || decide (toSigned 8 (b8 b 4) < toSigned 8 (b8 b 3))))
    ++ bad 4 (m != 0 && qb (b8 b 4)) ++ bad 5 (decide (b8 b 5 < 16)) ++ bad 6 (decide (1 < b8 b 6))
    ++ bad 8 (m == 1 && decide (t.rate < need)) ++ bad 12 (m == 2 && decide (t.rateMax < need))
    ++ bad 16 (decide (bn b 16 4 < bn b 20 4)) ++ bad 20 (m != 0 && decide (bn b 20 4 < rcNeed s b))
    ++ resBytes b [(0, 7), (8, 24)]

/-- Output length out of reach of an input length (R252). -/
def encScaleBad (i o : Nat) : Bool := decide (i < o) || decide (4 * o < i)

/-- Offending bytes of a session block but for its rate control (Table 9-12, R248, R252). -/
def blockBad (src : Bool) (b : List Byte) : List Nat :=
  let codec := b8 b 0
  let p := profileOf codec (b8 b 1)
  let ch := b8 b 4
  let iw := bn b 8 2 + 1
  let ih := bn b 10 2 + 1
  let ow := bn b 12 2 + 1
  let oh := bn b 14 2 + 1
  let turn := b8 b 16 % 2 == 1
  let lim := (levelOfIdc (codec == 1) (b8 b 2)).getD (0, 0)
  let l := lumaRate ow oh 1 (bn b 20 4) (bn b 24 4)
  bad 0 (decide (1 < codec) || (codec == 1 && decide (2 ≤ b8 b 1) && decide (b8 b 1 ≤ 5))
      || (p.any fun q => (decide (ch ≤ 3) && decide (q.1 < ch)) || (decide (b8 b 5 ≤ 12) && decide (q.2 < b8 b 5)))
      || (codec == 0 && b8 b 1 == 5 && b8 b 6 == 1) || (codec == 0 && (4 ≤ b8 b 32 && b8 b 32 ≤ 7 || b8 b 33 == 1)))
    ++ bad 1 (decide (5 < b8 b 1))
    ++ levelBad (codec == 1) 2 (b8 b 2)
    ++ bad 2 (sizeOver lim (roundUp 8 ow) (roundUp 8 oh) || decide (lim.2 * l.2 < l.1))
    ++ bad 3 (decide (1 < b8 b 3))
    ++ bad 4 (ch == 0 || decide (3 < ch) || (ch == 2 && turn) || (decide (ch ≤ 2) && (ow % 2 == 1 || iw % 2 == 1))
      || (ch == 1 && (oh % 2 == 1 || ih % 2 == 1))
      || (!src && b8 b 19 != (match ch with | 1 => 4 | 2 => 3 | _ => 5) && decide (3 ≤ b8 b 19) && decide (b8 b 19 ≤ 5)))
    ++ bad 5 (b8 b 5 != 8 && b8 b 5 != 10 && b8 b 5 != 12) ++ bad 6 (decide (1 < b8 b 6))
    ++ bad 7 (b8 b 6 == 1 && (b8 b 7 == 0 || decide (4 < b8 b 7)))
    ++ bad 8 (encScaleBad iw (if turn then oh else ow)) ++ bad 10 (encScaleBad ih (if turn then ow else oh))
    ++ bad 16 (decide (3 < b8 b 16)) ++ bad 17 (decide (3 < b8 b 17)) ++ bad 18 (decide (1 < b8 b 18))
    ++ bad 19 (!src && (decide (b8 b 19 < 3) || decide (5 < b8 b 19)))
    ++ bad 20 (rateBad (bn b 20 4) (bn b 24 4)) ++ bad 28 (decide (2 < b8 b 28))
    ++ bad 29 (decide (b8 b 29 < 2) || decide (64 < b8 b 29) || (bn b 30 2 != 0 && decide (bn b 30 2 < b8 b 29)))
    ++ bad 32 (decide (7 < b8 b 32)) ++ bad 33 (decide (1 < b8 b 33)) ++ bad 37 (decide (1 < b8 b 37))
    ++ resBytes b [(0, 20), (20, 18), (64, 64)]

/-- Bytes as numbers, for a key of Config.content. -/
def keyOf (bs : List Byte) : List Nat := bs.map (·.toNat)

/-- A session as ENC_OPEN makes it (R261). -/
def newEnc (c : Cmd) (b : List Byte) : EncSession :=
  withRc {
    src := c.b 4 0, block := b, workAddr := c.q 7, workLen := c.w 9, made := Config.carry (9 :: keyOf b)
    full := bn b 84 4 * one16 } ((b.drop 64).take 64)

/-! ## ENC_OPEN (R272) -/

def specEncOpen : CmdSpec := {
  cls := 0x04, opc := 0x01
  handle := fun d c => d.freeHandle c.handle
  offs := fun d c => d.codecOffs c [(4, 0, 0), (5, 31, 0), (6, 31, 0), (7, 31, 0), (8, 31, 0), (9, 31, 0)]
    ++ off 1 0 (decide (64 ≤ d.codecOpen)) ++ off 5 0 (c.q 5 % 64 != 0) ++ d.workOffs c 0 }

/-- The row's checks with the block that it names: HEVC needs HEVC_ENC, VVC VVC_ENC; another CODEC breaks Table 9-12 and
needs none (R268). -/
def specEncOpenOf (blk : List Byte) : CmdSpec :=
  { specEncOpen with feat := fun d _ =>
      let k := b8 (d.blockOf false 0 256 blk) 0
      (k != 0 || d.feat 0) && (k != 1 || d.feat 2) }

/-- The checks at the fetch, before the block is read: with a codec's feature missing the block decides first (R74). -/
def specEncOpenFetch : CmdSpec :=
  { specEncOpen with
    handle := fun d c => !(d.feat 0 && d.feat 2) || d.freeHandle c.handle
    offs := fun d c => if d.feat 0 && d.feat 2 then specEncOpen.offs d c else [] }

/-- Offences of an ENC_OPEN with its block: the block, its admission, and the workspace it needs. -/
def Dev.encOffs (d : Dev) (c : Cmd) (b : List Byte) : List Offence :=
  let s := newEnc c b
  let excess := bad 4 (d.lumaOver (encLuma s)) ++ bad 64 (d.peakOver (rcPeak s.rc 0))
  blkOffs 5 (blockBad s.src b ++ (rcBad s s.rc).map (· + 64) ++ excess)
    ++ d.workOffs c (encWork b (d.fld 0x60000 2 0))

/-- The effect of ENC_OPEN. -/
def encOpen (blk : List Byte) (r : CmdRef) (c : Cmd) (d : Dev) : Dev :=
  let b := d.blockOf false 0 256 blk
  match minOff (d.encOffs c b) with
  | some o => d.finish r stInvalidField o.result
  | none =>
    if d.codecOff then d.finish r stEngineDown 0
    else (d.setEnc c.handle (some (newEnc c b))).finish r stSuccess 0

/-- ENC_OPEN (R272). -/
def execEncOpen (r : CmdRef) (blk : List Byte) (s : State) : Outcome State Fault Refusal :=
  lift (runCmd (specEncOpenOf blk) r (encOpen blk r)) s

/-! ## ENC_CLOSE (R271) -/

/-- An open encode session that the command comes in time for. -/
def Dev.encLive (d : Dev) (c : Cmd) : Bool := (d.enc? c.handle).any fun s => !d.tooLate s.closing c

/-- A running sprocket feeds the session. -/
def Dev.encFed (d : Dev) (h : Nat) : Bool :=
  (rangeFrom 0 8).any fun n => (d.spkOf n).state == .running && (d.skc n).dest == 2 && (d.spkOf n).handle == h

def specEncClose : CmdSpec := {
  cls := 0x04, opc := 0x02
  handle := fun d c => d.encLive c
  offs := fun d c => d.codecOffs c [(4, 0, 0)] ++ off 1 0 (d.encFed c.handle) }

/-- Fetch numbers of the jobs that PXE has not begun: those in the session's queue, then those fetched whose row has not
run, but for those fetched after its ENC_CLOSE. -/
def Dev.encPend (d : Dev) (h : Nat) (s : EncSession) : List Nat :=
  s.jobs.map (·.num) ++ (d.hif.cmds.filter fun e =>
    e.cls == 4 && e.opc == 3 && e.handle == h && !e.begun && !d.tooLate s.closing e).map (·.num)

/-- Frames go to jobs in fetch order, each to the first that was fetched before it arrived: the frames that stay, and how
many have no job (R251). -/
def matchFrames : List Nat → List EncFrame → List EncFrame × Nat
  | _, [] => ([], 0)
  | [], f :: fs => ([], (f :: fs).length)
  | j :: js, f :: fs =>
    if j < f.num then let m := matchFrames js fs; (f :: m.1, m.2)
    else let m := matchFrames (j :: js) fs; (m.1, m.2 + 1)

/-- Frames without a pending job are discarded and counted (R251); a job that an ABORT ended has taken none (R270). -/
def Dev.encTidy (d : Dev) (h : Nat) : Dev :=
  match d.enc? h with
  | none => d
  | some s =>
    if s.frames.isEmpty then d
    else
      let m := matchFrames (d.encPend h s) s.frames
      (d.setEnc h (some { s with frames := m.1 })).count 0x60040 m.2

/-- A frame on its way to the encoder input of a session that closes is discarded there. -/
def Dev.encLost (d : Dev) (h : Nat) : Dev :=
  (rangeFrom 0 8).foldl (fun (d : Dev) n =>
    let l := (d.spkOf n).encOut
    if l.any (·.1 == h) then
      (d.modSpk n fun s => { s with encOut := s.encOut.filter (·.1 != h) }).count 0x60040 (l.filter (·.1 == h)).length
    else d) d

/-- Frames find their jobs; a session that is closing and has no job left closes: handle and workspace are free (R271). -/
def Dev.encSettle (d : Dev) (h : Nat) : Dev :=
  let d := d.encTidy h
  match d.enc? h with
  | none => d
  | some s => match s.closing with
    | none => d
    | some r =>
      if s.cur.isSome || !(d.encPend h s).isEmpty then d
      else ((d.encLost h).setEnc h none).finish r stSuccess (s.lastPic.getD ones32)

/-- The effect of ENC_CLOSE: NOW 1 aborts the jobs that have not begun. -/
def encClose (r : CmdRef) (c : Cmd) (d : Dev) : Dev :=
  let d := (d.begin r).modEnc c.handle fun s => { s with closing := some r }
  if !c.b 4 0 then d.encSettle c.handle
  else
    let refs := (((d.enc? c.handle).map fun s => s.jobs.map (·.ref)).getD []) ++ d.jobsLeft 4 c.handle
    let d := d.modEnc c.handle fun s => { s with jobs := [] }
    (d.finishAll refs stAborted 0).encSettle c.handle

/-- ENC_CLOSE (R271). -/
def execEncClose (r : CmdRef) (s : State) : Outcome State Fault Refusal :=
  lift (runCmd specEncClose r (encClose r)) s

/-! ## ENC_SET_RC (R269) -/

def specEncSetRc : CmdSpec := {
  cls := 0x04, opc := 0x04
  handle := fun d c => d.encLive c
  offs := fun d c => d.codecOffs c [(5, 31, 0), (6, 31, 0)] ++ off 5 0 (c.q 5 % 64 != 0) }

/-- Offending bytes of an ENC_SET_RC block. -/
def Dev.setRcBad (d : Dev) (c : Cmd) (b : List Byte) : List Nat :=
  match d.enc? c.handle with
  | none => []
  | some s => rcBad s b

/-- ENC_SET_RC (R269): its result is the number of the first picture that PXE has not begun. -/
def execEncSetRc (r : CmdRef) (blk : List Byte) (s : State) : Outcome State Fault Refusal :=
  lift (runBlk specEncSetRc 5 (fun d c => d.setRcBad c (d.blockOf false 0 64 blk)) r fun c d =>
    let n := ((d.enc? c.handle).map fun s => (s.picNum + if s.cur.isSome then 1 else 0) % two32).getD 0
    (d.modEnc c.handle fun s => { s with pendRc := some (d.blockOf false 0 64 blk) }).finish r stSuccess n) s

/-! ## ENC_PICTURE (R250, R251, R256, R270) -/

/-- Bytes of a memory frame of the session at a stride: planes contiguous at IN_STRIDE × rows (R250). -/
def encInBytes (s : EncSession) (stride : Nat) : Nat :=
  let h := bn s.block 10 2 + 1
  stride * (match b8 s.block 4 with | 1 => h + h / 2 | 2 => 2 * h | _ => 3 * h)

/-- Offences of the input of a job: of a memory source its address and stride, of a sprocket source 0 (Table 9-11). -/
def Dev.encInOffs (d : Dev) (c : Cmd) (s : EncSession) : List Offence :=
  if s.src then off 10 0 (c.q 10 != 0) ++ off 12 0 (c.w 12 != 0)
  else off 10 0 (c.q 10 % 64 != 0 || d.devBad (c.q 10) (encInBytes s (c.w 12)))
    ++ off 12 0 (c.w 12 % 64 != 0 || decide (c.w 12 < fmtRow (b8 s.block 19) (bn s.block 8 2 + 1)))

def specEncPicture : CmdSpec := {
  cls := 0x04, opc := 0x03
  handle := fun d c => d.encLive c
  offs := fun d c =>
    d.codecOffs c [(4, 2, 0), (4, 8, 8), (5, 31, 0), (6, 31, 0), (7, 31, 0), (8, 31, 0), (9, 31, 0), (10, 31, 0),
        (11, 31, 0), (12, 31, 0), (13, 31, 0), (14, 31, 0)]
      ++ off 5 0 (c.q 5 % 64 != 0 || (c.b 4 8 && d.devBad (c.q 5) (c.w 7))) ++ off 8 0 (c.q 8 % 64 != 0)
      ++ ((d.enc? c.handle).map (d.encInOffs c)).getD [] }

/-- The effect of ENC_PICTURE: the job joins the session's queue, in fetch order (R268). -/
def encPicture (headerBits : Nat) (r : CmdRef) (c : Cmd) (d : Dev) : Dev :=
  if d.codecGone then d.finish r stEngineDown 0
  else if d.jobAhead c then d
  else (d.begin r).modEnc c.handle fun s =>
    { s with jobs := s.jobs ++ [{ ref := r, num := c.num, headerBits := headerBits }] }

/-- ENC_PICTURE (R256). -/
def execEncPicture (r : CmdRef) (headerBits : Nat) (s : State) : Outcome State Fault Refusal :=
  lift (fun d =>
    let t := runCmd specEncPicture r (encPicture headerBits r) d
    if (t.cmd? r).isSome then t else (d.cmd? r).elim t fun c => t.encTidy c.handle) s

/-- A frame that a sprocket has delivered reaches the encoder input (R251): the first job fetched before it that has no
frame takes it, whether that job's turn under R72 has come or not; else it is discarded and counted. -/
def Dev.encArrival (d : Dev) (h index : Nat) : Dev :=
  let mine := fun (e : Nat × EncBind) => e.1 == h && e.2.index == index
  match (rangeFrom 0 8).find? fun n => (d.spkOf n).encOut.any mine with
  | none => d
  | some n => match (d.spkOf n).encOut.find? mine with
    | none => d
    | some e =>
      let d := d.modSpk n fun s => { s with encOut := s.encOut.erase e }
      (d.modEnc h fun s => { s with frames := s.frames ++ [{ bind := e.2, num := d.hif.fetchNum }] }).encTidy h

/-- ENCODER_FRAME_ARRIVAL (R251). -/
def execEncoderFrameArrival (handle index : Nat) (s : State) : Outcome State Fault Refusal :=
  lift (fun d => d.encArrival handle index) s

/-! ## The input stage (R249, R252) -/

/-- A plane turned clockwise by 90°. -/
def turnPlane (p : List (List Nat)) : List (List Nat) :=
  (rangeFrom 0 (p.headD []).length).map fun x => p.reverse.map (·.getD x 0)

/-- A plane turned clockwise by ROT × 90°, then flipped. -/
def orient (rot flip : Nat) (p : List (List Nat)) : List (List Nat) :=
  let p := if rot % 2 = 1 then turnPlane p else p
  let p := if rot / 2 = 1 then (p.map List.reverse).reverse else p
  let p := if flip.testBit 0 then p.map List.reverse else p
  if flip.testBit 1 then p.reverse else p

/-- One output of a pass: Σ c × s / 4,096 over taps at clamped indices, halves upward, clamped to the depth. -/
def polyCode (bits : Nat) (taps : List Int) (i : Int) (lo : Nat) (l : List Nat) : Nat :=
  let sum := (taps.zipIdx.map fun e => e.1 * ((l.getD (clampI 0 ((l.length : Int) - 1) (i + e.2 - lo)).toNat 0 : Nat) : Int)).foldl
    (· + ·) 0
  (clampI 0 (2 ^ bits - 1) (roundDiv sum 4096)).toNat

/-- A line scaled to `n` codes by the algorithm of R212: `a`, `lo` and `k` taps as R213 has them on the axis. -/
def scaleLine (bits set a lo k n : Nat) (l : List Nat) : List Nat :=
  (rangeFrom 0 n).map fun x =>
    let p := polyPos l.length n x
    polyCode bits (filterTaps set [] a lo k p.2) p.1 lo l

/-- A plane scaled to `w` × `h`: rows first. -/
def scalePlane (bits set w h : Nat) (p : List (List Nat)) : List (List Nat) :=
  let q := p.map (scaleLine bits set 4 3 8 w)
  let cols := (rangeFrom 0 w).map fun x => scaleLine bits set 3 2 6 h (q.map (·.getD x 0))
  (rangeFrom 0 h).map fun y => cols.map (·.getD y 0)

/-- Columns and rows added to a plane up to `w` × `h` repeat the last ones (R249). -/
def padPlane (w h : Nat) (p : List (List Nat)) : List (List Nat) :=
  let q := p.map fun l => l ++ List.replicate (w - l.length) (l.getLastD 0)
  q ++ List.replicate (h - q.length) (q.getLastD [])

/-- The picture that PXE codes, in its coded size, from the planes of the source (R249, R252). -/
def encInput (b : List Byte) (planes : List (List (List Nat))) : List (List (List Nat)) :=
  let w := bn b 12 2 + 1
  let h := bn b 14 2 + 1
  planes.zipIdx.map fun e =>
    let ax := if e.2 ≠ 0 ∧ b8 b 4 ≤ 2 then 2 else 1
    let ay := if e.2 ≠ 0 ∧ b8 b 4 = 1 then 2 else 1
    padPlane (roundUp 8 w / ax) (roundUp 8 h / ay)
      (scalePlane (b8 b 5) (b8 b 18) (w / ax) (h / ay) (orient (b8 b 16) (b8 b 17) e.1))

/-- The planes of a memory source's frame at IN_ADDR (R250). -/
def Dev.encMemory (d : Dev) (s : EncSession) (j : EncJob) (c : Cmd) : List (List (List Nat)) :=
  let w := bn s.block 8 2 + 1
  let h := bn s.block 10 2 + 1
  let m : Submit := {
    ref := j.ref, format := b8 s.block 19, bits := b8 s.block 5, full := false, addr := c.q 10, stride := c.w 12
    w := w, h := h, index := none }
  planesOf (b8 s.block 19) w h (memCode d.mem.lpddr m)

/-! ## Rows (R254, R255, R260, R263 to R266) -/

/-- What a picture is: IDR, forced by a reset, its number since the IDR or start of the stream, its place in a sweep
(R259, R260, R273). -/
def encKind (s : EncSession) (c : Cmd) : Bool × Bool × Nat × Option Nat :=
  let b := s.block
  let intra := b8 b 6 == 0
  let sweeps := !intra && b8 b 28 != 0
  let gdr := sweeps && encCodec s == 1 && b8 b 33 == 1
  let first := s.sinceIdr.isNone
  let idr := intra || s.forceIdr || c.b 4 0 || (first && !gdr)
  let n := (s.sinceIdr.map (· + 1)).getD 0
  let period := bn b 30 2
  if idr then (true, s.forceIdr, 0, none)
  else if sweeps && (c.b 4 1 || first || (period != 0 && n % period == 0)) then (false, false, n, some 0)
  else (false, false, n, match s.sweep with
    | none => none
    | some k => if k + 1 < b8 b 29 then some (k + 1) else none)

/-- Bits that the end of sequence adds after the rows (DEDUCED from R262: the cap holds with it). -/
def eosBits (c : Cmd) : Nat := if c.b 4 2 then 16 else 0

/-- INVALID_FIELD of a job whose CAP_BITS or OUT_LEN leaves too little room (R263): the dword of the cause. -/
def capFault (c : Cmd) (need : Nat) : Offence := { dw := if 8 * (c.w 7 - 32) < need then 7 else 13, bit := 0 }

/-- What the coding of a picture depends on: what the coder carries, the rate control in force, what the job asks, its
target and cap, and its input (R16). -/
def encKey (s : EncSession) (c : Cmd) (b : EncBind) (n : Nat) (idr forced : Bool) (sweep : Option Nat) (target : Nat)
    (cap : Option Nat) : List Nat :=
  [10, s.made, n, idr.toNat, forced.toNat, sweep.getD 255, c.f 4 2 0, target, cap.getD ones32] ++ keyOf s.rc
    ++ (encInput s.block b.planes).flatMap fun p => p.flatMap id

/-- The session's workspace while PXE works: references, motion fields, staged input and syntax buffer lie in it in a
form that the spec leaves open (R253). -/
def Dev.encWorked (d : Dev) (s : EncSession) : Dev := d.undefBuf true s.workAddr (4096 * s.workLen)

/-- PXE begins the first job of the session. A cap of Table 9-3 alone never stops it: R263 has ENC_OPEN and ENC_SET_RC
see to that. The frame of a job that fails so goes with it (DEDUCED: it was the job's, R251). -/
def Dev.encBegin (d : Dev) (h : Nat) (s : EncSession) (j : EncJob) (c : Cmd) : Dev :=
  let s := takeRc s
  let (idr, forced, n, sweep) := encKind s c
  let cap := capEff s (c.w 7) (c.w 13)
  let start := j.headerBits + eosBits c
  let need := start + reserveFrom s idr sweep 0
  let b := if s.src then (s.frames.head?.map (·.bind)).getD { index := s.picNum, expStart := d.now, progId := 0 }
    else { index := s.picNum, expStart := d.now, progId := 0, planes := d.encMemory s j c }
  let t := { s with jobs := s.jobs.drop 1, frames := s.frames.drop 1 }
  if capHost s (c.w 7) (c.w 13) < need then
    ((d.setEnc h (some t)).finish j.ref stInvalidField (capFault c need).result).encSettle h
  else
    let (free, d) := if (targetOf s idr cap (c.w 14)).isNone then d.draw else (0, d)
    let target := (targetOf s idr cap (c.w 14)).getD (free % two32)
    let p : EncPic := {
      ref := j.ref, bind := b, poc := n, idr := idr, forced := forced, sweep := sweep, target := target, cap := cap
      bits := start, begun := 1, key := encKey s c b n idr forced sweep target cap }
    (d.setEnc h (some { t with cur := some p })).encWorked s

/-- PXE begins the next row that run-ahead allows, or the first row of the next picture (R254). -/
def Dev.pxeRow (d : Dev) (h : Nat) : Dev :=
  match d.enc? h with
  | none => d
  | some s =>
    if !d.pxeUp then d else
    match s.cur with
    | some p =>
      if p.begun < encRows s ∧ p.begun ≤ p.committed + d.fld 0x60000 2 0 then
        (d.setEnc h (some { s with cur := some { p with begun := p.begun + 1 } })).encWorked s
      else d
    | none => match s.jobs with
      | [] => d
      | j :: _ => match d.cmd? j.ref with
        | none => d
        | some c => if s.src && !s.frames.head?.any (j.num < ·.num) then d else d.encBegin h s j c

/-- PXE_ROW_START (R254). -/
def execPxeRowStart (handle : Nat) (s : State) : Outcome State Fault Refusal := lift (fun d => d.pxeRow handle) s

/-! ## What PXE may choose (R249, R257, R258, R265, Table 9-3) -/

/-- b_k of a sweep in CTU columns, or rows (R257). -/
def sweepEdge (s : EncSession) (k : Nat) : Nat :=
  k * (if b8 s.block 28 = 1 then encCols s else encRows s) / b8 s.block 29

/-- The part of a picture in which a CTU lies: an IDR picture, the areas of a sweep picture, a picture outside a sweep. -/
inductive Area where
  | idr | clean | refresh | dirty | plain
deriving DecidableEq, Repr

def ctuArea (s : EncSession) (p : EncPic) (x y : Nat) : Area :=
  if p.idr then .idr else
  match p.sweep with
  | none => .plain
  | some k =>
    let c := if b8 s.block 28 = 1 then x else y
    if c < sweepEdge s k then .clean else if c < sweepEdge s (k + 1) then .refresh else .dirty

/-- Every CTU there is intra (R257, R263). -/
def Area.intra (a : Area) : Bool := a == .idr || a == .refresh

/-- Predictions there are held to the clean, refresh and safe areas (R258). -/
def Area.bound (a : Area) : Bool := a == .clean || a == .refresh

/-- Last luma column, or row, of the safe area of a reference: of an earlier picture of the same sweep (R257); −1 for
none. -/
def safeEnd (s : EncSession) (p : EncPic) (f : EncRef) : Int :=
  match p.sweep, f.sweep with
  | some k, some j =>
    if j < k ∧ f.poc + k = p.poc + j then
      ((sweepEdge s (j + 1) * ctuSize (encCodec s) : Nat) : Int) - (if encCodec s = 0 then 8 else 16) - 1
    else -1
  | _, _ => -1

/-- A prediction keeps R249 and, in the clean and refresh areas, R258. -/
def readOk (s : EncSession) (p : EncPic) (a : Area) (r : PredRead) : Bool :=
  let last : Int := if b8 s.block 28 = 1 then min r.x1 ((roundUp 8 (encW s) : Nat) - 1)
    else min r.y1 ((roundUp 8 (encH s) : Nat) - 1)
  decide (r.dx.natAbs ≤ 1024) && decide (r.dy.natAbs ≤ 512) && match r.ref with
    | none => !a.bound || decide (last < ((sweepEdge s (p.sweep.getD 0 + 1) * ctuSize (encCodec s) : Nat) : Int))
    | some i => decide (i < b8 s.block 7) && match s.refs[i]? with
      | none => false
      | some f => !a.bound || decide (last ≤ safeEnd s p f)

/-- The QP of a CTU that is no floor CTU (Table 9-3). -/
def ctuQpOk (s : EncSession) (a : Area) (qp : Int) : Bool :=
  if rcMode s = 0 then qp == toSigned 8 (b8 s.rc (if a.intra then 1 else 2))
  else decide (toSigned 8 (b8 s.rc 3) ≤ qp) && decide (qp ≤ toSigned 8 (b8 s.rc 4))

/-- The form of a CTU: free outside floor mode; in it, skip for an inter CTU and for one of the clean area whose merge
candidate 0 reads only the safe area, and DC for the rest (R265). -/
def formOk (s : EncSession) (p : EncPic) (a : Area) (floor : Bool) (c : CtuChoice) : Bool :=
  if !floor then c.form == .chosen && ctuQpOk s a c.qp
  else
    let skips := match a with
      | .clean => c.merge0.all (readOk s p a)
      | _ => !a.intra
    !c.sao && !c.alf && match c.form with
      | .chosen => false
      | .skip => skips && !c.intra && c.reads == c.merge0
      | .dc levels =>
        !skips && c.intra && c.qp == (if encCodec s = 0 then 51 else 63) && decide (levels.length ≤ 12)
          && levels.all fun v => decide (v.natAbs ≤ 255)

/-- A choice that PXE may make for the CTU at (x, y). -/
def ctuOk (s : EncSession) (p : EncPic) (floor : Bool) (x y : Nat) (c : CtuChoice) : Bool :=
  let a := ctuArea s p x y
  (!a.intra || c.intra) && (!c.intra || c.reads.all fun r => r.ref.isNone) && c.reads.all (readOk s p a)
    && (p.sweep.isNone || !c.temporal) && (!c.sao || !(b8 s.block 32).testBit 1)
    && (!c.alf || (encCodec s == 1 && !(b8 s.block 32).testBit 2)) && formOk s p a floor c

/-- What PXE may choose for row `y`. -/
def rowRight (s : EncSession) (p : EncPic) (floor : Bool) (y : Nat) (cs : List CtuChoice) : Bool :=
  cs.length == encCols s && cs.zipIdx.all fun e => ctuOk s p floor e.2 y e.1

/-- Rows of the picture that are in the reference store: final once ENE has committed them and the in-loop filters have
finished across their lower edge, which takes the row below (R255). -/
def storedRows (s : EncSession) (p : EncPic) : Nat := if p.committed = encRows s then p.committed else p.committed - 1

/-- A prediction and a choice as numbers, for a key of Config.content. -/
def readKey (r : PredRead) : List Nat :=
  (r.ref.elim 0 (· + 1)) :: [r.x0, r.y0, r.x1, r.y1, r.dx, r.dy].map (fromSigned 64)

def choiceKey (c : CtuChoice) : List Nat :=
  let form := match c.form with
    | .chosen => [0]
    | .skip => [1]
    | .dc l => 2 :: l.map (fromSigned 64)
  form ++ [c.intra.toNat, fromSigned 64 c.qp, c.temporal.toNat, c.sao.toNat, c.alf.toNat] ++ c.reads.flatMap readKey

/-- What a coded picture was made from: names its reconstruction and its bits (R16, R255). -/
def picKey (p : EncPic) : List Nat := p.key ++ p.rows.flatMap fun r => r.flatMap choiceKey

/-! ## The access unit (R248, R249, R256, R259) -/

/-- Parameter sets are due: an IDR picture or a sweep start. -/
def keyPic (p : EncPic) : Bool := p.idr || p.sweep == some 0

/-- What the parameter sets say: profile, level, tier, chroma format, depth, coded size, conformance window, structure,
references, loop filters, GDR, picture rate, HRD, colour (R248, R249, R259). -/
def paramKey (s : EncSession) : List Nat :=
  let b := s.block
  let w := roundUp 8 (encW s)
  let h := roundUp 8 (encH s)
  let inter := b8 b 6 == 1
  let hrd := b8 s.rc 6
  [b8 b 0, b8 b 1, b8 b 2, b8 b 3, b8 b 4, b8 b 5, w, h, w - encW s, h - encH s, b8 b 6, if inter then b8 b 7 else 0,
    b8 b 32, (inter && encCodec s == 1 && b8 b 28 != 0).toNat, bn b 20 4, bn b 24 4, hrd,
    if hrd = 1 then bn s.rc (if rcMode s = 1 then 8 else 12) 4 else 0, if hrd = 1 then bn s.rc 16 4 else 0]
    ++ keyOf ((b.drop 34).take 4)

/-- The SEI messages that are due, each by a number and its values: buffering period (the fullness), picture timing (one
picture per 1 / f), recovery point (recovery_poc_cnt, exact_match_flag, broken_link_flag). -/
def seiKey (s : EncSession) (p : EncPic) : List Nat :=
  let hrd := b8 s.rc 6 == 1
  (if hrd && keyPic p then [1, (s.full / one16).toNat] else []) ++ (if hrd then [2, bn s.block 24 4, bn s.block 20 4] else [])
    ++ (if encCodec s = 0 ∧ p.sweep = some 0 then [3, b8 s.block 29 - 1, 1, 0] else [])

/-- The NAL units of a picture in the order of R256, each by its kind (1 delimiter, 2 to 4 VPS, SPS, PPS, 5 SEI, 6 slice,
7 filler data, 8 end of sequence) and what its content depends on. The picture header of a VVC sweep start says
ph_recovery_poc_cnt (R259). -/
def auUnits (s : EncSession) (p : EncPic) (filler : Nat) (eos : Bool) : List (Nat × List Nat) :=
  let sets := if encCodec s = 0 then [2, 3, 4] else [3, 4]
  let gdr := if encCodec s = 1 ∧ p.sweep = some 0 then [1, b8 s.block 29 - 1] else [0]
  [(1, [encCodec s, p.idr.toNat])] ++ (if keyPic p then sets.map fun k => (k, paramKey s) else [])
    ++ (if (seiKey s p).isEmpty then [] else [(5, seiKey s p)]) ++ [(6, gdr ++ picKey p)]
    ++ (if 0 < filler then [(7, [filler])] else []) ++ (if eos then [(8, [encCodec s])] else [])

/-- NAL units of a picture's access unit (R256). -/
def encNals (s : EncSession) (p : EncPic) (filler : Nat) (eos : Bool) : Nat := (auUnits s p filler eos).length

/-- The access unit: a four-byte start code before every unit; `room` bytes without start codes for the units. The slice
takes what the others leave. -/
def auBytes (filler : Nat) (eos : Bool) : Nat → List (Nat × List Nat) → List Byte
  | _, [] => []
  | room, (k, key) :: us =>
    let tail := (if k < 7 then ceilDiv filler 8 else 0) + (if k < 8 ∧ eos then 2 else 0)
    let n := if k < 6 then min (room - tail) (Config.unitBytes (k :: key)) else room - tail
    [0, 0, 0, 1] ++ (rangeFrom 0 n).map (Config.content (11 :: k :: key)) ++ auBytes filler eos (room - n) us

/-! ## Row commit (R264, R266) -/

/-- QP_AVG: the mean over the CTUs of the rows that are not floor rows; none without such a row. -/
def qpAvg (p : EncPic) : Option Int :=
  let qs := ((p.rows.take (p.floorFrom.getD p.rows.length)).flatMap id).map (·.qp)
  if qs.isEmpty then none else some (roundDiv (qs.foldl (· + ·) 0) qs.length)

/-- KIND of Table 9-14. -/
def picKind (p : EncPic) : Nat := if p.idr then 0 else match p.sweep with | some 0 => 1 | some _ => 2 | none => 3

/-- The picture report (Table 9-14); `t` is the session after the picture. -/
def encReport (s t : EncSession) (p : EncPic) (eos : Bool) (bits filler : Nat) (qp : Int) : List Fld :=
  let floor := p.floorFrom.isSome
  [⟨0, 8, p.bind.index⟩, ⟨8, 4, s.picNum⟩, ⟨12, 4, p.poc⟩, ⟨16, 1, picKind p⟩,
   ⟨17, 1, floor.toNat + 2 * p.forced.toNat + 4 * (decide (0 < filler)).toNat + 8 * eos.toNat⟩,
   ⟨18, 1, fromSigned 8 qp⟩, ⟨19, 1, p.sweep.getD 255⟩, ⟨20, 4, p.target⟩, ⟨24, 4, p.cap.getD ones32⟩, ⟨28, 4, bits⟩,
   ⟨32, 4, filler⟩, ⟨36, 4, if rcMode s = 0 then 0 else (t.full / one16).toNat⟩,
   ⟨40, 2, p.floorFrom.getD 65535⟩, ⟨42, 2, encRows s - p.floorFrom.getD (encRows s)⟩,
   ⟨48, 12, ltsForm p.bind.expStart⟩, ⟨60, 4, p.bind.progId⟩]

/-- The reference store with the picture in it: all-intra needs its one slot, low-delay P keeps MAX_REFS, and an IDR
picture leaves none before it (R253, R255). -/
def refsAfter (s : EncSession) (p : EncPic) : List EncRef :=
  let f : EncRef := { poc := p.poc, sweep := p.sweep, made := Config.carry (13 :: picKey p) }
  (f :: if p.idr then [] else s.refs).take (if b8 s.block 6 = 0 then 1 else b8 s.block 7)

/-- The last row is committed: the access unit and the report are in place, the model is updated, the job completes
(R256, R261, R266). -/
def Dev.encDone (d : Dev) (h : Nat) (s : EncSession) (p : EncPic) (c : Cmd) (filler : Nat) : Dev :=
  let bits := p.bits + filler
  let eos := c.b 4 2
  let bytes := ceilDiv bits 8 + 4 * encNals s p filler eos
  let floor := encRows s - p.floorFrom.getD (encRows s)
  let t := { rcAfter s bits with
    cur := none, picNum := (s.picNum + 1) % two32, lastPic := some s.picNum, sinceIdr := some p.poc, sweep := p.sweep
    forceIdr := s.forceIdr && !p.forced, refs := refsAfter s p, made := Config.carry (12 :: picKey p) }
  let d := (d.setEnc h (some t)).writeBuf (c.b 4 8) (c.q 5)
    (auBytes filler eos (ceilDiv bits 8) (auUnits s p filler eos))
  let (free, d) := d.draw
  let qp := (qpAvg p).getD (toSigned 8 (free % 256))
  let d := if c.q 8 = 0 then d else d.writeFields false (c.q 8) 64 (encReport s t p eos bits filler qp)
  let d := if floor = 0 then d else (d.count 0x60044 1).count 0x60048 floor
  let d := if p.forced then d.count 0x6004C 1 else d
  let res := bytes % two32 + p.floorFrom.getD 65535 * 2 ^ 32 + floor * 2 ^ 48
  (d.finish p.ref (if floor = 0 then stSuccess else stRcFloor) res).encSettle h

/-- The filler that a last row brings suits the picture: none but in CBR and where it is needed (R261). Under a cap
below the need, the cap holds (R262). -/
def fillerOk (s : EncSession) (p : EncPic) (bits filler : Nat) : Bool :=
  if bits < cbrFloor s then
    (p.cap.all fun c => decide (bits + filler ≤ c))
      && (decide (cbrFloor s ≤ bits + filler) || p.cap.any fun c => decide (c < cbrFloor s))
  else filler == 0

/-- ENE has coded the next row of the session's picture into staging: it commits the row, or discards it and has it
and all later rows re-issued in floor mode (R264). A floor row is within its bounds (Table 9-4). The picture's slice
codes it; a picture that has none yet takes a free one in its turn (R246, R275). -/
def Dev.eneRow (d : Dev) (h : Nat) (row : RowBits) : Dev :=
  match d.enc? h with
  | none => d
  | some s => match s.cur with
    | none => d
    | some p => match d.cmd? p.ref with
      | none => d
      | some c => match d.eneFor c.num p.ene with
        | none => d
        | some i =>
          let r := p.committed
          let rest := reserveFrom s p.idr p.sweep (r + 1)
          let floor := p.floorFrom.any (· ≤ r)
          let last := r + 1 == encRows s
          if p.begun ≤ r || !rowRight s p floor r row.ctus then d
          else if floor && decide (rowReserve s p.idr p.sweep r < row.bits) then d
          else if !floor && p.cap.any (· < p.bits + row.bits + rest) then
            d.setEnc h (some { s with cur := some { p with floorFrom := some r, begun := r, ene := some i } })
          else if last && !fillerOk s p (p.bits + row.bits) row.filler then d
          else
            let p := { p with
              bits := p.bits + row.bits, committed := r + 1, rows := p.rows ++ [row.ctus], ene := some i }
            if last then d.encDone h s p c row.filler else d.setEnc h (some { s with cur := some p })

/-! ## Resets, aborts and disables (R270, R273, R485) -/

/-- The job that PXE has begun ends with `st`; its output and report are undefined (R273). -/
def Dev.encCut (d : Dev) (h st : Nat) : Dev :=
  match (d.enc? h).bind (·.cur) with
  | none => d
  | some p =>
    let c := (d.cmd? p.ref).getD { qid := 0, cid := 0, num := 0, dw := [], begun := true, since := 0 }
    let d := (d.modEnc h fun s => { s with cur := none }).undefBuf (c.b 4 8) (c.q 5) (c.w 7)
    let d := if c.q 8 = 0 then d else d.undefBuf false (c.q 8) 64
    (d.finish p.ref st 0).encSettle h

/-- An engine reset of PXE or ENE reaches every encode session: the begun job ends, the references are gone (R273). -/
def Dev.encReset (d : Dev) (st : Nat) : Dev :=
  (d.codec.enc.map (·.1)).foldl (fun d h =>
    (d.modEnc h fun s => { s with forceIdr := true, refs := [] }).encCut h st) d

/-- A queued job that PXE has not begun leaves its session (R270). -/
def Dev.encDrop (d : Dev) (r : CmdRef) : Option Nat :=
  (d.codec.enc.find? fun e => e.2.any fun s => s.jobs.any (·.ref == r)).map (·.1)

/-- Abort such a job. -/
def Dev.encAbort (d : Dev) (r : CmdRef) (st : Nat) : Dev :=
  match d.encDrop r with
  | none => d
  | some h => ((d.modEnc h fun s => { s with jobs := s.jobs.filter (·.ref != r) }).finish r st 0).encSettle h

end Sys2Proof.Machine
end

