-- ==== Sys2Proof/Machine/Decoder.lean ====
section
/-! DEFINITION. The decoder: sessions, jobs, the DPB, concealment and output (chapter 10). What the parser finds in an
access unit is an operand; the samples that the standards give for it are content that its data names (log entry 12). -/

namespace Sys2Proof.Machine

open Host

def Dev.setDec (d : Dev) (h : Nat) (v : Option DecSession) : Dev :=
  { d with codec := { d.codec with dec := SMap.put none d.codec.dec h v } }

def Dev.modDec (d : Dev) (h : Nat) (f : DecSession → DecSession) : Dev :=
  match d.dec? h with
  | none => d
  | some s => d.setDec h (some (f s))

/-! ## DEC_OPEN (R275, R277, R278) -/

/-- Workspace of a decode session block (R277). -/
def decWork (b : List Byte) (ahead : Nat) : Nat :=
  let w := bn b 8 2 + 1
  (b8 b 5 + 1) * storeBytes w (bn b 10 2 + 1) (b8 b 3) + syntaxBytes (b8 b 0) w (b8 b 3) ahead + 65536

/-- Offending bytes of a decode session block (Table 10-2, R278). -/
def Dev.decBad (d : Dev) (b : List Byte) : List Nat :=
  let w := bn b 8 2 + 1
  let h := bn b 10 2 + 1
  let num := bn b 12 4
  let den := bn b 16 4
  let lim := (levelOfIdc (b8 b 0 == 1) (b8 b 1)).getD (0, 0)
  bad 0 (decide (1 < b8 b 0)) ++ levelBad (b8 b 0 == 1) 1 (b8 b 1) ++ bad 1 (sizeOver lim w h)
    ++ bad 2 (decide (1 < b8 b 2))
    ++ bad 3 (b8 b 3 == 0 || decide (3 < b8 b 3) || (!rateBad num den && d.lumaOver (lumaRate w h (b8 b 3) num den)))
    ++ bad 4 (b8 b 4 != 8 && b8 b 4 != 10 && b8 b 4 != 12) ++ bad 5 (b8 b 5 == 0 || decide (16 < b8 b 5))
    ++ bad 6 (decide (7 < b8 b 6) && b8 b 6 != 255) ++ bad 12 (rateBad num den) ++ bad 20 (d.peakOver (bn b 20 4))
    ++ resBytes b [(0, 7), (8, 16)]

def specDecOpen : CmdSpec := {
  cls := 0x05, opc := 0x01
  handle := fun d c => d.freeHandle c.handle
  offs := fun d c => d.codecOffs c [(5, 31, 0), (6, 31, 0), (7, 31, 0), (8, 31, 0), (9, 31, 0)]
    ++ off 1 0 (decide (64 ≤ d.codecOpen)) ++ off 5 0 (c.q 5 % 64 != 0) ++ d.workOffs c 0 }

/-- The row's checks with the block that it names: HEVC needs HEVC_DEC, VVC VVC_DEC; another CODEC breaks Table 10-2 and
needs none (R292). -/
def specDecOpenOf (blk : List Byte) : CmdSpec :=
  { specDecOpen with feat := fun d _ =>
      let k := b8 (d.blockOf false 0 64 blk) 0
      (k != 0 || d.feat 1) && (k != 1 || d.feat 3) }

/-- The checks at the fetch, before the block is read: with a codec's feature missing the block decides first (R74). -/
def specDecOpenFetch : CmdSpec :=
  { specDecOpen with
    handle := fun d c => !(d.feat 1 && d.feat 3) || d.freeHandle c.handle
    offs := fun d c => if d.feat 1 && d.feat 3 then specDecOpen.offs d c else [] }

/-- A session as DEC_OPEN makes it. -/
def newDec (c : Cmd) (b : List Byte) : DecSession :=
  { block := b, workAddr := c.q 7, workLen := c.w 9, made := Config.carry (19 :: keyOf b) }

/-- The effect of DEC_OPEN. -/
def decOpen (blk : List Byte) (r : CmdRef) (c : Cmd) (d : Dev) : Dev :=
  let b := d.blockOf false 0 64 blk
  match minOff (blkOffs 5 (d.decBad b) ++ d.workOffs c (decWork b (d.fld 0x60000 2 0))) with
  | some o => d.finish r stInvalidField o.result
  | none =>
    if d.codecOff then d.finish r stEngineDown 0
    else (d.setDec c.handle (some (newDec c b))).finish r stSuccess 0

/-- DEC_OPEN (R278). -/
def execDecOpen (r : CmdRef) (blk : List Byte) (s : State) : Outcome State Fault Refusal :=
  lift (runCmd (specDecOpenOf blk) r (decOpen blk r)) s

/-! ## Output (R280 to R283) -/

/-- Pictures that wait for output. -/
def waiting (s : DecSession) : List DpbPic := s.dpb.filter (·.output)

/-- The first picture in output order: by sequence, then by POC. -/
def firstOut (s : DecSession) : Option DpbPic :=
  (waiting s).foldl (fun m p => match m with
    | none => some p
    | some q => if p.seq < q.seq ∨ (p.seq = q.seq ∧ p.poc < q.poc) then some p else some q) none

/-- Drop pictures that are neither references nor wait for output. -/
def prune (l : List DpbPic) : List DpbPic := l.filter fun p => p.isRef || p.output

/-- A fetched job waits for a slot of the session (R280); one that an ABORT ended leaves no trace (R289). -/
def Dev.decNeeds (d : Dev) (s : DecSession) : Bool := s.need.any fun n => d.hif.cmds.any (·.num == n)

/-- A picture is due for output (Annex C.5.2): the reorder or latency limit is passed, a later sequence has begun, the
next picture needs a slot, or the session flushes. -/
def outDue (s : DecSession) (drain needs : Bool) : Bool :=
  let w := waiting s
  !w.isEmpty && (s.flushing.isSome || drain || needs || decide (s.reorder < w.length)
    || w.any fun p => decide (p.seq < s.seq) || (s.latency != 0 && decide (s.latency ≤ p.age)))

/-- Format code of a picture by its chroma format (R280). -/
def decFmt (p : DpbPic) : Nat := match p.chroma with | 1 => 4 | 2 => 3 | _ => 5

/-- Rows of all planes. -/
def decRows (p : DpbPic) : Nat := match p.chroma with | 1 => p.h + p.h / 2 | 2 => 2 * p.h | _ => 3 * p.h

/-- Two bytes of content as a number. -/
def content16 (key : List Nat) (i : Nat) : Nat :=
  (Config.content key (2 * i)).toNat + 256 * (Config.content key (2 * i + 1)).toNat

/-- The sample of component `k` that stands at luma column `x` and row `y` of a decoded picture (R274, R284, R288). -/
def picSample (depth k x y : Nat) : PicSrc → Nat
  | .grey => 2 ^ (depth - 1)
  | .coded m => content16 [20, m, k, y] x % 2 ^ depth
  | .patched m ctb cols lost under =>
    if lost.contains (y / max 1 ctb * cols + x / max 1 ctb) then picSample depth k x y under
    else content16 [20, m, k, y] x % 2 ^ depth

/-- The picture as it is written: format of its chroma format, cropped to its conformance window, codes in 16-bit
containers (R215, R280). -/
def decFormat (p : DpbPic) : OutFmt := { w := p.w, h := p.h, fmt := decFmt p, bits := p.depth, full := p.full, ycc := 1 }

def decBytes (p : DpbPic) (stride : Nat) : List (Nat × List Byte) :=
  let o := decFormat p
  let code := fun x y => (picSample p.depth 0 (p.x0 + x) (p.y0 + y) p.src, picSample p.depth 1 (p.x0 + x) (p.y0 + y) p.src,
    picSample p.depth 2 (p.x0 + x) (p.y0 + y) p.src)
  (rangeFrom 0 (fmtPlanes o.fmt)).flatMap fun k =>
    let base := stride * (((rangeFrom 0 k).map (planeRows o)).foldl (· + ·) 0)
    (rangeFrom 0 (planeRows o k)).map fun y => (base + stride * y, packPlane o code k y)

/-- The sprocket of OUT_SPK that takes memory frames (R282). -/
def Dev.outSpk (d : Dev) (s : DecSession) : Option Nat :=
  let n := b8 s.block 6
  if n < 8 ∧ d.spkRunning n ∧ (d.skc n).kind = 2 then some n else none

/-- A DEC_FLUSH is over once no picture waits; the DPB then holds no references (R283). -/
def Dev.flushSettle (d : Dev) (h : Nat) : Dev :=
  match d.dec? h with
  | none => d
  | some s => match s.flushing with
    | some r =>
      if (waiting s).isEmpty then
        (d.setDec h (some { s with flushing := none, flushed := 0, dpb := [] })).finish r stSuccess s.flushed
      else d
    | none => d

/-- Jobs and flushes fetched before the DEC_CLOSE that waits. -/
def Dev.decEarly (d : Dev) (h : Nat) (s : DecSession) : Bool :=
  s.flushing.isSome || d.hif.cmds.any fun e => e.cls == 5 && (e.opc == 3 || e.opc == 5) && e.handle == h && !e.begun
    && !d.tooLate s.closing e

/-- DEC_OUTPUTs fetched before the DEC_CLOSE whose row has not run. -/
def Dev.bufsEarly (d : Dev) (h : Nat) (s : DecSession) : List CmdRef :=
  (d.hif.cmds.filter fun e => e.cls == 5 && e.opc == 4 && e.handle == h && !e.begun && !d.tooLate s.closing e).map (·.ref)

/-- The session without the first picture in output order. -/
def dropFirst (s : DecSession) : DecSession :=
  match firstOut s with
  | none => s
  | some p => { s with
      dpb := prune (updFirst (fun q => q.output && q.poc == p.poc && q.seq == p.seq) (fun q => { q with output := false }) s.dpb) }

/-- Pictures that are due and find no buffer are discarded as the session closes: `n` at most (R290). -/
def dropDue (drain : Bool) : Nat → DecSession → DecSession
  | 0, s => s
  | n + 1, s => if outDue s drain false then dropDue drain n (dropFirst s) else s

/-- A close that drains without a buffer left: what is due is discarded, and one picture more where a job needs its
slot. -/
def Dev.closeDrain (d : Dev) (h : Nat) : Dev :=
  match d.dec? h with
  | none => d
  | some s =>
    if s.drain && s.bufs.isEmpty && (d.bufsEarly h s).isEmpty then
      let t := dropDue (!d.decEarly h s) s.dpb.length s
      let t := if d.decNeeds s then { dropFirst t with need := none } else t
      (d.setDec h (some t)).flushSettle h
    else d

/-- A close that waits is over once no picture waits that a buffer could take; the buffers left complete ABORTED
(R290). -/
def Dev.closeSettle (d : Dev) (h : Nat) : Dev :=
  match d.dec? h with
  | none => d
  | some s => match s.closing with
    | none => d
    | some r =>
      if s.drain && (d.decEarly h s || !(waiting s).isEmpty) then d
      else ((d.setDec h none).finishAll (s.bufs.map (·.ref) ++ d.bufsEarly h s) stAborted 0).finish r stSuccess s.wrote

/-- What waits for the session settles. -/
def Dev.decSettle (d : Dev) (h : Nat) : Dev := ((d.flushSettle h).closeDrain h).closeSettle h

/-- A sprocket could take the picture as SPK_SUBMIT_FRAME would (R210). -/
def Dev.submitFits (d : Dev) (n : Nat) (p : DpbPic) : Bool :=
  let r := d.cropAt n (d.memNext n) (p.w, p.h)
  let o := (d.skc n).out
  !(decide (p.w < r.1 + r.2.2.1) || scaleBad r.2.2.1 o.w || decide (p.h < r.2.1 + r.2.2.2) || scaleBad r.2.2.2 o.h)

/-- Write the first picture in output order into the next buffer (R280 to R282, R285). -/
def Dev.decWrite (d : Dev) (h : Nat) (s : DecSession) (p : DpbPic) (b : Buf) : Dev :=
  let len := b.a1 * decRows p
  if b.a1 < fmtRow (decFmt p) p.w ∨ b.len < len then
    let o : Offence := { dw := if b.a1 < fmtRow (decFmt p) p.w then 7 else 8, bit := 0 }
    (d.setDec h (some { s with bufs := s.bufs.drop 1 })).finish b.ref stInvalidField o.result
  else
    let st := if p.tainted then stConcealed else stSuccess
    let res := s.outNum + fromSigned 32 p.poc * two32
    let spk := (d.outSpk s).filter fun n => d.submitFits n p
    if spk.any fun n => decide (4 ≤ (d.spkOf n).submits.length) then d else
    let t := { s with
      bufs := s.bufs.drop 1, outNum := (s.outNum + 1) % two32, need := none
      flushed := s.flushed + s.flushing.isSome.toNat, wrote := s.wrote + s.drain.toNat, dpb := (dropFirst s).dpb }
    let rows := decBytes p b.a1
    let d := rows.foldl (fun (d : Dev) e => d.writeBuf b.dev (b.a0 + e.1) e.2) (d.setDec h (some t))
    match spk with
    | some n =>
      let m : Submit := {
        ref := b.ref, format := decFmt p, bits := p.depth, full := p.full, addr := b.a0, stride := b.a1
        w := p.w, h := p.h, index := none, dec := some (st, res)
        seen := if b.dev then none else some (rows.foldl (fun l e => l ++ List.replicate (e.1 - l.length) 0 ++ e.2) []) }
      d.modSpk n fun v => { v with submits := v.submits ++ [m] }
    | none => d.finish b.ref st res

/-- One picture that is due leaves the DPB, where a buffer waits. -/
def Dev.decOut (d : Dev) (h : Nat) : Dev :=
  match d.dec? h with
  | none => d
  | some s => match firstOut s, s.bufs with
    | some p, b :: _ => if outDue s (s.drain && !d.decEarly h s) (d.decNeeds s) then (d.decWrite h s p b).decSettle h else d
    | _, _ => d

/-- DEC_PICTURE_OUTPUT (R280). -/
def execDecPictureOutput (handle : Nat) (s : State) : Outcome State Fault Refusal := lift (fun d => d.decOut handle) s

/-- An open decode session that the command comes in time for. -/
def Dev.decLive (d : Dev) (c : Cmd) : Bool := (d.dec? c.handle).any fun s => !d.tooLate s.closing c

def specDecOutput : CmdSpec := {
  beside := fun e c => e.handle == c.handle
  cls := 0x05, opc := 0x04
  handle := fun d c => d.decLive c
  offs := fun d c => d.codecOffs c [(4, 8, 8), (5, 31, 0), (6, 31, 0), (7, 31, 0), (8, 31, 0)]
    ++ off 5 0 (c.q 5 % 64 != 0 || (c.b 4 8 && d.devBad (c.q 5) (c.w 8))) ++ off 7 0 (c.w 7 % 64 != 0) }

/-- DEC_OUTPUT (R280): buffers are taken in fetch order. -/
def execDecOutput (r : CmdRef) (s : State) : Outcome State Fault Refusal :=
  lift (runCmd specDecOutput r fun c d =>
    let b : Buf := { ref := r, a0 := c.q 5, a1 := c.w 7, dev := c.b 4 8, len := c.w 8 }
    (d.begin r).modDec c.handle fun s => { s with bufs := s.bufs ++ [b] }) s

/-! ## DEC_DECODE (R279, R284 to R288) -/

/-- The first fault that decides on the picture: 0 for none and for code 8 (R287). -/
def auErr (a : AccessUnit) : Nat := if 1 ≤ a.errCode ∧ a.errCode ≤ 7 then a.errCode else 0

/-- The picture exceeds the session block (code 7 of Table 10-1): coded size, chroma format, depth, DPB. -/
def auOver (s : DecSession) (a : AccessUnit) : Bool :=
  let b := s.block
  decide (bn b 8 2 + 1 < a.codedW) || decide (bn b 10 2 + 1 < a.codedH) || decide (b8 b 3 < a.chroma)
    || decide (b8 b 4 < a.depth) || decide (b8 b 5 < a.size)

/-- ERR_CODE of the report: code 8 alone stands there. -/
def auReport (a : AccessUnit) : Nat := if auErr a = 0 ∧ (a.moreUnits || a.errCode = 8) then 8 else auErr a

/-- The code that discards the access unit: the one that lasts, until an IRAP picture with valid parameter sets; else
its own code 1 to 4 or 7 (R288). A size beyond the session shows in the parameter sets, before a fault of slice data
(DEDUCED from R287). -/
def discardCode (s : DecSession) (a : AccessUnit) : Nat :=
  let own := if auOver s a ∧ (auErr a = 0 ∨ 5 ≤ auErr a) then 7 else auErr a
  let drops := own == 7 || (decide (1 ≤ own) && decide (own ≤ 4))
  match s.discard with
  | some k => if a.irap && !drops then 0 else k
  | none => if drops then own else 0

/-- The DPB as the reference picture set leaves it: what the picture neither refers to nor keeps is no reference
any more; a new sequence keeps none. -/
def refSet (s : DecSession) (a : AccessUnit) : List DpbPic :=
  let l := s.dpb.map fun p =>
    { p with
      isRef := p.isRef && !a.newSeq && p.seq == s.seq && (a.refs.contains p.poc || a.keep.contains p.poc)
      output := p.output && !(a.newSeq && a.noPrior) }
  prune l

/-- References that the picture names and the DPB does not hold (R284). -/
def missing (l : List DpbPic) (a : AccessUnit) : List Int := a.refs.eraseDups.filter fun k => !l.any fun p => p.isRef && p.poc == k

/-- What the concealment rules say of a picture (R285, R286): tainted, taint cleared by a recovery point, and the
session's concealment after it. A recovery point counts only where a tainted picture of this concealment came before; of
several the earliest POC is reached first, and those of an earlier sequence are gone with its POCs. -/
structure Conceal where
  tainted : Bool
  recovered : Bool
  first : Option Nat
  point : Option Int

def conceal (s : DecSession) (a : AccessUnit) (l : List DpbPic) (num : Nat) : Conceal :=
  let damaged := auErr a == 5 || auErr a == 6
  let fromRef := !(missing l a).isEmpty || l.any fun p => p.isRef && p.tainted && a.refs.contains p.poc
  let old := if a.newSeq then none else s.recovery
  let point := match a.recovery with
    | some k => if s.firstTaint.isSome && (a.gdr || a.exactMatch) then some (old.elim k (min k)) else old
    | none => old
  if a.irap && !damaged then { tainted := false, recovered := false, first := none, point := none }
  else if !damaged && point.any (· ≤ a.poc) then { tainted := false, recovered := true, first := none, point := none }
  else
    let t := damaged || (fromRef && !a.irap)
    { tainted := t, recovered := false, first := if t then some (s.firstTaint.getD num) else s.firstTaint, point := point }

/-- The report of a job (Table 10-5). -/
def decReport (a : AccessUnit) (num flags err gen firstBad decoded count : Nat) : List Fld :=
  [⟨0, 4, num⟩, ⟨4, 4, fromSigned 32 a.poc⟩, ⟨8, 1, a.nut⟩, ⟨9, 1, flags⟩, ⟨10, 1, err⟩, ⟨11, 1, gen⟩, ⟨12, 4, firstBad⟩,
   ⟨16, 4, decoded⟩, ⟨20, 4, a.bits⟩, ⟨24, 4, count⟩, ⟨28, 1, a.picInfo.toNat⟩]

/-- FLAGS IRAP and GDR or recovery-point start. -/
def auFlags (a : AccessUnit) : Nat := a.irap.toNat * 16 + (a.gdr || a.recovery.isSome).toNat * 32

/-- Write the report where one is asked for. -/
def Dev.decTell (d : Dev) (c : Cmd) (body : List Fld) : Dev :=
  if c.q 8 = 0 then d else d.writeFields false (c.q 8) 64 body

/-- The access unit's bytes: in device memory as they stand there. -/
def Dev.auData (d : Dev) (c : Cmd) (a : AccessUnit) : List Byte :=
  if c.b 4 8 then Mem.rdN d.mem.lpddr (c.q 5) (c.w 7) else a.data

/-- Name of what the data decode to: what the decoder carries, its references among it, and the access unit (R16). -/
def auKey (s : DecSession) (bytes : List Byte) (gen : List Int) : List Nat :=
  21 :: s.made :: gen.map (fromSigned 32) ++ keyOf bytes

/-- A discarded access unit: no picture (R288). -/
def Dev.decDiscard (d : Dev) (r : CmdRef) (c : Cmd) (s : DecSession) (a : AccessUnit) (k : Nat) : Dev :=
  let s' := { s with
    discard := if k = 3 ∨ k = 7 then some k else s.discard
    made := Config.carry (22 :: auKey s (d.auData c a) []) }
  let d := (d.setDec c.handle (some s')).count 0x60844 1
  let d := d.decTell c (decReport a s.picNum (4 + auFlags a) k 0 ones32 0 s.concealed)
  (d.finish r stBitstream (s.picNum + 16777215 * two32 + k * 2 ^ 56)).decSettle c.handle

/-- The samples of the picture: lost CTUs are filled from the first entry of list 0 where it exists (R288). -/
def auSrc (a : AccessUnit) (l : List DpbPic) (made : Nat) : PicSrc :=
  if auErr a = 5 ∨ auErr a = 6 then
    .patched made a.ctb (ceilDiv a.codedW (max 1 a.ctb)) a.lost
      ((a.list0.bind fun k => (l.find? fun p => p.isRef && p.poc == k).map (·.src)).getD .grey)
  else .coded made

/-- The DPB after the picture has joined it. A generated reference has the size and depth of the picture, and every sample
1 << (bitDepth − 1) (R284). -/
def joined (a : AccessUnit) (l : List DpbPic) (k : Conceal) (seq made : Nat) : List DpbPic :=
  let gen := (missing l a).map fun q =>
    ({ poc := q, tainted := true, generated := true, output := false, seq := seq, w := a.w, h := a.h, chroma := a.chroma
       depth := a.depth, x0 := a.x0, y0 := a.y0 } : DpbPic)
  let src := auSrc a (l ++ gen) made
  let l := (l ++ gen).map fun p => { p with
    age := if a.outputFlag && p.output && decide (a.poc < p.poc) then p.age + 1 else p.age
    tainted := p.tainted && !k.recovered }
  l ++ [{
    poc := a.poc, tainted := k.tainted, output := a.outputFlag, seq := seq, w := a.w, h := a.h, chroma := a.chroma
    depth := a.depth, full := a.full, src := src, x0 := a.x0, y0 := a.y0 }]

/-- A picture is reconstructed (R279, R284 to R287). -/
def Dev.decPicture (d : Dev) (r : CmdRef) (c : Cmd) (s : DecSession) (a : AccessUnit) : Dev :=
  let l := refSet s a
  let seq := if a.newSeq then s.seq + 1 else s.seq
  let k := conceal s a l s.picNum
  let err := auErr a
  let gen := (missing l a).length
  let made := Config.carry (auKey s (d.auData c a) (missing l a))
  let st := if err ≠ 0 then stBitstream else if k.tainted then stConcealed else stSuccess
  let count := if st = stConcealed then satW 32 (s.concealed + 1) else s.concealed
  let s' := { s with
    dpb := joined a l k seq made, made := made, picNum := (s.picNum + 1) % two32, concealed := count, discard := none, firstTaint := k.first
    recovery := k.point, seq := if a.eos then seq + 1 else seq, reorder := a.reorder, latency := a.latency
    size := a.size, need := none }
  let d := ((d.setDec c.handle (some s')).undefBuf true s.workAddr (4096 * s.workLen)).count 0x60848 gen
  let d := if st = stConcealed then d.count 0x60840 1 else if st = stBitstream then d.count 0x60844 1 else d
  let first := if err = 0 then ones32 else a.firstBadCtu
  let flags := k.tainted.toNat + (decide (err ≠ 0)).toNat * 2 + k.recovered.toNat * 8 + auFlags a
  let d := d.decTell c (decReport a s.picNum flags (auReport a) gen first a.ctusDecoded count)
  let ctu := if err = 0 then 16777215 else a.firstBadCtu % 16777216
  (d.finish r st (s.picNum + ctu * two32 + err * 2 ^ 56)).decSettle c.handle

def specDecDecode : CmdSpec := {
  cls := 0x05, opc := 0x03
  handle := fun d c => d.decLive c
  offs := fun d c => d.codecOffs c [(4, 8, 8), (5, 31, 0), (6, 31, 0), (7, 31, 0), (8, 31, 0), (9, 31, 0)]
    ++ off 5 0 (c.b 4 8 && d.devBad (c.q 5) (c.w 7)) ++ off 7 0 (c.w 7 == 0) ++ off 8 0 (c.q 8 % 64 != 0) }

/-- The effect of DEC_DECODE: jobs of a session go in fetch order and wait for its flush, and for an ENE slice in
their turn; a picture waits while its slot is taken by one that still waits for output (R275, R279, R280). -/
def decDecode (a : AccessUnit) (r : CmdRef) (c : Cmd) (d : Dev) : Dev :=
  if d.codecGone then d.finish r stEngineDown 0
  else if !d.pxeUp || (d.eneFor c.num none).isNone || d.jobAhead c then d
  else match d.dec? c.handle with
    | none => d
    | some s =>
      if s.flushing.isSome then d
      else if discardCode s a ≠ 0 then d.decDiscard r c s a (discardCode s a)
      else
        let l := refSet s a
        if (min (b8 s.block 5) (max 1 a.size) ≤ l.length ∧ l.any fun p => p.output && !p.isRef) then
          (d.modDec c.handle fun s => { s with need := some c.num }).decSettle c.handle
        else d.decPicture r c s a

/-! ## DEC_FLUSH and DEC_CLOSE (R283, R290) -/

def specDecFlush : CmdSpec := {
  cls := 0x05, opc := 0x05
  handle := fun d c => d.decLive c
  offs := fun d c => d.codecOffs c [] }

/-- The effect of DEC_FLUSH: after the jobs fetched before it. -/
def decFlush (r : CmdRef) (c : Cmd) (d : Dev) : Dev :=
  if d.jobAhead c || (d.dec? c.handle).any (·.flushing.isSome) then d
  else ((d.begin r).modDec c.handle fun s =>
    { s with flushing := some r, flushed := 0, seq := s.seq + 1, dpb := prune (s.dpb.map fun p => { p with isRef := false }) }).decSettle
      c.handle

/-- DEC_FLUSH (R283). -/
def execDecFlush (r : CmdRef) (s : State) : Outcome State Fault Refusal := lift (runCmd specDecFlush r (decFlush r)) s

def specDecClose : CmdSpec := {
  cls := 0x05, opc := 0x02
  handle := fun d c => d.decLive c
  offs := fun d c => d.codecOffs c [(4, 0, 0)] }

/-- The effect of DEC_CLOSE: NOW 0 waits and flushes; NOW 1 aborts the jobs and discards the DPB; a DEC_FLUSH under way
ends with what it has written (DEDUCED). -/
def decClose (r : CmdRef) (c : Cmd) (d : Dev) : Dev :=
  let d := d.begin r
  if !c.b 4 0 then
    (d.modDec c.handle fun s => { s with closing := some r, drain := true, wrote := 0 }).decSettle c.handle
  else
    let d := d.finishAll (d.jobsLeft 5 c.handle) stAborted 0
    let ref := (d.dec? c.handle).bind (·.flushing)
    let n := ((d.dec? c.handle).map (·.flushed)).getD 0
    let d := d.modDec c.handle fun s => { s with
      closing := some r, dpb := [], flushing := none, flushed := 0, wrote := 0 }
    (match ref with | some f => d.finish f stSuccess n | none => d).decSettle c.handle

/-- DEC_CLOSE (R290). -/
def execDecClose (r : CmdRef) (s : State) : Outcome State Fault Refusal := lift (runCmd specDecClose r (decClose r)) s

/-! ## Resets (R291) -/

/-- The DPB is emptied without output; a DEC_FLUSH under way ends with `st`. -/
def Dev.decReset (d : Dev) (st : Nat) : Dev :=
  (d.codec.dec.map (·.1)).foldl (fun d h =>
    match d.dec? h with
    | none => d
    | some s =>
      let d := d.setDec h (some { s with dpb := [], flushing := none, need := none })
      (match s.flushing with | some r => d.finish r st 0 | none => d).decSettle h) d

end Sys2Proof.Machine
end

