-- ==== Sys2Proof/Machine/Lossless.lean ====
section
/-! DEFINITION. The lossless engine: stream sessions, raw record sessions and their bands, record decoding (chapter 11).
Headers and checksums of the formats are as R293 has them; blocks are the content that R294 leaves to the part, one for
each input and configuration (log entry 12). -/

namespace Sys2Proof.Machine

open Host

/-! ## Lanes (R295, Table 19-1) -/

/-- Lane `k` may be used and its lane group works. -/
def Dev.lseLaneUp (d : Dev) (k : Nat) : Bool := (d.fld 0x70000 11 0).testBit k && !d.engDown (0x30 + k / 3) (34 + k / 3)

def Dev.laneIdle (d : Dev) (k : Nat) : Bool := SMap.get .idle d.lse.lanes k == .idle

def Dev.setLane (d : Dev) (k : Nat) (w : LaneWork) : Dev :=
  { d with lse := { d.lse with lanes := SMap.put .idle d.lse.lanes k w } }

/-- Every lane that may be used lies in a Disabled group (R447). -/
def Dev.lseGone (d : Dev) : Bool :=
  (rangeFrom 0 12).all fun k => !(d.fld 0x70000 11 0).testBit k || d.engOff (0x30 + k / 3) (34 + k / 3)

/-- Lanes that are free. -/
def Dev.lanesFree (d : Dev) : Nat := ((rangeFrom 0 12).filter fun k => d.lseLaneUp k && d.laneIdle k).length

/-- Bands of a raw session that wait for a lane: of frames that have a buffer or find one posted. -/
def bandsWaiting (s : RawSession) : Nat :=
  ((s.ring.filter (·.buf.isSome) ++ (s.ring.filter (·.buf.isNone)).take s.bufs.length).map fun f => s.bands - f.started).sum

/-! ## Sessions (R297, R316) -/

def Dev.lse? (d : Dev) (h : Nat) : Option LseSession := SMap.get none d.lse.sessions h

def Dev.setLse (d : Dev) (h : Nat) (v : Option LseSession) : Dev :=
  { d with lse := { d.lse with sessions := SMap.put none d.lse.sessions h v } }

/-- The port whose raw session has the handle. -/
def Dev.rawPort (d : Dev) (h : Nat) : Option Nat := (d.lse.raw.find? fun e => e.2.any (·.handle == h)).map (·.1)

def Dev.modRaw (d : Dev) (p : Nat) (f : RawSession → RawSession) : Dev :=
  match d.raw? p with
  | none => d
  | some s => d.setRaw p (some (f s))

/-- Modes of class 0x06 (R316). -/
def Dev.lseOffs (d : Dev) (c : Cmd) (fields : List (Nat × Nat × Nat)) : List Offence :=
  modeOff d.boot.mode.working ++ dw1Offs c true ++ resOffs c fields

/-- Workspace of a stream session (R297). -/
def lseWork (decomp : Bool) (wlog : Nat) : Nat := if decomp then 2 ^ wlog + 327680 else 5 * 2 ^ wlog + 1376256

/-- Workspaces of the codec sessions. -/
def Dev.codecRanges (d : Dev) : List (Nat × Nat) :=
  (d.codec.enc.filterMap fun e => e.2.map fun s => (s.workAddr, 4096 * s.workLen)) ++
    d.codec.dec.filterMap fun e => e.2.map fun s => (s.workAddr, 4096 * s.workLen)

def specLseOpen : CmdSpec := {
  cls := 0x06, opc := 0x01
  feat := fun d c => if c.f 4 1 0 = 0 then d.feat 4 else d.feat 5
  handle := fun d c => d.freeHandle c.handle
  offs := fun d c =>
    let z := c.f 4 1 0 == 0
    let w := c.f 4 12 8
    let r := (c.q 5, 4096 * c.w 7)
    let zw := decide (10 ≤ w) && decide (w ≤ 23)
    d.lseOffs c [(4, 2, 0), (4, 7, 4), (4, 12, 8), (4, 16, 16), (5, 31, 0), (6, 31, 0), (7, 31, 0)]
      ++ off 4 0 (!z && zw && w != 15) ++ off 4 4 (!c.b 4 2 && (c.f 4 7 4 == 0 || decide (9 < c.f 4 7 4)))
      ++ off 4 8 (!zw)
      ++ off 5 0 (c.q 5 % 4096 != 0 || d.devBad r.1 r.2 || overlaps r d.ctxRange || d.histRanges.any (overlaps r)
        || d.codecRanges.any (overlaps r))
      ++ off 7 0 (decide (r.2 < lseWork (c.b 4 2) w)) }

/-- LSE_OPEN (R297). -/
def execLseOpen (r : CmdRef) (s : State) : Outcome State Fault Refusal :=
  lift (runCmd specLseOpen r fun c d =>
    if d.lseGone then d.finish r stEngineDown 0
    else (d.setLse c.handle (some {
      format := c.f 4 1 0, decomp := c.b 4 2, level := c.f 4 7 4, wlog := c.f 4 12 8, checksum := c.b 4 16
      workAddr := c.q 5, workLen := c.w 7 })).finish r stSuccess 0) s

/-! ## LSE_BLOCK (R298 to R301) -/

def Dev.lseLive (d : Dev) (c : Cmd) : Bool := (d.lse? c.handle).any fun s => !d.tooLate s.closing c

/-- A fetched job of the session that comes before `c` has not been done (R295, R298). -/
def Dev.lseAhead (d : Dev) (c : Cmd) : Bool :=
  d.hif.cmds.any fun e => e.cls == 6 && (e.opc == 3 || e.opc == 0x12) && e.handle == c.handle && decide (e.num < c.num)

/-- Stream jobs of the session fetched before its LSE_CLOSE. -/
def Dev.lseEarly (d : Dev) (h : Nat) (closing : Option CmdRef) : List CmdRef :=
  (d.hif.cmds.filter fun e => e.cls == 6 && (e.opc == 3 || e.opc == 0x12) && e.handle == h && !d.tooLate closing e).map
    (·.ref)

/-- A session that is closing and has no job left closes (R314). -/
def Dev.lseSettle (d : Dev) (h : Nat) : Dev :=
  match (d.lse? h).bind (·.closing) with
  | none => d
  | some r => if (d.lseEarly h (some r)).isEmpty then (d.setLse h none).finish r stSuccess 0 else d

/-- A range of `len` bytes that a command reads or writes: outside device memory where it lies there. -/
def Dev.rangeBad (d : Dev) (dev : Bool) (addr len : Nat) : Bool := dev && len != 0 && d.devBad addr len

/-- RESUME does not agree with the session's pending output (R300). -/
def Dev.resumeBad (d : Dev) (c : Cmd) : Bool := (d.lse? c.handle).any fun s => (s.pending != 0) != c.b 4 1

def specLseBlock : CmdSpec := {
  cls := 0x06, opc := 0x03
  handle := fun d c => d.lseLive c
  offs := fun d c =>
    d.lseOffs c [(4, 1, 0), (4, 9, 8), (5, 31, 0), (6, 31, 0), (7, 31, 0), (8, 31, 0), (9, 31, 0), (10, 31, 0)]
      ++ off 5 0 (d.rangeBad (c.b 4 8) (c.q 5) (c.w 7)) ++ off 8 0 (d.rangeBad (c.b 4 9) (c.q 8) (c.w 10))
      ++ off 10 0 (c.w 10 == 0) }

/-- Stream jobs of other sessions that were fetched before and wait for a lane. -/
def Dev.lseBefore (d : Dev) (c : Cmd) : Nat :=
  (d.hif.cmds.filter fun e => e.cls == 6 && (e.opc == 3 || e.opc == 0x12) && e.handle != c.handle
    && decide (e.num < c.num) && !d.lseAhead e && d.mayBegin e).length

/-- A lane is free for this stream job: raw bands take theirs first, then jobs in fetch order (R295). -/
def Dev.laneTurn (d : Dev) (c : Cmd) : Bool :=
  decide (((rangeFrom 0 4).map fun p => ((d.raw? p).map bandsWaiting).getD 0).sum + d.lseBefore c < d.lanesFree)

/-! ### What a job writes (R293, R294, R298) -/

/-- The magic number of a Zstandard frame. -/
def zstdMagic : Nat := 0xFD2FB528

/-- Window_Descriptor of 2^WLOG bytes. -/
def zstdWindow (wlog : Nat) : Byte := BitVec.ofNat 8 (8 * (wlog - 10))

/-- A zlib header: FDICT 0, FLEVEL by level. -/
def zlibHead (level : Nat) : List Byte :=
  let f := 64 * if level ≤ 1 then 0 else if level ≤ 3 then 1 else if level ≤ 6 then 2 else 3
  [0x78, BitVec.ofNat 8 (f + (31 - (0x7800 + f) % 31) % 31)]

/-- The header of a frame or member (R293). -/
def lseHead (s : LseSession) : List Byte :=
  match s.format with
  | 0 => leBytes 4 zstdMagic ++ [BitVec.ofNat 8 (4 * s.checksum.toNat), zstdWindow s.wlog]
  | 1 => []
  | 2 => zlibHead s.level
  | _ => leBytes 4 0x00088B1F ++ leBytes 4 0 ++ [0, 255]

/-- The checksum or trailer of a frame or member whose data are `bs`. -/
def lseTail (s : LseSession) (bs : List Byte) : List Byte :=
  match s.format with
  | 0 => if s.checksum then leBytes 4 (xxh64 bs) else []
  | 1 => []
  | 2 => (leBytes 4 (adler32 bs)).reverse
  | _ => leBytes 4 (crc32 bs) ++ leBytes 4 bs.length

/-- A job has taken all its input and written all it formed. -/
def lseDone (c : Cmd) (v : LseRun) : Bool := v.consumed == c.w 7 && v.pending == 0

/-- A job closes the frame or member. -/
def lseEnds (c : Cmd) (v : LseRun) : Bool := lseDone c v && c.b 4 0

/-- Bytes that a job forms, beyond what was pending. -/
def lseMade (s : LseSession) (v : LseRun) : Nat := v.produced + v.pending - s.pending

/-- Bytes that a compression job forms at least: the header where it begins a frame, a block header or stored block at a
flush point, the last block and trailer at the end (R298). -/
def lseLeast (s : LseSession) (c : Cmd) (v : LseRun) : Nat :=
  let h := if s.busy || (v.consumed == 0 && !c.b 4 0) then 0 else (lseHead s).length
  if lseEnds c v then h + (if s.format = 0 then 3 else 2) + (lseTail s []).length
  else if lseDone c v && v.consumed != 0 then h + if s.format = 0 then 3 else 5
  else h

/-- A job of the session: the outcome is one the rules allow. Pending output is written first (R300). -/
def runOk (s : LseSession) (c : Cmd) (v : LseRun) : Bool :=
  decide (v.consumed ≤ c.w 7) && decide (v.produced ≤ c.w 10) && (!v.fault || (s.decomp && v.pending == 0))
    && (v.fault || lseDone c v || v.produced == c.w 10)
    && (v.fault || decide (s.pending ≤ v.produced + v.pending))
    && (s.decomp || decide (lseLeast s c v ≤ lseMade s v))

/-- What the coder's choice of a job's bytes depends on (R16, R294): of compression the session's configuration, its jobs
of the frame and this one's; of decompression the stream. -/
def lseKey (s : LseSession) (c : Cmd) (inp : List Byte) : List Nat :=
  if s.decomp then [1, s.format, s.wlog] ++ (s.taken.flatten ++ inp).map (·.toNat)
  else [0, s.format, s.level, s.wlog, s.checksum.toNat, (c.b 4 0).toNat]
    ++ (s.taken ++ [inp]).flatMap fun j => j.length :: j.map (·.toNat)

/-- The bytes that a job forms. -/
def lseFormed (s : LseSession) (c : Cmd) (v : LseRun) (inp : List Byte) : List Byte :=
  let n := lseMade s v
  if s.decomp then (rangeFrom s.made n).map (Config.content (lseKey s c inp))
  else
    let h := if s.busy then [] else lseHead s
    let t := if lseEnds c v then lseTail s (s.taken.flatten ++ inp) else []
    (h ++ (rangeFrom s.made (n - h.length - t.length)).map (Config.content (lseKey s c inp)) ++ t).take n

/-- The session after a job: at a fault or the end of its frame the next job begins a new one (R298 to R301). -/
def lseAfter (s : LseSession) (c : Cmd) (v : LseRun) (inp : List Byte) : LseSession :=
  if v.fault then { s with pend := [], busy := false, taken := [], made := 0 }
  else
    let out := (s.pend ++ lseFormed s c v inp).drop v.produced
    if lseEnds c v then { s with pend := out, busy := false, taken := [], made := 0 }
    else { s with
      pend := out, busy := s.busy || c.b 4 0 || decide (0 < v.consumed + lseMade s v), taken := s.taken ++ [inp]
      made := s.made + lseMade s v }

/-- The workspace of a session holds its window, match tables and pending output, whose layout is not stated: its bytes
are unknown (R297). -/
def Dev.lseWorked (d : Dev) (s : LseSession) : Dev := d.undefBuf true s.workAddr (lseWork s.decomp s.wlog)

/-- The effect of LSE_BLOCK: one job on one lane. -/
def lseBlock (v : LseRun) (r : CmdRef) (c : Cmd) (d : Dev) : Dev :=
  if d.lseGone then d.finish r stEngineDown 0
  else if d.lseAhead c || !d.laneTurn c then d
  else if d.resumeBad c then d.finish r stInvalidField (Offence.result { dw := 4, bit := 1 })
  else match d.lse? c.handle with
    | none => d
    | some s =>
      if !runOk s c v then d else
      let inp := d.blockOf (c.b 4 8) (c.q 5) v.consumed v.input
      let d := (d.lseWorked s).writeBuf (c.b 4 9) (c.q 8) ((s.pend ++ lseFormed s c v inp).take v.produced)
      let d := d.setLse c.handle (some (lseAfter s c v inp))
      let res := v.consumed + v.produced * two32
      (if v.fault then (d.count 0x70048 1).finish r stBitstream res
        else if lseDone c v then d.finish r stSuccess res
        else (d.count 0x70044 1).finish r stOutOfSpace res).lseSettle c.handle

/-! ## Raw record sessions (R304 to R310) -/

def specLseRawOpen : CmdSpec := {
  cls := 0x06, opc := 0x10
  feat := fun d _ => d.feat 6
  handle := fun d c => d.freeHandle c.handle
  offs := fun d c =>
    let p := c.f 4 1 0
    modeOff (d.boot.mode == .capture) ++ dw1Offs c true
      ++ resOffs c [(4, 1, 0), (4, 7, 4), (4, 11, 8), (4, 16, 12), (4, 24, 24), (5, 31, 0), (6, 31, 0), (7, 31, 0)]
      ++ off 4 0 (!d.portStopped p || (d.gangOf p).1 != p || (d.raw? p).isSome)
      ++ off 4 4 (c.f 4 7 4 == 0 || decide (9 < c.f 4 7 4))
      ++ off 4 8 (c.f 4 11 8 == 0 || decide (12 < c.f 4 11 8) || decide (popCount (d.fld 0x70000 11 0) 12 < c.f 4 11 8))
      ++ off 4 12 (decide (c.f 4 16 12 < 17) || decide (20 < c.f 4 16 12))
      ++ off 5 0 (c.q 5 % 4096 != 0 || d.devBad (c.q 5) 4096) ++ off 7 0 (decide (c.w 7 < 2) || decide (16 < c.w 7)) }

/-- LSE_RAW_OPEN (R304). -/
def execLseRawOpen (r : CmdRef) (s : State) : Outcome State Fault Refusal :=
  lift (runCmd specLseRawOpen r fun c d =>
    if d.lseGone then d.finish r stEngineDown 0
    else (d.setRaw (c.f 4 1 0) (some {
      handle := c.handle, level := c.f 4 7 4, bands := c.f 4 11 8, wlog := c.f 4 16 12, checksum := c.b 4 24
      stage := c.q 5, slots := c.w 7 })).finish r stSuccess 0) s

/-- The raw session of a handle that the command comes in time for. -/
def Dev.rawLive (d : Dev) (c : Cmd) : Bool :=
  ((d.rawPort c.handle).bind d.raw?).any fun s => !d.tooLate s.closing c

/-- The geometry a buffer must serve: as latched while the port runs, else as the port's registers have it (DEDUCED). -/
def Dev.rawNeed (d : Dev) (p : Nat) (s : RawSession) : Nat :=
  let g := d.portGeom p
  let n := if d.portStopped p then 2 * (g.w * g.h * if g.dual then 2 else 1) else 2 * (s.width * s.height * s.planes)
  n + ceilDiv n 32768 + 4096

def specLseRawBuffer : CmdSpec := {
  beside := fun e c => e.handle == c.handle
  cls := 0x06, opc := 0x11
  handle := fun d c => d.rawLive c
  offs := fun d c =>
    let p := (d.rawPort c.handle).getD 0
    d.lseOffs c [(4, 8, 8), (5, 31, 0), (6, 31, 0), (7, 31, 0)] ++ off 5 0 (d.rangeBad (c.b 4 8) (c.q 5) (c.w 7))
      ++ off 7 0 ((d.raw? p).any fun s => decide (c.w 7 < d.rawNeed p s)) }

/-- LSE_RAW_BUFFER (R310): up to 16 pending; a further post waits. -/
def execLseRawBuffer (r : CmdRef) (s : State) : Outcome State Fault Refusal :=
  lift (runCmd specLseRawBuffer r fun c d =>
    match d.rawPort c.handle with
    | none => d
    | some p =>
      if ((d.raw? p).any fun s => decide (16 ≤ s.bufs.length)) then d
      else (d.begin r).modRaw p fun s =>
        { s with bufs := s.bufs ++ [{ ref := r, a0 := c.q 5, dev := c.b 4 8, len := c.w 7 }] }) s

/-- The next band to start: the oldest staged frame with bands left, and a buffer where it has none yet. -/
def nextBand (s : RawSession) : Option StagedFrame :=
  (s.ring.find? fun f => decide (f.started < s.bands)).filter fun f => f.buf.isSome || !s.bufs.isEmpty

def modStaged (s : RawSession) (i : Nat) (f : StagedFrame → StagedFrame) : RawSession :=
  { s with ring := updFirst (fun g => g.index == i) f s.ring }

/-- A band starts on a free lane that no other band of its frame has had; the frame's first band takes the next buffer
(R295, R306, R307, R310). -/
def Dev.bandStart (d : Dev) (p k : Nat) : Dev :=
  match d.raw? p with
  | none => d
  | some s => match nextBand s with
    | none => d
    | some f =>
      if !d.lseLaneUp k || !d.laneIdle k || f.lanes.contains k then d else
      let s' := if f.buf.isSome then s else { s with bufs := s.bufs.drop 1 }
      let b := if f.buf.isSome then f.buf else s.bufs.head?
      (d.setRaw p (some (modStaged s' f.index fun g => { g with started := g.started + 1, lanes := k :: g.lanes, buf := b }))).setLane k
        (.band p f.index f.started)

/-- RAW_BAND_START (R306). -/
def execRawBandStart (port : Fin 4) (lane : Fin 12) (s : State) : Outcome State Fault Refusal :=
  lift (fun d => d.bandStart port.val lane.val) s

/-- The words of band `b` (R303, R306): plane 0 of its rows, then plane 1. -/
def bandWords (f : StagedFrame) (bands b : Nat) : List Nat :=
  let rb := bandRows f.height bands f.py
  let rows := (f.rows.take f.height).drop (b * rb) |>.take rb
  (rangeFrom 0 f.planes).flatMap fun k => mpWords (2 ^ f.depth) f.px f.py (rows.map (planeOf f.planes k))

/-- Length of a record: the skippable frame and its bands (R309). -/
def recordLen (f : StagedFrame) (bands : Nat) : Nat := 72 + 8 * bands + ((f.done.map (·.2)).foldl (· + ·) 0)

/-- The skippable frame of a record (R309, Table 11-2). -/
def recordHead (s : RawSession) (p : Nat) (f : StagedFrame) : List Fld :=
  let rb := bandRows f.height s.bands f.py
  [⟨0, 4, 0x184D2A5C⟩, ⟨4, 4, 64 + 8 * s.bands⟩, ⟨8, 1, 1⟩, ⟨9, 1, f.depth⟩, ⟨10, 1, f.px⟩, ⟨11, 1, f.py⟩, ⟨12, 1, f.planes⟩,
   ⟨13, 1, s.bands⟩, ⟨14, 1, f.flags⟩, ⟨15, 1, p⟩, ⟨16, 4, f.width⟩, ⟨20, 4, f.height⟩, ⟨24, 4, f.lines⟩, ⟨28, 4, f.progId⟩,
   ⟨32, 8, f.index⟩, ⟨40, 12, ltsForm f.expStart⟩, ⟨52, 4, f.pedestal⟩, ⟨56, 4, s.dropped⟩, ⟨60, 1, s.level⟩]
    ++ (rangeFrom 0 s.bands).flatMap fun b => [⟨72 + 8 * b, 4, b * rb⟩, ⟨76 + 8 * b, 4, SMap.get 0 f.done b⟩]

/-- The content of band `b` as bytes: each word as 16 bits (R302, R303). -/
def bandBytes (f : StagedFrame) (bands b : Nat) : List Byte := (bandWords f bands b).flatMap fun w => leBytes 2 w

/-- Bytes of Frame_Content_Size under its flag. -/
def fcsBytes : Nat → Nat
  | 1 => 2 | 2 => 4 | _ => 8

/-- Values of the Frame_Content_Size flag that a band frame of `bytes` bytes over `n` bytes may have: the field holds n,
and header, one block header and checksum fit. Which one the part takes is not stated (R294). -/
def fcsFlags (s : RawSession) (n bytes : Nat) : List Nat :=
  [1, 2, 3].filter fun k =>
    (if k = 1 then decide (256 ≤ n) && decide (n < 65792) else k == 3 || decide (n < two32))
      && decide (9 + fcsBytes k + 4 * s.checksum.toNat ≤ bytes)

/-- The Zstandard frame of a band, `bytes` long (R293, R303). -/
def bandFrame (s : RawSession) (bs : List Byte) (bytes : Nat) : List Byte :=
  let key := [2, s.level, s.wlog, s.checksum.toNat] ++ bs.map (·.toNat)
  let ks := fcsFlags s bs.length bytes
  let k := ks.getD ((Config.content key 0).toNat % ks.length) 3
  let h := leBytes 4 zstdMagic ++ [BitVec.ofNat 8 (64 * k + 4 * s.checksum.toNat), zstdWindow s.wlog]
    ++ leBytes (fcsBytes k) (if k = 1 then bs.length - 256 else bs.length)
  let t := if s.checksum then leBytes 4 (xxh64 bs) else []
  h ++ (rangeFrom 1 (bytes - h.length - t.length)).map (Config.content key) ++ t

/-- The bands follow the header, one after another. -/
def Dev.writeBands (d : Dev) (s : RawSession) (f : StagedFrame) (b : Buf) : Dev :=
  ((rangeFrom 0 s.bands).foldl (fun (e : Dev × Nat) k =>
    let n := SMap.get 0 f.done k
    (((e.1.writeBuf b.dev e.2 (bandFrame s (bandBytes f s.bands k) n)).emit (.rawBand e.2 n (bandWords f s.bands k))), e.2 + n))
    (d, b.a0 + 72 + 8 * s.bands)).1

/-- A closing raw session closes once no frame in staging has a buffer left to go into; the remaining buffers complete
ABORTED (R314). -/
def Dev.rawSettle (d : Dev) (p : Nat) : Dev :=
  match d.raw? p with
  | none => d
  | some s => match s.closing with
    | none => d
    | some r =>
      let busy := s.ring.any fun f => f.buf.isSome
      if busy || (!s.ring.isEmpty && !s.bufs.isEmpty) then d
      else ((d.setRaw p none).finishAll (s.bufs.map (·.ref)) stAborted 0).finish r stSuccess 0

/-- A record is complete: header and bands are visible, and the buffer completes. It carries what was dropped since
the previous record (R307, R310). -/
def Dev.recordDone (d : Dev) (p : Nat) (s : RawSession) (f : StagedFrame) (b : Buf) : Dev :=
  let d := d.setRaw p (some { s with ring := s.ring.filter (fun g => g.index != f.index), dropped := 0 })
  let d := (d.writeFields b.dev b.a0 (72 + 8 * s.bands) (recordHead s p f)).writeBands s f b
  (d.finish b.ref stSuccess (f.index % two32 + recordLen f s.bands * two32)).rawSettle p

/-- The records of a session's oldest staged frames that are coded, `n` at most: a record waits for those of the frames
before its own (R24). -/
def Dev.recordsOut (d : Dev) (p : Nat) : Nat → Dev
  | 0 => d
  | n + 1 =>
    match d.raw? p with
    | none => d
    | some s => match s.ring.head? with
      | none => d
      | some f => match f.buf with
        | none => d
        | some u => if frameCoded s f then (d.recordDone p s f u).recordsOut p n else d

/-- A band is compressed, to a frame of `bytes` bytes. -/
def Dev.bandDone (d : Dev) (k bytes : Nat) : Dev :=
  match SMap.get .idle d.lse.lanes k with
  | .idle => d
  | .band p i b => match d.raw? p with
    | none => d
    | some s => match s.ring.find? fun f => f.index == i with
      | none => d.setLane k .idle
      | some f =>
        let g := { f with done := SMap.ins f.done b bytes }
        match g.buf with
        | none => d
        | some u =>
          if (fcsFlags s (bandBytes f s.bands b).length bytes).isEmpty ∨ u.len < recordLen g s.bands then d else
          ((d.setLane k .idle).setRaw p (some (modStaged s i fun _ => g))).recordsOut p s.ring.length

/-- RAW_BAND_DONE (R307). -/
def execRawBandDone (lane : Fin 12) (bytes : Nat) (s : State) : Outcome State Fault Refusal :=
  lift (fun d => d.bandDone lane.val bytes) s

/-! ## LSE_RAW_DECODE (R311) -/

def specLseRawDecode : CmdSpec := {
  cls := 0x06, opc := 0x12
  feat := fun d _ => d.feat 6
  handle := fun d c => d.lseLive c && (d.lse? c.handle).any fun s => s.format == 0 && s.decomp
  offs := fun d c =>
    d.lseOffs c [(4, 0, 0), (4, 8, 8), (5, 31, 0), (6, 31, 0), (7, 31, 0), (8, 31, 0), (9, 31, 0), (10, 31, 0)]
      ++ off 5 0 (d.rangeBad (c.b 4 8) (c.q 5) (c.w 7)) ++ off 8 0 (c.q 8 % 64 != 0 || d.devBad (c.q 8) 1)
      ++ off 10 0 (c.w 10 % 64 != 0) }

/-- Rows of a band of a record: by its first row and the next band's. -/
def recRows (v : RawRecord) (b : Nat) : Nat := v.row0.getD (b + 1) v.height - v.row0.getD b 0

/-- The payload agrees with the bands that follow it (R309, R311): every band's content is its rows' words,
of 16 bits each. -/
def recordOk (v : RawRecord) : Bool :=
  !v.fault && (v.depth == 10 || v.depth == 12 || v.depth == 14 || v.depth == 16)
    && decide (1 ≤ v.px) && decide (v.px ≤ 8) && decide (1 ≤ v.py) && decide (v.py ≤ 8)
    && (v.planes == 1 || v.planes == 2) && decide (1 ≤ v.width) && v.row0.head? == some 0
    && v.bands.length == v.row0.length && decide (v.bands.length ≤ 12)
    && (rangeFrom 0 v.bands.length).all fun b =>
      decide (v.row0.getD b 0 < v.row0.getD (b + 1) v.height)
        && (v.bands.getD b []).length == recRows v b * v.width * v.planes
        && (v.bands.getD b []).all fun z => decide (z < 65536)

/-- The rows of a record, planes interleaved: the inverse predictor band by band. -/
def recordRows (v : RawRecord) : List (List Nat) :=
  (rangeFrom 0 v.bands.length).flatMap fun b =>
    let n := recRows v b
    let w := v.bands.getD b []
    let planes := (rangeFrom 0 v.planes).map fun k =>
      mpBack (2 ^ v.depth) v.px v.py v.width n [] (w.drop (k * n * v.width))
    (rangeFrom 0 n).map fun y => weave (planes.map fun p => p.getD y []) v.width

/-- Bytes of one row as MP_FRAME expects them (Table 4-14). -/
def mpRowBytes (pack : Bool) (depth : Nat) (row : List Nat) : List Byte :=
  if pack then packBytes depth row else row.flatMap fun v => leBytes 2 v

/-- The effect of LSE_RAW_DECODE. -/
def lseRawDecode (v : RawRecord) (r : CmdRef) (c : Cmd) (d : Dev) : Dev :=
  if d.lseGone then d.finish r stEngineDown 0
  else if d.lseAhead c || !d.laneTurn c then d
  else if !recordOk v then ((d.count 0x70048 1).finish r stBitstream 0).lseSettle c.handle
  else
    let rows := recordRows v
    let n := (rows.map fun x => (mpRowBytes (c.b 4 0) v.depth x).length).foldl max 0
    if c.w 10 < n then (d.finish r stInvalidField (Offence.result { dw := 10, bit := 0 })).lseSettle c.handle
    else if d.devBad (c.q 8) (c.w 10 * v.height) then
      (d.finish r stInvalidField (Offence.result { dw := 8, bit := 0 })).lseSettle c.handle
    else
      let d := rows.zipIdx.foldl (fun (d : Dev) e =>
        d.writeBuf true (c.q 8 + c.w 10 * e.2) (mpRowBytes (c.b 4 0) v.depth e.1)) d
      (d.finish r stSuccess v.frameIndex).lseSettle c.handle

/-- LSE_RAW_DECODE (R311). -/
def execLseRawDecode (r : CmdRef) (record : RawRecord) (s : State) : Outcome State Fault Refusal :=
  lift (runCmd specLseRawDecode r (lseRawDecode record r)) s

/-! ## LSE_CLOSE and resets (R313, R314) -/

def specLseClose : CmdSpec := {
  cls := 0x06, opc := 0x02
  handle := fun d c => d.lseLive c || d.rawLive c
  offs := fun d c => d.lseOffs c [(4, 0, 0)]
    ++ off 1 0 ((d.rawPort c.handle).any fun p => !d.portStopped p) }

/-- The effect of LSE_CLOSE. -/
def lseClose (r : CmdRef) (c : Cmd) (d : Dev) : Dev :=
  let d := d.begin r
  match d.rawPort c.handle with
  | some p => (d.modRaw p fun s => { s with closing := some r }).rawSettle p
  | none =>
    let refs := if c.b 4 0 then d.lseEarly c.handle (some r) else []
    let d := d.finishAll refs stAborted 0
    (match d.lse? c.handle with
      | none => d
      | some s => d.setLse c.handle (some { s with closing := some r })).lseSettle c.handle

/-- LSE_CLOSE (R314). -/
def execLseClose (r : CmdRef) (s : State) : Outcome State Fault Refusal := lift (runCmd specLseClose r (lseClose r)) s

/-- A frame whose band was lost: its buffer completes with `st`, its contents are undefined, and it is counted as
dropped; its other bands stop (R313). -/
def Dev.frameFail (d : Dev) (p i st : Nat) : Dev :=
  match d.raw? p with
  | none => d
  | some s => match s.ring.find? fun f => f.index == i with
    | none => d
    | some f =>
      let lanes := d.lse.lanes.filter fun e => match e.2 with
        | .band q j _ => !(q == p && j == i)
        | .idle => false
      let d := { d with lse := { d.lse with lanes := lanes } }
      let d := (d.setRaw p (some { s with
        ring := s.ring.filter fun g => g.index != i, dropped := satW 32 (s.dropped + 1) })).count 0x70040 1
      ((match f.buf with
        | some b => (d.undefBuf b.dev b.a0 b.len).finish b.ref st 0
        | none => d).recordsOut p s.ring.length).rawSettle p

/-- A lane group stops: the frames whose bands run there fail (R313). -/
def Dev.lseGroupStop (d : Dev) (g st : Nat) : Dev :=
  (rangeFrom (3 * g) 3).foldl (fun (d : Dev) k => match SMap.get .idle d.lse.lanes k with
    | .band p i _ => d.frameFail p i st
    | .idle => d) d

end Sys2Proof.Machine
end

