-- ==== Sys2Proof/Machine/Recorder.lean ====
section
/-! DEFINITION. The recorder: slots, volumes, drive commands, removal and events (chapter 12). Drives are outside: what
they answer is an operand, and what a read brings is unknown content (log entry 12). -/

namespace Sys2Proof.Machine

open Host

def Dev.slot (d : Dev) (s : Nat) : Slot := SMap.get {} d.recd.slots s

def Dev.setSlot (d : Dev) (s : Nat) (v : Slot) : Dev :=
  { d with recd := { d.recd with slots := SMap.put {} d.recd.slots s v } }

def Dev.vol (d : Dev) (n : Nat) : Volume := SMap.get {} d.recd.vols n

def Dev.setVol (d : Dev) (n : Nat) (v : Volume) : Dev :=
  { d with recd := { d.recd with vols := SMap.put {} d.recd.vols n v } }

/-! ## Events (R339) -/

/-- RESULT of a REC_EVENT (Table 12-13). -/
def RecEvent_result (e : RecEvent) : Nat :=
  e.n + e.old * 16 + e.new * 256 + e.volume.toNat * 16384 + e.cause * 65536

/-- A state change: it completes the oldest REC_EVENT, or is held; a further change of the same slot or volume joins
the one held (DEDUCED). -/
def Dev.recChange (d : Dev) (e : RecEvent) : Dev :=
  match d.recd.waiting with
  | r :: rs => ({ d with recd := { d.recd with waiting := rs } }).finish r stSuccess (RecEvent_result e)
  | [] =>
    let same := fun (x : RecEvent) => x.volume == e.volume && x.n == e.n
    let es := if d.recd.events.any same then
        updFirst same (fun x => { x with new := e.new, cause := e.cause }) d.recd.events
      else d.recd.events ++ [e]
    { d with recd := { d.recd with events := es } }

/-- A slot changes state. -/
def Dev.slotTo (d : Dev) (s : Nat) (st : SlotState) (cause : Nat) : Dev :=
  let v := d.slot s
  if v.state = st then d
  else (d.setSlot s { v with state := st, cause := cause }).recChange {
    volume := false, n := s, old := v.state.code, new := st.code, cause := cause }

/-- A volume changes state. -/
def Dev.volTo (d : Dev) (n st : Nat) : Dev :=
  let v := d.vol n
  if v.state = st then d
  else (d.setVol n { v with state := st }).recChange { volume := true, n := n, old := v.state, new := st, cause := 0 }

/-- Modes of class 0x07 (R337). -/
def Dev.recMode (d : Dev) : Bool := d.boot.mode.driver

def Dev.recOffs (d : Dev) (c : Cmd) (handle : Bool) (fields : List (Nat × Nat × Nat)) : List Offence :=
  modeOff d.recMode ++ dw1Offs c handle ++ resOffs c fields

/-- REC is Disabled, is in reset (Table 19-1). -/
def Dev.recOff (d : Dev) : Bool := d.engOff 0x38 38
def Dev.recDown (d : Dev) : Bool := d.engDown 0x38 38

def specRecEvent : CmdSpec := {
  beside := fun _ _ => true
  cls := 0x07, opc := 0x22
  feat := fun d _ => d.feat 7
  offs := fun d c => d.recOffs c false [] }

/-- REC_EVENT (R339): up to four outstanding. -/
def execRecEvent (r : CmdRef) (s : State) : Outcome State Fault Refusal :=
  lift (runCmd specRecEvent r fun _ d =>
    if d.recOff then d.finish r stEngineDown 0
    else if d.recDown then d
    else match d.recd.events with
      | e :: es => ({ d with recd := { d.recd with events := es } }).finish r stSuccess (RecEvent_result e)
      | [] =>
        if d.recd.waiting.length < 4 then
          let d := d.begin r
          { d with recd := { d.recd with waiting := d.recd.waiting ++ [r] } }
        else d) s

/-! ## Volumes (R320 to R323, R325) -/

/-- The volume that a slot belongs to, live or BROKEN. -/
def Dev.volOf (d : Dev) (s : Nat) : Option Nat :=
  (d.recd.vols.find? fun e => e.2.state != 0 && e.2.members.any (·.slot == s)).map (·.1)

/-- Conservative service is in force on a volume (R325). -/
def Dev.volConserv (d : Dev) (n : Nat) : Bool := d.conservative || (d.vol n).recovery

/-- Blocks of a volume (R320). -/
def volBlocks (v : Volume) : Nat := v.members.length * v.units * 256

/-- Member `m` of a list (Table 12-5). -/
def listMember (b : List Byte) (m : Nat) : Member :=
  { slot := b8 b (8 + 8 * m), lba := bn b (12 + 8 * m) 4 + two32 * bn b (9 + 8 * m) 2 }

/-- Offending bytes of a member list (R321). -/
def Dev.membersBad (d : Dev) (b : List Byte) : List Nat :=
  let n := b8 b 0
  let u := bn b 4 4
  let k := if n ≤ 8 then n else 0
  bad 0 (n == 0 || decide (8 < n)) ++ resBytes (b.take 4) [(0, 1)]
    ++ bad 4 (u == 0 || (rangeFrom 0 k).any fun m =>
        let e := listMember b m
        decide (e.slot < 8) && (d.slot e.slot).state == .ready && decide ((d.slot e.slot).blocks < e.lba + u * 256))
    ++ ((rangeFrom 0 8).flatMap fun m =>
      let e := listMember b m
      if m < k then
        bad (8 + 8 * m) (decide (7 < e.slot) || (d.slot e.slot).state != .ready || (d.volOf e.slot).isSome
            || (rangeFrom 0 k).any fun j => j != m && b8 b (8 + 8 * j) == e.slot)
          ++ bad (11 + 8 * m) (b8 b (11 + 8 * m) != 0)
      else (resBytes ((b.drop (8 + 8 * m)).take 8) []).map (· + (8 + 8 * m)))

/-- The marker of a drive (R322). -/
def Dev.marker? (d : Dev) (drive : Nat) : Option Marker := d.recd.markers.find? (·.drive == drive)

/-- Set the marker of a drive, with its SMART Unsafe Shutdowns count. -/
def Dev.setMarker (d : Dev) (drive count : Nat) : Dev :=
  { d with recd := { d.recd with markers := d.recd.markers.filter (·.drive != drive) ++ [{ drive := drive, count := count }] } }

def Dev.clearMarker (d : Dev) (drive : Nat) : Dev :=
  { d with recd := { d.recd with markers := d.recd.markers.filter (·.drive != drive) } }

def specVolCreate : CmdSpec := {
  cls := 0x07, opc := 0x01
  feat := fun d _ => d.feat 7
  offs := fun d c => d.recOffs c false [(4, 1, 0), (5, 31, 0), (6, 31, 0)]
    ++ off 4 0 ((d.vol (c.f 4 1 0)).state != 0) ++ off 5 0 (c.q 5 % 64 != 0) }

/-- The effect of VOL_CREATE: recovery where a member carries a marker (R323); then every member's marker is set. -/
def volCreate (b : List Byte) (r : CmdRef) (c : Cmd) (d : Dev) : Dev :=
  let n := c.f 4 1 0
  let ms := (rangeFrom 0 (b8 b 0)).map (listMember b)
  let drives := ms.map fun m => ((d.slot m.slot).drive, (d.slot m.slot).unsafeCount)
  let rec_ := drives.any fun e => (d.marker? e.1).isSome
  let d := drives.foldl (fun (d : Dev) e => d.setMarker e.1 e.2) d
  let v : Volume := { recovery := rec_, members := ms, units := bn b 4 4 }
  ((d.setVol n v).volTo n 1).finish r stSuccess (volBlocks v % 2 ^ 48 + rec_.toNat * 2 ^ 48)

/-- VOL_CREATE (R321 to R323). -/
def execVolCreate (r : CmdRef) (list : List Byte) (s : State) : Outcome State Fault Refusal :=
  lift (fun d => runBlk specVolCreate 5 (fun d _ => d.membersBad (d.blockOf false 0 72 list)) r (fun c d =>
    if d.recOff then d.finish r stEngineDown 0
    else if d.recDown then d
    else volCreate (d.blockOf false 0 72 list) r c d) d) s

/-- The volume of a command by its handle. -/
def volN (c : Cmd) : Nat := c.handle - 1

/-- A live or BROKEN volume that the command comes in time for. -/
def Dev.volLive (d : Dev) (c : Cmd) : Bool :=
  decide (1 ≤ c.handle) && decide (c.handle ≤ 4) && (d.vol (volN c)).state != 0 && !d.tooLate (d.vol (volN c)).deleting c

/-- RESULT of a data command that did nothing: no blocks, no failed piece. -/
abbrev recNothing : Nat := 255 * 2 ^ 32

/-- Fetched commands on volume `n` but `r`, which deletes it. -/
def Dev.volCmds (d : Dev) (n : Nat) (r : CmdRef) : List Cmd :=
  d.hif.cmds.filter fun e => e.cls == 7 && e.handle == n + 1 && e.ref != r && !d.tooLate (some r) e

/-- A VOL_DELETE that waits completes once no command is left on the volume: markers of the members present are cleared
(R322, R339). -/
def Dev.volSettle (d : Dev) (n : Nat) : Dev :=
  let v := d.vol n
  if d.recd.doomed.contains n then
    if d.recd.cmds.any (·.vol == n) then d
    else { d.setVol n {} with recd := { (d.setVol n {}).recd with doomed := d.recd.doomed.filter (· != n) } }
  else match v.deleting with
  | none => d
  | some r =>
    if !(d.volCmds n r).isEmpty || d.recd.cmds.any (·.vol == n) then d
    else
      let d := v.members.foldl (fun (d : Dev) m =>
        if (d.slot m.slot).present then d.clearMarker (d.slot m.slot).drive else d) d
      ((d.volTo n 0).setVol n {}).finish r stSuccess 0

def specVolDelete : CmdSpec := {
  cls := 0x07, opc := 0x02
  feat := fun d _ => d.feat 7
  handle := fun d c => d.volLive c
  offs := fun d c => d.recOffs c true [(4, 0, 0)] }

/-- VOL_DELETE with NOW 1: commands on the volume whose turn has not come complete ABORTED. -/
def Dev.volFlush (d : Dev) (n : Nat) (r : CmdRef) : Dev :=
  let waiting := (d.recd.cmds.filter fun e => e.vol == n && !e.begun).map (·.ref)
  let unbegun := ((d.volCmds n r).filter (!·.begun)).map (·.ref)
  let d := { d with recd := { d.recd with cmds := d.recd.cmds.filter fun e => !(e.vol == n && !e.begun) } }
  d.finishAll (waiting ++ unbegun) stAborted recNothing

/-- The effect of VOL_DELETE. -/
def volDelete (r : CmdRef) (c : Cmd) (d : Dev) : Dev :=
  if d.recOff then d.finish r stEngineDown 0
  else if d.recDown then d
  else
    let n := volN c
    let d := (d.begin r).setVol n { d.vol n with deleting := some r }
    (if c.b 4 0 then d.volFlush n r else d).volSettle n

/-- VOL_DELETE (R339). -/
def execVolDelete (r : CmdRef) (s : State) : Outcome State Fault Refusal := lift (runCmd specVolDelete r (volDelete r)) s

def specVolClearRecovery : CmdSpec := {
  cls := 0x07, opc := 0x03
  feat := fun d _ => d.feat 7
  handle := fun d c => d.volLive c
  offs := fun d c => d.recOffs c true [] }

/-- VOL_CLEAR_RECOVERY (R339). -/
def execVolClearRecovery (r : CmdRef) (s : State) : Outcome State Fault Refusal :=
  lift (runCmd specVolClearRecovery r fun c d =>
    let n := volN c
    if d.recOff then d.finish r stEngineDown 0
    else if d.recDown then d
    else if (d.vol n).state = 2 then d.finish r stMediaAbsent 0
    else (d.setVol n { d.vol n with recovery := false }).finish r stSuccess 0) s

/-! ## Pieces (R320, R326, R327, R329) -/

/-- Drive commands of `n` blocks at drive LBA `lba`, cut at the drive's MDTS: `fuel` of them at most. -/
def cutMdts (mdts unit slot : Nat) : Nat → Nat → Nat → Nat → List Piece
  | 0, _, _, _ => []
  | fuel + 1, off, lba, n =>
    if n = 0 then []
    else
      let k := if mdts = 0 then n else min n mdts
      { off := off, unit := unit, slot := slot, lba := lba, blocks := k : Piece }
        :: cutMdts mdts unit slot fuel (off + k) (lba + k) (n - k)

/-- Stripe-unit pieces of `n` blocks from volume block `v`: `fuel` of them at most (R320). -/
def Dev.cutUnits (d : Dev) (w : Volume) : Nat → Nat → Nat → Nat → List Piece
  | 0, _, _, _ => []
  | fuel + 1, off, v, n =>
    if n = 0 then []
    else
      let u := v / 256
      let o := v % 256
      let m := w.members.getD (u % w.members.length) { slot := 0, lba := 0 }
      let k := min n (256 - o)
      cutMdts (d.slot m.slot).mdts off m.slot 256 off (m.lba + u / w.members.length * 256 + o) k
        ++ d.cutUnits w fuel (off + k) (v + k) (n - k)

/-- Blocks of a command as its entry gives them: first and count. -/
def recSpan (c : Cmd) : Nat × Nat := (c.q 5, c.f 7 15 0 + 1)

/-- A data command (Table 12-5). -/
def isRecData (c : Cmd) : Bool := c.cls == 7 && (c.opc == 0x10 || c.opc == 0x11 || c.opc == 0x12)

/-- The turn of a command has come: in conservative service no command fetched before it on the volume overlaps it
(R327). -/
def Dev.recTurn (d : Dev) (c : Cmd) : Bool :=
  !c.conserv || !d.hif.cmds.any fun e => isRecData e && e.handle == c.handle && decide (e.num < c.num) &&
    overlaps (recSpan e) (recSpan c)

/-- In flight. -/
def flying (p : Piece) : Bool := p.issued && !p.done

/-- A drive command in flight stands in the way of a piece: they touch a block and one of them writes (R326). -/
def Dev.pieceBlocked (d : Dev) (k : Nat) (p : Piece) : Bool :=
  d.recd.cmds.any fun e => e.pieces.any fun q =>
    flying q && q.slot == p.slot && overlaps (q.lba, q.blocks) (p.lba, p.blocks) && (e.kind != 0 || k != 0)

def Dev.modRec (d : Dev) (r : CmdRef) (f : RecCmd → RecCmd) : Dev :=
  { d with recd := { d.recd with cmds := updFirst (fun e => e.ref == r) f d.recd.cmds } }

def Dev.rec? (d : Dev) (r : CmdRef) : Option RecCmd := d.recd.cmds.find? (·.ref == r)

/-- NVMe I/O opcodes: Read, Write, Dataset Management. -/
def nvmeOpc (k : Nat) : Nat := if k = 0 then 2 else if k = 1 then 1 else 9

/-- Replace the piece at offset `o`. -/
def modPiece (e : RecCmd) (o : Nat) (f : Piece → Piece) : RecCmd := { e with pieces := updFirst (·.off == o) f e.pieces }

/-- Issue a piece where nothing stands in its way; a slot that is not READY fails it (Table 12-3). -/
def Dev.issuePiece (d : Dev) (r : CmdRef) (o : Nat) : Dev :=
  match d.rec? r with
  | none => d
  | some e => match e.pieces.find? (·.off == o) with
    | none => d
    | some p =>
      if p.issued || p.done || e.fail.isSome || e.ending.isSome || !e.begun then d
      else if (d.slot p.slot).reinit then d
      else if (d.slot p.slot).state ≠ .ready then d.modRec r fun e => { e with fail := some (stMediaAbsent, p.slot, p.unit) }
      else if d.pieceBlocked e.kind p then d
      else (d.modRec r fun e => modPiece e o fun p => { p with issued := true }).emit
        (.drive p.slot (nvmeOpc e.kind) p.lba p.blocks)

/-- RESULT of a data command. -/
def recResult (e : RecCmd) : Nat :=
  let n := ((e.pieces.filter (·.done)).map (·.blocks)).foldl (· + ·) 0
  match e.fail with
  | none => n + recNothing
  | some f => n + f.2.1 * 2 ^ 32 + f.2.2 % 2 ^ 24 * 2 ^ 40

/-- A data command is over: it leaves REC and its host command completes. A write that a reset of REC ended puts its
volume in recovery (R333). -/
def Dev.recDone (d : Dev) (e : RecCmd) : Dev :=
  let d := { d with recd := { d.recd with cmds := d.recd.cmds.filter (·.ref != e.ref) } }
  let d := if e.ending = some stEngineReset ∧ e.kind = 1 then d.setVol e.vol { d.vol e.vol with recovery := true } else d
  let (st, res) := match e.ending, e.fail with
    | some st, _ => (st, recNothing)
    | none, some f => (f.1, recResult e)
    | none, none => (if e.cut then stOutOfSpace else stSuccess, recResult e)
  (d.finish e.ref st res).volSettle e.vol

/-- A command has nothing more to wait for. -/
def recOver (e : RecCmd) : Bool :=
  if e.fail.isSome || e.ending.isSome then !e.pieces.any flying else e.begun && e.pieces.all (·.done)

/-- One command of REC goes on: its turn, its pieces, its end. -/
def Dev.recGo (d : Dev) (r : CmdRef) : Dev :=
  match d.rec? r with
  | none => d
  | some e =>
    let turn := e.begun || (d.cmd? r).any d.recTurn
    let d := d.modRec r fun e => { e with begun := turn }
    let d := if d.recDown then d else e.pieces.foldl (fun (d : Dev) p => d.issuePiece r p.off) d
    match d.rec? r with
    | none => d
    | some e => if recOver e then d.recDone e else d

/-- Every command of REC goes on, in the order of fetch; one that ends can free others. -/
def Dev.recPass (d : Dev) : Dev := (d.recd.cmds.map (·.ref)).foldl (fun (d : Dev) r => d.recGo r) d

/-- Passes until no command is left that a pass could free: at most as many as there are commands. -/
def Dev.recPump : Nat → Dev → Dev
  | 0, d => d
  | n + 1, d => Dev.recPump n d.recPass

def Dev.pump (d : Dev) : Dev := Dev.recPump (d.recd.cmds.length + 1) d

/-! ## Data commands (R328, R330, R338) -/

/-- Entry `i` of a scatter list in device memory. -/
def Dev.listEntryAt (d : Dev) (a i : Nat) : Nat := leNat (Mem.rdN d.mem.lpddr (a + 8 * i) 8)

/-- Offences of the buffer of a REC_READ or REC_WRITE (R338); blocks of a write past the end count as well (DEDUCED). -/
def Dev.recBufOffs (d : Dev) (c : Cmd) : List Offence :=
  let n := c.f 7 15 0 + 1
  let dev := c.b 4 8
  if c.b 4 9 then
    let badList := c.q 8 % 64 != 0 || (dev && d.devBad (c.q 8) (8 * n))
    off 8 0 badList ++ (if dev && !badList then
      (((rangeFrom 0 n).find? fun i =>
        d.listEntryAt (c.q 8) i % 4096 != 0 || d.devBad (d.listEntryAt (c.q 8) i) 4096).map fun i =>
          ({ dw := 8, bit := 0, blk := some (8 * i) } : Offence)).toList
      else [])
  else off 8 0 (c.q 8 % 4096 != 0 || (dev && d.devBad (c.q 8) (4096 * n)))

def recIoSpec (opc : Nat) : CmdSpec := {
  cls := 0x07, opc := opc
  feat := fun d _ => d.feat 7
  handle := fun d c => d.volLive c
  offs := fun d c =>
    let past := decide (volBlocks (d.vol (volN c)) < c.q 5 + c.f 7 15 0 + 1)
    if opc = 0x12 then
      d.recOffs c true [(5, 31, 0), (6, 31, 0), (7, 15, 0)]
        ++ off 1 0 ((d.vol (volN c)).members.any fun m => !(d.slot m.slot).dlfeat) ++ off 5 0 past
    else
      d.recOffs c true [(4, 9, 8), (5, 31, 0), (6, 31, 0), (7, 15, 0), (8, 31, 0), (9, 31, 0)]
        ++ off 5 0 (opc == 0x10 && past) ++ d.recBufOffs c }

def specRecRead : CmdSpec := recIoSpec 0x10
def specRecWrite : CmdSpec := recIoSpec 0x11
def specRecDeallocate : CmdSpec := recIoSpec 0x12

/-- A data command is taken by REC. -/
def recIo (kind : Nat) (r : CmdRef) (c : Cmd) (d : Dev) : Dev :=
  let n := volN c
  let v := d.vol n
  if d.recOff then d.finish r stEngineDown 0
  else if d.recDown then d
  else if v.state = 2 then d.finish r stMediaAbsent recNothing
  else
    let size := volBlocks v
    let k := c.f 7 15 0 + 1
    let m := min k (size - c.q 5)
    let e : RecCmd := {
      ref := r, num := c.num, vol := n, kind := kind, cut := decide (m < k), pieces := d.cutUnits v 258 0 (c.q 5) m }
    let d := d.begin r
    ({ d with recd := { d.recd with cmds := d.recd.cmds ++ [e] } }).pump

/-- Offending bytes of a scatter list in host memory: each entry is a 4 KiB-aligned address (R338, R519). -/
def hostListBad (c : Cmd) (list : List Byte) : List Nat :=
  if c.b 4 9 && !c.b 4 8 then
    (rangeFrom 0 (c.f 7 15 0 + 1)).flatMap fun i => bad (8 * i) (bn list (8 * i) 8 % 4096 != 0)
  else []

/-- REC_READ (R328). -/
def execRecRead (x : ListedCmd) (s : State) : Outcome State Fault Refusal :=
  lift (runBlk specRecRead 8 (fun _ c => hostListBad c x.list) x.ref (recIo 0 x.ref)) s

/-- REC_WRITE (R328, R330). -/
def execRecWrite (x : ListedCmd) (s : State) : Outcome State Fault Refusal :=
  lift (runBlk specRecWrite 8 (fun _ c => hostListBad c x.list) x.ref (recIo 1 x.ref)) s

/-- REC_DEALLOCATE (R328). -/
def execRecDeallocate (r : CmdRef) (s : State) : Outcome State Fault Refusal :=
  lift (runCmd specRecDeallocate r (recIo 2 r)) s

/-- Blocks that a piece of a read brought become visible: what they hold is the drive's. -/
def Dev.recLand (d : Dev) (e : RecCmd) (p : Piece) : Dev :=
  if e.kind ≠ 0 then d else
  match d.cmd? e.ref with
  | none => d
  | some c =>
    if !c.b 4 9 then d.undefBuf (c.b 4 8) (c.q 8 + 4096 * p.off) (4096 * p.blocks)
    else if c.b 4 8 then
      (rangeFrom p.off p.blocks).foldl (fun (d : Dev) i => d.undefBuf true (d.listEntryAt (c.q 8) i) 4096) d
    else d.emit (.hostBlocks (c.q 8) p.off p.blocks)

/-- A drive command fails for good: the host command issues no more pieces (R329, Table 12-3). -/
def Dev.pieceFail (d : Dev) (e : RecCmd) (p : Piece) (st ctr : Nat) : Dev :=
  (d.count ctr 1).modRec e.ref fun e =>
    let e := modPiece e p.off fun p => { p with issued := false }
    { e with fail := some (e.fail.getD (st, p.slot, p.unit)) }

/-- A command with pieces left on slot `s`, which is no longer there. -/
def absentCmd (s : Nat) (e : RecCmd) : RecCmd :=
  match e.pieces.find? (fun p => p.slot == s && !p.done) with
  | none => e
  | some p =>
    { e with
      pieces := e.pieces.map fun q => if q.slot = s then { q with issued := false } else q
      fail := some (e.fail.getD (stMediaAbsent, s, p.unit)) }

/-- Other commands with pieces on a slot that is no longer there fail MEDIA_ABSENT. -/
def Dev.slotAbsent (d : Dev) (s : Nat) : Dev :=
  { d with recd := { d.recd with cmds := d.recd.cmds.map (absentCmd s) } }

/-- The slot is EMPTY again: what was known of its drive is gone. -/
def Dev.slotEmpty (d : Dev) (s : Nat) (present : Bool) : Dev :=
  (d.slotTo s .empty 0).setSlot s { present := present }

/-- A removal: host commands with a piece on the slot complete MEDIA_ABSENT at once, the slot is EMPTY, its volume
BROKEN (R331). -/
def Dev.driveOut (d : Dev) (s : Nat) : Dev :=
  let v := d.slot s
  if v.state = .empty ∧ !v.present then d
  else if v.state = .ejected then d.setSlot s { v with present := false }
  else
    let hit := d.recd.cmds.filter fun e => e.pieces.any fun p => p.slot == s && !p.done
    let vol := d.volOf s
    let d := (d.count 0x80310 1).slotAbsent s
    let d := hit.foldl (fun (d : Dev) e => match d.rec? e.ref with
      | none => d
      | some e =>
        let res := recResult e
        let d := { d with recd := { d.recd with cmds := d.recd.cmds.filter (·.ref != e.ref) } }
        (d.finish e.ref stMediaAbsent res).volSettle e.vol) d
    let d := match v.ejecting with
      | some r => d.finish r stMediaAbsent 0
      | none => d
    let d := d.slotEmpty s false
    (match vol with
      | some n => if (d.vol n).state = 1 then d.volTo n 2 else d
      | none => d).pump

/-- Every drive command in flight on a slot is issued once more. -/
def Dev.reissue (d : Dev) (s : Nat) : Dev :=
  d.recd.cmds.foldl (fun (d : Dev) e => (e.pieces.filter fun p => flying p && p.slot == s).foldl (fun (d : Dev) p =>
    (d.modRec e.ref fun e => modPiece e p.off fun p => { p with aborting := false }).emit
      (.drive p.slot (nvmeOpc e.kind) p.lba p.blocks)) d) d

/-- A drive that does not answer has its controller reset and is re-initialised; until it is, nothing is issued to it
(R329). -/
def Dev.ctlReset (d : Dev) (s : Nat) : Dev :=
  ((d.count 0x8030C 1).setSlot s { d.slot s with reinit := true }).emit (.driveCtlReset s)

/-- The re-initialisation of a drive ends: the other commands in flight on it are issued once more, or the slot is FAILED
with CAUSE 5 and they end MEDIA_ABSENT (R329, Table 12-3). -/
def Dev.reinitEnd (d : Dev) (s : Nat) (ok : Bool) : Dev :=
  let d := d.setSlot s { d.slot s with reinit := false }
  (if ok then d.reissue s else (d.slotTo s .failed 5).slotAbsent s).pump

/-- A drive command ends (R329). -/
def Dev.pieceEnd (d : Dev) (r : CmdRef) (o : Nat) (out : DriveOutcome) : Dev :=
  match d.rec? r with
  | none => d
  | some e => match e.pieces.find? (fun p => p.off == o && flying p) with
    | none => d
    | some p =>
      (match out with
        | .ok => (d.recLand e p).modRec r fun e => modPiece e o fun p => { p with done := true, aborting := false }
        | .retryable =>
          if p.tries < d.fld 0x80000 27 24 then
            ((d.count 0x80308 1).modRec r fun e =>
              modPiece e o fun p => { p with tries := p.tries + 1, aborting := false }).emit
                (.drive p.slot (nvmeOpc e.kind) p.lba p.blocks)
          else d.pieceFail e p stMediaError 0x80300
        | .mediaError => d.pieceFail e p stMediaError 0x80300
        | .fatal => ((d.pieceFail e p stMediaError 0x80300).slotTo p.slot .failed 3).slotAbsent p.slot
        | .timeout => (d.ctlReset p.slot).pieceFail e p stMediaTimeout 0x80304
        | .reinitFailed => ((d.pieceFail e p stMediaTimeout 0x80304).slotTo p.slot .failed 5).slotAbsent p.slot
        | .removed => d.driveOut p.slot).pump

/-- DRIVE_COMMAND_COMPLETION (R329). -/
def execDriveCommandCompletion (r : CmdRef) (piece : Nat) (out : DriveOutcome) (s : State) :
    Outcome State Fault Refusal := lift (fun d => d.pieceEnd r piece out) s

/-- A drive command does not complete in time: an NVMe Abort first; then the controller is reset and the command fails
(R329). -/
def Dev.pieceTimeout (d : Dev) (r : CmdRef) (o : Nat) : Dev :=
  match d.rec? r with
  | none => d
  | some e => match e.pieces.find? (fun p => p.off == o && flying p) with
    | none => d
    | some p =>
      if (d.slot p.slot).reinit then d
      else if !p.aborting then
        (d.modRec r fun e => modPiece e o fun p => { p with aborting := true }).emit (.driveAdmin p.slot 8)
      else
        ((d.ctlReset p.slot).pieceFail e p stMediaTimeout 0x80304).pump

/-- DRIVE_COMMAND_TIMEOUT (R329). -/
def execDriveCommandTimeout (r : CmdRef) (piece : Nat) (s : State) : Outcome State Fault Refusal :=
  lift (fun d => d.pieceTimeout r piece) s

/-! ## Drives come and go (R318, R319, R331, R332, R336) -/

/-- The slot exists and its port is enabled while RECORDER is negotiated. -/
def Dev.slotOn (d : Dev) (s : Nat) : Bool :=
  d.feat 7 && (d.fld 0x80000 3 0).testBit (s / 2) && (s % 2 == 0 || (d.fld 0x80000 7 4).testBit (s / 2))

/-- A drive is inserted: training starts on an enabled port; an EJECTED slot is left with its ball asserting again. -/
def Dev.driveIn (d : Dev) (s : Nat) : Dev :=
  let v := d.slot s
  if v.present then d else
  let d := d.setSlot s { v with present := true }
  let d := if v.state = .ejected then (d.emit (.driveReset s false)).slotTo s .empty 0 else d
  if (d.slot s).state = .empty ∧ d.slotOn s then d.slotTo s .training 0 else d

/-- DRIVE_INSERTION (R319). -/
def execDriveInsertion (slot : Fin 8) (s : State) : Outcome State Fault Refusal := lift (fun d => d.driveIn slot.val) s

/-- CAUSE of an UNSUITABLE drive, 0 for a suitable one (R318, Table 12-9). -/
def driveCause (f : DriveFacts) : Nat :=
  if !f.rdyInTime then 4 else if !f.nsActive then 2 else if !f.lbaFormatOk then 1 else 0

/-- A slot in training comes up (R318, R319); one whose drive is being re-initialised goes on (R329). -/
def Dev.slotUp (d : Dev) (s : Nat) (f : DriveFacts) : Dev :=
  let v := d.slot s
  if v.reinit ∧ v.state = .ready then d.reinitEnd s (driveCause f = 0)
  else if v.state ≠ .training ∨ !v.present then d else
  let d := d.setSlot s { v with
    drive := f.driveId, speed := f.speed, width := f.width, blocks := f.blocks, unsafeCount := f.unsafeShutdowns
    dlfeat := f.dlfeatZero, mdts := f.mdts }
  d.slotTo s (if driveCause f = 0 then .ready else .unsuitable) (driveCause f)

/-- SLOT_READY (R319). -/
def execSlotReady (slot : Fin 8) (facts : DriveFacts) (s : State) : Outcome State Fault Refusal :=
  lift (fun d => d.slotUp slot.val facts) s

/-- DRIVE_REMOVAL (R331). -/
def execDriveRemoval (slot : Fin 8) (s : State) : Outcome State Fault Refusal := lift (fun d => d.driveOut slot.val) s

def specDriveEject : CmdSpec := {
  cls := 0x07, opc := 0x21
  feat := fun d _ => d.feat 7
  offs := fun d c => d.recOffs c false [(4, 2, 0)]
    ++ off 4 0 ((d.slot (c.f 4 2 0)).state != .ready || (d.volOf (c.f 4 2 0)).isSome
      || (d.slot (c.f 4 2 0)).ejecting.isSome || (d.slot (c.f 4 2 0)).portOff) }

/-- DRIVE_EJECT (R332). -/
def execDriveEject (r : CmdRef) (s : State) : Outcome State Fault Refusal :=
  lift (runCmd specDriveEject r fun c d =>
    let n := c.f 4 2 0
    if d.recOff then d.finish r stEngineDown 0
    else if d.recDown then d
    else ((d.begin r).setSlot n { d.slot n with ejecting := some r }).emit (.driveShutdown n)) s

/-- A drive reports its shutdown complete, or the wait is over: the slot's reset ball is asserted, and the slot is
EJECTED, or EMPTY where its port was turned off (R332, R336). -/
def Dev.shutdownEnd (d : Dev) (s ms : Nat) (ok : Bool) : Dev :=
  let v := d.slot s
  match v.ejecting with
  | some r =>
    let d := (d.setSlot s { v with ejecting := none }).emit (.driveReset s true)
    (d.slotTo s .ejected 0).finish r (if ok then stSuccess else stMediaTimeout) (if ok then satW 32 ms else 0)
  | none => if v.portOff then (d.emit (.driveReset s true)).slotEmpty s v.present else d

/-- SHUTDOWN_COMPLETE (R332). -/
def execShutdownComplete (slot : Fin 8) (ms : Nat) (ok : Bool) (s : State) : Outcome State Fault Refusal :=
  lift (fun d => d.shutdownEnd slot.val ms ok) s

/-- A write of REC_CFG: ports turned off shut their drives down, ports turned on train (R319, R336). -/
def Dev.recCfgWrite (d : Dev) (v : Nat) : Dev :=
  let old := d.fld 0x80000 3 0
  let d := d.writeReg 0x80000 v
  let new := d.fld 0x80000 3 0
  let d := (rangeFrom 0 8).foldl (fun (d : Dev) s =>
    let w := d.slot s
    if !(old.testBit (s / 2) && !new.testBit (s / 2)) || w.state == .empty || w.state == .ejected then d
    else if w.state = .ready then (d.setSlot s { w with portOff := true }).emit (.driveShutdown s)
    else d.slotEmpty s w.present) d
  if d.feat 7 then d.trainPorts (new &&& (15 ^^^ old)) else d

/-- PORT_EN_SET (R319). -/
def execPortEnSet (v : Word) (s : State) : Outcome State Fault Refusal := lift (fun d => d.recCfgWrite v.toNat) s

/-- PORT_EN_CLEAR (R336). -/
def execPortEnClear (v : Word) (s : State) : Outcome State Fault Refusal := lift (fun d => d.recCfgWrite v.toNat) s

/-! ## DRIVE_LOG (Table 12-5) -/

/-- Bytes of a page. -/
def pageBytes (p : Nat) : Nat := if p = 2 then 512 else 4096

def specDriveLog : CmdSpec := {
  cls := 0x07, opc := 0x20
  feat := fun d _ => d.feat 7
  offs := fun d c => d.recOffs c false [(4, 2, 0), (4, 11, 8), (4, 16, 16), (5, 31, 0), (6, 31, 0), (7, 31, 0)]
    ++ off 4 0 ((d.slot (c.f 4 2 0)).state != .ready) ++ off 4 8 (decide (3 < c.f 4 11 8))
    ++ off 5 0 (c.q 5 % 64 != 0 || d.rangeBad (c.b 4 16) (c.q 5) (c.w 7))
    ++ off 7 0 (decide (c.w 7 < pageBytes (c.f 4 11 8))) }

/-- The effect of DRIVE_LOG: the page, or the drive's failure. -/
def driveLog (out : DriveOutcome) (r : CmdRef) (c : Cmd) (d : Dev) : Dev :=
  let s := c.f 4 2 0
  let n := pageBytes (c.f 4 11 8)
  if d.recOff then d.finish r stEngineDown 0
  else if d.recDown then d
  else
    let d := d.emit (.driveAdmin s (if c.f 4 11 8 < 2 then 6 else 2))
    match out with
    | .ok => (d.undefBuf (c.b 4 16) (c.q 5) n).finish r stSuccess n
    | .retryable => ((d.count 0x80308 (d.fld 0x80000 27 24)).count 0x80300 1).finish r stMediaError 0
    | .mediaError => (d.count 0x80300 1).finish r stMediaError 0
    | .fatal => ((((d.count 0x80300 1).slotTo s .failed 3).slotAbsent s).pump).finish r stMediaError 0
    | .timeout => ((d.ctlReset s).count 0x80304 1).finish r stMediaTimeout 0
    | .reinitFailed => ((((d.count 0x80304 1).slotTo s .failed 5).slotAbsent s).pump).finish r stMediaTimeout 0
    | .removed => (d.driveOut s).finish r stMediaAbsent 0

/-- DRIVE_LOG. -/
def execDriveLog (r : CmdRef) (out : DriveOutcome) (s : State) : Outcome State Fault Refusal :=
  lift (runCmd specDriveLog r (driveLog out r)) s

/-! ## Aborts and resets (R333 to R335) -/

/-- A data command that REC holds is to end with `st`: at once where its turn has not come, else once its pieces in
flight have finished. -/
def Dev.recCut (d : Dev) (r : CmdRef) (st : Nat) : Dev :=
  match d.rec? r with
  | none => d
  | some e =>
    if !e.begun then
      let d := { d with recd := { d.recd with cmds := d.recd.cmds.filter (·.ref != r) } }
      (d.finish r st recNothing).volSettle e.vol
    else (d.modRec r fun e => { e with ending := some (e.ending.getD st) }).pump

/-- The name under which what a command began in a drive goes on once the command is gone (log entry 25). -/
def orphan (r : CmdRef) : CmdRef := { qid := r.qid % 65536 + 65536, cid := r.cid }

/-- A reset of REC: every command of class 0x07 that has begun ends with `st`, a waiting REC_EVENT, VOL_DELETE and
DRIVE_EJECT among them; a shutdown that a drive was notified of goes on (R333). -/
def Dev.recReset (d : Dev) (st : Nat) : Dev :=
  let d := ((d.recd.cmds.filter (·.begun)).map (·.ref)).foldl (fun (d : Dev) r => d.recCut r st) d
  let ends := d.recd.waiting ++ d.recd.vols.filterMap (·.2.deleting) ++ d.recd.slots.filterMap (·.2.ejecting)
  ({ d with recd := { d.recd with
    waiting := []
    vols := d.recd.vols.map fun (e : Nat × Volume) => (e.1, { e.2 with deleting := none })
    slots := d.recd.slots.map fun (e : Nat × Slot) => (e.1, { e.2 with ejecting := e.2.ejecting.map orphan }) } }).finishAll ends st 0

/-- A function reset deletes the volumes once their drive commands have finished; markers stay, drives stay trained
(R334). -/
def Dev.recFunctionReset (d : Dev) : Dev :=
  let ns := (d.recd.vols.filter (·.2.state != 0)).map (·.1)
  let left := (d.recd.cmds.filter fun e => e.pieces.any flying).map fun e =>
    { e with ref := orphan e.ref, ending := some stQueueDeleted }
  let d := { d with recd := { d.recd with
      cmds := left, events := [], waiting := [], doomed := ns
      slots := d.recd.slots.map fun e => (e.1, { e.2 with ejecting := e.2.ejecting.map orphan }) } }
  ns.foldl (fun (d : Dev) n => d.volSettle n) d

end Sys2Proof.Machine
end

