-- ==== Sys2Proof/Machine/Sco.lean ====
section
/-! DEFINITION. Scan-out: class 0x08 commands, the raster events, DisplayPort hot plug, SDI inputs (R340 to R366). -/

namespace Sys2Proof.Machine

open Host

/-! ## Checks of a set (R342 to R351, Table 13-7 CFG_ERR) -/

/-- HTOTAL of Table 13-1 at a whole frame rate, at 1,080 lines. -/
def sdiTotal : Nat → Option Nat
  | 24 => some 2750 | 25 => some 2640 | 30 => some 2200 | 50 => some 2640 | 60 => some 2200 | _ => none

/-- The timing is a format of Table 13-1 (R345). -/
def sdiFormatOk (c : RasterCfg) : Bool :=
  let m := c.vact / 1080
  let rate := c.pclk / (c.htotal * c.vtotal)
  (m == 1 || m == 2 || m == 4) && c.vact == 1080 * m && c.vtotal == 1125 * m && (c.hact == 1920 * m || c.hact == 2048 * m)
    && c.pclk == rate * c.htotal * c.vtotal && (sdiTotal rate).any (fun t => c.htotal == t * m)
    && !(c.div && (rate == 25 || rate == 50)) && !(m == 4 && decide (rate < 50))

/-- Timing limits of R342, the phase of R343, and R345 for a raster on SDI. -/
def timingBad (c : RasterCfg) : Bool :=
  let p := pclkOf c
  let f := rasterRate c
  c.hact % 2 == 1 || decide (c.hact < 64) || decide (8192 < c.hact) || decide (c.vact < 64) || decide (4320 < c.vact)
    || decide (c.htotal < c.hact + c.hfp + c.hsw + 8) || decide (c.vtotal < c.vact + c.vfp + c.vsw + 1)
    || decide (p.1 < 25000000 * p.2) || decide (2400000000 * p.2 < p.1) || decide (60 * f.1 < f.2) || decide (400 * f.2 < f.1)
    || c.lock == 3 || decide (1000000000 * f.2 ≤ c.phase.natAbs * f.1) || (c.sdi != 0 && !sdiFormatOk c)

/-- An output is in use, or QUAD is wrong (R340, R345). -/
def Dev.outputBad (d : Dev) (k : Nat) (c : RasterCfg) : Bool :=
  (d.running.any fun j => j != k && ((d.rcfg j).sdi &&& c.sdi != 0 || (d.rcfg j).dp &&& c.dp != 0))
    || (c.quad && !(c.vact == 4320 && c.sdi == 15 && k == 0)) || (c.vact == 4320 && c.sdi != 0 && !c.quad)

/-- The sampling does not suit an output, or is reserved (R345, Table 13-6). -/
def samplingBad (c : RasterCfg) : Bool :=
  decide (2 < c.samp) || decide (1 < c.colo) || !(c.bits == 8 || c.bits == 10 || c.bits == 12) || c.content == 3
    || (c.sdi != 0 && (c.samp == 2 || c.bits != 10 || c.full))

/-- The slots pass the end of ScanStore, or overlap those of a running raster or the pilot's (R349). -/
def Dev.slotsBad (d : Dev) (k : Nat) (c : RasterCfg) : Bool :=
  let g := granulesOf c
  let pilot := granulesOf (rasterCfg (ksReg d.boot.straps.fmt.toNat false false 0))
  decide (2048 < g.1 + g.2) || (d.running.any fun j => j != k && overlaps g (granulesOf (d.rcfg j)))
    || (d.boot.pilot.isSome && k != 0 && overlaps g pilot)

/-- A transmitter's limits carry no setting for the raster (R346). -/
def Dev.dpBad (d : Dev) (c : RasterCfg) : Bool :=
  (rangeFrom 0 2).any fun j =>
    let o := 0x90800 + 0x20 * j
    c.dp.testBit j && (dpSettings c (sppOf c * c.bits) (d.fld o 5 4) (d.fld o 2 0)).isEmpty

/-- Read demand in bytes a second: slot bytes × frame rate, as a fraction (R351). -/
def readDemand (c : RasterCfg) : Nat × Nat := ((rasterRate c).1 * rowBytes c * c.vact, (rasterRate c).2)

/-- The demand of the running rasters and this one is above 32 GB/s. -/
def Dev.demandBad (d : Dev) (k : Nat) (c : RasterCfg) : Bool :=
  let s := sumFrac (readDemand c :: ((d.running.filter (· != k)).map fun j => readDemand (d.rcfg j)))
  decide (32000000000 * s.2 < s.1)

/-- CFG_ERR of a set, in the order of the codes (DEDUCED), 0 where every check passes. -/
def Dev.scoErr (d : Dev) (k : Nat) (c : RasterCfg) : Nat :=
  if timingBad c then 1
  else if d.outputBad k c then 2
  else if samplingBad c then 3
  else if d.slotsBad k c then 4
  else if d.dpBad c then 5
  else if d.demandBad k c then 6
  else 0

/-! ## SCO_START and SCO_STOP (R364 to R366) -/

/-- Offences common to class 0x08 (R365). -/
def Dev.scoOffs (d : Dev) (c : Cmd) (fields : List (Nat × Nat × Nat)) : List Offence :=
  modeOff d.boot.mode.driver ++ dw1Offs c false ++ resOffs c fields

def specScoStart : CmdSpec := {
  cls := 0x08, opc := 0x01
  offs := fun d c => d.scoOffs c [(4, 1, 0)] ++ off 4 0 (d.raster (c.f 4 1 0)).run }

/-- Registers of raster `k` as SCO_START latches them. -/
def Dev.scoLatch (d : Dev) (k : Nat) : SMap Word :=
  (rangeFrom 0 9).foldl (fun m i => SMap.put 0 m (4 * i) (BitVec.ofNat 32 (d.reg (0x90000 + 0x100 * k + 4 * i)))) []

/-- SLOT_GRANULES and the policy afterwards. -/
def Dev.startResult (d : Dev) (k : Nat) : Nat := slotGranules (d.rcfg k) + d.urPolicy.toNat * 65536

/-- The effect of SCO_START. A free raster is locked at once; the others once their source is there (R343). -/
def scoStart (r : CmdRef) (c : Cmd) (d : Dev) : Dev :=
  let k := c.f 4 1 0
  let g := rasterCfg fun o => d.reg (0x90000 + 0x100 * k + o)
  match d.scoErr k g with
  | 0 =>
    let d := d.setRaster k { run := true, ks := false, latched := d.scoLatch k, locked := g.lock == 0
                             reports := (d.raster k).reports }
    let d := d.dpTrainOf k
    d.finish r stSuccess (d.startResult k)
  | e => (d.setRaster k { d.raster k with cfgErr := e }).setupFault r

/-- SCO_START (R365). -/
def execScoStart (r : CmdRef) (s : State) : Outcome State Fault Refusal := lift (runCmd specScoStart r (scoStart r)) s

/-- A running sprocket feeds raster `k`. -/
def Dev.scoFed (d : Dev) (k : Nat) : Bool :=
  (rangeFrom 0 8).any fun n => (d.spkOf n).state == .running && (d.skc n).dest == 3 && (d.skc n).destId == k

/-- The raster stops: sets that wait complete ABORTED; OUT_FRAME of the last frame answers the stop, a free value where
there was none. -/
def Dev.rasterStop (d : Dev) (k : Nat) : Dev :=
  let r := d.raster k
  let d := d.setRaster k { run := false, ks := false, cfgErr := r.cfgErr, reports := r.reports }
  let d := d.finishAll (r.restarts.map (·.ref)) stAborted 0
  match r.stopRef with
  | none => d
  | some ref =>
    if r.began then d.finish ref stSuccess ((r.count + (two32 - 1)) % two32)
    else let f := d.draw; f.2.finish ref stSuccess (f.1 % two32)

def specScoStop : CmdSpec := {
  cls := 0x08, opc := 0x02
  offs := fun d c => d.scoOffs c [(4, 1, 0), (4, 8, 8)]
    ++ off 4 0 (!(d.raster (c.f 4 1 0)).run || (d.raster (c.f 4 1 0)).stopRef.isSome || d.scoFed (c.f 4 1 0)) }

/-- The effect of SCO_STOP: NOW 1 between two lines, NOW 0 after the frame under way. -/
def scoStop (r : CmdRef) (c : Cmd) (d : Dev) : Dev :=
  let k := c.f 4 1 0
  let d := (d.begin r).setRaster k { d.raster k with stopRef := some r }
  if c.b 4 8 || !(d.raster k).active then d.rasterStop k else d

/-- SCO_STOP (R366). -/
def execScoStop (r : CmdRef) (s : State) : Outcome State Fault Refusal := lift (runCmd specScoStop r (scoStop r)) s

/-! ## SCO_RESTART (R366) -/

def specScoRestart : CmdSpec := {
  beside := sameIn 1 0
  cls := 0x08, opc := 0x03
  offs := fun d c => d.scoOffs c [(4, 1, 0), (5, 31, 0), (6, 31, 0)]
    ++ off 4 0 (!(d.raster (c.f 4 1 0)).run || (d.raster (c.f 4 1 0)).stopRef.isSome) ++ off 5 0 (c.q 5 % 64 != 0) }

/-- SW bits of the register at offset `o` of a raster's page. -/
def scoMask (o : Nat) : Nat := ((regAt (0x90000 + o)).map (·.sw)).getD 0

/-- Bits of a register that a SCO_RESTART must repeat: LOCK_SRC, QUAD, DP_OUT and SDI_OUT, all timing (PHASE_NS with it,
DEDUCED). -/
def scoKeep (o : Nat) : Nat :=
  match o with
  | 0 => msk 31 30 + 2 ^ 28 + msk 25 20
  | 0x1C => 0
  | _ => scoMask o

/-- Offending bytes of a SCO_RESTART block (R366, R519; a check of R342 to R351 names its register's byte: DEDUCED). -/
def Dev.scoBlkBad (d : Dev) (k : Nat) (blk : List Byte) : List Nat :=
  let new := rasterCfg fun o => bn blk o 4
  let diff := (rangeFrom 0 36).flatMap fun b =>
    bad b ((b8 blk b ^^^ (d.scoReg k (b / 4 * 4) / 256 ^ (b % 4) % 256)) &&& (scoKeep (b / 4 * 4) / 256 ^ (b % 4) % 256) != 0)
  blkReserved scoMask 9 blk ++ diff ++ match d.scoErr k new with
    | 0 => []
    | 3 => [1]
    | 4 => [0x1C]
    | 5 | 6 => [1]
    | _ => [0]

/-- SCO_RESTART (R366): the set waits for the raster's next frame start. -/
def execScoRestart (r : CmdRef) (blk : List Byte) (s : State) : Outcome State Fault Refusal :=
  lift (runBlk specScoRestart 5 (fun d c => d.scoBlkBad (c.f 4 1 0) (d.blockOf false 0 64 blk)) r fun c d =>
    let b : PendBlk := { ref := r, bytes := d.blockOf false 0 64 blk }
    let k := c.f 4 1 0
    (d.begin r).setRaster k { d.raster k with restarts := (d.raster k).restarts ++ [b] }) s

/-! ## The raster's events -/

/-- The reader binds for the next frame (R352, R353); a SPK_RESTART of the sprocket that feeds it takes force with it
(R221). -/
def Dev.rasterBind (d : Dev) (k : Nat) : Dev :=
  let r := d.raster k
  if !r.run || !d.boot.refDone || r.active then d else
  let d := d.readerBind k
  (rangeFrom 0 8).foldl (fun d n =>
    if d.spkRunning n && (d.skc n).dest == 3 && (d.skc n).destId == k then d.spkRestarts n else d) d

/-- RASTER_READER_BIND (R352, R353). -/
def execRasterReaderBind (k : Fin 4) (s : State) : Outcome State Fault Refusal := lift (fun d => d.rasterBind k.val) s

/-- Line 0 is the frame start that paces sprockets (R209). -/
def Dev.paceSpks (d : Dev) (k : Nat) : Dev :=
  (rangeFrom 0 8).foldl (fun d n =>
    if d.spkRunning n && (d.skc n).pace && (d.skc n).dest == 3 && (d.skc n).destId == k then
      d.modSpk n fun s => { s with paceDue := true }
    else d) d

/-- One active line; after the last one a stop that waits takes effect. -/
def Dev.rasterStep (d : Dev) (k : Nat) (badPixel : Option Nat) (eccCorr : Nat) : Dev :=
  let r := d.raster k
  if !r.run || !r.active then d else
  let d := if r.line = 0 then d.paceSpks k else d
  let d := d.rasterLine k badPixel eccCorr
  if !(d.raster k).active && (d.raster k).stopRef.isSome then d.rasterStop k else d

/-- RASTER_LINE (R355, R356). -/
def execRasterLine (k : Fin 4) (badPixel : Option Nat) (eccCorr : Nat) (s : State) : Outcome State Fault Refusal :=
  lift (fun d => d.rasterStep k.val badPixel eccCorr) s

/-- The observation receivers recovered `src` from output `n` (R359). -/
def pinMatches (pins : List PinCrc) (n : Nat) (src : List Nat) : Bool :=
  pins.any fun p => p.output == n && p.crc.any fun c => [c.1, c.2.1, c.2.2] == src

/-- Pin CRCs of output `n`; free values from `free` on where its receiver was not locked (log entry 72). -/
def pinOf (free : Nat) (pins : List PinCrc) (n : Nat) : List Nat :=
  (((pins.find? (·.output == n)).bind (·.crc)).map fun c => [c.1, c.2.1, c.2.2]).getD
    ((rangeFrom free 3).map fun k => Config.freeNat k % two32)

/-- MISMATCH of a report (R359): a DisplayPort output that the link did not carry is not compared. -/
def mismatchOf (f : FrameRep) (pins : List PinCrc) : Nat :=
  ((rangeFrom 0 4).filter fun n => f.sdi.testBit n && !pinMatches pins n f.crcSdi).foldl (fun a n => a + 2 ^ n) 0
    + ((rangeFrom 0 2).filter fun j => f.dp.testBit j && f.dpUp.testBit j && !pinMatches pins (4 + j) f.crcDp).foldl
      (fun a j => a + 2 ^ (4 + j)) 0

/-- Three CRCs at an offset. -/
def crcFlds (o : Nat) (cs : List Nat) : List Fld := (rangeFrom 0 3).map fun i => ⟨o + 4 * i, 4, cs.getD i 0⟩

/-- The body of FRAME_OUT (Table 13-4). -/
def frameOutBody (free k : Nat) (f : FrameRep) (pins : List PinCrc) : List Fld :=
  let mm := mismatchOf f pins
  let z := [0, 0, 0]
  let sdi := (rangeFrom 0 4).find? fun n => f.sdi.testBit n
  let dp := (rangeFrom 0 2).find? fun j => f.dp.testBit j
  let dpOn := dp.filter fun j => f.dpUp.testBit j
  [⟨32, 4, f.out⟩, ⟨36, 1, k⟩, ⟨37, 1, f.flags + if mm = 0 then 0 else 8⟩, ⟨38, 1, f.slot⟩,
   ⟨39, 1, mm + f.crash.toNat * 64⟩, ⟨40, 4, f.under⟩, ⟨44, 2, f.lead⟩]
    ++ crcFlds 48 (if sdi.isSome then f.crcSdi else z) ++ crcFlds 60 ((sdi.map (pinOf free pins)).getD z)
    ++ crcFlds 72 (if dpOn.isSome then f.crcDp else z) ++ crcFlds 84 ((dpOn.map fun j => pinOf (free + 3) pins (4 + j)).getD z)

/-- FRAME_OUT (R359, R360): the oldest frame whose report is due. -/
def Dev.frameOut (d : Dev) (k : Nat) (pins : List PinCrc) : Dev :=
  let r := d.raster k
  match r.reports with
  | [] => d
  | f :: fs =>
    let d := d.setRaster k { r with reports := fs }
    let d := if mismatchOf f pins = 0 then d else d.count (0x90070 + 0x100 * k) 1
    if f.report then
      ({ d with free := d.free + 6 }).post 0x2001 2 f.index 9 k (frameOutBody d.free k f pins) f.time
    else d

/-- FRAME_OUT (R360). -/
def execFrameOut (k : Fin 4) (pins : List PinCrc) (s : State) : Outcome State Fault Refusal :=
  lift (fun d => d.frameOut k.val pins) s

/-- LOCK_SOURCE_LOST (R344): the pixel clock is held, LOCKED clears. -/
def execLockSourceLost (k : Fin 4) (s : State) : Outcome State Fault Refusal :=
  lift (fun d =>
    if (d.raster k.val).run && (d.rcfg k.val).lock != 0 then d.setRaster k.val { d.raster k.val with locked := false }
    else d) s

/-- LOCK_SOURCE_REGAINED (R344): an error of more than one line is removed at one frame start. -/
def execLockSourceRegained (k : Fin 4) (errLines : Nat) (s : State) : Outcome State Fault Refusal :=
  lift (fun d =>
    let r := d.raster k.val
    if r.run && (d.rcfg k.val).lock != 0 && !r.locked then
      d.setRaster k.val { r with locked := true, crash := r.crash || decide (1 < errLines) }
    else d) s

/-! ## DisplayPort (R347, R366) -/

/-- HPD asserts: the sink is read and the link trained. -/
def Dev.hpdUp (d : Dev) (j : Nat) (sink : SinkFacts) : Dev :=
  if (d.dpTx j).hpd then d else
  ((d.setDp j { d.dpTx j with hpd := true, sink := sink }).dpEvent j 1).dpTrain j

/-- HPD_ASSERT (R347). -/
def execHpdAssert (j : Fin 2) (sink : SinkFacts) (s : State) : Outcome State Fault Refusal :=
  lift (fun d => d.hpdUp j.val sink) s

/-- The link of transmitter `j` is not up any more: frames under way are not carried. -/
def Dev.dpDrop (d : Dev) (j : Nat) : Dev :=
  (rangeFrom 0 4).foldl (fun d k =>
    let r := d.raster k
    if r.dpUp.testBit j then d.setRaster k { r with dpUp := r.dpUp - 2 ^ j } else d) d

/-- HPD_DEASSERT (R347): for 2 ms or more, the link is down. -/
def execHpdDeassert (j : Fin 2) (s : State) : Outcome State Fault Refusal :=
  lift (fun d =>
    let t := d.dpTx j.val
    if !t.hpd then d else
    ((((d.dpDrop j.val).setDp j.val { t with hpd := false, trained := false, lanes := 0, rate := 0 }).emit
      (.dpLink j.val 0 0)).dpEvent j.val 2)) s

/-- HPD_IRQ (R347): the link status is read, and lost lock retrained. -/
def execHpdIrq (j : Fin 2) (lockLost : Bool) (sink : SinkFacts) (s : State) : Outcome State Fault Refusal :=
  lift (fun d =>
    let t := d.dpTx j.val
    if !t.hpd || !lockLost then d
    else ((d.dpDrop j.val).setDp j.val { t with sink := sink }).dpTrain j.val) s

def specDpAux : CmdSpec := {
  cls := 0x08, opc := 0x20
  offs := fun d c => d.scoOffs c [(4, 0, 0), (4, 3, 2), (4, 12, 8), (5, 19, 0), (6, 31, 0), (7, 31, 0)]
    ++ off 4 8 (decide (15 < c.f 4 12 8)) ++ off 5 7 (decide (2 ≤ c.f 4 3 2) && decide (127 < c.f 5 19 0))
    ++ off 6 0 (c.q 6 % 64 != 0) }

/-- DP_AUX (R366): `reply` is the bytes that the sink accepted or gave, none for a NACK or seven DEFERs. What a read
returns is the sink's: the host buffer's content is not modelled (log entry 5). -/
def dpAux (r : CmdRef) (reply : Option Nat) (c : Cmd) (d : Dev) : Dev :=
  let j := c.f 4 0 0
  if !(d.dpTx j).hpd then d.finish r stLinkDown 0
  else match reply with
    | none => (d.emit (.dpAux j (c.f 5 19 0) [])).finish r stBusNack 0
    | some n =>
      let n := min n (c.f 4 12 8 + 1)
      let d := d.emit (.dpAux j (c.f 5 19 0) [])
      let d := if c.f 4 2 2 = 0 then d.undefBuf false (c.q 6) n else d
      d.finish r stSuccess n

/-- DP_AUX (R366). -/
def execDpAux (r : CmdRef) (reply : Option Nat) (s : State) : Outcome State Fault Refusal :=
  lift (runCmd specDpAux r (dpAux r reply)) s

/-! ## SDI inputs (R361 to R363) -/

def Dev.setSdi (d : Dev) (i : Nat) (v : SdiIn) : Dev := { d with sco := { d.sco with sdi := SMap.put {} d.sco.sdi i v } }

/-- The mode runs SDI inputs (R365). -/
def Dev.sdiMode (d : Dev) : Bool := d.boot.mode == .capture || d.boot.mode == .analyser

def specSdiInStart : CmdSpec := {
  cls := 0x08, opc := 0x10
  feat := fun d _ => d.feat 11
  offs := fun d c => modeOff d.sdiMode ++ dw1Offs c false ++ resOffs c [(4, 0, 0)] ++ off 4 0 (d.sdiIn (c.f 4 0 0)).run }

/-- An expected format outside R361, unless AUTO adopts the received one: above 30 frames a second an input takes YCbCr
4:2:2 at 10 bits alone. -/
def Dev.sdiCfgBad (d : Dev) (i : Nat) : Bool :=
  let w := d.sdiWant i
  !(d.reg (0x90C00 + 0x40 * i)).testBit 0
    && (decide (31 < w.fmt) || !(w.bits == 10 || w.bits == 12) || decide (2 < w.sampling)
      || (decide (4 < w.fmt % 8) && !(w.sampling == 0 && w.bits == 10)))

/-- SDI_IN_START (R362). -/
def execSdiInStart (r : CmdRef) (s : State) : Outcome State Fault Refusal :=
  lift (runCmd specSdiInStart r fun c d =>
    let i := c.f 4 0 0
    if d.pwr.disabled.contains 55 then d.finish r stEngineDown 0
    else if d.sdiCfgBad i then d.setupFault r
    else (d.setSdi i { d.sdiIn i with
      run := true, stopping := false, want := d.sdiWant i, auto := (d.reg (0x90C00 + 0x40 * i)).testBit 0
      lastIndex := none }).finish r stSuccess 0) s

/-- A running sprocket or STU unit takes input `i` (R366). -/
def Dev.sdiTaken (d : Dev) (i : Nat) : Bool :=
  ((rangeFrom 0 8).any fun n => (d.spkOf n).state == .running && (d.skc n).kind == 4 && (d.skc n).id == i)
    || (d.stuUnit (2 + i)).running
    || ((rangeFrom 0 2).any fun u =>
      let v := d.stuUnit u
      v.running && v.latched.toNat.testBit 0 && bitsOf v.latched.toNat 6 4 == i)

def specSdiInStop : CmdSpec := {
  cls := 0x08, opc := 0x11
  offs := fun d c => d.scoOffs c [(4, 0, 0)] ++ off 4 0 (!(d.sdiIn (c.f 4 0 0)).run || d.sdiTaken (c.f 4 0 0)) }

/-- An input stops. -/
def Dev.sdiHalt (d : Dev) (i : Nat) : Dev := d.setSdi i { d.sdiIn i with run := false, locked := false, format := ⟨0, 0, 0, 0⟩ }

/-- SDI_IN_STOP (R366): the last frame delivered. -/
def execSdiInStop (r : CmdRef) (s : State) : Outcome State Fault Refusal :=
  lift (runCmd specSdiInStop r fun c d =>
    let i := c.f 4 0 0
    (d.sdiHalt i).finish r stSuccess ((d.sdiIn i).lastIndex.getD ones64)) s

/-- LINK_EVENT of an SDI input (Table 13-5). -/
def Dev.sdiEvent (d : Dev) (i ev : Nat) (f : SdiFormat) : Dev :=
  d.linkEvent (2 + i) ev f.std 0 (sdiSize f.fmt).1 (sdiSize f.fmt).2 f.fmt

/-- An input locks, or its format changes; with AUTO the format is adopted (R362). -/
def Dev.sdiLock (d : Dev) (i : Nat) (f : SdiFormat) : Dev :=
  let v := d.sdiIn i
  if !v.run || (v.locked && v.format == f) then d else
  (d.setSdi i { v with locked := true, format := f, want := if v.auto then f else v.want }).sdiEvent i
    (if v.locked then 7 else 5) f

/-- SDI_INPUT_LOCK (R362). -/
def execSdiInputLock (i : Fin 2) (f : SdiFormat) (s : State) : Outcome State Fault Refusal := lift (fun d => d.sdiLock i.val f) s

/-- LTS of the first active line of a frame (R362). -/
def Dev.sdiStart (d : Dev) (f : SdiFrame) : Nat := d.now - f.ageNs * tNs

/-- A frame has the format that the input expects (R362). -/
def Dev.sdiFits (d : Dev) (i : Nat) (f : SdiFrame) : Bool :=
  let w := (d.sdiIn i).want
  f.format.fmt == w.fmt && f.format.bits == w.bits && f.format.sampling == w.sampling

/-- The frame under way at an input, of which `part` had arrived, ends for every taker: its start has taken an index,
and what measures the input cancels it (R224, R363). Between two frames there is none. -/
def Dev.sdiBreak (d : Dev) (i : Nat) (locked : Bool) (part : Option SdiFrame) : Dev :=
  match part with
  | none => d
  | some f =>
    let v := d.sdiIn i
    let n := v.nextIndex
    let ok := d.sdiFits i f
    let d := d.setSdi i { v with nextIndex := n + 1 }
    let d := d.sdiStatsCancel i n locked f (d.sdiStart f)
    if ok then (d.scopeBegin 1 i n).scopeSdiCancel i n 0 (d.sdiStart f) f.pixels.length fun _ => true else d

/-- The input loses lock: during a frame, that ends it (R363). -/
def Dev.sdiLost (d : Dev) (i : Nat) (part : Option SdiFrame) : Dev :=
  let v := d.sdiIn i
  if !v.run || !v.locked then d
  else
    let d := ((d.sdiBreak i false part).count (0x90C18 + 0x40 * i) 1).sdiEvent i 6 v.format
    d.setSdi i { d.sdiIn i with locked := false }

/-- SDI_INPUT_LOST (R363). -/
def execSdiInputLost (x : SdiCut) (s : State) : Outcome State Fault Refusal :=
  lift (fun d => d.sdiLost x.input.val x.part) s

/-- A frame goes to the sprockets that take the input. -/
def Dev.sdiDeliver (d : Dev) (i index : Nat) (f : SdiFrame) : Dev :=
  (rangeFrom 0 8).foldl (fun d n =>
    if d.spkRunning n && (d.skc n).kind == 4 && (d.skc n).id == i then
      d.modSpk n fun s => { s with arrivals := s.arrivals ++ [{
        index := index, input := .sdi i f.format.bits (f.format.sampling == 0) f.pixels, expStart := d.sdiStart f }] }
    else d) d

/-- An SDI frame as a scope sees it. -/
def sdiPic (f : SdiFrame) : Pic := {
  w := (f.pixels.headD []).length, h := f.pixels.length, bits := f.format.bits, subX := f.format.sampling == 0
  subY := false, rows := f.pixels.length, code := fun x y => (f.pixels.getD y []).getD x (0, 0, 0) }

/-- A whole received frame (R362, R363): it takes an index; of the expected format it is delivered, else counted. -/
def Dev.sdiFrame (d : Dev) (i : Nat) (f : SdiFrame) : Dev :=
  let v := d.sdiIn i
  if !v.run || !v.locked then d else
  let n := v.nextIndex
  let ok := d.sdiFits i f
  let e := d.sdiStart f
  let d := d.setSdi i { v with nextIndex := n + 1, lastIndex := if ok then some n else v.lastIndex }
  let d := d.sdiStats i n f e
  if ok then
    (((d.sdiDeliver i n f).scopeBegin 1 i n).scopeSdiCancel i n 64 e 0 f.outrun.toNat.testBit).scopeEnd 1 i n (sdiPic f) 0
      (7 + i) 0 e
  else d.count (0x90C14 + 0x40 * i) 1

/-- SDI_INPUT_FRAME (R362). -/
def execSdiInputFrame (i : Fin 2) (f : SdiFrame) (s : State) : Outcome State Fault Refusal :=
  lift (fun d => d.sdiFrame i.val f) s

end Sys2Proof.Machine
end

