-- ==== Sys2Proof/Machine/TwoWire.lean ====
section
/-! DEFINITION. Class 0x0B commands and the events of the two-wire buses (chapter 15). -/

namespace Sys2Proof.Machine

open Host

/-- Offences common to class 0x0B (R406): mode, dword 1, reserved bits. -/
def Dev.twOffs (d : Dev) (c : Cmd) (fields : List (Nat × Nat × Nat)) : List Offence :=
  modeOff d.boot.mode.driver ++ dw1Offs c false ++ resOffs c fields

/-- A controller's engine is in reset: enable and disable wait for its end (R403, R485). -/
def Dev.twInReset (d : Dev) (c : Nat) : Bool := d.eng.resets.any (·.code == 0x48 + c)

/-! ## TW_ENABLE and TW_DISABLE (R401 to R403) -/

def specTwEnable : CmdSpec := {
  cls := 0x0B, opc := 0x01
  offs := fun d c => d.twOffs c [(4, 2, 0)] ++ off 4 0 (!d.twOff (c.f 4 2 0) && !d.twInReset (c.f 4 2 0)) }

/-- A running port, not a secondary of a gang, names the controller in TW_CTRL (R402). -/
def Dev.twNamed (d : Dev) (c : Nat) : Bool :=
  (rangeFrom 0 4).any fun p => !d.portStopped p && (d.port p).state != .gangSecondary && d.portCtl p == c

def specTwDisable : CmdSpec := {
  cls := 0x0B, opc := 0x02
  offs := fun d c => d.twOffs c [(4, 2, 0)] ++ off 4 0 (d.twNamed (c.f 4 2 0)) }

/-- The bus clear (R401): SDA high after `k` clocks, or still low after the ninth. -/
def Dev.busClear (d : Dev) (c : Nat) (k : Option Nat) : Dev × Nat × Nat :=
  let d := d.modCtl c fun v => { v with cur := none, hold := .running, busBusy := false, sclHeld := false }
  match k with
  | some n =>
    if n ≤ 9 then
      let d := if n = 0 then d else (d.emit (.twClear c n)).count (twReg c 0x30) 1
      ((d.emit (.twStop c)).modCtl c fun v => { v with state := .enabled, sda := true, scl := true }, stSuccess, n)
    else ((d.emit (.twClear c 9)).modCtl c fun v => { v with state := .stuck, sda := false }, stStuckLow, 9)
  | none => ((d.emit (.twClear c 9)).modCtl c fun v => { v with state := .stuck, sda := false }, stStuckLow, 9)

/-- The effect of TW_ENABLE: SPEED 3 is a set-up register fault (R401, R518). -/
def twEnable (k : Option Nat) (r : CmdRef) (c : Cmd) (d : Dev) : Dev :=
  let n := c.f 4 2 0
  if d.twInReset n then d
  else if d.fld (twReg n 0) 1 0 = 3 then d.setupFault r
  else
    let e := d.busClear n k
    e.1.finish r e.2.1 e.2.2

/-- TW_ENABLE (R401). -/
def execTwEnable (r : CmdRef) (sdaHighAfter : Option Nat) (s : State) : Outcome State Fault Refusal :=
  lift (runCmd specTwEnable r (twEnable sdaHighAfter r)) s

/-- The effect of TW_DISABLE: it waits for the transfer in hand (R402); a wait for SCL ends (R395). -/
def twDisable (r : CmdRef) (c : Cmd) (d : Dev) : Dev :=
  let n := c.f 4 2 0
  if d.twInReset n ∨ (d.ctl n).disabling.isSome then d
  else ((d.begin r).modCtl n fun v => { v with disabling := some r }).twSettle n

/-- TW_DISABLE (R402). -/
def execTwDisable (r : CmdRef) (s : State) : Outcome State Fault Refusal := lift (runCmd specTwDisable r (twDisable r)) s

/-! ## TW_XFER (R391 to R393, R402, R406) -/

/-- WLEN and RLEN that an operation allows (Table 15-6). -/
def twLenOffs (c : Cmd) (smbus : Bool) : List Offence :=
  let op := c.f 4 18 16
  let w := c.f 6 12 0
  let r := c.f 6 28 16
  let wr := fun (lo hi : Nat) => off 6 0 (!(decide (lo ≤ w) && decide (w ≤ hi)))
  let rd := fun (lo hi : Nat) => off 6 16 (!(decide (lo ≤ r) && decide (r ≤ hi)))
  match smbus, op with
  | false, 0 => wr 1 4096 ++ rd 0 0
  | false, 1 => wr 0 0 ++ rd 1 4096
  | false, 2 => wr 0 4096 ++ rd 0 4096 ++ off 6 0 (w == 0 && r == 0)
  | true, 0 => wr 0 0 ++ rd 0 0
  | true, 1 => wr 0 0 ++ rd 1 1
  | true, 2 => wr 1 32 ++ rd 0 0
  | true, 3 => wr 0 0 ++ rd 1 32
  | true, 4 => wr 1 255 ++ rd 0 0
  | true, 5 => wr 0 0 ++ rd 1 255
  | _, _ => off 4 16 true

/-- Bits of PTR or CMD that must be 0 (Table 15-5): all for RAW and RECEIVE_BYTE, the upper byte for one-byte forms. -/
def Dev.ptrOffs (d : Dev) (c : Cmd) : List Offence :=
  let n := c.f 4 2 0
  let e := c.f 4 12 8
  let sm := d.tgtSmbus n e
  let op := c.f 4 18 16
  let v := c.f 5 15 0
  if (sm && op == 1) || (!sm && op == 2) then off 5 (lowBit v 16) (v != 0)
  else off 5 (lowBit (v / 256 * 256) 16) (decide (256 ≤ v) && (sm || !d.tgtPtr16 n e))

def specTwXfer : CmdSpec := {
  cls := 0x0B, opc := 0x10
  offs := fun d c =>
    d.twOffs c [(4, 2, 0), (4, 12, 8), (4, 18, 16), (4, 24, 24), (5, 15, 0), (6, 12, 0), (6, 28, 16), (7, 31, 0),
        (8, 31, 0), (9, 31, 0), (10, 31, 0)]
      ++ off 4 8 (d.tgtBad (c.f 4 2 0) (c.f 4 12 8)) ++ twLenOffs c (d.tgtSmbus (c.f 4 2 0) (c.f 4 12 8))
      ++ d.ptrOffs c
      ++ off 7 0 ((c.f 6 12 0 == 0 && c.q 7 != 0) || (c.b 4 24 && c.f 6 12 0 != 0 && d.devBad (c.q 7) (c.f 6 12 0)))
      ++ off 9 0 ((c.f 6 28 16 == 0 && c.q 9 != 0)
          || (c.b 4 24 && c.f 6 28 16 != 0 && d.devBad (c.q 9) (c.f 6 28 16))) }

/-- The transfer of a TW_XFER entry; its data is the buffer's, from device memory where DEV is 1. -/
def newXfer (c : Cmd) (data : List Byte) (d : Dev) : Xfer := {
  ref := c.ref, entry := c.f 4 12 8, op := c.f 4 18 16, ptr := c.f 5 15 0
  data := if c.b 4 24 then Mem.rdN d.mem.lpddr (c.q 7) (c.f 6 12 0)
    else (data ++ List.replicate (c.f 6 12 0) 0).take (c.f 6 12 0)
  wlen := c.f 6 12 0, rlen := c.f 6 28 16, dev := c.b 4 24, raddr := c.q 9, num := c.num }

/-- TW_XFER (R390, R402): queued at its controller; ENGINE_DOWN at one that is disabled, being disabled, or STUCK. -/
def execTwXfer (r : CmdRef) (data : List Byte) (s : State) : Outcome State Fault Refusal :=
  lift (runCmd specTwXfer r fun c d =>
    let n := c.f 4 2 0
    if d.twOff n || (d.ctl n).disabling.isSome then d.finish r stEngineDown 0
    else (d.begin r).modCtl n fun v => { v with xfers := v.xfers ++ [newXfer c data d] }) s

/-! ## Bus events -/

/-- TW_TRANSACTION_START (R390): at a boundary on a free bus. -/
def execTwTransactionStart (c : Fin 8) (s : State) : Outcome State Fault Refusal := lift (fun d => d.twNext c.val) s

/-- Data bytes that a transaction reads: the chunk of a pointer read, or what the protocol reads (Table 15-6). -/
def Dev.readLen (d : Dev) (c : Nat) (x : Xfer) (count : Nat) : Nat :=
  if d.tgtSmbus c x.entry then (if x.op = 5 then min count x.rlen else x.rlen)
  else if x.op = 2 then x.rlen else if x.op = 1 then d.chunk c x else 0

/-- The TW_XFER in hand ends one transaction (R392, R393, Table 15-7). -/
def Dev.xferStep (d : Dev) (c : Nat) (x : Xfer) (e : TxEnd) : Dev :=
  let sm := d.tgtSmbus c x.entry
  let block := sm && x.op == 5
  let cnt := e.blockCount % 256
  let n := d.readLen c x cnt
  if e.read.length < n then d else
  let short := block && (cnt == 0 || decide (x.rlen < cnt))
  let y : Xfer := { x with
    got := x.got ++ e.read.take n
    written := if x.wlen = 0 then 0 else if !sm && x.op == 0 then x.written + d.chunk c x else x.wlen
    trunc := short, count := if block then cnt else 0 }
  let d := ((d.emit (.twStop c)).twClear c).modXfer c x.ref fun _ => y
  let done := block || y.written + y.got.length == x.wlen + x.rlen
  let pecBad := d.tgtPec c x.entry && decide (0 < x.rlen) && !short && !e.pecOk
  (if done then d.xferEnd c y (if pecBad then stPec else stSuccess) else d).twSettle c

/-- A transaction ends with STOP (R398): a program's write is done, and with its last the program (R137). -/
def Dev.twEnd (d : Dev) (c : Nat) (e : TxEnd) : Dev :=
  match (d.ctl c).cur, (d.ctl c).hold, e.nack with
  | some _, .running, some b => d.twNack c b e.written
  | some (.xfer r), .running, none => match d.xfer? c r with
    | some x => d.xferStep c x e
    | none => d
  | some (.prog p r), .running, none => match d.prog? p r with
    | none => d
    | some g =>
      let d := ((d.emit (.twStop c)).twClear c).modProg p r fun g => { g with done := g.done + 1 }
      (if g.done + 1 = g.writes.length then (d.noteOverrun g c).progEnd g stSuccess else d).twSettle c
  | _, _, _ => d

/-- TW_TRANSACTION_END. -/
def execTwTransactionEnd (c : Fin 8) (e : TxEnd) (s : State) : Outcome State Fault Refusal :=
  lift (fun d => d.twEnd c.val e) s

/-- ARBITRATION_LOSS (R399, R400). -/
def execArbitrationLoss (c : Fin 8) (byte : Nat) (bit : Fin 8) (s : State) : Outcome State Fault Refusal :=
  lift (fun d => d.twLost c.val byte bit.val) s

/-- BUS_NACK (R397, R398). -/
def execBusNack (c : Fin 8) (byte acked : Nat) (s : State) : Outcome State Fault Refusal :=
  lift (fun d => d.twNack c.val byte acked) s

/-- WAKE_DELAY_EXPIRY (R397): the transaction is repeated from its START, as soon as the bus is free. -/
def execWakeDelayExpiry (c : Fin 8) (s : State) : Outcome State Fault Refusal :=
  lift (fun d => if (d.ctl c.val).hold = .waking then (d.modCtl c.val fun v => { v with hold := .lost }).twNext c.val
    else d) s

/-- The stretch timeout of the transaction in hand is on: S or M by the entry's class (R394). -/
def Dev.stretchOn (d : Dev) (c : Nat) : Bool :=
  if d.tgt c (d.ctl c).lastEntry 0 12 12 = 1 then d.fld (twReg c 0) 23 16 != 0 else d.fld (twReg c 0) 31 24 != 0

/-- STRETCH_TIMEOUT (R394, R395). -/
def execStretchTimeout (c : Fin 8) (acked : Nat) (s : State) : Outcome State Fault Refusal :=
  lift (fun d => if d.stretchOn c.val then d.twStretch c.val acked stStretchTimeout else d) s

/-- STRETCH_VIOLATION (R394): only a class M entry has one. -/
def execStretchViolation (c : Fin 8) (acked : Nat) (s : State) : Outcome State Fault Refusal :=
  lift (fun d => if d.tgt c.val (d.ctl c.val).lastEntry 0 12 12 = 1 then d.twStretch c.val acked stStretchViolation
    else d) s

/-- SCL_RELEASED (R395): STOP is sent and the controller leaves BUS_BUSY. -/
def execSclReleased (c : Fin 8) (s : State) : Outcome State Fault Refusal :=
  lift (fun d => if (d.ctl c.val).sclHeld then
      (d.emit (.twStop c.val)).modCtl c.val fun v => { v with sclHeld := false, scl := true }
    else d) s

/-- BUS_FREE_TIMEOUT (R389): SCL and SDA have stayed high for 50 us; the next transaction may start (R400). -/
def execBusFreeTimeout (c : Fin 8) (s : State) : Outcome State Fault Refusal :=
  lift (fun d => d.modCtl c.val fun v => { v with busBusy := false }) s

/-- START_OR_STOP_SEEN (R389): another controller's START makes the bus busy, its STOP frees it. -/
def execStartOrStopSeen (c : Fin 8) (start : Bool) (s : State) : Outcome State Fault Refusal :=
  lift (fun d => d.modCtl c.val fun v => { v with busBusy := start }) s

end Sys2Proof.Machine
end

