-- ==== Sys2Proof/Machine/Cut.lean ====
section
/-! DEFINITION. Ending a fetched command as an ABORT would (R94, R96), by class: at once where it has not begun, at the
stop point of its class chapter where it has one, and not at all past the last one. -/

namespace Sys2Proof.Machine

/-- Sessions and volumes that wait for commands look again (R271, R290, R314, R322). -/
def Dev.settleAll (d : Dev) : Dev :=
  let d := (d.codec.enc.map (·.1)).foldl (fun (d : Dev) h => d.encSettle h) d
  let d := (d.codec.dec.map (·.1)).foldl (fun (d : Dev) h => d.decSettle h) d
  let d := (d.lse.sessions.map (·.1)).foldl (fun (d : Dev) h => d.lseSettle h) d
  let d := (d.lse.raw.map (·.1)).foldl (fun (d : Dev) p => d.rawSettle p) d
  (d.recd.vols.map (·.1)).foldl (fun (d : Dev) n => d.volSettle n) d

/-- RESULT of a command that ends before it begins (R77): a data command of REC names no slot (Table 12-8). -/
def cutResult (c : Cmd) : Nat := if isRecData c then recNothing else 0

/-! ## Pending work of each class -/

/-- A SEM_ACQUIRE that waits (R101). -/
def Dev.cutLock (d : Dev) (r : CmdRef) : Option Dev :=
  (d.hif.locks.find? fun e => e.2.waiters.any (·.1 == r)).map fun e =>
    d.setLock e.1 { e.2 with waiters := e.2.waiters.filter (·.1 != r) }

/-- A pending SUBMIT_PROGRAM whose issue has not begun (R140), or that waits for a place. -/
def Dev.cutProg (d : Dev) (r : CmdRef) : Option Dev :=
  ((rangeFrom 0 4).find? fun p =>
    (d.port p).waiting.any (·.ref == r) || (d.port p).programs.any fun g => g.ref == r && !g.issuing).map fun p =>
      d.dropProg p r

/-- The running MP_FRAME stops at the next line boundary (R132): at once where no frame of it is open. -/
def Dev.cutMp (d : Dev) (r : CmdRef) (st : Nat) : Option Dev :=
  if (d.port 4).mpRun != some r || (d.port 4).mpAbort.isSome then none
  else if (d.port 4).frame.isNone then some (d.mpEnd st 0)
  else some (d.modPort 4 fun v => { v with mpAbort := some st })

def notRef (r : CmdRef) (l : List PendBlk) : List PendBlk := l.filter (·.ref != r)
def hasRef (r : CmdRef) (l : List PendBlk) : Bool := l.any (·.ref == r)

/-- A parameter block, table or colour block that is not bound yet (R177, R204). -/
def Dev.cutBlk (d : Dev) (r : CmdRef) : Option Dev :=
  match (rangeFrom 0 5).find? fun s => hasRef r (d.rfe? s).blocks || hasRef r (d.rfe? s).loads
      || hasRef r (SMap.get [] d.cbe.blocks s) with
  | some s =>
    let v := d.rfe? s
    let d := d.setRfe s { v with blocks := notRef r v.blocks, loads := notRef r v.loads }
    some { d with cbe := { d.cbe with blocks := SMap.put [] d.cbe.blocks s (notRef r (SMap.get [] d.cbe.blocks s)) } }
  | none => (d.cbe.luts.find? fun e => e.2.pend.any (·.ref == r)).map fun e => d.setLut e.1 { e.2 with pend := none }

/-- A block, load, buffer or frame that a sprocket holds and has not taken (R222, R223). -/
def Dev.cutSpk (d : Dev) (r : CmdRef) : Option Dev :=
  ((rangeFrom 0 8).find? fun n =>
    let s := d.spkOf n
    hasRef r s.paths || hasRef r s.loads || hasRef r s.restarts || s.bufs.any (·.ref == r)
      || s.submits.any (·.ref == r)).map fun n => d.modSpk n fun s => { s with
        paths := notRef r s.paths, loads := notRef r s.loads, restarts := notRef r s.restarts
        bufs := s.bufs.filter (·.ref != r), submits := s.submits.filter (·.ref != r) }

/-- The buffer that a sprocket fills: its frame is abandoned and counted in DROP_NO_BUFFER, and the buffer's content is
undefined (R223). -/
def Dev.cutFilling (d : Dev) (r : CmdRef) (st : Nat) : Option Dev :=
  ((rangeFrom 0 8).find? fun n => (d.spkOf n).cur.any fun f => f.buf.any (·.ref == r)).map fun n =>
    ((d.count (spkCtr n 3) 1).spkSpoil n st 0).spkAbandon n none

/-- An STU_BUFFER that no record has taken (R242). -/
def Dev.cutStu (d : Dev) (r : CmdRef) : Option Dev :=
  (d.stu.bufs.find? fun e => e.2.any (·.ref == r)).map fun e =>
    { d with stu := { d.stu with bufs := SMap.put [] d.stu.bufs e.1 (e.2.filter (·.ref != r)) } }

/-- A DEC_OUTPUT to which no picture is assigned (R289). -/
def Dev.cutDec (d : Dev) (r : CmdRef) : Option Dev :=
  (d.codec.dec.find? fun e => e.2.any fun s => s.bufs.any (·.ref == r)).map fun e =>
    d.modDec e.1 fun s => { s with bufs := s.bufs.filter (·.ref != r) }

/-- An LSE_RAW_BUFFER that no record has taken (R312). -/
def Dev.cutRaw (d : Dev) (r : CmdRef) : Option Dev :=
  (d.lse.raw.find? fun e => e.2.any fun s => s.bufs.any (·.ref == r)).map fun e =>
    d.modRaw e.1 fun s => { s with bufs := s.bufs.filter (·.ref != r) }

/-- Recorder I/O and REC_EVENT (R335). -/
def Dev.cutRec (d : Dev) (r : CmdRef) (st : Nat) : Option Dev :=
  if d.recd.waiting.contains r then
    some (({ d with recd := { d.recd with waiting := d.recd.waiting.filter (· != r) } }).finish r st 0)
  else match d.rec? r with
    | some e => if e.ending.isSome then none else some (d.recCut r st)
    | none => none

/-- A waiting SCO_RESTART (R366). -/
def Dev.cutSco (d : Dev) (r : CmdRef) : Option Dev :=
  ((rangeFrom 0 4).find? fun k => hasRef r (d.raster k).restarts).map fun k =>
    d.setRaster k { d.raster k with restarts := notRef r (d.raster k).restarts }

/-- A SET_ROUTE before its time, or a SCHEDULE_EDGE, which ends after the pulse in progress (Table 4-21). -/
def Dev.cutTeu (d : Dev) (r : CmdRef) (st : Nat) : Option Dev :=
  if d.teu.routes.any (·.ref == r) then
    some (({ d with teu := { d.teu with routes := d.teu.routes.filter (·.ref != r) } }).finish r st 0)
  else match d.pulse? r with
    | none => none
    | some p =>
      if p.ending.isSome then none
      else if p.high then some (d.modPulse r fun p => { p with ending := some st })
      else some (({ d with teu := { d.teu with pulses := d.teu.pulses.filter (·.ref != r) } }).finish r st p.driven)

/-- A TW_XFER before its first START (R406). -/
def Dev.cutTw (d : Dev) (r : CmdRef) : Option Dev :=
  ((rangeFrom 0 8).find? fun c => (d.ctl c).xfers.any fun x => x.ref == r && !x.started).map fun c =>
    d.modCtl c fun v => { v with xfers := v.xfers.filter (·.ref != r) }

/-- End a begun command with `st`: none where its last stop point has passed. -/
def Dev.cutBegun (d : Dev) (c : Cmd) (st : Nat) : Option Dev :=
  let r := c.ref
  let fin := fun (o : Option Dev) => o.map fun (d : Dev) => d.finish r st 0
  match c.cls with
  | 0 => fin (d.cutLock r)
  | 1 =>
    if c.opc = 0x20 then d.cutMp r st
    else (fin (d.cutProg r)).map fun d => (rangeFrom 0 4).foldl (fun (d : Dev) p => d.refill p) d
  | 2 => (fin ((d.cutBlk r).or (d.cutSpk r))).or (d.cutFilling r st)
  | 3 => fin (d.cutStu r)
  | 4 => if (d.encDrop r).isSome then some (d.encAbort r st) else none
  | 5 => fin (d.cutDec r)
  | 6 => fin (d.cutRaw r)
  | 7 => d.cutRec r st
  | 8 => fin (d.cutSco r)
  | 10 => d.cutTeu r st
  | 11 => fin (d.cutTw r)
  | _ => none

/-- End a fetched command with `st` as an ABORT ends it (R94, R96): none where it keeps its own completion. An
ENGINE_RESET is never ended (R489). -/
def Dev.cut? (d : Dev) (c : Cmd) (st : Nat) : Option Dev :=
  if c.cls = 0x0C ∧ c.opc = 0x10 then none
  else if c.begun then (d.cutBegun c st).map Dev.settleAll
  else some (d.finish c.ref st (cutResult c)).settleAll

/-- End it where it can be. -/
def Dev.cut (d : Dev) (st : Nat) (r : CmdRef) : Dev :=
  match d.cmd? r with
  | none => d
  | some c => (d.cut? c st).getD d

/-! ## Force release of a lock (R103) -/

/-- The owner as LOCK_FORCED names it (Table 18-5). -/
def ownerCode : LockOwner → Nat
  | .queue q => q
  | _ => 0xFFF

/-- A lock is force-released: logged with the HOST_TAG of the command that does it, a transaction on its bus cut after
its byte with `st` for its command, or without a completion, the lock broken with `cause`, and the oldest waiter
served. -/
def Dev.forceRelease (d : Dev) (n cause : Nat) (st tag : Option Nat) : Dev :=
  let l := d.lock n
  if l.owner = .free then d
  else
    let d := d.log 1 0x001 (n + cause * 256 + ownerCode l.owner * 65536) 0 0 0 ones64 tag
    let d := if 64 ≤ n ∧ (d.ctl (n - 64)).hold = .running then d.twCut (n - 64) st else d
    (d.setLock n { d.lock n with owner := .free, broken := some cause }).grantNext n

/-- Every lock of an owner. -/
def Dev.forceAll (d : Dev) (own : LockOwner → Bool) (cause : Nat) (st tag : Option Nat) : Dev :=
  (rangeFrom 0 72).foldl (fun (d : Dev) n => if own (d.lock n).owner then d.forceRelease n cause st tag else d) d

end Sys2Proof.Machine
end

