-- ==== Sys2Proof/Machine/TimeCore.lean ====
section
/-! DEFINITION. The Local Timescale: its tick, slewing, holdover and events, and the exposure triggers that follow it
(R28, R29, R129, R372, R376, R377, R381, R385). -/

namespace Sys2Proof.Machine

open Host

/-- Counters hold 48-bit seconds (R15, R372). -/
def timeMod : Nat := 281474976710656 * tSec

/-- The selected domain as LTS_EVENT names it (Table 14-5). -/
def Dev.selCode (d : Dev) : Nat := if d.ntu.sel < 2 then d.ntu.sel else 0xFF

/-- The selected domain's counter minus the LTS, in 2^-32 ns; 0 while none is selected. -/
def Dev.ltsDiff (d : Dev) : Int :=
  if d.ntu.sel < 2 then ((d.dom d.ntu.sel).counter : Int) - d.ntu.lts else 0

/-- LTS_EVENT (Table 14-5); DIFF is given in 2^-16 ns. -/
def Dev.ltsEvent (d : Dev) (ev : Nat) (diff : Int) : Dev :=
  d.post 0x4102 1 ones64 0xA 0 [⟨32, 1, ev⟩, ⟨33, 1, d.selCode⟩, ⟨40, 8, fromSigned 64 (diff / 65536)⟩] d.now

/-- A slew starts where the LTS follows a domain and differs from it (R377). -/
def Dev.ltsEval (d : Dev) : Dev :=
  if d.ltsFollows.isSome && !d.ntu.slewing && d.ltsDiff != 0 then
    ({ d with ntu := { d.ntu with slewing := true } }).ltsEvent 2 d.ltsDiff
  else d

/-- The slew in progress ends with a difference left (R376, R377). -/
def Dev.slewStop (d : Dev) (left : Int) : Dev :=
  if d.ntu.slewing then ({ d with ntu := { d.ntu with slewing := false } }).ltsEvent 3 left else d

/-- The LTS goes into holdover, where it followed a domain before (R376): `left` is the difference as it stood. -/
def Dev.holdover (d : Dev) (followed : Bool) (left : Int) : Dev :=
  if followed then (d.slewStop left).ltsEvent 5 0 else d

/-- SLEW_PPM, 0 taken as 1 and 201 to 255 as 200 (Table 14-6). -/
def Dev.slewPpm (d : Dev) : Nat := max 1 (min 200 (d.fld 0xA0100 23 16))

/-- The adjustment of one tick: INCR × SLEW_PPM × 10^-6, halves upward (R377). -/
def Dev.slewAdj (d : Dev) (incr : Nat) : Nat := (incr * d.slewPpm + 500000) / 1000000

/-- The remainder is added at one tick (R377). -/
def Dev.slewClose (d : Dev) : Dev :=
  if d.ntu.slewing then
    ({ d with ntu := { d.ntu with lts := (((d.ntu.lts : Int) + d.ltsDiff).toNat) % timeMod } }).slewStop 0
  else d

/-- Both domain counters advance by their INCR, started or not (R372, Table 14-7). -/
def Dev.domTick (d : Dev) : Dev :=
  (rangeFrom 0 2).foldl (fun (d : Dev) k =>
    let v := d.dom k
    d.setDom k { v with counter := (v.counter + v.incr) % timeMod }) d

/-- The LTS advances by one tick, and the master clocks that track it follow (R117, R376, R377). -/
def Dev.ltsTick (d : Dev) : Dev :=
  match d.ltsFollows with
  | none => ({ d with ntu := { d.ntu with lts := (d.ntu.lts + d.ntu.incr) % timeMod } }).mclkTrack d.ntu.incr
  | some k =>
    let inc := (d.dom k).incr
    let a := d.slewAdj inc
    let diff := d.ltsDiff
    let set := fun (n : Nat) =>
      ({ d with ntu := { d.ntu with incr := inc, lts := (d.ntu.lts + n) % timeMod } }).mclkTrack n
    if !d.ntu.slewing then set inc
    else if diff.natAbs < a then (set ((inc : Int) + diff).toNat).slewStop 0
    else if 0 < diff then set (inc + a)
    else set (inc - a)

/-- The 1 us frame-start signals of the ports that are over fall (Table 4-20). -/
def Dev.fsTick (d : Dev) : Dev :=
  let past := fun (v : Port) => v.fsUntil.any (decide <| · ≤ d.now)
  if (rangeFrom 0 4).any fun p => past (d.port p) then
    ((rangeFrom 0 4).foldl (fun (d : Dev) p =>
      if past (d.port p) then d.modPort p fun v => { v with fsUntil := none } else d) d).teuUpdate
  else d

/-- PEL_EVENT (Table 14-5). -/
def Dev.pelEvent (d : Dev) (ev other count index : Nat) : Dev :=
  d.post 0x5002 1 ones64 0xA 0 [⟨32, 1, ev⟩, ⟨34, 2, other⟩, ⟨36, 4, satW 32 count⟩, ⟨40, 8, index⟩] d.now

/-- The change to come takes effect for the membership, once (R381). -/
def Dev.pelApply (d : Dev) : Dev :=
  match d.ntu.pel.pend with
  | none => d
  | some c =>
    let other := (d.ntu.pel.last.map (·.1)).getD 0
    (d.setPel { d.ntu.pel with cur := some c.sched, pend := none }).pelEvent 3 other 0 c.idx

/-- The first due time of the change has come. -/
def Dev.pelTick (d : Dev) : Dev :=
  match d.ntu.pel.pend with
  | some c => if dueTime c.sched c.idx ≤ d.now then d.pelApply else d
  | none => d

/-- What one 4 ns tick does: the LTS and the domain counters advance by the increments in force, and what the time
ends, ends (R372, R376). -/
def Dev.tick (d : Dev) : Dev := d.ltsTick.domTick.fsTick.pelTick.stampOut

/-! ## Exposure triggers (R129, R381) -/

/-- A port takes up its group's change at the index where it is due. -/
def Dev.portChange (d : Dev) (p : Nat) : Dev :=
  let v := d.port p
  let s : Sched := { num := v.rateNum, den := v.rateDen, epoch := v.epoch, offNs := v.offNs }
  match v.change with
  | none => d
  | some c =>
    if changeDue s c v.nextExp then
      let d := d.setPort p { v with
        change := none, rateNum := c.sched.num, rateDen := c.sched.den, epoch := c.sched.epoch, offNs := c.sched.offNs
        nextExp := if c.late then c.idx else max v.nextExp c.n }
      if d.ntu.pel.pend = some c then d.pelApply else d
    else d

/-- At a due time TEU raises the trigger (R129): the trigger of that exposure waits for its frame (R130). -/
def Dev.expTrigger (d : Dev) (p : Nat) : Dev :=
  let v := d.port p
  if !v.scheduled || v.state == .stopped then d
  else
    let e := d.portChange p
    let v := e.port p
    let t := dueTime { num := v.rateNum, den := v.rateDen, epoch := v.epoch, offNs := v.offNs } v.nextExp
    if d.now < t then d
    else (e.setPort p { v with
      triggers := v.triggers ++ [{ n := v.nextExp, time := t }], trigHigh := true, trigEnd := d.now + v.trigUs * tUs
      nextExp := v.nextExp + 1 }).teuUpdate

/-- EXPOSURE_TRIGGER: nothing before the due time of the next exposure. -/
def execExposureTrigger (p : Fin 4) (s : State) : Outcome State Fault Refusal := lift (fun d => d.expTrigger p.val) s

end Sys2Proof.Machine
end

