-- ==== Sys2Proof/Machine/Network.lean ====
section
/-! DEFINITION. The Ethernet ports, the bridge and the commands of class 0x09 on ports, domains and the LTS (R367 to R370,
R372 to R378, R387). -/

namespace Sys2Proof.Machine

open Host

/-- Offences common to class 0x09 (R387): mode, dword 1, reserved bits. -/
def Dev.ntuOffs (d : Dev) (c : Cmd) (fields : List (Nat × Nat × Nat)) : List Offence :=
  modeOff d.boot.mode.driver ++ dw1Offs c false ++ resOffs c fields

/-- Domain B needs PTP_DUAL (R387). -/
def dualFeat (d : Dev) (c : Cmd) : Bool := c.f 4 0 0 == 0 || d.feat 9

/-! ## Ports (R367, R368, R387) -/

/-- ETH_CFG of port `p`, bits [hi:lo]. -/
def Dev.ethCfg (d : Dev) (p hi lo : Nat) : Nat := d.fld (0xA0000 + 0x40 * p) hi lo

/-- IPv4 address 224.0.1.129 of PTP (R368). -/
abbrev ptpGroup : Nat := 0xE0000181

/-- The IPv4 groups that a port receives (R368). -/
def Dev.groups (d : Dev) (p : Nat) : List Nat :=
  ptpGroup :: match d.ntu.pel.member with
    | some m => if m.port = p then [m.ip] else []
    | none => []

/-- A membership report for every group (R368). -/
def Dev.report (d : Dev) (p : Nat) : Dev := (d.groups p).foldl (fun d g => d.netOut p (.igmpReport g)) d

/-- Set-up faults of ETH_UP (Table 14-6). -/
def Dev.ethBad (d : Dev) (p : Nat) : Bool :=
  (d.ethCfg p 8 8 == 1 && (d.ethCfg p 27 16 == 0 || d.ethCfg p 27 16 == 4095)) || d.ethCfg p 5 4 == 3
    || d.ethCfg p 1 0 == 3 || d.reg (0xA000C + 0x40 * p) == 0

def specEthUp : CmdSpec := { cls := 0x09, opc := 0x01, offs := fun d c => d.ntuOffs c [(4, 0, 0)] }

/-- ETH_UP: with AUTO the port tries 25GBASE-R first (R367). -/
def execEthUp (r : CmdRef) (s : State) : Outcome State Fault Refusal :=
  lift (ntuCmd specEthUp r fun c d =>
    let p := c.f 4 0 0
    let e := d.eth p
    if e.up then d.finish r stSuccess (if e.link then e.speed else 0)
    else if d.ethBad p then d.setupFault r
    else (d.setEth p { up := true }).finish r stSuccess 0) s

/-- A running sprocket, a started domain or the membership uses the port (R387). -/
def Dev.ethUsed (d : Dev) (p : Nat) : Bool :=
  (d.spk.spk.any fun e => e.2.state != .stopped && (d.skc e.1).dest == 4 && (d.skc e.1).destId == p)
    || ((rangeFrom 0 2).any fun k => (d.dom k).role != 0 && d.domCfg k 0 0 == p)
    || d.ntu.pel.member.any (·.port == p)

/-- The link of a port drops: a selected domain on it leaves the LTS in holdover (R376). -/
def Dev.linkDrop (d : Dev) (p : Nat) : Dev :=
  let e := d.eth p
  if !e.link then d else
  let d := d.setEth p { up := e.up }
  match d.ltsFollows with
  | none => d
  | some k =>
    if d.domCfg k 0 0 = p then
      let left := d.ltsDiff
      ({ d with ntu := { d.ntu with held := true } }).holdover true left
    else d

def specEthDown : CmdSpec := {
  cls := 0x09, opc := 0x02, offs := fun d c => d.ntuOffs c [(4, 0, 0)] ++ off 4 0 (d.ethUsed (c.f 4 0 0)) }

/-- ETH_DOWN. -/
def execEthDown (r : CmdRef) (s : State) : Outcome State Fault Refusal :=
  lift (ntuCmd specEthDown r fun c d =>
    let p := c.f 4 0 0
    ((d.linkDrop p).setEth p {}).finish r stSuccess 0) s

/-- Block lock holds at the configured speed, or at the one AUTO tries (R367): FEC serves 25GBASE-R alone. The LTS
follows again a domain whose link has returned. -/
def Dev.linkUp (d : Dev) (p speed : Nat) : Dev :=
  let e := d.eth p
  let want := if d.ethCfg p 1 0 = 0 then e.trial else d.ethCfg p 1 0
  if !e.up || e.link || speed != want then d
  else
    let d := d.setEth p { e with link := true, speed := speed, fec := if speed = 1 then d.ethCfg p 5 4 else 2 }
    let d := if d.ntu.sel < 2 ∧ d.domCfg d.ntu.sel 0 0 = p then
      ({ d with ntu := { d.ntu with held := false } }).ltsEval else d
    d.report p

/-- ETH_LINK_UP. -/
def execEthLinkUp (p : Fin 2) (speed : Nat) (s : State) : Outcome State Fault Refusal :=
  lift (fun d => d.linkUp p.val speed) s

/-- SPEED_ALTERNATE (R367). -/
def execSpeedAlternate (p : Fin 2) (s : State) : Outcome State Fault Refusal :=
  lift (fun d =>
    let e := d.eth p.val
    if e.up && !e.link && d.ethCfg p.val 1 0 == 0 then d.setEth p.val { e with trial := 3 - e.trial } else d) s

/-- ETH_LINK_DOWN. -/
def execEthLinkDown (p : Fin 2) (s : State) : Outcome State Fault Refusal := lift (fun d => d.linkDrop p.val) s

/-- ARP_REQUEST (R368). -/
def execArpRequest (p : Fin 2) (ip : Nat) (s : State) : Outcome State Fault Refusal :=
  lift (fun d =>
    let o := 0xA0000 + 0x40 * p.val
    if d.ethLink p.val && d.reg (o + 0xC) == ip then
      d.netOut p.val (.arpReply ip (d.reg (o + 4) + 4294967296 * d.fld (o + 8) 15 0))
    else d) s

/-- IGMP_QUERY (R368). -/
def execIgmpQuery (p : Fin 2) (s : State) : Outcome State Fault Refusal :=
  lift (fun d => if d.ethLink p.val then d.report p.val else d) s

/-- RX_FCS_ERR (R386). -/
def execRxFcsErr (p : Fin 2) (s : State) : Outcome State Fault Refusal :=
  lift (fun d => if d.ethLink p.val then d.count (0xA0034 + 0x40 * p.val) 1 else d) s

/-! ## Bridge and transparent clock (R370, R375) -/

/-- The bridge forwards: BRIDGE set, both ports with link. -/
def Dev.bridging (d : Dev) : Bool := d.fld 0xA0100 0 0 == 1 && d.ethLink 0 && d.ethLink 1

/-- Two-step Syncs tracked for a direction (R375). -/
def Dev.tracked (d : Dev) (p : Nat) : Nat := (d.ntu.tc.filter (·.port == p)).length

/-- A frame received on `p` that is not for the port itself goes out on the other port. -/
def Dev.forward (d : Dev) (p : Nat) (f : BridgeFrame) : Dev :=
  if !d.bridging || f.dstIsPort || decide (9216 < f.len) then d
  else if f.bufferFull then d.count (0xA0030 + 0x40 * p) 1
  else if f.ptp = 1 then d.netOut (1 - p) (.forwarded f (f.corr + f.residence))
  else if f.ptp = 2 then
    let d := if d.tracked p < 16 then { d with ntu := { d.ntu with
      tc := d.ntu.tc ++ [{ port := p, srcId := f.srcId, seq := f.seq, residence := f.residence }] } } else d
    d.netOut (1 - p) (.forwarded f f.corr)
  else if f.ptp = 3 then
    match d.ntu.tc.find? (fun t => t.port == p && t.srcId == f.srcId && t.seq == f.seq) with
    | some t => ({ d with ntu := { d.ntu with tc := d.ntu.tc.filter (· != t) } }).netOut (1 - p)
        (.forwarded f (f.corr + t.residence))
    | none => (d.count (0xA003C + 0x40 * p) 1).netOut (1 - p) (.forwarded f f.corr)
  else d.netOut (1 - p) (.forwarded f f.corr)

/-- FRAME_FORWARD. -/
def execFrameForward (p : Fin 2) (f : BridgeFrame) (s : State) : Outcome State Fault Refusal :=
  lift (fun d => d.forward p.val f) s

/-- TC_SYNC_TRACK_EXPIRY (R375). -/
def execTcSyncTrackExpiry (p : Fin 2) (srcId seq : Nat) (s : State) : Outcome State Fault Refusal :=
  lift (fun d => { d with ntu := { d.ntu with
    tc := d.ntu.tc.filter fun t => !(t.port == p.val && t.srcId == srcId && t.seq == seq) } }) s

/-! ## Domains (R371 to R374, R387) -/

/-- Set-up faults of NTU_DOM_START: domainNumber and the intervals outside Table 14-1. -/
def Dev.domBad (d : Dev) (k : Nat) : Bool :=
  let i := fun hi lo => toSigned 4 (d.domCfg k hi lo)
  decide (127 < d.domCfg k 31 24) || decide (i 19 16 < -7) || decide (-1 < i 19 16) || decide (i 15 12 < -3)
    || decide (1 < i 15 12) || decide (i 11 8 < -7) || decide (0 < i 11 8)

def specDomStart : CmdSpec := { cls := 0x09, opc := 0x10, feat := dualFeat, offs := fun d c => d.ntuOffs c [(4, 0, 0)] }

/-- NTU_DOM_START: in LISTEN; the LTS follows a selected domain once more (R376, R377). -/
def execNtuDomStart (r : CmdRef) (s : State) : Outcome State Fault Refusal :=
  lift (ntuCmd specDomStart r fun c d =>
    let k := c.f 4 0 0
    let v := d.dom k
    if v.role ≠ 0 then d.finish r stSuccess 0
    else if d.domBad k then d.setupFault r
    else
      let d := d.setDom k { v with role := 1, pend := none, asked := none, exch := none, fresh := false }
      let d := if d.ntu.sel = k then { d with ntu := { d.ntu with held := false } } else d
      d.ltsEval.finish r stSuccess 0) s

/-- The membership's schedule names the domain, and a port is in scheduled mode (R387). -/
def Dev.domNeeded (d : Dev) (k : Nat) : Bool :=
  d.ntu.pel.member.isSome && d.ntu.pel.cur.isSome && d.domCfg k 31 24 == d.ntu.pel.ptpDomain && d.anyScheduled

def specDomStop : CmdSpec := {
  cls := 0x09, opc := 0x11, feat := dualFeat
  offs := fun d c => d.ntuOffs c [(4, 0, 0)]
    ++ off 4 0 ((d.dom (c.f 4 0 0)).role != 0 && d.domNeeded (c.f 4 0 0)) }

/-- A domain stops; its counter keeps running (Table 14-7). Where it is the selected one, the LTS goes into holdover. -/
def Dev.domStop (d : Dev) (k : Nat) : Dev :=
  let followed := d.ltsFollows == some k
  let left := d.ltsDiff
  (d.setDom k { d.dom k with role := 0, pend := none, asked := none }).holdover followed left

/-- NTU_DOM_STOP. -/
def execNtuDomStop (r : CmdRef) (s : State) : Outcome State Fault Refusal :=
  lift (ntuCmd specDomStop r fun c d =>
    let k := c.f 4 0 0
    (if (d.dom k).role = 0 then d else d.domStop k).finish r stSuccess 0) s

def specDomRole : CmdSpec := {
  cls := 0x09, opc := 0x12, feat := dualFeat
  offs := fun d c =>
    d.ntuOffs c [(4, 0, 0), (4, 5, 4), (5, 31, 0), (6, 31, 0), (7, 15, 0), (8, 31, 0), (9, 31, 0)]
      ++ off 4 0 ((d.dom (c.f 4 0 0)).role == 0) ++ off 4 4 (c.f 4 5 4 == 0) }

/-- NTU_DOM_ROLE: a role other than LISTEN needs the link (R387). -/
def execNtuDomRole (r : CmdRef) (s : State) : Outcome State Fault Refusal :=
  lift (ntuCmd specDomRole r fun c d =>
    let k := c.f 4 0 0
    if c.f 4 5 4 ≠ 1 ∧ !d.ethLink (d.domCfg k 0 0) then d.finish r stLinkDown 0
    else (d.setDom k { d.dom k with
      role := c.f 4 5 4, masterId := c.q 5, masterPort := c.f 7 15 0, gm := c.q 8, pend := none, asked := none
      exch := none, fresh := false }).finish r stSuccess 0) s

def specSetIncr : CmdSpec := {
  cls := 0x09, opc := 0x13, feat := dualFeat
  offs := fun d c => d.ntuOffs c [(4, 0, 0), (4, 8, 8), (5, 31, 0), (6, 31, 0)]
    ++ off 5 0 (decide (c.q 5 < 0x3FFF00000) || decide (0x4000FFFFF < c.q 5)) }

/-- NTU_SET_INCR (R372, R373). -/
def execNtuSetIncr (r : CmdRef) (s : State) : Outcome State Fault Refusal :=
  lift (ntuCmd specSetIncr r fun c d =>
    (d.setDom (c.f 4 0 0) { d.dom (c.f 4 0 0) with incr := c.q 5, locked := c.b 4 8 }).finish r stSuccess 0) s

def specAdjPhase : CmdSpec := {
  cls := 0x09, opc := 0x14, feat := dualFeat
  offs := fun d c => d.ntuOffs c [(4, 0, 0), (5, 31, 0), (6, 31, 0)] ++ off 5 0 (c.q 5 == 9223372036854775808) }

/-- NTU_ADJ_PHASE (R372): the counter moves at one tick, and the LTS slews after it (R377). -/
def execNtuAdjPhase (r : CmdRef) (s : State) : Outcome State Fault Refusal :=
  lift (ntuCmd specAdjPhase r fun c d =>
    let k := c.f 4 0 0
    let v := d.dom k
    let t := ((v.counter : Int) + toSigned 64 (c.q 5) * 65536) % (timeMod : Int)
    ((d.setDom k { v with counter := t.toNat }).ltsEval).finish r stSuccess 0) s

def specSetTemplate : CmdSpec := {
  cls := 0x09, opc := 0x15, feat := dualFeat
  offs := fun d c =>
    let len := c.f 4 15 8
    d.ntuOffs c [(4, 0, 0), (4, 4, 4), (4, 15, 8), (5, 31, 0), (6, 31, 0)]
      ++ off 4 8 (if c.b 4 4 then decide (128 < len) else len != 64) }

/-- NTU_SET_TEMPLATE (R374). -/
def execNtuSetTemplate (r : CmdRef) (blk : List Byte) (s : State) : Outcome State Fault Refusal :=
  lift (ntuCmd specSetTemplate r fun c d =>
    let k := c.f 4 0 0
    let t := (blk ++ List.replicate 128 0).take (c.f 4 15 8)
    let v := d.dom k
    (d.setDom k (if c.b 4 4 then { v with metadata := if t.isEmpty then none else some t }
      else { v with announce := some t })).finish r stSuccess 0) s

/-! ## Selection and time (R376 to R378) -/

def specSelect : CmdSpec := {
  cls := 0x09, opc := 0x20
  feat := fun d c => c.f 4 1 0 != 1 || d.feat 9
  offs := fun d c =>
    let rasters := (rangeFrom 0 4).any fun k => (d.raster k).run && d.scoFld k 0 31 30 == 2
    d.ntuOffs c [(4, 1, 0), (4, 8, 8)] ++ off 4 0 (c.f 4 1 0 == 2 || (c.f 4 1 0 == 3 && c.b 4 8))
      ++ off 4 8 (c.b 4 8 && (d.anyScheduled || rasters || d.ntu.pel.member.isSome)) }

/-- A change of selection: SELECT is posted, and where no domain is followed any longer, the LTS goes into holdover. -/
def Dev.select (d : Dev) (k : Nat) : Dev :=
  if d.ntu.sel = k then ({ d with ntu := { d.ntu with held := false } }).ltsEval
  else
    let followed := d.ltsFollows.isSome
    let left := d.ltsDiff
    let d := { d with ntu := { d.ntu with sel := k, held := false } }
    let d := d.ltsEvent 1 d.ltsDiff
    if d.ltsFollows.isNone then d.holdover followed left else d

/-- The LTS moves to the selected domain's time at one tick (R378). -/
def Dev.ltsStep (d : Dev) : Dev :=
  let diff := d.ltsDiff
  (({ d with ntu := { d.ntu with lts := ((d.ntu.lts : Int) + diff).toNat } }).ltsEvent 4 diff).slewStop 0

/-- NTU_SELECT. -/
def execNtuSelect (r : CmdRef) (s : State) : Outcome State Fault Refusal :=
  lift (ntuCmd specSelect r fun c d =>
    let d := d.select (c.f 4 1 0)
    let d := if c.b 4 8 then d.ltsStep else d.ltsEval
    d.finish r stSuccess d.ntu.slewing.toNat) s

def specReadTime : CmdSpec := {
  cls := 0x09, opc := 0x21
  offs := fun d c => d.ntuOffs c [(5, 31, 0), (6, 31, 0)] ++ off 5 0 (c.q 5 % 64 != 0) }

/-- NTU_READ_TIME (R15). -/
def execNtuReadTime (r : CmdRef) (s : State) : Outcome State Fault Refusal :=
  lift (ntuCmd specReadTime r fun c d =>
    (d.writeFields false (c.q 5) 36 [ltsFld 0 d.ntu.lts, ltsFld 12 (d.dom 0).counter,
      ltsFld 24 (if d.feat 9 then (d.dom 1).counter else 0)]).finish r stSuccess 0) s

/-- SLEW_END (R377): due once less than one tick's adjustment remains. -/
def execSlewEnd (s : State) : Outcome State Fault Refusal :=
  lift (fun d => match d.ltsFollows with
    | some k => if d.ltsDiff.natAbs < d.slewAdj (d.dom k).incr then d.slewClose else d
    | none => d) s

end Sys2Proof.Machine
end

