-- ==== Sys2Proof/Machine/Ptp.lean ====
section
/-! DEFINITION. The PTP domain instances on the wire: reception, samples and transmission by role (R371 to R374, R385). -/

namespace Sys2Proof.Machine

open Host

/-- Instance `k` is started on port `p` for the domain number `n`, and the port has link. -/
def Dev.domHears (d : Dev) (k p n : Nat) : Bool :=
  (d.dom k).role != 0 && d.domCfg k 0 0 == p && d.domCfg k 31 24 == n && d.ethLink p

/-- A domain takes Sync, Follow_Up and Delay_Resp: in SLAVE from the port identity it follows, in LISTEN from any (R373,
R374). -/
def Dev.domTakes (d : Dev) (k : Nat) (m : PtpMsg) : Bool :=
  let v := d.dom k
  v.role == 1 || (v.role == 2 && v.masterId == m.srcId && v.masterPort == m.srcPort)

/-- PTP_SAMPLE (Table 14-5). The fields of the delay exchange are free values while none has been made (log entry 11). -/
def Dev.ptpSample (d : Dev) (k : Nat) (twoStep : Bool) (seq srcId srcPort t1 t2 : Nat) (corr : Int) : Dev :=
  let v := d.dom k
  let x := match v.exch with
    | some x => (x, d)
    | none =>
      let a := d.draw
      let b := a.2.draw
      let c := b.2.draw
      let e := c.2.draw
      (({ seq := a.1, t3 := b.1, t4 := c.1, corr := e.1 } : DelayEx), e.2)
  let d := x.2.post 0x4100 2 ones64 0xA k
    [⟨32, 1, twoStep.toNat + 2 * v.fresh.toNat + 4 * d.domCfg k 1 1⟩, ⟨34, 2, seq⟩, ⟨36, 2, x.1.seq % 65536⟩,
     ltsFld 40 t1, ltsFld 52 t2, ltsFld 64 x.1.t3, ltsFld 76 x.1.t4, ⟨88, 8, fromSigned 64 corr⟩,
     ⟨96, 8, fromSigned 64 x.1.corr⟩, ⟨104, 8, srcId⟩, ⟨112, 2, srcPort⟩] x.2.now
  d.setDom k { d.dom k with fresh := false }

/-- Act on every domain instance. -/
def Dev.eachDom (d : Dev) (f : Dev → Nat → Dev) : Dev := f (f d 0) 1

/-- A Sync: a one-step one is a sample at once; a two-step one waits for its Follow_Up. -/
def Dev.sync (d : Dev) (p : Nat) (m : PtpMsg) : Dev :=
  d.eachDom fun d k =>
    if d.domHears k p m.domain && d.domTakes k m then
      let v := d.dom k
      if m.twoStep then
        let y : PendSync := { seq := m.seq, srcId := m.srcId, srcPort := m.srcPort, t2 := v.counter, corr := m.corr }
        d.setDom k { v with pend := some y }
      else (d.setDom k { v with pend := none }).ptpSample k false m.seq m.srcId m.srcPort m.time v.counter m.corr
    else d

/-- SYNC_RECEIVED. -/
def execSyncReceived (p : Fin 2) (m : PtpMsg) (s : State) : Outcome State Fault Refusal :=
  lift (fun d => d.sync p.val m) s

/-- A Follow_Up of the Sync that waits gives its sample. -/
def Dev.followUp (d : Dev) (p : Nat) (m : PtpMsg) : Dev :=
  d.eachDom fun d k =>
    if d.domHears k p m.domain && d.domTakes k m then
      match (d.dom k).pend with
      | some y =>
        if y.seq = m.seq ∧ y.srcId = m.srcId ∧ y.srcPort = m.srcPort then
          (d.setDom k { d.dom k with pend := none }).ptpSample k true y.seq y.srcId y.srcPort m.time y.t2
            (y.corr + m.corr)
        else d
      | none => d
    else d

/-- FOLLOW_UP_RECEIVED. -/
def execFollowUpReceived (p : Fin 2) (m : PtpMsg) (s : State) : Outcome State Fault Refusal :=
  lift (fun d => d.followUp p.val m) s

/-- A Delay_Resp to the slave's own request completes a delay exchange. -/
def Dev.delayResp (d : Dev) (p : Nat) (m : PtpMsg) : Dev :=
  d.eachDom fun d k =>
    if d.domHears k p m.domain && d.domTakes k m && m.reqOwn then
      match (d.dom k).asked with
      | some (q, t3) =>
        if q = m.seq then d.setDom k { d.dom k with
          asked := none, fresh := true, exch := some { seq := q, t3 := t3, t4 := m.time, corr := m.corr } }
        else d
      | none => d
    else d

/-- DELAY_RESP_RECEIVED. -/
def execDelayRespReceived (p : Fin 2) (m : PtpMsg) (s : State) : Outcome State Fault Refusal :=
  lift (fun d => d.delayResp p.val m) s

/-- DELAY_REQ_RECEIVED: a master answers with the stamped receipt time (R374). -/
def execDelayReqReceived (p : Fin 2) (m : PtpMsg) (s : State) : Outcome State Fault Refusal :=
  lift (fun d => d.eachDom fun d k =>
    if d.domHears k p.val m.domain && (d.dom k).role == 3 then
      d.netOut p.val (.delayResp m.domain m.seq m.srcId m.srcPort (d.dom k).counter m.corr)
    else d) s

/-- PTP_MSG: a received Announce, Signaling or Management message of the domain is posted (R374, Table 14-5). -/
def execPtpMsg (p : Fin 2) (m : PtpMsg) (body : List Byte) (s : State) : Outcome State Fault Refusal :=
  lift (fun d =>
    let b := body.take 192
    d.eachDom fun d k =>
      if d.domHears k p.val m.domain then
        d.post 0x4101 (ceilDiv (64 + b.length) 64) ones64 0xA k
          [⟨32, 1, p.val⟩, ⟨34, 2, b.length⟩, ltsFld 42 d.now, ⟨64, b.length, leNat b⟩] d.now
      else d) s

/-! ## Transmission -/

/-- Domain `k` has the role, and its port has link. -/
def Dev.domSends (d : Dev) (k role : Nat) : Bool := (d.dom k).role == role && d.ethLink (d.domCfg k 0 0)

/-- Send on the domain's port. -/
def Dev.domOut (d : Dev) (k : Nat) (m : NetMsg) : Dev := d.netOut (d.domCfg k 0 0) m

/-- ANNOUNCE_SEND, from the template. -/
def execAnnounceSend (k : Fin 2) (s : State) : Outcome State Fault Refusal :=
  lift (fun d =>
    let v := d.dom k.val
    match v.announce with
    | none => d
    | some t =>
      if d.domSends k.val 3 then
        (d.setDom k.val { v with annSeq := (v.annSeq + 1) % 65536 }).domOut k.val
          (.announce (d.domCfg k.val 31 24) v.annSeq (toSigned 4 (d.domCfg k.val 15 12)) t)
      else d) s

/-- SYNC_SEND: one-step, originTimestamp from the counter, the sub-nanosecond remainder in correctionField. -/
def execSyncSend (k : Fin 2) (s : State) : Outcome State Fault Refusal :=
  lift (fun d =>
    let v := d.dom k.val
    if d.domSends k.val 3 then
      (d.setDom k.val { v with syncSeq := (v.syncSeq + 1) % 65536 }).domOut k.val
        (.sync (d.domCfg k.val 31 24) v.syncSeq (toSigned 4 (d.domCfg k.val 19 16)) (v.counter / tNs)
          (v.counter % tNs / 65536 : Nat))
    else d) s

/-- DELAY_REQ_SEND: multicast, or unicast to MASTER_IP with HYBRID (Table 14-1); T3 is stamped on the counter. -/
def execDelayReqSend (k : Fin 2) (s : State) : Outcome State Fault Refusal :=
  lift (fun d =>
    let v := d.dom k.val
    let dest := if d.domCfg k.val 1 1 = 1 then d.reg (0xA0204 + 0x40 * k.val) else ptpGroup
    if d.domSends k.val 2 then
      (d.setDom k.val { v with dreqSeq := (v.dreqSeq + 1) % 65536, asked := some (v.dreqSeq, v.counter) }).domOut k.val
        (.delayReq (d.domCfg k.val 31 24) v.dreqSeq dest)
    else d) s

/-- METADATA_SEND: once per second, when a template is loaded. -/
def execMetadataSend (k : Fin 2) (s : State) : Outcome State Fault Refusal :=
  lift (fun d =>
    let v := d.dom k.val
    match v.metadata with
    | none => d
    | some t =>
      if d.domSends k.val 3 then
        (d.setDom k.val { v with metaSeq := (v.metaSeq + 1) % 65536 }).domOut k.val
          (.metadata (d.domCfg k.val 31 24) v.metaSeq t)
      else d) s

end Sys2Proof.Machine
end

