-- ==== Sys2Proof/Machine/Peloton.lean ====
section
/-! DEFINITION. The Peloton: membership, schedules and their changes, status (R379 to R384, R387). -/

namespace Sys2Proof.Machine

open Host

/-- A function of the membership's Peloton state. -/
def Dev.modPel (d : Dev) (f : Pel → Pel) : Dev := d.setPel (f d.ntu.pel)

/-- Ports that run on the group's schedule take over a change, or drop one. -/
def Dev.pelPorts (d : Dev) (c : Option PelChange) : Dev :=
  (rangeFrom 0 4).foldl (fun (d : Dev) p =>
    if (d.port p).peloton then d.modPort p fun v => { v with change := c } else d) d

/-! ## Joining and leaving (R379, R384, R387) -/

def specPelJoin : CmdSpec := {
  cls := 0x09, opc := 0x30
  feat := fun d _ => d.feat 10
  offs := fun d c =>
    let iv := c.f 7 15 0
    let st := c.f 7 31 16
    let hold := c.f 8 15 0
    d.ntuOffs c [(4, 13, 0), (4, 16, 16), (4, 24, 24), (5, 31, 0), (6, 31, 0), (7, 31, 0), (8, 15, 0)]
      ++ off 4 0 d.ntu.pel.member.isSome ++ off 6 0 (c.f 6 31 28 != 14)
      ++ off 7 0 (decide (iv < 10) || decide (10000 < iv))
      ++ off 7 16 (st != 0 && (decide (st < 100) || decide (60000 < st)))
      ++ off 8 0 (decide (hold < 100) || decide (60000 < hold)) }

/-- PEL_JOIN: the group is joined with a membership report, and PEL_EVENT JOINED is posted. -/
def execPelJoin (r : CmdRef) (s : State) : Outcome State Fault Refusal :=
  lift (ntuCmd specPelJoin r fun c d =>
    let m : PelMember := {
      id := c.f 4 13 0, leader := c.b 4 16, port := c.f 4 24 24, group := c.f 5 15 0, udp := c.f 5 31 16, ip := c.w 6
      schedMs := c.f 7 15 0, statusMs := c.f 7 31 16, holdMs := c.f 8 15 0 }
    if !d.ethLink m.port then d.finish r stLinkDown 0
    else
      let d := d.setPel { member := some m, seq := d.ntu.pel.seq }
      ((d.netOut m.port (.igmpReport m.ip)).pelEvent 1 m.id 0 0).finish r stSuccess 0) s

/-- The membership ends: ports in scheduled mode keep their last schedule as a fixed one (R384). -/
def Dev.pelEnd (d : Dev) : Dev :=
  let d := (rangeFrom 0 4).foldl (fun (d : Dev) p =>
    if (d.port p).peloton then d.modPort p fun v => { v with change := none, peloton := false } else d) d
  d.setPel { seq := d.ntu.pel.seq }

def specPelLeave : CmdSpec := { cls := 0x09, opc := 0x31, feat := fun d _ => d.feat 10, offs := fun d c => d.ntuOffs c [] }

/-- PEL_LEAVE. -/
def execPelLeave (r : CmdRef) (s : State) : Outcome State Fault Refusal :=
  lift (ntuCmd specPelLeave r fun _ d => d.pelEnd.finish r stSuccess 0) s

/-! ## Taking a schedule (R380, R381) -/

/-- A change named with N: an unsound one is rejected with CHANGE_INVALID; a valid one waits for its index, and a late one
is reported. -/
def Dev.takeChange (d : Dev) (cur : Sched) (n : Nat) (new : Sched) (sender : Nat) : Dev :=
  if new = cur then d
  else if d.ntu.pel.pend.any fun c => c.n == n && c.sched == new then d
  else if !changeValid cur new n then d.pelEvent 5 sender 0 n
  else
    let c := changeAt cur new n d.now
    let d := (d.modPel fun v => { v with pend := some c }).pelPorts (some c)
    if c.late then d.pelEvent 4 sender (lateCount cur c) c.idx else d

/-- A current schedule other than the one in force, with no change announced for it: it is taken as a change that comes
late, of which no exposure is counted. -/
def Dev.takeOther (d : Dev) (new : Sched) (sender : Nat) : Dev :=
  let m := firstExposure new (d.now + 1000 * tUs)
  let c : PelChange := { n := m, idx := m, sched := new, late := true }
  if d.ntu.pel.pend.any fun p => p.sched == new then d
  else ((d.modPel fun v => { v with pend := some c }).pelPorts (some c)).pelEvent 4 sender 0 m

/-- The content of an accepted schedule takes effect (R380, R381). -/
def Dev.takeSchedule (d : Dev) (cur : Sched) (change : Option (Nat × Sched)) (gm dom sender : Nat) : Dev :=
  let d := d.modPel fun v => { v with gm := gm, ptpDomain := dom }
  match d.ntu.pel.cur with
  | none =>
    let d := d.modPel fun v => { v with cur := some cur }
    match change with
    | some (n, new) => d.takeChange cur n new sender
    | none => d
  | some old =>
    match change with
    | some (n, new) => if old = new then d else d.takeChange old n new sender
    | none =>
      if cur ≠ old then d.takeOther cur sender
      else if d.ntu.pel.pend.isSome then (d.modPel fun v => { v with pend := none }).pelPorts none
      else d

/-! ## Sending (R379, R381) -/

/-- A SCHEDULE message leaves: the change is carried while it is to come. -/
def Dev.sendSchedule (d : Dev) : Dev :=
  match d.ntu.pel.member, d.ntu.pel.cur with
  | some m, some cur =>
    let v := d.ntu.pel
    let msg : SchedMsg := {
      group := m.group, sender := m.id, leader := true, seq := v.seq, cur := cur
      change := v.pend.map fun c => (c.n, c.sched), gm := v.gm, ptpDomain := v.ptpDomain }
    (d.setPel { v with seq := (v.seq + 1) % 4294967296, last := some (m.id, v.seq) }).netOut m.port
      (.schedule m.ip m.udp (ltsForm d.now) msg)
  | _, _ => d

/-- The membership's port has link, and `p` holds of it. -/
def Dev.pelOn (d : Dev) (p : PelMember → Bool) : Bool := d.ntu.pel.member.any fun m => d.ethLink m.port && p m

/-- SCHEDULE_SEND. -/
def execScheduleSend (s : State) : Outcome State Fault Refusal :=
  lift (fun d => if d.pelOn (·.leader) then d.sendSchedule else d) s

/-- The schedule at byte `o` of a body: rate, epoch, offset (Table 14-4). -/
def blkSched (b : List Byte) (o : Nat) : Sched :=
  { num := bn b o 4, den := bn b (o + 4) 4, epoch := ltsOf (bn b (o + 8) 12), offNs := bn b (o + 20) 4 }

/-- Offending bytes of one schedule of the body. -/
def schedBytes (b : List Byte) (o : Nat) : List Nat :=
  let s := blkSched b o
  bad o (s.num == 0 || (s.den != 0 && (decide (60 * s.num < s.den) || decide (400 * s.den < s.num))))
    ++ bad (o + 4) (s.den == 0)
    ++ bad (o + 20) (s.num != 0 && s.den != 0 && decide (s.den * 1000000000 ≤ s.offNs * s.num))

/-- The offending bytes of PEL_SCHEDULE's block, bytes 28 to 103 of a SCHEDULE body (Table 14-4, R381). -/
def Dev.schedBlk (d : Dev) (c : Cmd) (b : List Byte) : List Nat :=
  let chg := c.b 4 0
  let old := d.ntu.pel.cur.getD (blkSched b 0)
  let changed := bn b 28 8
  schedBytes b 0 ++ bad 24 (b8 b 24 != chg.toNat)
    ++ (if chg then
        schedBytes b 36 ++ bad 28 (schedOk old && schedOk (blkSched b 36) && !changeValid old (blkSched b 36) changed)
      else [])
    ++ resBytes b ([(0, 25), (64, 9)] ++ if chg then [(28, 32)] else [(28, 36)])

def specPelSchedule : CmdSpec := {
  cls := 0x09, opc := 0x32
  feat := fun d _ => d.feat 10
  offs := fun d c => d.ntuOffs c [(4, 0, 0), (5, 31, 0), (6, 31, 0)]
    ++ off 4 0 (!d.ntu.pel.member.any (·.leader)) }

/-- PEL_SCHEDULE (R379, R381): the leader takes the schedule as every member will, and sends it at once. -/
def execPelSchedule (r : CmdRef) (body : List Byte) (s : State) : Outcome State Fault Refusal :=
  lift (ntuCmd specPelSchedule r fun c d =>
    let b := (body ++ List.replicate 76 0).take 76
    if !d.pelOn (fun _ => true) then d.finish r stLinkDown 0
    else match minOff (blkOffs 5 (d.schedBlk c b)) with
      | some o => d.finish r stInvalidField o.result
      | none =>
        let chg := if c.b 4 0 then some (bn b 28 8, blkSched b 36) else none
        let me := (d.ntu.pel.member.map (·.id)).getD 0
        let seq := d.ntu.pel.seq
        ((d.takeSchedule (blkSched b 0) chg (bn b 64 8) (b8 b 72) me).sendSchedule).finish r stSuccess seq) s

/-- The grandmaster of the selected domain, as NTU_DOM_ROLE last declared it (R379). -/
def Dev.myGm (d : Dev) : Option Nat := if d.ntu.sel < 2 then some (d.dom d.ntu.sel).gm else none

/-! ## Receiving (R379 to R382) -/

/-- `b` is later than `a` by serial-number arithmetic on 32 bits (R12). -/
def seqLater (a b : Nat) : Bool :=
  let x := (b + 4294967296 - a % 4294967296) % 4294967296
  x != 0 && decide (x < 2147483648)

/-- A SCHEDULE of the leader that the member follows. -/
def Dev.schedAccept (d : Dev) (m : SchedMsg) : Dev :=
  let d := d.modPel fun v => { v with follow := some m.sender, lost := false }
  let stale := d.ntu.pel.last.any fun l => l.1 == m.sender && !seqLater l.2 m.seq
  if stale || !schedOk m.cur then d
  else if d.myGm ≠ some m.gm then d.pelEvent 9 m.sender 0 0
  else
    let d := (d.modPel fun v => { v with last := some (m.sender, m.seq) }).pelEvent 2 m.sender 0 0
    d.takeSchedule m.cur m.change m.gm m.ptpDomain m.sender

/-- A SCHEDULE arrives on the membership's port: the own member ID in another's message is reported; of the senders that
set LEADER, the one with the lowest member ID is followed, and any other is a conflict. -/
def Dev.schedIn (d : Dev) (p : Nat) (m : SchedMsg) : Dev :=
  match d.ntu.pel.member with
  | none => d
  | some me =>
    if me.port ≠ p ∨ me.group ≠ m.group ∨ !d.ethLink p then d
    else
      let d := if m.sender = me.id then d.pelEvent 8 m.sender 0 0 else d
      if !m.leader then d
      else if me.leader || d.ntu.pel.follow.any fun f => decide (f < m.sender) then d.pelEvent 7 m.sender 0 0
      else d.schedAccept m

/-- SCHEDULE_RECEIVED. -/
def execScheduleReceived (p : Fin 2) (m : SchedMsg) (s : State) : Outcome State Fault Refusal :=
  lift (fun d => d.schedIn p.val m) s

/-- STATUS_RECEIVED: a leader posts PEL_STATUS (R379, Table 14-5). -/
def execStatusReceived (p : Fin 2) (m : StatusMsg) (s : State) : Outcome State Fault Refusal :=
  lift (fun d => match d.ntu.pel.member with
    | none => d
    | some me =>
      if me.port ≠ p.val ∨ me.group ≠ m.group ∨ !d.ethLink p.val then d
      else
        let d := if m.sender = me.id then d.pelEvent 8 m.sender 0 0 else d
        if me.leader then
          d.post 0x5001 1 ones64 0xA 0 [⟨32, 8, m.lastIndex⟩, ⟨40, 4, m.schedSeq⟩, ⟨44, 1, m.state⟩,
            ⟨48, 4, fromSigned 32 m.slewRemain⟩, ⟨52, 2, m.sender + m.leader.toNat * 32768⟩] d.now
        else d) s

/-- Index of the last frame of the lowest port that runs on the group's schedule; all ones if none. -/
def Dev.pelLast (d : Dev) : Nat :=
  (((rangeFrom 0 4).find? fun p => (d.port p).peloton).bind fun p => (d.port p).lastClosed).getD ones64

/-- STATE of a STATUS message (Table 14-4). -/
def Dev.pelState (d : Dev) : Nat :=
  (decide (d.ntu.sel < 2) && (d.dom d.ntu.sel).locked).toNat + 2 * d.ntu.slewing.toNat + 4 * d.anyScheduled.toNat
    + 8 * d.ntu.pel.lost.toNat

/-- STATUS_SEND: every member sends STATUS, when its interval is not 0 (R379). -/
def execStatusSend (s : State) : Outcome State Fault Refusal :=
  lift (fun d => match d.ntu.pel.member with
    | none => d
    | some m =>
      let v := d.ntu.pel
      let msg : StatusMsg := {
        group := m.group, sender := m.id, leader := m.leader, seq := v.seq, lastIndex := d.pelLast
        schedSeq := (v.last.map (·.2)).getD 0, state := d.pelState
        slewRemain := clampI (-2147483647) 2147483647 (d.ltsDiff / tNs) }
      if m.statusMs ≠ 0 ∧ d.ethLink m.port then
        (d.setPel { v with seq := (v.seq + 1) % 4294967296 }).netOut m.port (.status m.ip m.udp (ltsForm d.now) msg)
      else d) s

/-- LEADER_LOST (R382): the last schedule is kept. -/
def execLeaderLost (s : State) : Outcome State Fault Refusal :=
  lift (fun d => match d.ntu.pel.member with
    | none => d
    | some m =>
      if m.leader || d.ntu.pel.lost then d
      else (d.modPel fun v => { v with lost := true, follow := none }).pelEvent 6 ((d.ntu.pel.follow).getD 0) 0 0) s

end Sys2Proof.Machine
end

