-- ==== Sys2Proof/Machine/Hub.lean ====
section
/-! DEFINITION. The memory hub: requests, credits, arbitration, data phases, starvation, and HUB_SET_PORT (R407 to
R425). -/

namespace Sys2Proof.Machine

open Host

def Dev.arb (d : Dev) (k : Nat) : Arb := SMap.get {} d.hub.arbs k

def Dev.setArb (d : Dev) (k : Nat) (v : Arb) : Dev := { d with hub := { d.hub with arbs := SMap.put {} d.hub.arbs k v } }

/-- HUB_PORT_CFG of a port, bits [hi:lo] (Table 16-10). -/
def Dev.hubPort (d : Dev) (p hi lo : Nat) : Nat := d.fld (0x10100 + 4 * p) hi lo

/-- A requester port reaches the destination (Table 16-2). -/
def portReaches (p k : Nat) : Bool :=
  let scan := (9 ≤ p && p ≤ 16) || (32 ≤ p)
  if k < 8 then !(32 ≤ p && p ≤ 35) else scan

/-- Channel of a device address (R408). -/
def channelOf (a : Nat) : Nat := bitsOf a 14 12 ^^^ bitsOf a 17 15 ^^^ bitsOf a 20 18

/-- The destination that holds an address: LPDDR5X by R408, ScanStore banks by granule, where the address is
granule × 65,536 + offset (R407). -/
def destHolds (k a : Nat) : Bool := if k < 8 then channelOf a == k else a / 65536 % 4 == k - 8

/-- Bytes of the destination's memory. -/
def Dev.destSize (d : Dev) (k : Nat) : Nat := if k < 8 then d.memNet else 2048 * 65536

/-- A legal transfer (R407): size, alignment, one 4 KiB page, reach. -/
def Dev.transferOk (d : Dev) (p k a len : Nat) : Bool :=
  len != 0 && len % 64 == 0 && a % 64 == 0 && decide (a % 4096 + len ≤ 4096) && portReaches p k && destHolds k a
    && decide (a + len ≤ d.destSize k)

/-- Write credits of a destination (R415). -/
def hubCredits (k : Nat) : Nat := if k < 8 then 512 else 128

/-- The requester holds a request, or one that has been decided and waits for its data phase: it takes credits for one
transfer at a time (R415). While its data phase runs it may raise the next one, as the worked case of chapter 16 has
it (DEDUCED, log entry 53). -/
def Dev.hubBusy (d : Dev) (p : Nat) : Bool :=
  d.hub.arbs.any fun e => e.2.reqs.any (·.port == p) || e.2.next.any (·.port == p)

/-- A request is raised with the credits it needs (R415). -/
def Dev.hubRequest (d : Dev) (p k a len : Nat) (write : Bool) : Dev :=
  let v := d.arb k
  let need := if write then len / 64 else 0
  if d.hubBusy p || !d.transferOk p k a len || decide (hubCredits k < v.credits + need) then d
  else d.setArb k { v with
    credits := v.credits + need
    reqs := v.reqs ++ [{ port := p, addr := a, len := len, write := write, starve := d.hubPort p 31 16 }] }

/-- TRANSFER_REQUEST. -/
def execTransferRequest (port : Fin 38) (dest : Fin 12) (addr len : Nat) (write : Bool) (s : State) :
    Outcome State Fault Refusal :=
  lift (fun d => d.hubRequest port.val dest.val addr len write) s

/-- Under the quota policy a port that has had its quota in this window is masked (R421); level 0 never (R414). -/
def Dev.masked (d : Dev) (v : Arb) (p : Nat) : Bool :=
  let q := SMap.get 0 v.quota p
  d.fld 0x10000 0 0 == 0 && v.grants != 0 && d.hubPort p 1 0 != 0 && q != 0 && decide (q ≤ SMap.get 0 v.counts p)

/-- Distance of port `p` round the ring from the level's last winner (R418). -/
def roundFrom (last p : Nat) : Nat := (p + 38 - last) % 38

/-- The winner of a decision: the lowest level, and within it the first port after the last winner (R418). -/
def Dev.winner (d : Dev) (v : Arb) (rs : List HubReq) : Option HubReq :=
  rs.foldl (fun b r =>
    let key := fun (q : HubReq) => d.hubPort q.port 1 0 * 64 + roundFrom (SMap.get 0 v.last (d.hubPort q.port 1 0)) q.port
    match b with
    | none => some r
    | some b => if key r < key b then some r else some b) none

/-- The quotas that a new cadence window starts with. -/
def Dev.quotas (d : Dev) : SMap Nat :=
  (rangeFrom 0 38).foldl (fun m p => SMap.put 0 m p (d.hubPort p 15 8)) []

/-- A grant counts in the cadence window, which starts with its first grant and ends with its CADENCE_W-th (R421). -/
def Dev.countGrant (d : Dev) (v : Arb) (r : HubReq) : Arb :=
  let v := if v.grants = 0 then { v with quota := d.quotas, counts := [] } else v
  let lv := d.hubPort r.port 1 0
  let v : Arb := { v with
    reqs := v.reqs.filter (· != r), last := SMap.put 0 v.last lv (r.port + 1), grants := v.grants + 1
    counts := SMap.put 0 v.counts r.port (SMap.get 0 v.counts r.port + 1) }
  if d.fld 0x10000 15 8 ≤ v.grants then { v with grants := 0, counts := [] } else v

/-- The arbiter decides from the requests that are raised and not masked; a window in which every raised request is
masked ends at once (R417, R421). An idle destination's data phase starts with the decision. -/
def Dev.decide1 (d : Dev) (k : Nat) : Dev :=
  let v := d.arb k
  if v.reqs.isEmpty || v.next.isSome then d
  else
    let v := if v.reqs.all (fun r => d.masked v r.port) then { v with grants := 0, counts := [] } else v
    match d.winner v (v.reqs.filter fun r => !d.masked v r.port) with
    | none => d
    | some r =>
      let w := d.countGrant v r
      if v.owner.isSome then d.setArb k { w with next := some r }
      else (d.setArb k { w with owner := some r }).emit (.hubGrant k r.port)

/-- ARBITER_DECISION. -/
def execArbiterDecision (dest : Fin 12) (s : State) : Outcome State Fault Refusal := lift (fun d => d.decide1 dest.val) s

/-- Errors on a data phase (R410 to R412): corrected ones are counted; an uncorrectable read is counted, logged, and its
address kept. Inline ECC covers reads of LPDDR5X. -/
def Dev.eccNote (d : Dev) (k : Nat) (r : HubReq) (ecc link : Nat) (uncorr : Option Nat) : Dev :=
  if 8 ≤ k then d else
  let d := if link = 0 then d else d.count 0x10048 link
  if r.write then d else
  let d := if ecc = 0 ∨ !d.hub.inlineEcc then d else d.count 0x10040 ecc
  match uncorr with
  | none => d
  | some a => (({ d with hub := { d.hub with lastAddr := a } }).count 0x10044 1).log 2 0x003 0 a 1 0

/-- The data phase ends: the write's credits come back, and the transfer decided next begins with no gap (R417, R419). -/
def Dev.phaseEnd (d : Dev) (k ecc link : Nat) (uncorr : Option Nat) : Dev :=
  let v := d.arb k
  match v.owner with
  | none => d
  | some r =>
    let d := d.setArb k { v with
      owner := v.next, next := none, credits := v.credits - (if r.write then r.len / 64 else 0) }
    let d := d.eccNote k r ecc link uncorr
    match v.next with
    | some n => d.emit (.hubGrant k n.port)
    | none => d

/-- DATA_PHASE_END. -/
def execDataPhaseEnd (dest : Fin 12) (eccCorr linkCorr : Nat) (uncorr : Option Nat) (s : State) :
    Outcome State Fault Refusal :=
  lift (fun d => d.phaseEnd dest.val eccCorr linkCorr uncorr) s

/-- A port's request is lowered and its credits come back; a granted transfer runs on (R420). -/
def Dev.hubLower (d : Dev) (p : Nat) : Dev :=
  (rangeFrom 0 12).foldl (fun (d : Dev) k =>
    let v := d.arb k
    match v.reqs.find? (·.port == p) with
    | none => d
    | some r => d.setArb k { v with
        reqs := v.reqs.filter (·.port != p), credits := v.credits - (if r.write then r.len / 64 else 0) }) d

/-- A port's starvation timer reaches STARVE_T (R422): STARVE_EVENTS counts; the first expiry sets the port's bit and,
under the flag policy, logs it. -/
def Dev.starve (d : Dev) (p : Nat) : Dev :=
  if d.hub.arbs.any fun e => e.2.reqs.any fun r => r.port == p && r.starve != 0 then
    let o := 0x10020 + p / 32 * 4
    let d := d.count 0x1004C 1
    if (d.reg o).testBit (p % 32) then d
    else
      let d := d.setReg o (d.reg o ||| 2 ^ (p % 32))
      if d.fld 0x10000 0 0 = 1 then d.log 1 0x002 p 0 1 0 else d
  else d

/-- STARVE_TIMER_EXPIRY. -/
def execStarveTimerExpiry (port : Fin 38) (s : State) : Outcome State Fault Refusal := lift (fun d => d.starve port.val) s

/-- HUB_SET_PORT (R425). -/
def specHubSetPort : CmdSpec := {
  cls := 0x02, opc := 0x30
  offs := fun d c =>
    modeOff d.boot.mode.driver ++ dw1Offs c false ++ resOffs c [(4, 31, 8), (4, 5, 0), (5, 1, 0)]
      ++ off 4 0 (decide (37 < c.f 4 5 0) || hubLevels.getD (c.f 4 5 0) 1 == 0)
      ++ off 4 8 (decide (d.fld 0x10000 15 8 ≤ c.f 4 15 8)) ++ off 5 0 (c.f 5 1 0 == 0) }

/-- HUB_SET_PORT: STARVE_T, QUOTA and LEVEL of one port. -/
def execHubSetPort (r : CmdRef) (s : State) : Outcome State Fault Refusal :=
  lift (runCmd specHubSetPort r fun c d =>
    (d.setReg (0x10100 + 4 * c.f 4 5 0) (c.f 4 31 16 * 65536 + c.f 4 15 8 * 256 + c.f 5 1 0)).finish r stSuccess 0) s

end Sys2Proof.Machine
end

