-- ==== Sys2Proof/Machine/PwrCore.lean ====
section
/-! DEFINITION. Engines and islands (Tables 17-1 and 19-1): codes, the commands that need an engine, live work, parked
islands, and how deep an island may sleep (R106, R428, R429, R489). -/

namespace Sys2Proof.Machine

open Host

/-- Island of an engine code, `none` for a two-wire controller or a reserved code (Table 19-1). -/
def engIsland (code : Nat) : Option Nat :=
  if code < 0x13 then some code
  else if 0x18 ≤ code ∧ code < 0x21 then some (code - 5)
  else if 0x28 ≤ code ∧ code < 0x2E then some (code - 12)
  else if 0x30 ≤ code ∧ code < 0x34 then some (code - 14)
  else if code = 0x38 then some 38
  else if 0x40 ≤ code ∧ code < 0x44 then some (code - 17)
  else none

/-- The code is one of Table 19-1. -/
def engCode (code : Nat) : Bool := (engIsland code).isSome || (decide (0x48 ≤ code) && decide (code < 0x50))

/-- Engine of an island; the context cache and the interface islands but SNI's have none. -/
def engOfIsland (i : Nat) : Option Nat := (rangeFrom 0 0x50).find? fun c => engIsland c == some i

/-- BAR0 page of an engine, the block that a log entry names (Tables 1-6 and 18-4). -/
def engPage (code : Nat) : Nat :=
  if code < 0x11 then 3 else if code < 0x20 then 4 else if code = 0x20 then 5 else if code < 0x2E then 6
  else if code < 0x34 then 7 else if code = 0x38 then 8 else if code < 0x44 then 2 else 12

/-- Requester port of HUB that an engine owns (Table 16-2). -/
def engPorts (code : Nat) : List Nat :=
  if code = 0x10 then [5, 6, 7]
  else if 0x18 ≤ code ∧ code < 0x21 then [code - 15]
  else if 0x28 ≤ code ∧ code < 0x2E then [code - 22]
  else if 0x30 ≤ code ∧ code < 0x34 then [code - 24]
  else if code = 0x38 then [28]
  else if 0x40 ≤ code ∧ code < 0x44 then [code - 0x40]
  else []

/-- The engine whose token point it is (R478). -/
def pointEngine (pt : Nat) : Nat :=
  if pt < 0x80 then pt / 8 else if pt < 0x90 then pt - 0x6F else if pt < 0x98 then pt - 0x68 else pt - 0x6C

/-- A command that an engine serves (R485): by class and operands, posted buffers included. -/
def engUses (code : Nat) (c : Cmd) : Bool :=
  if code < 0x10 then false
  else if code = 0x10 then c.cls == 2 && (c.opc == 0x01 || c.opc == 0x02)
  else if code < 0x13 then c.cls == 2 && decide (0x10 ≤ c.opc) && decide (c.opc ≤ 0x14)
  else if code < 0x20 then
    c.cls == 2 && decide (0x20 ≤ c.opc) && decide (c.opc ≤ 0x26) && c.opc != 0x21 && c.f 4 2 0 == code - 0x18
  else if code = 0x20 then c.cls == 3 && c.opc != 0x02
  else if code < 0x2E then (c.cls == 4 && c.opc == 0x03) || (c.cls == 5 && (c.opc == 0x03 || c.opc == 0x04))
  else if code < 0x34 then c.cls == 6 && (c.opc == 0x03 || c.opc == 0x11 || c.opc == 0x12)
  else if code = 0x38 then c.cls == 7
  else if code < 0x44 then c.cls == 1 && c.opc != 0x20 && c.f 4 1 0 == code - 0x40
  else c.cls == 11 && c.f 4 2 0 == code - 0x48

/-- A command that cannot run while an engine is Disabled (R447): where slices share the work, once none is left; a
posted buffer of the codecs and LSE stays pending (R291, R313). -/
def Dev.engNeeds (d : Dev) (code : Nat) (c : Cmd) : Bool :=
  engUses code c &&
    if code = 0x11 ∨ code = 0x12 then d.cbeOff
    else if 0x28 ≤ code ∧ code < 0x2E then d.codecGone && c.opc == 0x03
    else if 0x30 ≤ code ∧ code < 0x34 then d.lseGone && c.opc != 0x11
    else true

/-! ## Live work (R429) -/

/-- A raw source runs: a port that is not stopped, or MP with an MP_FRAME. -/
def Dev.srcRuns (d : Dev) (s : Nat) : Bool := if s < 4 then (d.port s).state != .stopped else !d.srcStopped s

/-- A running source uses island `i` of the pipeline. -/
def Dev.srcOn (d : Dev) (i : Nat) : Bool := (rangeFrom 0 5).any fun s => d.srcRuns s && (d.srcIslands s).contains i

/-- Some lane of group `g` works. -/
def Dev.groupBusy (d : Dev) (g : Nat) : Bool := (rangeFrom (3 * g) 3).any fun k => SMap.get .idle d.lse.lanes k != .idle

/-- A raw session whose port runs. -/
def Dev.rawRuns (d : Dev) : Bool := d.lse.raw.any fun e => e.2.isSome && (d.port e.1).state != .stopped

/-- Slots of storage port `p` that are not EMPTY. -/
def Dev.slotsUsed (d : Dev) (p : Nat) : Bool :=
  (rangeFrom (2 * p) 2).any fun s => (SMap.get {} d.recd.slots s).state != .empty

/-- Some fetched command is for the engine. -/
def Dev.engCmds (d : Dev) (code : Nat) : Bool := d.hif.cmds.any fun c => engUses code c

/-- Something runs on the island, or a command waits for it (R447). -/
def Dev.islandWork (d : Dev) (i : Nat) : Bool :=
  let cmds := (engOfIsland i).any d.engCmds
  if i < 19 then d.srcOn i || cmds
  else if i < 27 then (d.spkOf (i - 19)).state == .running || cmds
  else if i = 27 then
    cmds || (rangeFrom 0 4).any (fun u => (d.stuUnit u).running)
      || (rangeFrom 0 5).any fun s => d.srcRuns s && d.stuRawOn s
  else if i < 34 then cmds || d.codec.enc.any fun e => e.2.any (·.cur.isSome)
  else if i < 38 then cmds || d.rawRuns || d.groupBusy (i - 34)
  else if i = 38 then cmds || !d.recd.cmds.isEmpty
  else if i = 39 then d.hif.cmds.any fun c => c.cls != 0x0C
  else if i < 44 then d.slotsUsed (i - 40) && d.recd.cmds.any (·.begun)
  else if i = 44 then d.boot.hostLink
  else if i < 47 then (d.eth (i - 45)).up
  else if i < 51 then (d.port (i - 47)).state != .stopped || cmds
  else if i < 55 then d.hub.trained
  else (rangeFrom 0 2).any fun k => (d.sdiIn k).run

/-- The island's block holds live work (R429): work, or an open session or volume that it serves. -/
def Dev.islandLive (d : Dev) (i : Nat) : Bool :=
  d.islandWork i ||
    (if 28 ≤ i ∧ i < 34 then decide (0 < d.codecOpen)
     else if 34 ≤ i ∧ i < 38 then d.lse.sessions.any (·.2.isSome) || d.lse.raw.any (·.2.isSome)
     else if i = 38 then d.recd.vols.any (·.2.state == 1)
     else i == 39 && d.hif.ready)

/-- The deepest state that Table 17-1 and R429 allow an island now: 0 Idle, 1 Retention, 2 Off. -/
def Dev.column (d : Dev) (i : Nat) : Nat :=
  if i < 19 then (if d.srcOn i then 0 else 2)
  else if i < 27 then (if (d.spkOf (i - 19)).state = .running then 0 else 2)
  else if i = 27 then (if (rangeFrom 0 5).any fun s => d.srcRuns s && d.stuRawOn s then 0 else 2)
  else if i < 34 then 2
  else if i < 38 then (if d.rawRuns then 0 else 2)
  else if i = 38 then 2
  else if i = 39 then (if d.hif.recovery then 0 else 2)
  else if i < 44 then (if d.slotsUsed (i - 40) then 1 else 2)
  else if i = 44 then (if d.boot.hostLink then 1 else 2)
  else if i < 47 then (if (d.eth (i - 45)).up then 0 else 2)
  else if i < 51 then (if (d.port (i - 47)).state = .stopped then 2 else 0)
  else if i < 55 then 1
  else if (rangeFrom 0 2).any fun k => (d.sdiIn k).run then 0 else 2

/-- The least tolerance in us over the service classes of the island's SVC_MASK; 0 without LATENCY_TOLERANCE (R106,
R107, R428). A mask of no class limits nothing. -/
def Dev.islandTol (d : Dev) (i : Nat) : Nat :=
  if !d.feat 17 then 0
  else (rangeFrom 0 8).foldl (fun (t : Nat) c =>
    if (d.reg (0xD0200 + 4 * i)).testBit c then min t (SMap.get 0 d.hif.tol c) else t) 65535

/-- The deepest state the island may enter: a parked one whatever the tolerances (R428, R429). -/
def Dev.islandDepth (d : Dev) (i : Nat) : Nat :=
  if d.islandLive i then min (d.column i) (deepest (d.islandTol i)) else d.column i

/-- The island is parked, or Off with nothing at work on it (R489). -/
def Dev.islandOff (d : Dev) (i : Nat) : Bool :=
  !d.islandLive i || ((d.isl i).st == 3 && d.column i == 2 && !d.islandWork i)

/-- A geared island (R427). -/
def geared (i : Nat) : Bool := decide (i < 40)

/-- Thermal ceiling, and the ceiling of R436. -/
def Dev.thermCeil (d : Dev) (i : Nat) : Nat := SMap.get 8 d.pwr.ceil i
def Dev.ceiling (d : Dev) (i : Nat) : Nat := min (max 1 (d.fld 0xD0000 11 8)) (d.thermCeil i)

/-- Move an island to a gear, counting a change (GEAR_CHANGES). -/
def Dev.toGear (d : Dev) (i g : Nat) : Dev :=
  let v := d.isl i
  if v.gear = g then d
  else
    let d := d.setIsl i { v with gear := g }
    if v.gear = 0 ∨ g = 0 then d else d.count 0xD0080 1

end Sys2Proof.Machine
end

