-- ==== Sys2Proof/Machine/Engines.lean ====
section
/-! DEFINITION. Stopping an engine at a reset or a disable, ENGINE_RESET and the end of a reset, disabling and enabling
islands (R245, R273, R291, R313, R333, R403, R447, R448, R481 to R490, R494). -/

namespace Sys2Proof.Machine

open Host

/-! ## What stops (Table 19-2) -/

/-- A frame of the pipeline is lost (R157, R181): a sprocket that holds it drops it, STU cancels it at once (R228), and
where it is still open at ingest it becomes a skipped frame with CAUSE 2. -/
def Dev.loseFrame (d : Dev) (f : PipeFrame) : Dev :=
  let d := (rangeFrom 0 8).foldl (fun (d : Dev) n =>
    if (d.spkOf n).cur.any fun c => c.index == f.index && c.input == SpkIn.live f.src then
      (d.count (spkCtr n 2) 1).spkAbandon n none
    else d) d
  let d := d.cancelFrame f
  let d := if f.closed then d else
    d.modPort f.src fun v => { v with frame := v.frame.map fun g =>
      if g.index = f.index then { g with skipped := some 2, stuOver := true } else g }
  ({ d with rfe := { d.rfe with
    frames := d.rfe.frames.filter fun g => !(g.src == f.src && g.index == f.index) } }).stuFlush

/-- A spoke, RFE shared or a CBE slice stops: the frames in it are lost, and the history of its sources is absent on
the next frame (R168). -/
def Dev.pipeStop (d : Dev) (island : Nat) : Dev :=
  let uses := fun s => (d.srcIslands s).contains island
  let lost := d.rfe.frames.filter fun f =>
    uses f.src && if island < 17 then !f.rfeDone else !f.cbeDone
  let d := lost.foldl (fun (d : Dev) f => d.loseFrame f) d
  (rangeFrom 0 5).foldl (fun (d : Dev) s =>
    if uses s then d.setRfe s { d.rfe? s with histBroken := true } else d) d

/-- Blocks and loads that have crossed into RFE shared and have not taken effect end with it (R484, Table 5-9). -/
def Dev.rfeEnd (d : Dev) (st : Nat) : Dev :=
  let refs := (rangeFrom 0 5).flatMap fun s => ((d.rfe? s).blocks ++ (d.rfe? s).loads).map (·.ref)
  let d := (rangeFrom 0 5).foldl (fun (d : Dev) s => d.setRfe s { d.rfe? s with blocks := [], loads := [] }) d
  d.finishAll refs st 0

/-- Colour blocks and LUT loads of the sources that CBE slice `island` serves end with it (R484, Table 6-18). -/
def Dev.cbeEnd (d : Dev) (island st : Nat) : Dev :=
  let ss := (rangeFrom 0 5).filter fun s => (d.srcIslands s).contains island
  let us := (rangeFrom 0 2).filter fun u => ss.contains (d.lut u).pendSrc
  let refs := (ss.flatMap fun s => (SMap.get [] d.cbe.blocks s).map (·.ref))
    ++ us.flatMap fun u => ((d.lut u).pend.map (·.ref)).toList
  let d := ss.foldl (fun (d : Dev) s => { d with cbe := { d.cbe with blocks := SMap.put [] d.cbe.blocks s [] } }) d
  let d := us.foldl (fun (d : Dev) u => d.setLut u { d.lut u with pend := none }) d
  d.finishAll refs st 0

/-- Path blocks and tables that have crossed into a sprocket and have not taken effect end with it (R484, Table 7-8). -/
def Dev.spkEnd (d : Dev) (n st : Nat) : Dev :=
  let s := d.spkOf n
  (d.setSpk n { s with paths := [], loads := [] }).finishAll ((s.paths ++ s.loads).map (·.ref)) st 0

/-- STU stops (R245): CANCELLED for every frame begun, units stopped, buffers end with `st`. -/
def Dev.stuStop (d : Dev) (st : Nat) : Dev :=
  let d := (d.rfe.frames.filter fun f => !f.stuDone).foldl (fun (d : Dev) f =>
    ((d.cancelFrame f).modFrame f.src f.index fun g => { g with stuDone := true }).stuFlush) d
  let d := (rangeFrom 0 4).foldl (fun (d : Dev) u =>
    let v := d.stuUnit u
    let d := match v.cur with
      | some i => if v.running then d.scopeCancel u i 0 else d
      | none => d
    let d := d.setUnit u { v with running := false, stopping := false, stopRef := none, cur := none }
    match v.stopRef with
    | some r => d.finish r st 0
    | none => d) d
  let refs := d.stu.bufs.flatMap fun e => e.2.map (·.ref)
  ({ d with stu := { d.stu with bufs := [] } }).finishAll refs st 0

/-- A sensor port stops with its engine (R488): the open frame closes SHORT with INPUT_LOST, the port and MCLKk stop,
programs not begun end with `st`, and one whose issue has begun ends once its writes are done. -/
def Dev.portEngineStop (d : Dev) (p : Nat) (st : Nat) : Dev :=
  let p := if (d.port p).state = .gangSecondary then (d.gangOf p).1 else p
  let r := (d.port p).stopRef
  let d := d.modPort p fun v => { v with stopping := false, stopRef := none }
  let d := (d.loseInput p).endPrograms p st
  let d := d.modPort p fun v => { v with programs := v.programs.map fun g => { g with reset := true } }
  let d := d.portStop p
  let d := (d.setReg (0x20800 + 8 * p) 0).mclkFollow p
  match r with
  | some r => d.finish r st 0
  | none => d

/-- A two-wire controller stops at once, without STOP (R403): everything begun on it ends with `st`. -/
def Dev.twEngineStop (d : Dev) (c : Nat) (st : Nat) : Dev :=
  let v := d.ctl c
  let d := d.modCtl c fun v => { v with disabling := none }
  let d := match v.cur with
    | some k => d.twFail c k st
    | none => d
  let d := ((d.ctl c).xfers.filter (·.started)).foldl (fun (d : Dev) x => d.xferEnd c x st) d
  let d := (d.allProgs.filter fun e => e.1.issuing && e.1.ctl == c).foldl (fun (d : Dev) e => d.progEnd e.1 st) d
  match v.disabling with
  | some r => d.finish r st 0
  | none => d

/-- An engine reset returns a sprocket to set-up (R221), but SPK0 on the pilot path: sets that wait end, blocks, buffers
and memory frames stay queued (R483, R485). -/
def Dev.spkSetUp (d : Dev) (n st : Nat) : Dev :=
  if n = 0 ∧ d.boot.pilot.isSome then d else
  let s := d.spkOf n
  let d := d.setSpk n { s with
    state := .stopped, restarts := [], applied := [], arrivals := [], latched := [], paceDue := false, held := false
    shed := false, shedNow := false }
  (d.finishAll (s.restarts.map (·.ref) ++ s.applied) st 0).sweepFrames

/-- The work in passage in an engine is lost and the commands begun there end with `st` (R484, Table 19-2). A lane
group's sessions go on (R299, R313), and so does a disabled sprocket (R219). -/
def Dev.engHalt (d : Dev) (code st : Nat) : Dev :=
  if code < 0x13 then
    let d := d.pipeStop code
    if code < 0x10 then d else if code = 0x10 then d.rfeEnd st else d.cbeEnd code st
  else if code < 0x20 then
    let n := code - 0x18
    let d := if (d.spkOf n).cur.isSome then (d.count (spkCtr n 2) 1).spkAbandon n (some (st, 0)) else d
    let d := d.spkEnd n st
    if st = stEngineReset ∧ (d.spkOf n).state = .running then d.spkSetUp n st else d
  else if code = 0x20 then d.stuStop st
  else if code < 0x2E then ((d.encReset st).decReset st)
  else if code < 0x34 then d.lseGroupStop (code - 0x30) st
  else if code = 0x38 then d.recReset st
  else if code < 0x44 then d.portEngineStop (code - 0x40) st
  else d.twEngineStop (code - 0x48) st

/-- An engine's ports enter nullify mode: its work stops, its HUB requests are lowered (R420), a freeze inside it ends
(R478). -/
def Dev.engStop (d : Dev) (code st : Nat) : Dev :=
  let d := (d.engHalt code st).settleAll
  let d := (engPorts code).foldl (fun (d : Dev) p => d.hubLower p) d
  if d.dbg.frozen && pointEngine d.dbg.point == code then
    { d with dbg := { d.dbg with frozen := false, credits := 0, waits := false } }
  else d

/-- Completions with status `st` that `d'` has posted and `d` had not. -/
def postedWith (d d' : Dev) (st : Nat) : Nat :=
  ((d'.out.drop d.out.length).filter fun o => match o with
    | .completion _ _ _ _ _ _ s => s == st
    | _ => false).length

/-! ## ENGINE_RESET (R484, R485, R489, Tables 19-3 and 19-4) -/

/-- Offences common to class 0x0C (R446). -/
def Dev.pwrOffs (d : Dev) (c : Cmd) (fields : List (Nat × Nat × Nat)) : List Offence :=
  modeOff d.boot.mode.driver ++ dw1Offs c false ++ resOffs c fields

def specEngineReset : CmdSpec := {
  cls := 0x0C, opc := 0x10
  offs := fun d c => d.pwrOffs c [(4, 7, 0)] ++ off 4 0 (!engCode (c.f 4 7 0)) }

/-- An engine enters reset; `load` marks a reset by MGMT_ENGINE_LOAD. -/
def Dev.enterReset (d0 : Dev) (code : Nat) (ref : Option CmdRef) (load : Bool) (dropped : Nat) : Dev :=
  let was := decide (0x48 ≤ code) && (d0.ctl (code - 0x48)).state == .enabled
  let d := d0.engStop code stEngineReset
  let kept := (d.hif.cmds.filter fun c => engUses code c).length
  let e : EngReset := {
    code := code, ref := ref, load := load, was := was, dropped := satW 16 dropped
    ended := satW 16 (postedWith d0 d stEngineReset), kept := satW 16 kept }
  { d with eng := { d.eng with resets := d.eng.resets ++ [e] } }

/-- The engine sleeps: a parked or Off island; a two-wire controller never does (R489). -/
def Dev.engAsleep (d : Dev) (code : Nat) : Bool := (engIsland code).any d.islandOff

/-- The effect of ENGINE_RESET: `dropped` replies are discarded inside the engine. -/
def engineReset (dropped : Nat) (r : CmdRef) (c : Cmd) (d : Dev) : Dev :=
  let code := c.f 4 7 0
  if (engIsland code).any d.pwr.disabled.contains then d.finish r stEngineDown 0
  else if d.eng.resets.any (·.code == code) then
    let upd := fun (e : EngReset) => if e.code = code then { e with also := e.also ++ [r] } else e
    let d := d.begin r
    { d with eng := { d.eng with resets := d.eng.resets.map upd } }
  else if d.engAsleep code then d.finish r stSuccess 0
  else (d.begin r).enterReset code (some r) false dropped

/-- ENGINE_RESET (R484). -/
def execEngineReset (r : CmdRef) (dropped : Nat) (s : State) : Outcome State Fault Refusal :=
  lift (runCmd specEngineReset r (engineReset dropped r)) s

/-! ## Code loads (R459, R464, R490) -/

/-- Engine codes that a load of engine `e` resets: SNI every running port; NTU none (R482). -/
def Dev.loadCodes (d : Dev) (e : Nat) : List Nat :=
  match e with
  | 0 => rangeFrom 0x28 6
  | 1 => rangeFrom 0x30 4
  | 2 => [0x38]
  | 4 => ((rangeFrom 0 4).filter fun p =>
      (d.port p).state != .stopped && (d.port p).state != .gangSecondary).map (· + 0x40)
  | _ => []

/-- Digest of engine `e`'s component in a container, none where it has no such component. -/
def Container.code? (c : Container) (e : Nat) : Option Nat := (c.engineCode.find? (·.1 == e)).map (·.2)

/-- Engine `e` takes the running container's code; without the component, or with one that fails its digest, it has no
code and ENGINE_CODE_BAD is logged (R459). -/
def Dev.takeCode (d : Dev) (e : Nat) (ok : Bool) (tag : Option Nat := none) : Dev :=
  let v : Option EngCode := d.oms.running.bind fun c => (Container.code? c e).map fun g =>
    { src := d.boot.slotB.toNat, signer := c.signer, version := c.version, digest := g }
  match ok, v with
  | true, some v => { d with oms := { d.oms with code := SMap.put {} d.oms.code e v } }
  | _, _ => ({ d with oms := { d.oms with code := SMap.put {} d.oms.code e {} } }).log 2 0x005 e 0 14 0 ones64 tag

/-- The load that waited for its resets is done: RESULT 1, or INTERNAL_ERROR where the engine has no code (R464). -/
def Dev.loadDone (d : Dev) : Dev :=
  match d.eng.load with
  | none => d
  | some (r, e, ok) =>
    let d := ({ d with eng := { d.eng with load := none } }).takeCode e ok (d.tagOf r)
    if d.noCode e then d.finish r stInternal 0 else d.finish r stSuccess 1

/-! ## The end of a reset (R483, R485, R488, R494) -/

/-- The engine serves again: a two-wire controller that was enabled clears its bus (R403); the reset is logged; its
commands complete; queued work goes on. -/
def Dev.leaveReset (d : Dev) (e : EngReset) (k : Option Nat) : Dev :=
  let d := { d with eng := { d.eng with resets := d.eng.resets.filter (·.code != e.code) } }
  let d := if e.was then (d.busClear (e.code - 0x48) k).1 else d
  let d := d.log 1 0x070 (e.code + (if e.auto then 2 else e.load.toNat) * 256) (e.ended + e.dropped * 65536) (engPage e.code)
    0 ones64 ((e.ref.or (if e.load then d.eng.load.map (·.1) else none)).bind d.tagOf)
  let d := match e.ref with
    | some r => d.finish r stSuccess (e.ended + e.kept * 65536 + e.dropped * 4294967296)
    | none => d
  let d := d.finishAll e.also stSuccess 0
  let d := if e.code = 0x38 then d.pump else d
  if e.load && !d.eng.resets.any (·.load) then d.loadDone else d

/-- ENGINE_RESET_DONE (R485): `sdaHighAfter` answers the bus clear of a two-wire controller. -/
def execEngineResetDone (code : Nat) (sdaHighAfter : Option Nat) (s : State) : Outcome State Fault Refusal :=
  lift (fun d => match d.eng.resets.find? (·.code == code) with
    | some e => d.leaveReset e sdaHighAfter
    | none => d) s

/-! ## Disabling and enabling islands (R447, R448, R485, R494) -/

/-- An island becomes Disabled: its work ends, and every command that needs its engine completes ENGINE_DOWN. Answers
the commands so ended. The context cache is no engine of Table 19-1: its log entry names a free code (log entry 40). -/
def Dev.islandDisable (d0 : Dev) (i cause : Nat) (tag : Option Nat := none) : Dev × Nat :=
  let v := d0.isl i
  let d := d0.setIsl i { v with st := 3, gear := 0, k := 0 }
  let d := { d with pwr := { d.pwr with disabled := d.pwr.disabled ++ [i] } }
  match engOfIsland i with
  | none =>
    let x := d.draw
    (x.2.log 2 0x071 (x.1 % 256 + cause * 256) 0 0 0 ones64 tag, 0)
  | some code =>
    let d := d.engStop code stEngineDown
    let refs := (d.hif.cmds.filter fun c => d.engNeeds code c).map Cmd.ref
    let d := refs.foldl (fun (d : Dev) r => d.cut stEngineDown r) d
    (d.log 2 0x071 (code + cause * 256) 0 (engPage code) 0 ones64 tag, postedWith d0 d stEngineDown)

def specIslandDisable : CmdSpec := {
  cls := 0x0C, opc := 0x01
  offs := fun d c => d.pwrOffs c [(4, 5, 0), (4, 8, 8)] ++ off 4 0 (!geared (c.f 4 5 0)) }

/-- The effect of PWR_ISLAND_DISABLE; an island that is Disabled already has no work to end. -/
def pwrIslandDisable (r : CmdRef) (c : Cmd) (d : Dev) : Dev :=
  let i := c.f 4 5 0
  if d.pwr.disabled.contains i then d.finish r stSuccess 0
  else if d.islandWork i && !c.b 4 8 then d.finish r stEngineBusy 0
  else
    let e := d.islandDisable i 0 (some c.tag)
    e.1.finish r stSuccess (satW 32 e.2)

/-- PWR_ISLAND_DISABLE (R447). -/
def execPwrIslandDisable (r : CmdRef) (s : State) : Outcome State Fault Refusal :=
  lift (runCmd specIslandDisable r (pwrIslandDisable r)) s

def specIslandEnable : CmdSpec := {
  cls := 0x0C, opc := 0x02
  offs := fun d c => d.pwrOffs c [(4, 5, 0)] ++ off 4 0 (!d.pwr.disabled.contains (c.f 4 5 0)) }

/-- PWR_ISLAND_ENABLE (R448): the island is Off and wakes on demand. -/
def execPwrIslandEnable (r : CmdRef) (s : State) : Outcome State Fault Refusal :=
  lift (runCmd specIslandEnable r fun c d =>
    ({ d with pwr := { d.pwr with disabled := d.pwr.disabled.filter (· != c.f 4 5 0) } }).pump.finish r stSuccess 0) s

end Sys2Proof.Machine
end

