-- ==== Sys2Proof/Machine/Auto.lean ====
section
/-! DEFINITION. The jobs of PXE, ENE and LSE in which an internal consistency check can fail: the command completes
INTERNAL_ERROR and the engine is reset autonomously, a third time within 10 s with its island disabled (R482, R493,
R494). -/

namespace Sys2Proof.Machine

open Host

/-- 10 s in units of 2^-32 ns. -/
abbrev escalateTime : Nat := 10000000000 * two32

/-- An engine is reset autonomously: INTERNAL_ERROR is logged first, the reset counts in AUTO_RESETS, and the third of one
engine within 10 s disables its island, as PWR_ISLAND_DISABLE with FORCE would (R493, R494). -/
def Dev.autoReset (d : Dev) (code : Nat) (tag : Option Nat) : Dev :=
  let x := d.draw
  let d := x.2.log 2 0x004 (x.1 % two32) 0 (engPage code) 0 ones64 tag
  let late := d.eng.autos.filter fun e => decide (d.now - e.2 ≤ escalateTime)
  let third := decide (2 ≤ (late.filter (·.1 == code)).length)
  let d := (d.count 0xD0090 1).enterReset code none false 0
  let d := { d with eng := {
    d.eng with
    autos := late ++ [(code, d.now)]
    resets := d.eng.resets.map fun (e : EngReset) => if e.code = code then { e with auto := true } else e } }
  if third then (engIsland code).elim d fun i => (d.islandDisable i 1).1 else d

/-- A slice of PXE or ENE that serves (Table 19-1). -/
def Dev.sliceServes (d : Dev) (code : Nat) : Bool :=
  decide (0x28 ≤ code) && decide (code < 0x2E) && !d.engDown code (code - 12)

/-- A lane group that serves and has a lane for a stream job. -/
def Dev.groupServes (d : Dev) (code : Nat) : Bool :=
  decide (0x30 ≤ code) && decide (code < 0x34)
    && (rangeFrom (3 * (code - 0x30)) 3).any fun k => d.lseLaneUp k && d.laneIdle k

/-! ## Encode (R264) -/

/-- A row of the picture in hand in which an internal check fails. -/
def Dev.rowFault (d : Dev) (h code : Nat) : Dev :=
  if ((d.enc? h).bind (·.cur)).isSome && d.sliceServes code then (d.encCut h stInternal).autoReset code (((d.enc? h).bind (·.cur)).bind fun p => d.tagOf p.ref) else d

/-- ENE_ROW_COMMIT (R264, R493). -/
def execEneRowCommit (handle : Nat) (row : RowBits) (s : State) : Outcome State Fault Refusal :=
  lift (fun d => match row.internal with
    | none => d.eneRow handle row
    | some code => d.rowFault handle code) s

/-! ## Decode (R279) -/

/-- A decode job in which an internal check fails: it gives no picture. -/
def decFault (code : Nat) (r : CmdRef) (c : Cmd) (d : Dev) : Dev :=
  if d.codecGone then d.finish r stEngineDown 0
  else if !d.pxeUp || (d.eneFor c.num none).isNone || d.jobAhead c || !d.sliceServes code || (d.dec? c.handle).any (·.flushing.isSome) then d
  else ((d.finish r stInternal 0).decSettle c.handle).autoReset code (some c.tag)

/-- DEC_DECODE (R279, R493). -/
def execDecDecode (r : CmdRef) (au : AccessUnit) (s : State) : Outcome State Fault Refusal :=
  lift (runCmd specDecDecode r (match au.internal with
    | none => decDecode au r
    | some code => decFault code r)) s

/-! ## Stream jobs (R298, R299, R313) -/

/-- A stream job in which an internal check fails: its session is as before it, its output is undefined, and the later
jobs of the session complete ENGINE_RESET. -/
def lseFault (code : Nat) (r : CmdRef) (c : Cmd) (d : Dev) : Dev :=
  if d.lseGone then d.finish r stEngineDown 0
  else if d.lseAhead c || !d.groupServes code then d
  else if d.resumeBad c then d.finish r stInvalidField (Offence.result { dw := 4, bit := 1 })
  else
    let later := (d.hif.cmds.filter fun e =>
      e.cls == 6 && (e.opc == 3 || e.opc == 0x12) && e.handle == c.handle && decide (c.num < e.num)).map
      (·.ref)
    let d := (match d.lse? c.handle with
      | none => d
      | some s => d.lseWorked s)
    let d := (d.undefBuf (c.b 4 9) (c.q 8) (c.w 10)).finish r stInternal 0
    ((d.finishAll later stEngineReset 0).lseSettle c.handle).autoReset code (some c.tag)

/-- LSE_BLOCK (R298, R493). -/
def execLseBlock (r : CmdRef) (run : LseRun) (s : State) : Outcome State Fault Refusal :=
  lift (runCmd specLseBlock r (match run.internal with
    | none => lseBlock run r
    | some code => lseFault code r)) s

end Sys2Proof.Machine
end

