-- ==== Sys2Proof/Machine/Control.lean ====
section
/-! DEFINITION. ABORT, DELETE_QP and RESET_QP (R91 to R96, R101, R103), and the host memory faults of Table 3-24 (R89). -/

namespace Sys2Proof.Machine

open Host

/-- Fetched, uncompleted commands of a queue pair in the order of their fetch. -/
def Dev.fetchedOf (d : Dev) (q : Nat) : List CmdRef := (d.hif.cmds.filter (·.qid == q)).map Cmd.ref

/-- No CID: a queue operation that carries it in its list is still at work. -/
abbrev atWork : Nat := 65536

/-- A queue operation begins: it waits for every fetched command of the queue. -/
def Dev.openOp (d : Dev) (r : CmdRef) (q : Nat) (delete : Bool) : Dev :=
  let o : QueueOp := { ref := r, qid := q, delete := delete, left := atWork :: (d.fetchedOf q).map (·.cid), count := 0 }
  { d with hif := { d.hif with queueOps := d.hif.queueOps ++ [o] } }

/-- Change the queue operation of a command. -/
def Dev.modOp (d : Dev) (r : CmdRef) (f : QueueOp → QueueOp) : Dev :=
  { d with hif := { d.hif with queueOps := d.hif.queueOps.map fun o => if o.ref == r then f o else o } }

/-- Its own work is done: it completes once the commands it waits for have ended. -/
def Dev.closeOp (d : Dev) (r : CmdRef) : Dev :=
  (d.modOp r fun o => { o with left := o.left.filter (· != atWork) }).settleQueueOps

/-- Force-release a queue's locks, in log entries with the HOST_TAG of the command that does it, and end its commands
where they still can be ended. -/
def Dev.endQueue (d : Dev) (q cause : Nat) (tag : Option Nat) : Dev :=
  let d := d.forceAll (fun o => o == LockOwner.queue q) cause (if cause = 1 then some stQueueDeleted else none) tag
  (d.fetchedOf q).foldl (fun (d : Dev) x => d.cut stQueueDeleted x) d

/-! ## DELETE_QP (R92) -/

def specDeleteQp : CmdSpec := {
  cls := 0, opc := 0x02
  offs := fun d c => adminOffs c [(4, 11, 0)] ++ off 4 0 (c.f 4 11 0 == 0 || !(d.qp (c.f 4 11 0)).live) }

/-- The effect of DELETE_QP: the pair is no longer live; a RESET_QP of it that has not completed counts no more; locks
are force-released; every fetched command ends as an ABORT would, without a completion. -/
def deleteQp (r : CmdRef) (c : Cmd) (d : Dev) : Dev :=
  let q := c.f 4 11 0
  let d := (d.begin r).setQp q { d.qp q with live := false, deleting := true }
  let ops := d.hif.queueOps.map fun o => if o.qid == q then { o with left := [] } else o
  let d := { d with hif := { d.hif with marks := d.hif.marks.filter (·.qid != q), queueOps := ops } }
  ((d.openOp r q true).endQueue q 0 (some c.tag)).closeOp r

/-- DELETE_QP (R92). -/
def execDeleteQp (r : CmdRef) (s : State) : Outcome State Fault Refusal := lift (runCmd specDeleteQp r (deleteQp r)) s

/-! ## RESET_QP (R93) -/

def specResetQp : CmdSpec := {
  cls := 0, opc := 0x03
  offs := fun d c => adminOffs c [(4, 11, 0)] ++ off 4 0 (c.f 4 11 0 == 0 || !(d.qp (c.f 4 11 0)).live) }

/-- Unfetched entries of a queue pair up to the tail last read. -/
def Dev.waitingEntries (d : Dev) (q : Nat) : Nat :=
  let p := d.qp q
  if p.faulted then 0 else (p.tail + p.depth - p.head) % p.depth

/-- Commands fetched and not completed, and completions posted and not released (R70). -/
def Dev.cqUsed (d : Dev) (q : Nat) : Nat :=
  let p := d.qp q
  (d.fetchedOf q).length + (p.cqTail + p.depth - p.cqHead) % p.depth

/-- An entry that is completed unread but for its dword 0, in which CLASS, OPCODE and CID stand (Table 3-14). -/
def unreadCmd (q : Nat) (w : Word) : Cmd := {
  qid := q, cid := bitsOf w.toNat 31 16, num := 0, dw := [w], begun := false, since := 0 }

/-- The next `n` entries are read in order and complete QUEUE_DELETED, with the RESULT of a command that ends before it
begins (R77): `ws` are the dwords 0 found. A list that ends early is a read that fails: the queue becomes FAULTED. -/
def Dev.flushEntries (d : Dev) (q : Nat) (r : CmdRef) : Nat → List Word → Dev
  | 0, _ => d
  | _ + 1, [] => d.faultQp q
  | n + 1, w :: ws =>
    let p := d.qp q
    let d := d.setQp q { p with head := (p.head + 1) % p.depth }
    let c := unreadCmd q w
    let d := { d with hif := { d.hif with marks := d.hif.marks.filter (· != c.ref) } }
    let d := d.modOp r fun o => { o with count := o.count + 1 }
    (d.postCompletion q c.cid stQueueDeleted (cutResult c)).flushEntries q r n ws

/-- The effect of RESET_QP: SQ_TAIL is read; locks are force-released; fetched commands end where they still can, and
entries up to the tail complete unread, all QUEUE_DELETED. It does not begin until the completion queue takes them
(R70; DEDUCED). The slot is read whole, as a KICK reads it: CQ_HEAD is taken and new entries set WATCH (log entry 76). -/
def resetQp (slot : DbSlot) (unfetched : List Word) (r : CmdRef) (c : Cmd) (d0 : Dev) : Dev :=
  let q := c.f 4 11 0
  let d := (d0.begin r).readSlot q slot
  let n := d.waitingEntries q
  if (d.qp q).depth ≤ d.cqUsed q + n then d0
  else (((d.openOp r q false).endQueue q 1 (some c.tag)).flushEntries q r n unfetched).closeOp r

/-- RESET_QP (R93). -/
def execResetQp (r : CmdRef) (slot : DbSlot) (unfetched : List Word) (s : State) : Outcome State Fault Refusal :=
  lift (runCmd specResetQp r (resetQp slot unfetched r)) s

/-! ## ABORT (R94 to R96) -/

def specAbort : CmdSpec := {
  cls := 0, opc := 0x08
  offs := fun d c => adminOffs c [(4, 11, 0), (4, 31, 16)]
    ++ off 4 0 (c.f 4 11 0 == 0 || !(d.qp (c.f 4 11 0)).live) }

/-- The effect of ABORT: a fetched target ends where its context still allows it; `unfetched` are the CIDs from the head
to the SQ_TAIL read, where a target found is marked (256 marks at once); else NOT_PENDING. On a FAULTED queue, from
which nothing more is fetched, no entry is searched for or marked: NOT_PENDING (log entry 76). -/
def abort (unfetched : List Nat) (r : CmdRef) (c : Cmd) (d : Dev) : Dev :=
  let t : CmdRef := ⟨c.f 4 11 0, c.f 4 31 16⟩
  let res := t.qid + t.cid * 65536
  match d.cmd? t with
  | some k => match d.cut? k stAborted with
    | some d => d.finish r stSuccess (res + two32)
    | none => d.finish r stNotPending res
  | none =>
    if !unfetched.contains t.cid || (d.qp t.qid).faulted then d.finish r stNotPending res
    else if d.hif.marks.contains t then d.finish r stSuccess res
    else if 256 ≤ d.hif.marks.length then d
    else ({ d with hif := { d.hif with marks := d.hif.marks ++ [t] } }).finish r stSuccess res

/-- ABORT (R94). -/
def execAbort (r : CmdRef) (unfetched : List Nat) (s : State) : Outcome State Fault Refusal :=
  lift (runCmd specAbort r (abort unfetched r)) s

/-! ## Host memory faults (R89, Table 3-24) -/

/-- An ABORT or RESET_QP whose read of an SQ entry fails names the queue that it searches (R93, R95). -/
def searched (c : Cmd) : Option Nat := if c.cls = 0 ∧ (c.opc = 8 ∨ c.opc = 3) then some (c.f 4 11 0) else none

/-- A data access of a command fails: it stops as under an ABORT and completes HOST_DMA_ERROR with the address, at once
or when its work has ended; where the search of an ABORT or RESET_QP fails, the searched queue becomes FAULTED, and
RESET_QP completes SUCCESS all the same. -/
def Dev.dataFault (d : Dev) (r : CmdRef) (err addr : Nat) : Dev :=
  match d.cmd? r with
  | none => d
  | some c =>
    let d := match searched c with
      | some q => (d.faultQp q).dmaFault q 1 err addr (some c.tag)
      | none => d.dmaFault r.qid 0 err addr (some c.tag)
    if c.cls = 0 ∧ c.opc = 3 then d else
    let d := { d with hif := { d.hif with
        cmds := updFirst (fun k => k.qid == r.qid && k.cid == r.cid)
          (fun k => { k with fail := some (stHostDma, addr) }) d.hif.cmds } }
    (d.cut? c stHostDma).getD d

/-- The outcome of a failed access by its row of Table 3-24; an entry, completion or record that it concerned is lost. -/
def Dev.hostFault (d : Dev) (a : DmaAccess) (err addr : Nat) : Dev :=
  match a with
  | .data r => d.dataFault r err addr
  | .sqFetch q => if (d.qp q).live then (d.faultQp q).dmaFault q 1 err addr else d
  | .cqWrite q =>
    if (d.qp q).live then (d.setQp q { d.qp q with faulted := true, cqLost := true }).dmaFault q 2 err addr else d
  | .dbSlot q => if (d.qp q).live then (d.faultQp q).dmaFault q 4 err addr else d
  | .ringWrite n =>
    if (d.ring n).live then
      ((d.setRing n { d.ring n with faulted := true, gap := true }).dmaFault n 3 err addr) else d
  | .ringHead n =>
    if (d.ring n).live then
      (((d.setRing n { d.ring n with faulted := true }).dropRecord n).dmaFault n 5 err addr) else d

/-- How the host answered (Table 19-7). -/
def dmaErr : DmaAnswer → Nat
  | .unsupportedRequest => 0 | .completerAbort => 1 | .poisoned => 2

/-- DMA_ERROR_RESPONSE (R89). -/
def execDmaErrorResponse (acc : DmaAccess) (ans : DmaAnswer) (addr : Nat) (s : State) : Outcome State Fault Refusal :=
  lift (fun d => d.hostFault acc (dmaErr ans) addr) s

/-- DMA_COMPLETION_TIMEOUT (R89). -/
def execDmaCompletionTimeout (acc : DmaAccess) (addr : Nat) (s : State) : Outcome State Fault Refusal :=
  lift (fun d => d.hostFault acc 3 addr) s

end Sys2Proof.Machine
end

