-- ==== Sys2Proof/Machine/Power.lean ====
section
/-! DEFINITION. Gears, power islands, temperature, pressure and the commands of class 0x0C that govern them (chapter
17). -/

namespace Sys2Proof.Machine

open Host

/-! ## Low-power states (R428, R429) -/

/-- An island falls to Retention or Off where its column and its tolerances allow it. -/
def Dev.islandSleep (d : Dev) (i : Nat) (off : Bool) : Dev :=
  let v := d.isl i
  let goal := if off then 3 else 2
  if d.pwr.disabled.contains i || decide (goal ≤ v.st) || decide (d.islandDepth i + 1 < goal) then d
  else d.setIsl i { v with st := goal, gear := 0, below := 0 }

/-- ISLAND_LOW_POWER_ENTRY (R428): the island has held no token for ENTRY_HOLD_US, and for Off its state is written
back. -/
def execIslandLowPowerEntry (i : Fin 56) (off : Bool) (s : State) : Outcome State Fault Refusal :=
  lift (fun d => d.islandSleep i.val off) s

/-- In Freewheel the pilot path has its spokes at G8 (R47). -/
def Dev.pilotHolds (d : Dev) (i : Nat) : Bool := decide (i < 2) && d.boot.pilot.isSome && d.boot.stage == .freewheel

/-- An island wakes on demand (R429, R487). The spec gives no gear for it until the next decision: a pinned island holds
its pin gear, any other a free one up to its ceiling (log entry 42). -/
def Dev.wakeIsland (d : Dev) (i : Nat) : Dev :=
  let v := d.isl i
  if d.pwr.disabled.contains i || v.st = 0 then d
  else
    let d := if v.st = 3 then d.count 0xD008C 1 else d
    let x := d.draw
    let c := max 1 (d.ceiling i)
    let g := if d.pilotHolds i then c else if v.pin = 0 then x.1 % c + 1 else min v.pin c
    x.2.setIsl i { v with st := 0, gear := if geared i then g else 0, below := 0 }

/-- ISLAND_WAKE (R429). -/
def execIslandWake (i : Fin 56) (s : State) : Outcome State Fault Refusal := lift (fun d => d.wakeIsland i.val) s

/-! ## The derailleur (R434 to R436) -/

/-- The speed factor as shown: unsigned 8.8, clamped to 0.5 to 2.0 (R434). -/
def clampK (k : Nat) : Nat := max 128 (min 512 k)

/-- Record the pace of the geared islands listed. -/
def Dev.noteK (d : Dev) (ks : List (Nat × Nat)) : Dev :=
  ks.foldl (fun (d : Dev) e =>
    if geared e.1 then d.setIsl e.1 { d.isl e.1 with k := clampK e.2 } else d) d

/-- Record the measured line period of the sources listed, in ps (R155). -/
def Dev.noteLine (d : Dev) (ts : List (Nat × Nat)) : Dev :=
  { d with pwr := { d.pwr with tline := ts.foldl (fun m e => if e.1 < 5 then SMap.put 0 m e.1 e.2 else m) d.pwr.tline } }

/-- Rate of a source's spoke in pixels a second: stripe width over line period. -/
def Dev.lineRate (d : Dev) (s w : Nat) : Nat × Nat := (w * 1000000000000, SMap.get 0 d.pwr.tline s)

/-- The rates of the running spokes that satisfy `p` of spoke and source. -/
def Dev.spokeRates (d : Dev) (p : Nat → Nat → Bool) : List (Nat × Nat) :=
  ((rangeFrom 0 5).filter fun s => d.srcRuns s && SMap.get 0 d.pwr.tline s != 0).flatMap fun s =>
    ((d.stripes s).filter fun e => p e.1 s).map fun e => d.lineRate s e.2.2

/-- Frame rate of a sprocket's source, 0/1 where it has none of its own: a live port's, the raster's that paces it, a
pattern's, an SDI input's (R209, R361). -/
def Dev.spkFps (d : Dev) (n : Nat) : Nat × Nat :=
  let c := d.skc n
  if c.kind = 1 then
    if c.id < 4 then let t := d.frameUs c.id (d.portRate c.id); if t.1 = 0 then (0, 1) else (1000000 * t.2, t.1)
    else (0, 1)
  else if c.kind = 4 then
    match (d.sdiIn c.id).want.fmt % 8 with
    | 0 => (24000, 1001) | 1 => (24, 1) | 2 => (25, 1) | 3 => (30000, 1001) | 4 => (30, 1) | 5 => (50, 1)
    | 6 => (60000, 1001) | _ => (60, 1)
  else if c.pace ∧ c.dest = 3 then rasterRate (d.rcfg c.destId)
  else if c.kind = 3 then (c.num, max 1 c.den)
  else (0, 1)

/-- Pixels of a sprocket's source after crop (R210). -/
def Dev.spkCropArea (d : Dev) (n : Nat) : Nat :=
  let c := d.skc n
  let area := (d.areaNow c).getD ((d.spkOf n).cur.map (fun f => d.spkArea f) |>.getD (c.out.w, c.out.h))
  let r := cropOf (d.spkOf n).path area
  r.2.2.1 * r.2.2.2

/-- The deadline of an island and its throughput at G8, in the same unit a second (R435); none where it has no
deadline. -/
def Dev.deadline (d : Dev) (i : Nat) : Option ((Nat × Nat) × Nat) :=
  if i < 16 then
    (d.spokeRates fun k _ => k == i).head?.map fun r => (r, 1000000000)
  else if i = 16 then some (sumFrac (d.spokeRates fun _ _ => true), Config.islandG8 16)
  else if i = 17 then some (sumFrac (d.spokeRates fun k _ => k < 8), Config.islandG8 17)
  else if i = 18 then some (sumFrac (d.spokeRates fun k _ => 8 ≤ k), Config.islandG8 18)
  else if i < 27 then
    let n := i - 19
    if (d.spkOf n).state = .running then
      let f := d.spkFps n
      let c := d.skc n
      some ((f.1 * c.m * d.spkCropArea n, f.2 * c.n), Config.islandG8 i)
    else none
  else if i = 27 then some (sumFrac (d.spokeRates fun _ s => d.stuRawOn s), Config.islandG8 27)
  else if i < 32 then some (d.lumaSum, 4250000000)
  else if i < 34 then some ((d.peakSum * 1000 * Config.binsPerBit, 65536), 4000000000)
  else if i < 38 then
    let lanes := max 1 (popCount (d.fld 0x70000 11 0) 12)
    let l := sumFrac (d.otherLoads 4)
    some ((l.1, l.2 * lanes), 1)
  else none

/-- The island has work without a deadline (R435). -/
def Dev.batch (d : Dev) (i : Nat) : Bool :=
  if 28 ≤ i ∧ i < 34 then d.codec.enc.any (fun e => e.2.any fun s => !s.src && s.cur.isSome)
  else if 34 ≤ i ∧ i < 38 then d.hif.cmds.any fun c => c.cls == 6 && (c.opc == 0x03 || c.opc == 0x12)
  else i == 38 || i == 39

/-- Gear `g` meets the deadline with the margin at the island's k; `lf` is the level factor in percent. -/
def gearMeets (dl : (Nat × Nat) × Nat) (margin k lf g : Nat) : Bool :=
  decide (dl.1.1 * (100 + margin) * 2560000 ≤ dl.2 * gearRate g * k * lf * 100 * dl.1.2)

/-- Level factor of a spoke (R432); 100 for every other island. -/
def Dev.islandLf (d : Dev) (i : Nat) : Nat :=
  if i < 16 then levelFactor (((rangeFrom 0 5).find? fun s => d.srcRuns s && (d.spokesOf s).contains i).map
    (fun s => (d.rfe? s).level) |>.getD 0)
  else 100

/-- The candidate of R436: the lowest gear that meets the deadline, else the ceiling; batch work takes at least
BATCH_GEAR. -/
def Dev.candidate (d : Dev) (i : Nat) : Nat :=
  let c := d.ceiling i
  let low := if d.pilotHolds i then 8 else match d.deadline i with
    | none => 1
    | some dl => ((rangeFrom 1 8).find? (gearMeets dl (d.fld 0xD0000 7 0) (d.isl i).k (d.islandLf i))).getD c
  min c (if d.batch i then max low (d.fld 0xD0000 15 12) else low)

/-- An island is awake: it is Active or Idle, as it must be while its column is Idle (Table 17-1). -/
def Dev.awake (d : Dev) (i : Nat) : Bool := !d.pwr.disabled.contains i && ((d.isl i).st == 0 || d.column i == 0)

/-- One decision for an island (R436, R450); one that was Off and must be awake has been woken (OFF_WAKES). -/
def Dev.shift (d : Dev) (i : Nat) : Dev :=
  if !d.awake i then d else
  let d := if (d.isl i).st = 3 then d.count 0xD008C 1 else d
  let d := if (d.isl i).st = 0 then d else d.setIsl i { d.isl i with st := 0 }
  let v := d.isl i
  if v.pin ≠ 0 then d.toGear i (min v.pin (d.ceiling i))
  else
    let c := d.candidate i
    if v.gear < c then (d.toGear i c).setIsl i { (d.toGear i c).isl i with below := 0 }
    else if d.ceiling i < v.gear then d.toGear i (d.ceiling i)
    else if v.gear = c then d.setIsl i { v with below := 0 }
    else if v.below < 3 then d.setIsl i { v with below := v.below + 1 }
    else (d.setIsl i { v with below := 0 }).toGear i (v.gear - 1)

/-! ## Pressure (R442, R443) -/

/-- The expendable sprocket that is shed next (R220): the highest-numbered that runs and is not yet shed. -/
def Dev.nextShed (d : Dev) : Option Nat :=
  (rangeFrom 0 8).reverse.find? fun n =>
    let s := d.spkOf n
    s.state == .running && !(d.skc n).prot && !s.shed

/-- The next degrade step of a source under pressure, at most one a decision. -/
def Dev.degrade (d : Dev) (s : Nat) : Dev :=
  if !d.srcRuns s || !d.underPressure s || (SMap.get none d.pwr.wait s).isSome then d
  else match d.nextShed with
    | some n =>
      let d := d.setSpk n { d.spkOf n with shed := true }
      ({ d with pwr := { d.pwr with
          steps := SMap.put [] d.pwr.steps s (.shed n :: d.degSteps s), sheds := n :: d.pwr.sheds } }).count 0xD0084 1
    | none =>
      if (d.degSteps s).contains .skip then d
      else
        let st : DegStep := if (d.rfe? s).level < 3 then .level else .skip
        { d with pwr := { d.pwr with wait := SMap.put none d.pwr.wait s (some st) } }

/-- DERAILLEUR_DECISION (R436, R443): `speedK` and `tline` are what the pace monitors and the ports measure. -/
def Dev.derail (d : Dev) (speedK tline : List (Nat × Nat)) : Dev :=
  let d := (d.noteK speedK).noteLine tline
  let d := (rangeFrom 0 40).foldl (fun (d : Dev) i => d.shift i) d
  (rangeFrom 0 5).foldl (fun (d : Dev) s => d.degrade s) d

def execDerailleurDecision (speedK tline : List (Nat × Nat)) (s : State) : Outcome State Fault Refusal :=
  lift (fun d => d.derail speedK tline) s

/-! ## Temperature (R437 to R441, Table 17-5) -/

/-- Some domain has LOCKED declared (R439). -/
def Dev.anyLocked (d : Dev) : Bool := (d.dom 0).locked || (d.dom 1).locked

/-- The pull of the crystal (R439): held while a domain is LOCKED, else it moves by at most 50 ppb/s towards the value
of a table in MRAM that the spec does not give: a free step of at most 1 ppb a reading (log entry 43); it
stays within 60 ppm, and with an oscillator at 0 (R515). -/
def Dev.movePull (d : Dev) : Dev :=
  if d.boot.osc then { d with pwr := { d.pwr with pull := 0 } }
  else if d.anyLocked then d
  else
    let x := d.draw
    { x.2 with pwr := { x.2.pwr with pull := clampI (-60000) 60000 (x.2.pwr.pull + ((x.1 % 3 : Nat) : Int) - 1) } }

/-- Island estimates (R438): their calibration is not given, so the highest is free (log entry 43). -/
def Dev.estimate (d : Dev) : Dev :=
  let x := d.draw
  { x.2 with pwr := { x.2.pwr with est := toSigned 16 (x.1 % 65536) } }

/-- Critical shutdown (R441, Table 17-6). -/
def Dev.shutdown (d : Dev) (v : Int) : Dev :=
  let d := (d.emit .thermTrip).log 3 0x012 (fromSigned 32 v) 0 13 0
  let d := (rangeFrom 0 4).foldl (fun (d : Dev) k => d.setMclk k { d.mclk k with running := false }) d
  let isl := d.pwr.isl.map fun e => (e.1, { e.2 with st := 3, gear := 0 })
  let rasters := (rangeFrom 0 4).foldl (fun m k =>
    SMap.put {} m k { SMap.get {} m k with run := false, active := false }) d.sco.rasters
  { d with
    boot := { d.boot with tripped := true, hostLink := false }
    pwr := { d.pwr with isl := isl.filter fun e => decide (e.2 ≠ {}) }
    sco := { d.sco with rasters := rasters }
    teu := { d.teu with enabled := 0 } }

/-- The warning (Table 17-5). -/
def Dev.warnAt (d : Dev) (v : Int) : Dev :=
  if !d.pwr.warn && decide (1600 ≤ v) then
    ({ d with pwr := { d.pwr with warn := true } }).log 1 0x010 (fromSigned 32 v) 0 13 0
  else if v < 1552 then { d with pwr := { d.pwr with warn := false } }
  else d

/-- Every thermal ceiling is set to the gear its island holds; an island that holds none keeps G8 (R440). -/
def Dev.engageCap (d : Dev) (v : Int) : Dev :=
  let ceil := (rangeFrom 0 40).foldl (fun m i =>
    if (d.isl i).gear = 0 then m else SMap.put 8 m i (d.isl i).gear) d.pwr.ceil
  (({ d with pwr := { d.pwr with cap := true, ceil := ceil, ceilPend := [] } }).count 0xD0088 1).log 1 0x011
    (fromSigned 32 v) 0 13 0

/-- Every thermal ceiling falls by one gear: at the next frame start where the island serves a running source, else at
once (R440). -/
def Dev.lowerCeils (d : Dev) : Dev :=
  (rangeFrom 0 40).foldl (fun (d : Dev) i =>
    let p := SMap.get 0 d.pwr.ceilPend i
    let new := max 1 ((if p = 0 then d.thermCeil i else p) - 1)
    if (rangeFrom 0 5).any fun s => d.srcRuns s && (d.servIslands s).contains i then
      { d with pwr := { d.pwr with ceilPend := SMap.put 0 d.pwr.ceilPend i new } }
    else d.setCeil i new) d

/-- The gear cap (Table 17-5, R440); `prev` is the reading before. -/
def Dev.capAt (d : Dev) (prev v : Int) : Dev :=
  if !d.pwr.cap then (if 1680 ≤ v then d.engageCap v else d)
  else if v < 1632 then { d with pwr := { d.pwr with cap := false, ceil := [], ceilPend := [] } }
  else if 1760 ≤ v ∧ prev < v then d.lowerCeils
  else d

/-- A diode reading in 1/16 °C is decided (R437 to R441). -/
def Dev.reading (d : Dev) (v : Int) : Dev :=
  let prev := d.pwr.diode
  let d := { d with pwr := { d.pwr with
      diode := v, tmax := some (max v (d.pwr.tmax.getD v)), hk := SMap.put 0 d.pwr.hk 0 (fromSigned 16 v) } }
  let d := ((d.estimate.movePull).warnAt v).capAt prev v
  if 1888 ≤ v then d.shutdown v else d

/-- A rail or regulator reading (R437): outside its window it sets OUT_OF_WINDOW and is logged. -/
def Dev.railAt (d : Dev) (c value : Nat) (out : Bool) : Dev :=
  if c = 0 ∨ 24 ≤ c then d else
  let d := { d with pwr := { d.pwr with hk := SMap.put 0 d.pwr.hk c (value % 65536) } }
  let o := 0xD0400 + 4 * c
  let d := if out then (d.setReg o (d.reg o ||| 2147483648)).log 2 0x013 c value 13 0 else d
  if c < 10 then d
  else
    let i := 4 * (c - 10) + d.pwr.rounds % 4
    let v := d.isl i
    let d := d.setIsl i { v with out := out }
    if out && v.out && geared i && !d.pwr.disabled.contains i then (d.islandDisable i 2).1 else d

/-- HK_ROUND (R437): the diode, the pace of the islands, and the channels sampled. -/
def Dev.hkRound (d : Dev) (diode : Int) (speedK : List (Nat × Nat)) (rails : List (Nat × Nat × Bool)) : Dev :=
  let d := (d.noteK speedK).reading diode
  if d.boot.tripped then d
  else
    let d := rails.foldl (fun (d : Dev) r => d.railAt r.1 r.2.1 r.2.2) d
    { d with pwr := { d.pwr with rounds := d.pwr.rounds + 1 } }

def execHkRound (diode : Int) (speedK : List (Nat × Nat)) (rails : List (Nat × Nat × Bool)) (s : State) :
    Outcome State Fault Refusal :=
  lift (fun d => d.hkRound diode speedK rails) s

/-- EXTRA_DIODE_CONVERSION (R438): a reading like one of the round. -/
def execExtraDiodeConversion (diode : Int) (s : State) : Outcome State Fault Refusal :=
  lift (fun d => d.reading diode) s

/-! ## Commands (R446, R449, R450) -/

def specPinGear : CmdSpec := {
  cls := 0x0C, opc := 0x03
  offs := fun d c => d.pwrOffs c [(4, 5, 0), (4, 11, 8)] ++ off 4 0 (!geared (c.f 4 5 0))
    ++ off 4 8 (decide (8 < c.f 4 11 8)) }

/-- The effect of PWR_PIN_GEAR: RESULT is the gear in force. -/
def pwrPinGear (r : CmdRef) (c : Cmd) (d : Dev) : Dev :=
  let i := c.f 4 5 0
  let g := c.f 4 11 8
  if d.ceiling i < g then d.finish r stThermal 0
  else
    let d := d.setIsl i { d.isl i with pin := g, below := 0 }
    let d := if 0 < g ∧ d.awake i then d.toGear i g else d
    d.finish r stSuccess (if g = 0 then (d.isl i).gear else g)

/-- PWR_PIN_GEAR (R450). -/
def execPwrPinGear (r : CmdRef) (s : State) : Outcome State Fault Refusal :=
  lift (runCmd specPinGear r (pwrPinGear r)) s

def specSetCfg : CmdSpec := {
  cls := 0x0C, opc := 0x04
  offs := fun d c => d.pwrOffs c [(4, 31, 0)] ++ off 4 0 (decide (100 < c.f 4 7 0))
    ++ off 4 8 (c.f 4 11 8 == 0 || decide (8 < c.f 4 11 8)) ++ off 4 12 (c.f 4 15 12 == 0 || decide (8 < c.f 4 15 12))
    ++ off 4 16 (c.f 4 31 16 == 0) }

/-- PWR_SET_CFG (R449): the four fields from the next decision. -/
def execPwrSetCfg (r : CmdRef) (s : State) : Outcome State Fault Refusal :=
  lift (runCmd specSetCfg r fun c d => (d.setReg 0xD0000 (c.w 4)).finish r stSuccess 0) s

end Sys2Proof.Machine
end

