-- ==== Sys2Proof/Machine/Specs.lean ====
section
/-! DEFINITION. The checks of SET_MODE and of class 0x0D, and the list of all commands (R58, R480, Tables 2-18, 3-20
and 18-12). -/

namespace Sys2Proof.Machine

open Host

/-- ROM holds Kickstand: no firmware runs, and none is being started (R51, R480). -/
def Dev.held (d : Dev) : Bool := !d.boot.firmware && !d.boot.rom && !d.boot.entering

/-! ## SET_MODE (R58, R59, Tables 2-18 and 2-20) -/

/-- The takeover: the first use after Freewheel or KICKSTAND_HOLD. -/
def Dev.takeover (d : Dev) : Bool := d.boot.stage != .driver

def specSetMode : CmdSpec := {
  cls := 0, opc := 0x30
  feat := fun d c => (c.f 4 11 8 != 5 || d.feat 12) && (c.f 4 11 8 != 6 || d.feat 13)
  offs := fun d c =>
    let t := c.f 4 11 8
    let keep := d.takeover && t == 3
    adminOffs c [(4, 1, 0), (4, 11, 8)] ++ off 4 0 (c.b 4 0 && !keep) ++ off 4 1 (c.b 4 1 && !keep)
      ++ off 4 8 (decide (t < 3) || decide (7 < t)
        || ((d.boot.stage == .kickstandHold || d.hif.recovery) && t != 7) || ((c.b 4 0 || c.b 4 1) && t != 3)) }

/-! ## Class 0x0D (R480, Table 18-12) -/

/-- Offences common to class 0x0D: every driver-controlled mode, and KICKSTAND_HOLD, where ROM serves. -/
def Dev.mgmtOffs (d : Dev) (c : Cmd) (ok : Bool) (fields : List (Nat × Nat × Nat)) : List Offence :=
  modeOff (ok || d.boot.stage == .kickstandHold) ++ dw1Offs c false ++ resOffs c fields

/-- The slot that TARGET names, B as true; none for the board-table area (R460). -/
def Dev.stageSlot (d : Dev) (t : Nat) : Option Bool :=
  match t with
  | 0 => some false
  | 1 => some true
  | 2 => some !d.oms.active
  | _ => none

/-- Outside KICKSTAND_HOLD neither the active nor the running slot takes a container (R460). -/
def Dev.slotBarred (d : Dev) (s : Bool) : Bool := !d.held && (s == d.oms.active || s == d.boot.slotB)

def specStage : CmdSpec := {
  cls := 0x0D, opc := 0x01
  offs := fun d c => d.mgmtOffs c d.boot.mode.driver [(4, 1, 0), (4, 8, 8), (5, 31, 0), (6, 31, 0), (7, 31, 0)]
    ++ off 4 0 ((d.stageSlot (c.f 4 1 0)).any d.slotBarred)
    ++ off 5 0 (c.q 5 % 64 != 0 || (c.b 4 8 && d.devBad (c.q 5) (c.w 7))) }

/-- A trial names the slot that is not ACTIVE, and none is named while one is tried (R461). -/
def specActivate : CmdSpec := {
  cls := 0x0D, opc := 0x02
  offs := fun d c => d.mgmtOffs c d.boot.mode.driver [(4, 2, 0), (5, 15, 0)]
    ++ off 4 0 ((c.b 4 1 && c.b 4 0 == d.oms.active) || d.oms.trial == 2) }

def specConfirm : CmdSpec := {
  cls := 0x0D, opc := 0x03, offs := fun d c => d.mgmtOffs c d.boot.mode.driver [(4, 2, 0)] }

def specEngineLoad : CmdSpec := {
  cls := 0x0D, opc := 0x04
  offs := fun d c => d.mgmtOffs c d.boot.mode.driver [(4, 2, 0), (4, 8, 8)] ++ off 4 0 (decide (4 < c.f 4 2 0)) }

def specLogRead : CmdSpec := {
  cls := 0x0D, opc := 0x10
  offs := fun d c => d.mgmtOffs c d.boot.mode.driver [(4, 31, 0), (5, 12, 0), (6, 31, 0), (7, 31, 0)]
    ++ off 5 0 (c.f 5 12 0 == 0 || decide (4096 < c.f 5 12 0)) }

/-- Bytes of a report: nine measurements (R470). -/
abbrev reportBytes : Nat := 25504

def specAttest : CmdSpec := {
  cls := 0x0D, opc := 0x20
  offs := fun d c => d.mgmtOffs c d.boot.mode.driver ((rangeFrom 4 11).map fun i => (i, 31, 0))
    ++ off 14 0 (decide (c.w 14 < reportBytes)) }

def specChallenge : CmdSpec := {
  cls := 0x0D, opc := 0x30, offs := fun d c => d.mgmtOffs c d.boot.mode.driver [(5, 31, 0), (6, 31, 0)] }

/-- LEN is that of the METHOD's answer; a length of the other METHOD makes both fields offend (R77). -/
def specAnswer : CmdSpec := {
  cls := 0x0D, opc := 0x31
  offs := fun d c => d.mgmtOffs c d.boot.mode.driver [(4, 1, 0), (5, 31, 0), (6, 31, 0), (7, 31, 0)]
    ++ off 4 0 (c.w 7 == if c.b 4 0 then 7856 else 16) ++ off 7 0 (c.w 7 != 7856 && c.w 7 != 16) }

def specLifecycle : CmdSpec := {
  cls := 0x0D, opc := 0x40
  offs := fun d c => d.mgmtOffs c (d.boot.mode == .service) [(5, 31, 0), (6, 31, 0)] }

/-! ## All commands (Table 3-20) -/

def specs0 : List CmdSpec :=
  [specCreateQp, specDeleteQp, specResetQp, specCreateRing, specDeleteRing, specAbort, specSemAcquire, specSemRelease,
   specSetLatency, specSetMode]

def specs1 : List CmdSpec := [specStartPort, specStopPort, specSubmitProgram, specMpFrame]

def specs2 : List CmdSpec :=
  [specRfeSetParams, specRfeLoadTable, specCbeLoadCfa, specCbeLoadBank, specCbeReadBank, specCbeSetColour,
   specCbeLoadLut3d, specSpkStart, specSpkStop, specSpkRestartFetch, specSpkSetPath, specSpkLoadLut, specSpkBuffer,
   specSpkSubmitFrame, specHubSetPort]

def specs3 : List CmdSpec := [specUnitStart, specUnitStop, specStuBuffer]

def specs4 : List CmdSpec :=
  [specEncOpenFetch, specEncClose, specEncSetRc, specEncPicture, specDecOpenFetch, specDecOutput, specDecDecode, specDecFlush,
   specDecClose]

def specs6 : List CmdSpec :=
  [specLseOpen, specLseClose, specLseBlock, specLseRawOpen, specLseRawBuffer, specLseRawDecode]

def specs7 : List CmdSpec :=
  [specVolCreate, specVolDelete, specVolClearRecovery, specRecRead, specRecWrite, specRecDeallocate, specDriveLog,
   specDriveEject, specRecEvent]

def specs8 : List CmdSpec := [specScoStart, specScoStop, specScoRestart, specSdiInStart, specSdiInStop, specDpAux]

def specs9 : List CmdSpec :=
  [specEthUp, specEthDown, specDomStart, specDomStop, specDomRole, specSetIncr, specAdjPhase, specSetTemplate,
   specSelect, specReadTime, specPelJoin, specPelLeave, specPelSchedule]

def specs10 : List CmdSpec :=
  [specPinEnable, specPinDisable, specSetRoute, specScheduleEdge, specTwEnable, specTwDisable, specTwXfer]

def specs12 : List CmdSpec :=
  [specIslandDisable, specIslandEnable, specPinGear, specSetCfg, specEngineReset]

def specs13 : List CmdSpec :=
  [specStage, specActivate, specConfirm, specEngineLoad, specLogRead, specAttest, specChallenge, specAnswer,
   specLifecycle]

/-- Every command. -/
def allSpecs : List CmdSpec :=
  specs0 ++ specs1 ++ specs2 ++ specs3 ++ specs4 ++ specs6 ++ specs7 ++ specs8 ++ specs9 ++ specs10 ++ specs12 ++ specs13

/-- The command of a class and opcode. -/
def specOf (cls opc : Nat) : Option CmdSpec := allSpecs.find? fun s => s.cls == cls && s.opc == opc

end Sys2Proof.Machine
end

