-- ==== Sys2Proof/Machine/Mode.lean ====
section
/-! DEFINITION. SET_MODE: the takeover, and the end of what a new mode does not run (R58 to R61). -/

namespace Sys2Proof.Machine

open Host

/-- The mode changes (Table 2-9). -/
def Dev.toMode (d : Dev) (t : Nat) : Dev := { d with boot := { d.boot with mode := Mode.ofCode t } }

/-- A port is to stop as STOP_PORT with NOW 0 stops it (R139). -/
def Dev.portWind (d : Dev) (p : Nat) : Dev := (d.modPort p fun v => { v with stopping := true }).settleStop p

/-- The takeover (R59): what the pilot runs stops, or goes on as the KEEP flags say. -/
def Dev.takeOver (d : Dev) (keepSensor keepOutputs : Bool) : Dev :=
  let p := d.boot.pilot
  let d := { d with boot := { d.boot with stage := .driver } }
  let d := if keepOutputs || p.isNone then d else
    let d := d.spkStop 0 true none
    { d with boot := { d.boot with pilotReady := false } }
  match p with
  | some p => if keepSensor then d else ({ d with boot := { d.boot with stopDue := some p } }).portWind p
  | none => d

/-- Sensor ports that run, a gang by its primary. -/
def Dev.runningPorts (d : Dev) : List Nat :=
  (rangeFrom 0 4).filter fun p => (d.port p).state != .stopped && (d.port p).state != .gangSecondary

/-- The ports stop where the mode runs none: running ones after their frame, and what is pending on stopped ones
completes LATE (R60). -/
def Dev.leavePorts (d : Dev) : Dev :=
  if d.boot.mode = .capture then d else
  let stopped := (rangeFrom 0 4).filter fun p => (d.port p).state == .stopped
  let d := d.runningPorts.foldl (fun (d : Dev) p => d.portWind p) d
  stopped.foldl (fun (d : Dev) p => d.endPrograms p stLate) d

/-- MP_FRAMEs end as an ABORT ends them where the mode does not run MP (R60, R132). -/
def Dev.leaveMp (d : Dev) : Dev :=
  if d.boot.mode = .capture ∨ d.boot.mode = .playback ∨ d.boot.mode = .analyser then d
  else ((d.hif.cmds.filter fun c => c.cls == 1 && c.opc == 0x20).map Cmd.ref).foldl
    (fun (d : Dev) r => d.cut stAborted r) d

/-- A running sprocket that the mode does not run (R60, R222). -/
def Dev.spkLeaves (d : Dev) (n : Nat) : Bool :=
  d.spkRunning n && (!d.boot.mode.working || d.spkSrcBad (d.skc n))

/-- Its sprockets stop as SPK_STOP with NOW 0 stops them. -/
def Dev.leaveSpks (d : Dev) : Dev :=
  ((rangeFrom 0 8).filter d.spkLeaves).foldl (fun (d : Dev) n => d.spkStop n false none) d

/-- A running scope or SDI statistics unit whose input the mode does not run (R60). -/
def Dev.unitLeaves (d : Dev) (u : Nat) : Bool :=
  let v := d.stuUnit u
  v.running && (!d.boot.mode.working || ((decide (2 ≤ u) || v.latched.toNat.testBit 0) && !d.sdiMode))

/-- A unit stops as STU_UNIT_STOP with NOW 0 stops it. -/
def Dev.unitWind (d : Dev) (u : Nat) : Dev :=
  if (d.stuUnit u).cur.isNone then d.unitStop u else d.setUnit u { d.stuUnit u with stopping := true }

def Dev.leaveUnits (d : Dev) : Dev :=
  ((rangeFrom 0 4).filter d.unitLeaves).foldl (fun (d : Dev) u => d.unitWind u) d

/-- SDI inputs stop where the mode refuses them (R60). -/
def Dev.leaveSdi (d : Dev) : Dev :=
  if d.sdiMode then d
  else ((rangeFrom 0 2).filter fun i => (d.sdiIn i).run).foldl (fun (d : Dev) i => d.sdiHalt i) d

/-- The mode, or the queue, refuses the command (R518). -/
def Dev.refuses (d : Dev) (c : Cmd) : Bool :=
  match specOf c.cls c.opc with
  | some sp => (sp.offs d c).any fun o => o.dw == 0 && o.bit == 0
  | none => false

/-- Fetched commands that have not begun and that the mode refuses complete INVALID_FIELD with RESULT 0 (R60, R518). -/
def Dev.leaveCmds (d : Dev) (r : CmdRef) : Dev :=
  ((d.hif.cmds.filter fun c => !c.begun && c.ref != r && d.refuses c).map Cmd.ref).foldl
    (fun (d : Dev) x => d.finish x stInvalidField 0) d

/-- A begun command that the mode refuses and that finishes by itself: an encode job in hand, a transfer of REC, an
exposure program whose issue has begun. Blocks, loads and buffers that wait for a frame or a picture are not such
work (R60, log entry 76). -/
def Dev.finishing (d : Dev) (c : Cmd) : Bool :=
  c.begun && d.refuses c && ((c.cls == 4 && c.opc == 3) || (c.cls == 7 && (d.rec? c.ref).isSome)
    || (c.cls == 1 && (rangeFrom 0 4).any fun p => (d.prog? p c.ref).any (·.issuing)))

/-- The work that a change of mode waits for. -/
def Dev.modeWork (d : Dev) (r : CmdRef) (old new : Nat) : ModeChange := {
  ref := r, old := old, new := new, firstTag := 0
  ports := if d.boot.mode = .capture then [] else d.runningPorts
  spks := (rangeFrom 0 8).filter fun n => (d.spkOf n).state == .running && (!d.boot.mode.working || d.spkSrcBad (d.skc n))
  units := (rangeFrom 0 4).filter d.unitLeaves
  cmds := (d.hif.cmds.filter d.finishing).map Cmd.ref
  mp := !(d.boot.mode == .capture || d.boot.mode == .playback || d.boot.mode == .analyser) }

/-- Everything that the new mode does not run ends (R60): MP_FRAMEs as an ABORT ends them, before the other commands
that have not begun. -/
def Dev.leave (d : Dev) (r : CmdRef) : Dev := (d.leaveMp.leaveCmds r).leavePorts.leaveSpks.leaveUnits.leaveSdi

/-- The effect of SET_MODE. The mode is the new one at once, so that nothing it refuses begins while the old work ends
(DEDUCED); another SET_MODE waits for this one. FIRST_TAG is the index of the next frame of the pilot's sensor. -/
def setMode (r : CmdRef) (c : Cmd) (d : Dev) : Dev :=
  let t := c.f 4 11 8
  let old := d.boot.mode.code
  if d.hif.modeChange.isSome then d
  else if d.takeover then
    let tag := if c.b 4 1 then (d.boot.pilot.map d.nextIndex).getD 0 % two32 else 0
    ((d.toMode t).takeOver (c.b 4 1) (c.b 4 0)).finish r stSuccess (tag + old * 2 ^ 32 + t * 2 ^ 36)
  else
    let d := (d.begin r).toMode t
    let m := d.modeWork r old t
    ({ d with hif := { d.hif with modeChange := some m } }).leave r

/-- SET_MODE (R58). -/
def execSetMode (r : CmdRef) (s : State) : Outcome State Fault Refusal := lift (runCmd specSetMode r (setMode r)) s

end Sys2Proof.Machine
end

