-- ==== Sys2Proof/Machine/Boot.lean ====
section
/-! DEFINITION. ROM, firmware and the pilot path: verification of a container, the boot sequence, reference detection and
the entry into Freewheel (R38 to R51, R404, R409, R455 to R463). -/

namespace Sys2Proof.Machine

open Host

/-! ## Verification (R455, R457, Table 18-7) -/

/-- The lifecycle state takes the signer. -/
def Dev.signerOk (d : Dev) (signer : Nat) : Bool :=
  match d.oms.lifecycle with
  | 0 => signer == 0
  | 1 => decide (signer ≤ 1)
  | _ => signer == 1 || (signer == 0 && !d.oms.oemOnly)

/-- Everything of R455 but MAGIC and VERSION: layout, signer, signature, digests, binding. -/
def Dev.containerOk (d : Dev) (c : Container) : Bool :=
  c.layoutOk && d.signerOk c.signer && c.sigOk && c.digestsOk && c.bindOk

/-- What verification of a firmware container finds, in the order of R457: 0 VALID, 1 NO_IMAGE, 2 BAD_SIGNATURE,
3 ROLLBACK. -/
def Dev.checkFirmware (d : Dev) (c : Container) : Nat :=
  if !c.magicOk then 1
  else if c.kind ≠ 1 ∨ !d.containerOk c then 2
  else if c.version < d.oms.counter then 3
  else 0

/-- A flash slot, B as true. -/
def Dev.slot? (d : Dev) (s : Bool) : FlashSlot := if s then d.oms.slotB else d.oms.slotA

/-- ROM verifies a slot: the container it holds where it is good. What an unfinished update left is undefined: it fails
one way or the other (R465; a free value). -/
def Dev.verifySlot (d : Dev) (s : Bool) : Nat × Option Container :=
  if !d.oms.flash then (1, none)
  else match d.slot? s with
    | .empty => (1, none)
    | .broken => (1 + Config.freeNat d.free % 2, none)
    | .image c => let r := d.checkFirmware c; (r, if r = 0 then some c else none)

/-! ## ROM (R457, R463) -/

/-- Change of the boot record: the older copy takes the next SEQ (R453). -/
def Dev.bootRecord (d : Dev) (f : OmsB → OmsB) : Dev :=
  { d with oms := { f d.oms with recSeq := (d.oms.recSeq + 1) % two32 } }

/-- The BOOT entry. -/
def Dev.logBoot (d : Dev) (slot : Bool) (fw : Nat) (fallback : Bool) : Dev :=
  d.log 0 0x040 (slot.toNat + fw * 16 + d.boot.cause * 256 + fallback.toNat * 65536) 0 14 0

/-- Cause of a revert at boot (R463). -/
def Dev.revertCause (d : Dev) : Nat :=
  if d.boot.cause = 3 then (if d.oms.latch = 1 then 1 else if d.oms.latch = 2 then 3 else 0) else 0

/-- The stage is decided: a COMMIT that waits is evaluated with the set it found (R53). -/
def Dev.decideStage (d : Dev) : Dev := if d.hif.neg = 1 then d.evalCommit d.hif.sampled else d

/-- ROM holds Kickstand: from BOOTING the stage becomes KICKSTAND_HOLD; after an OMS-only reset stage and mode stay
(R39, R51; DEDUCED). -/
def Dev.holdKickstand (d : Dev) (fw : Nat) (slot : Bool) : Dev :=
  let d := { d with boot := { d.boot with rom := false, fwSts := fw } }.logBoot slot fw false
  if d.boot.stage = .booting then
    ({ d with boot := { d.boot with stage := .kickstandHold } }).decideStage
  else d

/-- ROM starts firmware from a slot. -/
def Dev.startFirmware (d : Dev) (slot : Bool) (c : Container) (fallback : Bool) : Dev :=
  let d := d.logBoot slot 0 fallback
  { d with
    boot := { d.boot with rom := false, entering := true, slotB := slot, fwSts := 0 }
    oms := { d.oms with running := some c } }

/-- Trial handling: the block, and whether the slot that is not ACTIVE comes first. -/
def Dev.trialOrder (d : Dev) : Dev × Bool :=
  if d.oms.trial = 1 then
    (d.bootRecord fun o => { o with
      trial := 2, timer := if o.timer.isNone && o.trialS != 0 then some o.trialS else o.timer }, true)
  else if d.oms.trial = 2 then
    let d := d.log 1 0x041 ((!d.oms.active).toNat + d.revertCause * 256) 0 14 0
    (d.bootRecord fun o => { o with trial := 0, timer := none }, false)
  else (d, false)

/-- The boot sequence of R457. -/
def Dev.romBoot (d : Dev) : Dev :=
  if !d.boot.rom then d else
  let d := d.bootRecord fun o => { o with bootCount := (o.bootCount + 1) % two32 }
  if d.boot.straps.sel then ({ d with oms := { d.oms with timer := none } }).holdKickstand 4 d.oms.active
  else
    let e := d.trialOrder
    let d := e.1
    let first := d.oms.active != e.2
    match d.verifySlot first with
    | (_, some c) => d.startFirmware first c false
    | (r, none) =>
      let d := { d with free := d.free + 1 }
      match d.verifySlot (!first) with
      | (_, some c) => d.startFirmware (!first) c true
      | (_, none) => d.holdKickstand r first

/-- ROM_BOOT (R457). -/
def execRomBoot (s : State) : Outcome State Fault Refusal := lift Dev.romBoot s

/-! ## Reference detection (R43) -/

/-- The reference's frame rate is the standby raster's or an integer multiple of it. -/
def Dev.refFits (d : Dev) (r : RefSignal) : Bool :=
  let k := rasterRate (d.rcfg 0)
  r.den != 0 && r.num != 0 && (r.num * k.2) % (k.1 * r.den) == 0

/-- Registers of the standby rasters (Tables 13-6 and 13-7). -/
def Dev.ksRegs (d : Dev) : Dev :=
  (rangeFrom 0 4).foldl (fun (d : Dev) k => (rangeFrom 0 9).foldl (fun (d : Dev) o =>
    d.setReg (0x90000 + 0x100 * k + 4 * o)
      (ksReg d.boot.straps.fmt.toNat d.boot.straps.pat d.boot.refLocked k (4 * o))) d) d

/-- REFERENCE_DETECTION: at its end the standby rasters start; where a reference is accepted they are genlocked to it and
begin at the line that its phase calls for (R43). -/
def execReferenceDetection (ref : Option RefSignal) (s : State) : Outcome State Fault Refusal :=
  lift (fun d =>
    if d.boot.refDone then d else
    let l := ref.any d.refFits
    let d := { d with boot := { d.boot with refDone := true, refLocked := l } }
    if !l then d else
    let d := d.ksRegs
    let line := (ref.map (·.line)).getD 0
    (rangeFrom 0 4).foldl (fun (d : Dev) k => (d.setRaster k { d.raster k with locked := true }).rasterEnter k line) d) s

/-! ## The pilot path (R46 to R49) -/

/-- Settings of SPK0 on the pilot path, latched without entering its registers: live port `p` into SCO0 at the raster's
size, one frame for one. -/
def Dev.pilotSpk (d : Dev) (p : Nat) : SMap Word :=
  let c := d.rcfg 0
  [(0, BitVec.ofNat 32 (1 + p * 16 + 3 * 256 + 65536)), (4, BitVec.ofNat 32 ((c.vact - 1) * 65536 + c.hact - 1)),
   (8, BitVec.ofNat 32 (1024 + 160 + 2)), (12, BitVec.ofNat 32 0x101)]

/-- Settings of the pilot port: the board table's lane mode, settings and readout, on spokes 0 and 1, with statistics and
without history; everything else as at reset (R46, R47, R48). -/
def Dev.pilotLatch (d : Dev) (bt : BoardTable) : SMap Word :=
  let p := bt.pilotPort.val
  let g := BitVec.ofNat 32 ((bt.height - 1) * 65536 + bt.width - 1)
  let l := (bt.settings.filter fun e => (latchOffs p).contains e.1).foldl (fun l e => SMap.put 0 l e.1 e.2) (d.latch p)
  [(0x20000 + 0x100 * p, bt.laneCfg), (0x20004 + 0x100 * p, g), (0x30104 + 0x40 * p, g),
    (0x3010C + 0x40 * p, SMap.get 0 l (0x3010C + 0x40 * p) &&& 0xFFFFFFFE),
    (0x50000 + 0x40 * p, SMap.get 0 l (0x50000 + 0x40 * p) ||| 1),
    (0x30000, BitVec.ofNat 32 (0xFFFFFF00 + p * 17))].foldl (fun l e => SMap.put 0 l e.1 e.2) l

/-- Spokes 0 and 1 go to G8, or to their ceiling (R47). -/
def Dev.pilotGears (d : Dev) : Dev :=
  (rangeFrom 0 2).foldl (fun (d : Dev) i =>
    if d.pwr.disabled.contains i then d
    else d.setIsl i { d.isl i with st := 0, gear := SMap.get 8 d.pwr.ceil i, below := 0 }) d

/-- The port feeds SPK0, which feeds SCO0. -/
def Dev.feedPilot (d : Dev) (p : Nat) : Dev :=
  let l := d.pilotSpk p
  let d := (d.spkRun 0 (spkCfg fun o => (SMap.get 0 l o).toNat) 0 l).pilotGears
  { d with boot := { d.boot with pilot := some p } }

/-- The raw pipeline works with the board table's blocks and tables (R47, R157). -/
def Dev.pilotTables (d : Dev) (bt : BoardTable) : Dev :=
  let p := bt.pilotPort.val
  let v := d.rfe? p
  let d := d.setRfe p { v with
    params := if bt.params.isEmpty then v.params else bt.params
    tables := bt.tables.foldl (fun m e => SMap.put [] m e.1 e.2) v.tables }
  if bt.colour.isEmpty then d
  else { d with cbe := { d.cbe with colour := SMap.put [] d.cbe.colour p bt.colour } }

/-- The board table's sequences run: the sensor is powered, MCLK starts, the sensor is started, the port streams, the
pilot is fed. -/
def Dev.startPilot (d : Dev) (bt : BoardTable) : Dev :=
  let p := bt.pilotPort.val
  let d := ((d.boardSeq bt.powerSeq).pilotTables bt)
  let d := ((d.setReg (0x20804 + 8 * p) (bt.mclkHz % 268435456)).setReg (0x20800 + 8 * p) 1).mclkFollow p
  let d := d.modPort p fun v => { v with
    state := .locking, survives := false, latched := d.pilotLatch bt, gang := 1
    nextExp := v.nextIndex, laneLock := 0 }
  let d := d.boardSeq bt.startSeq
  let d := { d with boot := { d.boot with board := some p, stopSeq := bt.stopSeq } }
  d.feedPilot p

/-- The readout is within the limits of R47. -/
def BoardTable.pilotOk (bt : BoardTable) : Bool := decide (bt.width ≤ 2560) && decide (bt.mpixS ≤ 2000)

/-! ## Freewheel (R46, R458, R459) -/

/-- The MRAM board table is present, and good (R458). -/
def Dev.boardPresent (d : Dev) : Bool := d.oms.board != .empty
def Dev.boardGood (d : Dev) : Bool :=
  match d.oms.board with
  | .image c => c.magicOk && c.kind == 2 && d.containerOk c
  | _ => false

/-- Firmware takes the board table in force, ignoring one in MRAM that is invalid. -/
def Dev.takeBoard (d : Dev) (bt : BoardTable) : Dev :=
  let bad := bt.mramBad || (d.boardPresent && !d.boardGood)
  let d := { d with
    oms := { d.oms with boardMram := d.boardGood && !bad }
    boot := { d.boot with fwSts := if BoardTable.pilotOk bt then 0 else 5, osc := bt.osc } }
  if bad then d.log 2 0x043 0 0 14 0 else d

/-- LPDDR5X is trained; a failed channel leaves it untrained (R409). -/
def Dev.trainMemory (d : Dev) (bt : BoardTable) : Dev :=
  let f := bt.chFail.toNat
  let d := { d with hub := { d.hub with trained := f == 0, chFail := f, installed := bt.installedX2 } }
  if f = 0 then d else d.log 3 0x030 f 0 1 0

/-- SDA of a bus is high after how many clocks, as far as its level tells: none while it is high; while it is low that
is the bus's own, a free value (R401). -/
def Dev.sdaFree (d : Dev) (c : Nat) : Option Nat × Dev :=
  if (d.ctl c).sda then (some 0, d) else
    let x := d.draw
    (if x.1 % 11 < 10 then some (x.1 % 11) else none, x.2)

/-- Firmware enables the board table's controller (R404). -/
def Dev.enableBoardTw (d : Dev) : Dev :=
  let x := d.sdaFree d.boot.boardTw
  (x.2.busClear d.boot.boardTw x.1).1

/-- The words of the board table enter the target tables and the MAC registers (R404, Table 14-6). -/
def Dev.loadBoard (d : Dev) (bt : BoardTable) : Dev :=
  let d := { d with boot := { d.boot with boardTw := bt.twCtrl.val } }
  let put := fun (page : Nat) (d : Dev) (e : Nat × Word) =>
    if e.1 / 65536 = page ∧ (regAt e.1).isSome then d.setReg e.1 e.2.toNat else d
  bt.mac.foldl (put 10) (bt.entries.foldl (put 12) d)

/-- An engine has pending contexts (R490): a session it serves, a command for it, a raw session on a port it serves. -/
def Dev.pendingCtx (d : Dev) (e : Nat) : Bool :=
  let cls := fun (p : Nat → Bool) => d.hif.cmds.any fun c => p c.cls && !(c.cls == 1 && c.opc == 0x20)
  let raw := d.lse.raw.any (·.2.isSome)
  match e with
  | 0 => decide (0 < d.codecOpen) || cls fun k => k == 4 || k == 5
  | 1 => d.lse.sessions.any (·.2.isSome) || raw || cls (· == 6)
  | 2 => cls (· == 7)
  | 3 => cls (· == 9)
  | _ => raw || cls (· == 1)

/-- Firmware loads each engine's code; an engine with pending contexts keeps what it runs (R459). -/
def Dev.loadCodes0 (d : Dev) (codeBad : Nat) : Dev :=
  (rangeFrom 0 5).foldl (fun (d : Dev) e =>
    if d.pendingCtx e && !d.noCode e then d else d.takeCode e (!codeBad.testBit e)) d

/-- Firmware has started: at a start from BOOTING it enters Freewheel; after an OMS-only reset the pipeline, the stage
and the mode are as they were (R39). -/
def Dev.enterFreewheel (d : Dev) (bt : BoardTable) : Dev :=
  if !d.boot.entering then d else
  let d := { d with boot := { d.boot with entering := false, firmware := true } }
  let d := (d.takeBoard bt).loadCodes0 bt.codeBad.toNat
  if d.boot.stage ≠ .booting then d else
  let d := (d.trainMemory bt).loadBoard bt
  let d := { d with boot := { d.boot with stage := .freewheel, mode := .freewheel } }
  let d := d.enableBoardTw
  (if BoardTable.pilotOk bt then d.startPilot bt else d).decideStage

/-- FREEWHEEL_ENTRY (R46). -/
def execFreewheelEntry (bt : BoardTable) (s : State) : Outcome State Fault Refusal := lift (fun d => d.enterFreewheel bt) s

end Sys2Proof.Machine
end

