-- ==== Sys2Proof/Machine/Resets.lean ====
section
/-! DEFINITION. Cold, warm, function and OMS-only resets, and power (R37 to R40, R384, R404, R424, R445, R452, R461, R463,
R492, R501 to R504, Tables 2-1 and 19-6). -/

namespace Sys2Proof.Machine

open Host

/-! ## Cold and warm reset (Table 2-1) -/

/-- What OMS keeps: MRAM, fuses and flash (Table 2-1). The log's second starts afresh, the trial timer and the latch
clear, an unlock ends and AUTH_FAILS counts from 0 (R461, R467, R472, R473). -/
def omsKept (o : OmsB) : OmsB := {
  log := o.log, logSeq := o.logSeq, recSeq := o.recSeq, active := o.active, trial := o.trial, trialS := o.trialS
  bootCount := o.bootCount, counter := o.counter, deviceId := o.deviceId, oemPub := o.oemPub, pwdHash := o.pwdHash
  deviceSecret := o.deviceSecret, raniapinPub := o.raniapinPub, calib := o.calib, endorsement := o.endorsement
  oemOnly := o.oemOnly, lifecycle := o.lifecycle, flash := o.flash, slotA := o.slotA, slotB := o.slotB
  board := o.board }

/-- What is outside the part, on its balls: drives present, sinks with their hot-plug detect. -/
def Dev.slotsLeft (d : Dev) : SMap Slot :=
  (rangeFrom 0 8).foldl (fun m s =>
    SMap.put {} m s { present := (SMap.get {} d.recd.slots s).present }) []

def Dev.sinksLeft (d : Dev) : SMap DpTx :=
  (rangeFrom 0 2).foldl (fun m j =>
    SMap.put {} m j { hpd := (SMap.get {} d.sco.dp j).hpd, sink := (SMap.get {} d.sco.dp j).sink }) []

/-- The clocks and links that a reset takes down. -/
def Dev.quiet (d : Dev) : Dev :=
  let d := (rangeFrom 0 4).foldl (fun (d : Dev) k => d.setMclk k { d.mclk k with running := false }) d
  (rangeFrom 0 2).foldl (fun (d : Dev) j => if (d.dpTx j).trained then d.emit (.dpLink j 0 0) else d) d

/-- The part after a cold or warm reset: everything at its reset value but what Table 2-1 keeps and what stands outside
the part. -/
def Dev.cleared (d0 : Dev) (b : BootB) : Dev :=
  let d := d0.quiet
  { boot := b, oms := omsKept d.oms, recd := { slots := d.slotsLeft, markers := d.recd.markers }
    sco := { dp := d.sinksLeft }, mem := { mram := d.mem.mram }, out := d.out, free := d.free, hostRead := d.hostRead }

/-- The rising edge of RESET_N: straps are sampled, ROM starts, the standby rasters take their settings, and DP0 trains
for a sink that is there (R40 to R42, R45). No change of mode outlives a reset. -/
def Dev.rise (d : Dev) (st : Straps) : Dev :=
  (({ d with
    boot := { d.boot with straps := st, inReset := false }
    hif := { d.hif with modeChange := none } }).ksRegs).dpTrain 0

/-- COLD_RESET: power comes up and RESET_N rises (R500, R501). -/
def execColdReset (straps : Straps) (s : State) : Outcome State Fault Refusal :=
  liftAny (fun d => (d.cleared {}).rise straps) s

/-- PWR_GOOD_FALL: the part is off; the next start is a cold reset (R502). -/
def execPwrGoodFall (s : State) : Outcome State Fault Refusal :=
  liftAny (fun d =>
    if d.boot.powered then d.cleared { powered := false, mode := .off, hostLink := false, rom := false } else d) s

/-- The glitch filter of RESET_N, and a pulse that may or may not be long enough: a free value (R503). -/
def Dev.resetSeen (d : Dev) (lowNs : Nat) : Bool × Dev :=
  if lowNs < 1000 then (false, d)
  else if 10000 ≤ lowNs then (true, d)
  else
    let x := d.draw
    (x.1 % 2 == 0, x.2)

/-- WARM_RESET: RESET_N is low (R503); after a critical shutdown only a cold reset helps (R441). -/
def execWarmReset (lowNs : Nat) (s : State) : Outcome State Fault Refusal :=
  lift (fun d =>
    let x := d.resetSeen lowNs
    if x.1 then x.2.cleared { cause := 1, inReset := true, straps := d.boot.straps } else x.2) s

/-- RESET_N_RISE (R40). -/
def execResetNRise (straps : Straps) (s : State) : Outcome State Fault Refusal :=
  liftAny (fun d => if d.boot.powered && d.boot.inReset then d.rise straps else d) s

/-! ## Function reset (R38, R492, Table 19-6) -/

/-- A command's name once its queue is gone: what goes on under it can meet no later command. -/
def orphans (l : List CmdRef) : List CmdRef := l.map orphan

/-- Every fetched command ends as DELETE_QP ends it, without a completion: the queues are gone. The function page of HIF
returns to reset, every lock is force-released with cause 2, and the host's vectors are masked again (R103, R492). -/
def Dev.endHost (d : Dev) : Dev :=
  let d := { d with hif := { d.hif with queues := [], rings := [], queueOps := [], modeChange := none } }
  let d := (d.hif.cmds.map Cmd.ref).foldl (fun (d : Dev) r => d.cut stQueueDeleted r) d
  let d := d.forceAll (fun o => o != LockOwner.free) 2 none none
  let d := { d with hif := { locks := d.hif.locks } }
  d.resetRegs fun o => o < 0x30 && 0x20 ≤ o || (0x40 ≤ o && o < 0x80)

/-- What still runs under a command's name takes a name of its own (log entry 25). -/
def Dev.rename (d : Dev) : Dev :=
  let port := fun (p : Port) => { p with
    stopRef := none, programs := p.programs.map fun g => { g with ref := orphan g.ref }
    applied := p.applied.map fun g => { g with ref := orphan g.ref } }
  let d := (rangeFrom 0 4).foldl (fun (d : Dev) p => d.modPort p port) d
  let ctl := fun (v : TwCtl) => { v with xfers := [], cur := none, disabling := none }
  let d := (rangeFrom 0 8).foldl (fun (d : Dev) c => d.modCtl c ctl) d
  let d := (rangeFrom 0 4).foldl (fun (d : Dev) k =>
    (d.setRaster k { d.raster k with stopRef := (d.raster k).stopRef.map orphan }).setUnit k { d.stuUnit k with
      stopRef := (d.stuUnit k).stopRef.map orphan }) d
  { d with
    teu := { d.teu with pulses := d.teu.pulses.map fun p => { p with ref := orphan p.ref } }
    eng := {
      autos := d.eng.autos
      resets := d.eng.resets.map fun e => { e with ref := e.ref.map orphan, also := orphans e.also }
      load := d.eng.load.map fun l => (orphan l.1, l.2) } }

/-- Two-wire controllers finish the byte, send STOP and become disabled (R404). -/
def Dev.twQuiet (d : Dev) : Dev :=
  (rangeFrom 0 8).foldl (fun (d : Dev) c =>
    let d := d.twCut c none
    d.modCtl c fun v => { v with state := .disabled }) d

/-- Sessions are closed, staged frames discarded, lanes idle. -/
def Dev.closeSessions (d : Dev) : Dev :=
  { d with codec := {}, lse := {}, stu := { d.stu with bufs := [] } }

/-- Sprockets stop and return to set-up (R221). -/
def Dev.stopSpks (d : Dev) : Dev :=
  (rangeFrom 0 8).foldl (fun (d : Dev) n => if (d.spkOf n).state = .running then d.spkStop n true none else d) d

/-- Scope and SDI statistics units stop and return to set-up (R36, R243). -/
def Dev.stopUnits (d : Dev) : Dev := (rangeFrom 0 4).foldl (fun (d : Dev) u => if (d.stuUnit u).running then d.unitStop u else d) d

/-- Sensor ports keep streaming on latched values and count as stopped (R118); MP ends at a line boundary (R132). -/
def Dev.keepPorts (d : Dev) : Dev :=
  let d := (d.mpClose true stQueueDeleted).mpEnd stQueueDeleted 0
  (rangeFrom 0 4).foldl (fun (d : Dev) p =>
    if (d.port p).state = .stopped then d else d.modPort p fun v => { v with survives := true }) d

/-- Firmware restores the pilot where the board table's sensor still streams and SCO0 is enabled: SCO0 shows its slot
again (R38). -/
def Dev.restorePilot (d : Dev) : Dev :=
  match d.boot.board with
  | none => d
  | some p =>
    if !d.boot.firmware || (d.port p).state = .stopped || !(d.raster 0).run then d
    else
      let r := d.raster 0
      let l := SMap.put 0 r.latched 0 (SMap.get 0 r.latched 0 &&& 0xFFFFFFFC)
      (if r.ks then d else d.setRaster 0 { r with latched := l }).feedPilot p

/-- Stage and mode after a function reset (R38); before ROM has decided they stay. -/
def Dev.fallBack (d : Dev) : Dev :=
  let b := { d.boot with cause := 2 }
  if b.stage = .booting then { d with boot := b }
  else if b.firmware then { d with boot := { b with stage := .freewheel, mode := .freewheel } }
  else { d with boot := { b with stage := .kickstandHold, mode := .kickstand } }

/-- How the host's link stands, and the code of Table 19-7; PERST_N is logged as a loss of the link that it holds
down. -/
def resetCode : FunctionResetKind → Nat
  | .flr => 0 | .hotReset => 1 | .linkLoss => 2 | .perstN => 2

def Dev.linkAfter (d : Dev) (k : FunctionResetKind) : Dev :=
  match k with
  | .flr | .hotReset => d
  | .linkLoss => { d with boot := { d.boot with hostLink := false } }
  | .perstN => { d with boot := { d.boot with hostLink := false, perst := true } }

/-- A function reset. -/
def Dev.functionReset (d : Dev) (k : FunctionResetKind) : Dev :=
  let ended := d.hif.cmds.length
  let d := d.endHost
  let d := (((d.twQuiet.rename).stopSpks).stopUnits).keepPorts
  let d := ((d.closeSessions).recFunctionReset).pelEnd
  let d := (d.domStop 0).domStop 1
  let d := d.resetRegs fun o => o / 65536 == 13 && o % 65536 < 0x400
  let d := { d with hif := { locks := d.hif.locks } }
  let d := d.fallBack.linkAfter k
  let d := if d.boot.firmware then d.enableBoardTw.restorePilot else d
  d.log 1 0x072 (resetCode k) ended 0 0

/-- FUNCTION_RESET (R492). -/
def execFunctionReset (kind : FunctionResetKind) (s : State) : Outcome State Fault Refusal :=
  lift (fun d => d.functionReset kind) s

/-- PERST_N_DEASSERT: the link trains again (R504). -/
def execPerstNDeassert (s : State) : Outcome State Fault Refusal :=
  lift (fun d => if d.boot.perst then { d with boot := { d.boot with perst := false, hostLink := true } } else d) s

/-! ## OMS-only reset (R39, R452, R463) -/

/-- A freeze of a token point ends. -/
def Dev.thaw (d : Dev) : Dev := { d with dbg := { d.dbg with frozen := false, credits := 0, waits := false } }

/-- An unlock ends; with a FULL one in PRODUCTION a freeze ends (R472, R478). -/
def Dev.endUnlock (d : Dev) : Dev :=
  let full := d.oms.unlock == 2 && d.oms.lifecycle == 2
  let d := { d with oms := { d.oms with unlock := 0 } }
  if full then d.thaw else d

/-- The core restarts from ROM: management commands in flight complete ENGINE_RESET, locks of firmware are
force-released, an unlock and a halt end. `latch` says what caused it. -/
def Dev.omsReset (d : Dev) (latch : Nat) : Dev :=
  let refs := (d.hif.cmds.filter (·.cls == 0x0D)).map Cmd.ref
  let d := ({ d with eng := { d.eng with load := none } }).finishAll refs stEngineReset 0
  let d := (d.forceAll (fun o => o == LockOwner.firmware) 3 (some stEngineReset) none).endUnlock
  { d with
    boot := { d.boot with rom := true, firmware := false, entering := false, cause := 3 }
    oms := { d.oms with latch := latch }
    dbg := { d.dbg with halted := false, cause := 0, index := 0 } }

/-- OMS_ONLY_RESET (R39). -/
def execOmsOnlyReset (s : State) : Outcome State Fault Refusal := lift (fun d => d.omsReset 0) s

/-- WATCHDOG_EXPIRY: only while firmware runs and the core is not halted (R452). -/
def execWatchdogExpiry (s : State) : Outcome State Fault Refusal :=
  lift (fun d => if d.boot.firmware && !d.dbg.halted then d.omsReset 2 else d) s

/-- TRIAL_TIMER_EXPIRY (R461, R463). -/
def execTrialTimerExpiry (s : State) : Outcome State Fault Refusal :=
  lift (fun d =>
    if d.oms.timer.isSome then ({ d with oms := { d.oms with timer := none } }).omsReset 1 else d) s

end Sys2Proof.Machine
end

