-- ==== Sys2Proof/Machine/Mgmt.lean ====
section
/-! DEFINITION. Class 0x0D: updates, engine code, the event log, attestation, unlocking and the lifecycle (R460 to R465,
R468 to R473, R480, R490, Tables 18-12 and 18-13). -/

namespace Sys2Proof.Machine

open Host

/-! ## Who serves (R465, R476, R480) -/

/-- What ROM serves while it holds Kickstand. -/
def romServes (c : Cmd) : Bool := c.opc == 0x01 || c.opc == 0x02 || c.opc == 0x10 || c.opc == 0x30 || c.opc == 0x31

/-- One of the commands that are carried out one at a time. -/
def serialCmd (c : Cmd) : Bool := c.cls == 0x0D && (c.opc == 0x01 || c.opc == 0x02 || c.opc == 0x03 || c.opc == 0x40)

/-- An earlier command holds this one back: the serial ones among themselves, reports among themselves (R465, R470). -/
def Dev.mgmtHeld (d : Dev) (c : Cmd) : Bool :=
  d.hif.cmds.any fun e => decide (e.num < c.num)
    && ((serialCmd e && serialCmd c) || (e.cls == 0x0D && e.opc == 0x20 && c.opc == 0x20))

/-- Run a command of class 0x0D: it waits while the core is halted or starting; while ROM holds Kickstand, ROM serves
what it can and the rest completes ENGINE_DOWN. -/
def mgmtCmd (sp : CmdSpec) (r : CmdRef) (eff : Cmd → Dev → Dev) (d : Dev) : Dev :=
  runCmd sp r (fun c d =>
    if d.dbg.halted || !(d.boot.firmware || d.held) || d.mgmtHeld c then d
    else if d.held && !romServes c then d.finish r stEngineDown 0
    else eff c d) d

/-- INTERNAL_ERROR with its log entry; the check identifier is the device's own, a free value. -/
def Dev.internalError (d : Dev) (r : CmdRef) : Dev :=
  let x := d.draw
  (x.2.log 2 0x004 (x.1 % two32) 0 14 0 ones64 (d.tagOf r)).finish r stInternal 0

/-! ## MGMT_UPDATE_STAGE (R460) -/

/-- What an update leaves in its target: the container, or nothing certain. -/
def Dev.putSlot (d : Dev) (s : Option Bool) (v : FlashSlot) : Dev :=
  match s with
  | some false => { d with oms := { d.oms with slotA := v } }
  | some true => { d with oms := { d.oms with slotB := v } }
  | none => { d with oms := { d.oms with board := v } }

/-- The container is of the kind that the target takes. -/
def kindFits (c : Container) (s : Option Bool) : Bool := c.kind == if s.isSome then 1 else 2

/-- The effect of STAGE: the kind is judged against TARGET once the header is one; a container that fails R455 for
any reason but rollback is AUTH_FAILED. -/
def stage (c : Container) (writeOk : Bool) (r : CmdRef) (k : Cmd) (d : Dev) : Dev :=
  let s := d.stageSlot (k.f 4 1 0)
  if c.magicOk && c.layoutOk && !kindFits c s then d.finish r stInvalidField 4
  else if !c.magicOk || !d.containerOk c then d.finish r stAuthFailed 0
  else if s.isSome && d.checkFirmware c == 3 then d.finish r stRollback 0
  else if s.isSome && !d.oms.flash then d.finish r stMediaAbsent 0
  else if writeOk then (d.putSlot s (.image c)).finish r stSuccess (c.version % 128 + c.components % 256 * 256)
  else (d.putSlot s .broken).finish r stMediaError 0

/-- MGMT_UPDATE_STAGE (R460): `c` is what verification finds in the container. -/
def execMgmtUpdateStage (r : CmdRef) (c : Container) (writeOk : Bool) (s : State) : Outcome State Fault Refusal :=
  lift (mgmtCmd specStage r (stage c writeOk r)) s

/-! ## MGMT_UPDATE_ACTIVATE (R461) -/

/-- The boot record as ACTIVATE changes it, and the timer: with a TRIAL_S of 0 none runs. -/
def activateRecord (c : Cmd) (o : OmsB) : OmsB :=
  let n := c.f 5 15 0
  if c.b 4 1 then { o with trial := 1, trialS := n, timer := if n = 0 then none else some n }
  else { o with active := c.b 4 0 }

/-- The effect of ACTIVATE: the slot is verified again, from flash. -/
def activate (r : CmdRef) (c : Cmd) (d : Dev) : Dev :=
  let s := c.b 4 0
  let x := d.verifySlot s
  if !d.oms.flash then d.finish r stMediaError 0
  else if x.1 = 3 then d.finish r stRollback 0
  else if x.1 ≠ 0 then d.finish r stAuthFailed 0
  else
    let d := if !c.b 4 1 && s == d.oms.active then d else d.bootRecord (activateRecord c)
    let d := d.finish r stSuccess s.toNat
    if c.b 4 2 then d.omsReset 0 else d

/-- MGMT_UPDATE_ACTIVATE (R461). -/
def execMgmtUpdateActivate (r : CmdRef) (s : State) : Outcome State Fault Refusal :=
  lift (mgmtCmd specActivate r (activate r)) s

/-! ## MGMT_UPDATE_CONFIRM (R462) -/

/-- The trial ends: the running slot is accepted while it is tried, or the trial is rejected. -/
def Dev.endTrial (d : Dev) (reject : Bool) (tag : Option Nat) : Dev :=
  if d.oms.trial = 0 then d
  else if reject then
    let d := d.log 1 0x041 ((!d.oms.active).toNat + 512) 0 14 0 ones64 tag
    d.bootRecord fun o => { o with trial := 0, timer := none }
  else if d.oms.trial = 2 then
    d.bootRecord fun o => { o with trial := 0, timer := none, active := d.boot.slotB }
  else d

/-- VERSION of the running container. -/
def Dev.runVersion (d : Dev) : Nat := (d.oms.running.map (·.version)).getD 0

/-- The effect of CONFIRM. COUNTER is raised only with RAISE and without REJECT; where a fuse fails to blow, how many
have blown is a free value. -/
def confirm (fuseOk : Bool) (r : CmdRef) (c : Cmd) (d : Dev) : Dev :=
  let d := d.endTrial (c.b 4 1) (some c.tag)
  let old := d.oms.counter
  let v := d.runVersion
  let restart := fun (d : Dev) => if c.b 4 2 then d.omsReset 0 else d
  if c.b 4 1 || !c.b 4 0 || decide (v ≤ old) then restart (d.finish r stSuccess old)
  else if fuseOk then
    let d := { d with oms := { d.oms with counter := v } }
    restart ((d.log 0 0x042 v 0 14 0 ones64 (some c.tag)).finish r stSuccess v)
  else
    let x := d.draw
    let d := { x.2 with oms := { x.2.oms with counter := old + x.1 % (v - old) } }
    d.internalError r

/-- MGMT_UPDATE_CONFIRM (R462). -/
def execMgmtUpdateConfirm (r : CmdRef) (fuseOk : Bool) (s : State) : Outcome State Fault Refusal :=
  lift (mgmtCmd specConfirm r (confirm fuseOk r)) s

/-! ## MGMT_ENGINE_LOAD (R464, R482, R490) -/

/-- Digest of engine `e`'s code in the running container. -/
def Dev.runCode (d : Dev) (e : Nat) : Option Nat := d.oms.running.bind fun c => Container.code? c e

/-- The engine's code is the running container's. -/
def Dev.codeCurrent (d : Dev) (e : Nat) : Bool :=
  !d.noCode e && d.runCode e == some (SMap.get {} d.oms.code e).digest

/-- The engine runs code other than the running container's (Table 18-10 ENGINE_STALE). -/
def Dev.codeStale (d : Dev) (e : Nat) : Bool :=
  !d.noCode e && d.runCode e != some (SMap.get {} d.oms.code e).digest

/-- Islands of an engine of MGMT_ENGINE_LOAD; NTU's protocol engines have none that can be disabled. -/
def loadIslands : Nat → List Nat
  | 0 => rangeFrom 28 6
  | 1 => rangeFrom 34 4
  | 2 => [38]
  | 4 => rangeFrom 47 4
  | _ => []

/-- Every island of the engine is Disabled. -/
def Dev.loadOff (d : Dev) (e : Nat) : Bool :=
  !(loadIslands e).isEmpty && (loadIslands e).all d.pwr.disabled.contains

/-- PTP messages in passage are lost (R482). -/
def Dev.ntuLose (d : Dev) : Dev :=
  let d := (rangeFrom 0 2).foldl (fun (d : Dev) k => d.setDom k { d.dom k with pend := none, asked := none }) d
  { d with ntu := { d.ntu with tc := [] } }

/-- A forced load: the engine's codes are reset, those in reset already among them, and the code is loaded as the last
reset ends; with none to reset it is loaded at once. -/
def Dev.forceLoad (d : Dev) (r : CmdRef) (e : Nat) (ok : Bool) : Dev :=
  let codes := (d.loadCodes e).filter fun k => !(engIsland k).any d.pwr.disabled.contains
  let d := (d.begin r)
  let d := { d with eng := { d.eng with load := some (r, e, ok) } }
  let d := if e = 3 then d.ntuLose else d
  let mark := fun (d : Dev) (k : Nat) => { d with eng := { d.eng with
    resets := d.eng.resets.map fun (x : EngReset) => if x.code = k then { x with load := true } else x } }
  let d := codes.foldl (fun (d : Dev) k =>
    if d.eng.resets.any (·.code == k) then mark d k else d.enterReset k none true 0) d
  if codes.isEmpty then d.loadDone else d

/-- The effect of MGMT_ENGINE_LOAD; `ok`: the code passes its digest as it is loaded. -/
def engineLoad (ok : Bool) (r : CmdRef) (c : Cmd) (d : Dev) : Dev :=
  let e := c.f 4 2 0
  if d.loadOff e then d.finish r stEngineDown 0
  else if d.eng.load.isSome then d
  else if d.pendingCtx e && !c.b 4 8 then d.finish r stEngineBusy 0
  else if d.codeCurrent e then d.finish r stSuccess 0
  else if c.b 4 8 then d.forceLoad r e ok
  else
    let d := d.takeCode e ok
    if d.noCode e then d.finish r stInternal 0 else d.finish r stSuccess 1

/-- MGMT_ENGINE_LOAD (R464). -/
def execMgmtEngineLoad (r : CmdRef) (digestOk : Bool) (s : State) : Outcome State Fault Refusal :=
  lift (mgmtCmd specEngineLoad r (engineLoad digestOk r)) s

/-! ## MGMT_LOG_READ (R468) -/

/-- The fields of a log entry as MRAM holds it: FLAGS and SEQ are 0 (R466). -/
def LogEntry.flds (e : LogEntry) : List Fld :=
  [⟨0, 2, 0x3000 + e.code⟩, ⟨2, 1, 1⟩, ⟨8, 8, e.frame⟩, ltsFld 16 e.time, ⟨28, 1, e.page⟩, ⟨29, 1, e.inst⟩]
    ++ (LogEntry.record e).body

/-- Entries from FIRST_SEQ on, or from the oldest retained where that is later (R12). -/
def Dev.logFrom (d : Dev) (first : Nat) : List LogEntry :=
  d.oms.log.filter fun e => e.seq % two32 == first % two32 || seqLater first e.seq

/-- The effect of MGMT_LOG_READ; LOG_SEQ of the first of no entries is a value the spec does not state: free. -/
def logRead (r : CmdRef) (c : Cmd) (d : Dev) : Dev :=
  let es := (d.logFrom (c.w 4)).take (c.f 5 12 0)
  match es with
  | [] => let x := d.draw; x.2.finish r stSuccess (x.1 % two32 * two32)
  | e :: _ =>
    let d := es.zipIdx.foldl (fun (d : Dev) x => d.writeFields false (c.q 6 + 64 * x.2) 64 (LogEntry.flds x.1)) d
    d.finish r stSuccess (es.length + e.seq * two32)

/-- MGMT_LOG_READ (R468). -/
def execMgmtLogRead (r : CmdRef) (s : State) : Outcome State Fault Refusal :=
  lift (mgmtCmd specLogRead r (logRead r)) s

/-! ## MGMT_ATTEST (R470, Table 18-6) -/

/-- SK.seed and SK.prf: the halves of DEVICE_SECRET; PK.seed: of SHA-256 of DEVICE_ID the first 16 bytes (R469). -/
def Dev.skSeed (d : Dev) : List Byte := leBytes 16 d.oms.deviceSecret
def Dev.skPrf (d : Dev) : List Byte := leBytes 16 (d.oms.deviceSecret / 2 ^ 128)
def Dev.pkSeed (d : Dev) : List Byte := (sha256 (leBytes 8 d.oms.deviceId)).take 16

/-- DEV_PUB, the public key that ROM forms: PK.seed and the root (R469). -/
def Dev.devPub (d : Dev) : List Byte := d.pkSeed ++ leBytes 16 (Config.slhRoot d.skSeed d.skPrf d.pkSeed)

/-- A measurement at its offset: TYPE, SIGNER, SOURCE, VERSION, digest. -/
def measure (i type signer source version digest : Nat) : List Fld :=
  let o := 128 + 48 * i
  [⟨o, 2, type⟩, ⟨o + 2, 1, signer⟩, ⟨o + 3, 1, source⟩, ⟨o + 4, 4, version⟩, ⟨o + 16, 32, digest⟩]

/-- The container that the board table in force comes from. -/
def Dev.boardFrom (d : Dev) : Option Container :=
  match d.oms.boardMram, d.oms.board with
  | true, .image c => some c
  | _, _ => d.oms.running

/-- The container in an area. -/
def slotImage : FlashSlot → Option Container
  | .image c => some c
  | _ => none

/-- Digest of component `t` of a container. -/
def partDigest (c : Option Container) (t : Nat) : Nat := ((c.bind fun c => c.parts.lookup t)).getD Config.noDigest

/-- The measurements of R470, in their order. -/
def Dev.measures (d : Dev) : List Fld :=
  let s := d.boot.slotB.toNat
  let b := d.boardFrom
  let cal := slotImage d.oms.calib
  let sg := fun (c : Option Container) => (c.map (·.signer)).getD 0
  let vn := fun (c : Option Container) => (c.map (·.version)).getD 0
  measure 0 0x80 (Config.romHead 0) (Config.romHead 1) (Config.romHead 2) Config.romDigest
    ++ measure 1 0x04 (sg cal) (Config.romHead 3) (vn cal) (partDigest cal 4)
    ++ measure 2 0x02 (sg b) (if d.oms.boardMram then 2 else s) (vn b) (partDigest b 2)
    ++ measure 3 0x01 (sg d.oms.running) s (vn d.oms.running) (partDigest d.oms.running 1)
    ++ (rangeFrom 0 5).flatMap fun e =>
      let k := SMap.get {} d.oms.code e
      measure (4 + e) (0x10 + e) k.signer k.src k.version (if k.src = 255 then 0 else k.digest)

/-- UNLOCK of LC_STS: FULL always in BLANK and DEVELOPMENT (Table 18-11). -/
def Dev.unlockNow (d : Dev) : Nat := if d.oms.lifecycle < 2 then 2 else d.oms.unlock

/-- The head of the report, and the endorsement that the calibration area holds. -/
def Dev.reportHead (d : Dev) (c : Cmd) : List Fld :=
  let nonce := c.q 4 + 2 ^ 64 * c.q 6 + 2 ^ 128 * c.q 8 + 2 ^ 192 * c.q 10
  [⟨0, 4, 0x52544D41⟩, ⟨4, 1, 1⟩, ⟨5, 1, 9⟩, ⟨6, 1, d.oms.lifecycle⟩, ⟨7, 1, d.unlockNow⟩, ⟨8, 8, d.oms.deviceId⟩,
   ⟨16, 32, nonce⟩, ltsFld 48 d.now, ⟨60, 4, d.oms.bootCount⟩, ⟨64, 1, d.oms.counter⟩, ⟨65, 1, d.boot.slotB.toNat⟩,
   ⟨66, 1, d.oms.trial⟩, ⟨67, 1, d.oms.oemOnly.toNat⟩, ⟨68, 4, d.oms.logSeq⟩, ⟨72, 4, 0x16800100⟩,
   ⟨76, 32, leNat d.devPub⟩, ⟨560, 7856, leNat d.oms.endorsement⟩]

/-- The effect of MGMT_ATTEST. The signature is a cryptographic outcome that the model does not compute (log entry 13). -/
def attest (r : CmdRef) (c : Cmd) (d : Dev) : Dev :=
  let a := c.q 12
  let d := d.writeFields false a reportBytes (d.reportHead c ++ d.measures)
  (d.undefBuf false (a + 8416) 17088).finish r stSuccess reportBytes

/-- MGMT_ATTEST (R470). -/
def execMgmtAttest (r : CmdRef) (s : State) : Outcome State Fault Refusal := lift (mgmtCmd specAttest r (attest r)) s

/-! ## Unlocking (R472, R473) -/

/-- A fresh nonce, 32 bytes: a free value. It takes the place of the one before. -/
def Dev.freshNonce (d : Dev) : Nat × Dev :=
  let x := d.draw
  let n := x.1 % 2 ^ 256
  (n, { x.2 with oms := { x.2.oms with nonce := some n } })

/-- The effect of MGMT_UNLOCK_CHALLENGE: NONCE and DEVICE_ID. -/
def challengeCmd (r : CmdRef) (c : Cmd) (d : Dev) : Dev :=
  let x := d.freshNonce
  (x.2.writeFields false (c.q 5) 40 [⟨0, 32, x.1⟩, ⟨32, 8, d.oms.deviceId⟩]).finish r stSuccess 0

/-- MGMT_UNLOCK_CHALLENGE (R472). -/
def execMgmtUnlockChallenge (r : CmdRef) (s : State) : Outcome State Fault Refusal :=
  lift (mgmtCmd specChallenge r (challengeCmd r)) s

/-- A check fails: logged, and counted up to 8 where it counts. -/
def Dev.authFail (d : Dev) (counts : Bool) (tag : Option Nat) : Dev :=
  let n := if counts then min 8 (d.oms.authFails + 1) else d.oms.authFails
  ({ d with oms := { d.oms with authFails := n } }).log 1 0x051 n 0 14 0 ones64 tag

/-- An answer is checked: the class granted, none where it fails. In BLANK and DEVELOPMENT nothing is checked. A
signature check uses up the nonce; without a nonce it fails without counting; at AUTH_FAILS 8 every check fails. -/
def Dev.unlockCheck (d : Dev) (method key : Nat) (passes : Bool) (tag : Option Nat := none) : Option Nat × Dev :=
  if d.oms.lifecycle < 2 then (some 2, d)
  else
    let had := d.oms.nonce.isSome
    let d := if method = 0 then { d with oms := { d.oms with nonce := none } } else d
    let pass := passes && if method = 0 then had else d.oms.pwdHash != 0
    if 8 ≤ d.oms.authFails then (none, d.authFail true tag)
    else if pass then
      let cls := 2 - method
      let d := { d with oms := { d.oms with unlock := max d.oms.unlock cls } }
      (some cls, d.log 1 0x050 (cls + method * 256 + key * 512) 0 14 0 ones64 tag)
    else (none, d.authFail (method != 0 || had) tag)

/-- MGMT_UNLOCK_ANSWER (R472, R473): `passes` is what the cryptographic check finds. -/
def execMgmtUnlockAnswer (r : CmdRef) (passes : Bool) (s : State) : Outcome State Fault Refusal :=
  lift (mgmtCmd specAnswer r fun c d =>
    match d.unlockCheck (c.f 4 0 0) (c.f 4 1 1) passes (some c.tag) with
    | (some cls, d) => d.finish r stSuccess cls
    | (none, d) => d.finish r stAuthFailed 0) s

/-! ## MGMT_LIFECYCLE_ADVANCE (R471) -/

/-- Offending bytes of the block (R519): one step on; keys and flags as the step asks; reserved bytes 0. -/
def Dev.lifeBad (d : Dev) (b : List Byte) : List Nat :=
  let l := d.oms.lifecycle
  bad 0 (decide (2 ≤ l) || b8 b 0 != l + 1)
    ++ (if l = 0 then bad 1 (b8 b 1 != 0) ++ bad 32 (bn b 32 32 == 0) ++ bad 64 (bn b 64 32 != 0)
        else bad 1 (decide (1 < b8 b 1)) ++ bad 32 (bn b 32 32 != 0))
    ++ resBytes (b.take 128) [(0, 2), (32, 64)]

/-- The fuses of the step. -/
def lifeFuses (b : List Byte) (o : OmsB) : OmsB :=
  if o.lifecycle = 0 then { o with lifecycle := 1, oemPub := bn b 32 32 }
  else { o with lifecycle := 2, oemOnly := b8 b 1 == 1, pwdHash := bn b 64 32, unlock := 0 }

/-- The effect of MGMT_LIFECYCLE_ADVANCE. -/
def lifecycle (b : List Byte) (fuseOk : Bool) (r : CmdRef) (d : Dev) : Dev :=
  match minOff (blkOffs 5 (d.lifeBad b)) with
  | some o => d.finish r stInvalidField o.result
  | none =>
    if !fuseOk then d.internalError r
    else
      let d := { d with oms := lifeFuses b d.oms }
      (d.log 1 0x052 d.oms.lifecycle 0 14 0 ones64 (d.tagOf r)).finish r stSuccess d.oms.lifecycle

/-- MGMT_LIFECYCLE_ADVANCE (R471). -/
def execMgmtLifecycleAdvance (r : CmdRef) (blk : List Byte) (fuseOk : Bool) (s : State) : Outcome State Fault Refusal :=
  lift (mgmtCmd specLifecycle r fun _ d => lifecycle blk fuseOk r d) s

end Sys2Proof.Machine
end

