-- ==== Sys2Proof/Machine/Debug.lean ====
section
/-! DEFINITION. The debug port: the TAP, the Debug Module, memory spaces, token points and unlocking over the TAP (R474
to R479, Tables 18-8, 18-9 and 18-11). -/

namespace Sys2Proof.Machine

open Host

/-! ## State shown (Table 18-11) -/

/-- A DM_ACCESS within the last second. -/
def Dev.dmActive (d : Dev) : Bool := d.dbg.last.any fun t => decide (t ≤ d.now) && decide (d.now ≤ t + tSec)

/-- LC_STS. -/
def Dev.lcSts (d : Dev) : Nat :=
  let o := d.oms
  o.lifecycle + 4 * d.unlockNow + 16 * (o.oemPub != 0).toNat + 32 * o.oemOnly.toNat + 64 * (o.pwdHash != 0).toNat
    + 256 * d.dmActive.toNat + 512 * d.dbg.halted.toNat + 1024 * d.dbg.frozen.toNat + 4096 * o.authFails

/-- The debug class: 0 none, 1 SERVICE, 2 FULL (Table 18-7). -/
def Dev.dmClass (d : Dev) : Nat := d.unlockNow

def Dev.modDbg (d : Dev) (f : DbgB → DbgB) : Dev := { d with dbg := f d.dbg }

/-- STATUS of a DM_ACCESS (Table 18-8). -/
abbrev dmDone : Nat := 0
abbrev dmDenied : Nat := 8
abbrev dmError : Nat := 12

/-! ## The core (R476) -/

/-- The registers that the core shows once it has halted: what the code has left there is not the model's, free
values. -/
def Dev.coreLeaves (d : Dev) : Dev :=
  let g := (rangeFrom 1 31).foldl (fun m k => SMap.put 0 m k (Config.freeNat (d.free + k) % two32)) []
  let pc := Config.freeNat d.free % two32
  ({ d with free := d.free + 32 }).modDbg fun b => { b with pc := pc, gpr := g }

/-- The core halts; what debug access wrote into Oroiz SRAM before may have been written over since. -/
def Dev.coreHalt (d : Dev) (cause index : Nat) : Dev :=
  d.coreLeaves.modDbg fun b => { b with
    halted := true, cause := cause, index := index, wrote := b.wrote.filter fun e => e.1 / two32 != 3 }

/-- A write of CORE_CTL: HALT, or else RESUME, or else STEP of a halted core. -/
def Dev.coreCtl (d : Dev) (v : Nat) : Dev :=
  if v.testBit 0 then (if d.dbg.halted then d else d.coreHalt 1 0)
  else if v.testBit 1 then d.modDbg fun b => { b with halted := false, cause := 0, index := 0 }
  else if v.testBit 2 ∧ d.dbg.halted then d.coreHalt 2 0
  else d

/-! ## Memory spaces (R477) -/

/-- Size of a space in bytes; none for a number that names no space. -/
def Dev.spaceSize (d : Dev) : Option Nat :=
  match d.dbg.memSpace with
  | 0 => some d.memNet
  | 1 => some (2048 * 65536)
  | 2 => some 33554432
  | 3 => some 524288
  | 4 => some 4194304
  | _ => none

/-- The address of the next access. -/
def Dev.dmAddr (d : Dev) : Nat := d.dbg.memAddr + two32 * d.dbg.memAddrHi

/-- Bytes of the MRAM log slot that holds address `a` (Table 18-1), from `a` on. -/
def Dev.logBytes (d : Dev) (a : Nat) : List Byte :=
  let slot := (a - 0x100000) / 64
  match d.oms.log.find? fun e => e.seq % Config.logSlots == slot with
  | some e => (fieldBytes 64 (LogEntry.flds e)).drop (a % 64)
  | none => List.replicate (64 - a % 64) 0

/-- Debug access has written the `n` bytes at address `a` of the space. -/
def Dev.wroteAt (d : Dev) (a n : Nat) : Bool :=
  (rangeFrom (d.dbg.memSpace * two32 + a) n).all fun k => SMap.get false d.dbg.wrote k

/-- Note a word written by debug access. -/
def Dev.noteWrote (d : Dev) (a n : Nat) : Dev :=
  d.modDbg fun b => { b with
    wrote := (rangeFrom (b.memSpace * two32 + a) n).foldl (fun m k => SMap.put false m k true) b.wrote }

/-- `n` bytes of a memory whose layout the spec leaves to the blocks or to firmware: what debug access wrote there, else
a free value (log entry 6). -/
def Dev.opaqueWord (d : Dev) (m : Mem) (a n : Nat) : Nat × Dev :=
  if d.wroteAt a n then (leNat (Mem.rdN m a n), d)
  else
    let x := d.draw
    (x.1 % 256 ^ n, x.2)

/-- Bytes of a word at `a` below the part of Oroiz SRAM that is reserved to ROM (R451). -/
def osramBytes (a : Nat) : Nat := min 4 (0x70000 - a)

/-- A word of MRAM: the log as its entries give it; the records, containers and markers below 0x09_0000, whose layout
in bytes the spec does not give in full, as a free value; firmware's own store. -/
def Dev.mramWord (d : Dev) (a : Nat) : Nat × Dev :=
  if 0x100000 ≤ a then (leNat ((d.logBytes a ++ d.logBytes (a / 64 * 64 + 64)).take 4), d)
  else if a < 0x90000 then
    let x := d.draw
    (x.1 % two32, x.2)
  else d.opaqueWord d.mem.mram a 4

/-- A word of device memory. The context store there holds contexts in a format that the spec does not give, written back
as the cache evicts them (R97, R99): while HIF is READY with its store in memory, its words are free values. -/
def Dev.lpddrWord (d : Dev) (a : Nat) : Nat × Dev :=
  if d.hif.ready && !d.hif.recovery && overlaps (a, 4) d.ctxRange then
    let x := d.draw
    (x.1 % two32, x.2)
  else (leNat (Mem.rdN d.mem.lpddr a 4), d)

/-- A word of the space. Firmware writes Oroiz SRAM while the core runs. -/
def Dev.spaceRead (d : Dev) (a : Nat) : Nat × Dev :=
  match d.dbg.memSpace with
  | 0 => d.lpddrWord a
  | 1 => (leNat (Mem.rdN d.mem.scan a 4), d)
  | 2 => d.opaqueWord d.mem.sram a 4
  | 3 =>
    if 0x70000 ≤ a then (0, d)
    else if d.dbg.halted then d.opaqueWord d.mem.osram a (osramBytes a)
    else
      let x := d.draw
      (x.1 % 256 ^ osramBytes a, x.2)
  | _ => d.mramWord a

/-- A raw write of the boot record: which copy stays valid, and what it holds, is a free value. -/
def Dev.spoilRecord (d : Dev) : Dev :=
  let f := Config.freeNat
  let o := d.oms
  let o := { o with
    active := f d.free % 2 == 1, trial := f (d.free + 1) % 3, trialS := f (d.free + 2) % 65536
    bootCount := f (d.free + 3) % two32, recSeq := f (d.free + 4) % two32 }
  { d with free := d.free + 5, oms := o }

/-- A raw write of the recovery markers: which drives carry one afterwards is a free value. -/
def Dev.spoilMarkers (d : Dev) : Dev :=
  let known := d.recd.markers.map (·.drive) ++ (((rangeFrom 0 8).filter fun s => (d.slot s).width != 0).map fun s =>
    (d.slot s).drive)
  let drives := known.eraseDups
  let ms := drives.zipIdx.filterMap fun e =>
    if Config.freeNat (d.free + 2 * e.2) % 2 = 1 then
      some { drive := e.1, count := Config.freeNat (d.free + 2 * e.2 + 1) : Marker }
    else none
  { d with free := d.free + 2 * drives.length, recd := { d.recd with markers := ms } }

/-- Write a word of the space. Into the board-table area of MRAM it leaves no valid container. -/
def Dev.spaceWrite (d : Dev) (a v : Nat) : Dev :=
  let bs := leBytes 4 v
  let m := d.mem
  match d.dbg.memSpace with
  | 0 => { d with mem := { m with lpddr := Mem.wrN m.lpddr a bs } }
  | 1 => { d with mem := { m with scan := Mem.wrN m.scan a bs } }
  | 2 => ({ d with mem := { m with sram := Mem.wrN m.sram a bs } }).noteWrote a 4
  | 3 =>
    let n := osramBytes a
    ({ d with mem := { m with osram := Mem.wrN m.osram a (bs.take n) } }).noteWrote a n
  | _ =>
    if a < 0x1000 then d.spoilRecord
    else if a < 0x10000 then { d with oms := { d.oms with board := .broken } }
    else if a < 0x80000 then { d with mem := { m with mram := Mem.wrN m.mram a bs } }
    else if a < 0x90000 then d.spoilMarkers
    else ({ d with mem := { m with mram := Mem.wrN m.mram a bs } }).noteWrote a 4

/-- The class reaches the space at the address: SERVICE reads LPDDR5X, ScanStore, SRAM and the event log. -/
def Dev.spaceReach (d : Dev) (a : Nat) (write : Bool) : Bool :=
  d.dmClass == 2 || (d.dmClass == 1 && !write &&
    (decide (d.dbg.memSpace < 3) || (d.dbg.memSpace == 4 && decide (0x100000 ≤ a))))

/-- One access of MEM_DATA: STATUS, the word read, and the block; MEM_ADDR advances by 4. -/
def Dev.memAccess (d : Dev) (write : Bool) (v : Nat) : Nat × Nat × Dev :=
  let a := d.dmAddr
  match d.spaceSize with
  | none => (dmError, 0, d)
  | some n =>
    if n < a + 4 then (dmError, 0, d)
    else if !d.spaceReach a write || (write && d.dbg.memSpace == 4 && decide (0x100000 < a + 4)) then (dmDenied, 0, d)
    else
      let x := if write then (0, d.spaceWrite a v) else d.spaceRead a
      (dmDone, x.1, x.2.modDbg fun b => { b with memAddr := (b.memAddr + 4) % two32 })

/-! ## Token points (R478) -/

/-- A point that exists. -/
def pointOk (p : Nat) : Bool :=
  decide (p < 0x82) || (decide (0x90 ≤ p) && decide (p < 0x94)) || p == 0x98 || p == 0x99

/-- A write of TOK_CTL: FREEZE 0 ends the freeze; a freeze of another point counts from 0; RELEASE lets that many more
tokens cross. -/
def Dev.tokCtl (d : Dev) (v : Nat) : Nat × Dev :=
  let p := bitsOf v 7 0
  let n := bitsOf v 31 16
  if !pointOk p then (dmError, d)
  else if !v.testBit 8 then (dmDone, d.thaw.modDbg fun b => { b with point := p })
  else if d.dbg.frozen && d.dbg.point == p then (dmDone, d.modDbg fun b => { b with credits := b.credits + n })
  else (dmDone, d.modDbg fun b => { b with frozen := true, point := p, credits := n, released := 0, waits := false })

/-! ## Unlocking over the TAP (R479) -/

/-- CHALLENGE: a fresh nonce and DEVICE_ID, 40 bytes. -/
def Dev.tapChallenge (d : Dev) : Dev :=
  let x := d.freshNonce
  x.2.modDbg fun b => { b with
    outBytes := leBytes 32 x.1 ++ leBytes 8 d.oms.deviceId, inBytes := [], sts := 0 }

/-- CHECK evaluates the bytes written since: an answer of another length than the METHOD's fails. -/
def Dev.tapCheck (d : Dev) (passes : Bool) : Dev :=
  let m := d.dbg.how % 2
  let full := d.dbg.inBytes.length == if m = 1 then 16 else 7856
  let d := d.modDbg fun b => { b with inBytes := [] }
  if 2 ≤ d.oms.lifecycle ∧ 8 ≤ d.oms.authFails then
    (d.unlockCheck m (d.dbg.how / 2) false).2.modDbg fun b => { b with sts := 4 }
  else match d.unlockCheck m (d.dbg.how / 2) (passes && full) with
    | (some _, d) => d.modDbg fun b => { b with sts := 2 }
    | (none, d) => d.modDbg fun b => { b with sts := 3 }

/-- A write of UNLOCK_CTL: CHALLENGE; METHOD and KEY; CHECK, whose outcome comes with the CHECK event. -/
def Dev.unlockCtl (d : Dev) (v : Nat) : Dev :=
  let d := if v.testBit 0 then d.tapChallenge else d
  d.modDbg fun b => { b with how := bitsOf v 2 1, sts := if v.testBit 3 then 1 else b.sts }

/-! ## Debug Module registers (R475, Table 18-9) -/

/-- The class that a register needs; none for an address that holds no register. -/
def dmNeeds (a : Nat) (write : Bool) : Option Nat :=
  if a = 0 ∨ (0x40 ≤ a ∧ a ≤ 0x42) then some 0
  else if 4 ≤ a ∧ a ≤ 8 ∨ 0x10 ≤ a ∧ a ≤ 0x1F ∨ a = 0x30 ∨ a = 0x31 then some 2
  else if 0x20 ≤ a ∧ a ≤ 0x22 then some 1
  else if a = 0x23 then some (if write then 2 else 1)
  else none

/-- CORE_STS. -/
def Dev.coreSts (d : Dev) : Nat := d.dbg.halted.toNat + d.dbg.cause * 16 + d.dbg.index * 256

/-- A read: STATUS, data and the block. CORE_PC and GPR_DATA answer while the core is halted. -/
def Dev.dmRead (d : Dev) (a : Nat) : Nat × Nat × Dev :=
  let b := d.dbg
  if a = 0 then (dmDone, d.lcSts, d)
  else if a = 4 then (dmDone, 0, d)
  else if a = 5 then (dmDone, d.coreSts, d)
  else if a = 6 then (if b.halted then (dmDone, b.pc, d) else (dmError, 0, d))
  else if a = 7 then (dmDone, b.gprSel, d)
  else if a = 8 then (if b.halted then (dmDone, SMap.get 0 b.gpr b.gprSel, d) else (dmError, 0, d))
  else if a < 0x18 then (dmDone, SMap.get 0 b.bp (a - 0x10), d)
  else if a < 0x1C then (dmDone, SMap.get 0 b.wpAddr (a - 0x18), d)
  else if a < 0x20 then (dmDone, SMap.get 0 b.wpCtl (a - 0x1C), d)
  else if a = 0x20 then (dmDone, b.memSpace, d)
  else if a = 0x21 then (dmDone, b.memAddr, d)
  else if a = 0x22 then (dmDone, b.memAddrHi, d)
  else if a = 0x23 then d.memAccess false 0
  else if a = 0x30 then (dmDone, b.point + b.frozen.toNat * 256, d)
  else if a = 0x31 then (dmDone, b.released + b.waits.toNat * 65536, d)
  else if a = 0x41 then
    (dmDone, leNat (b.outBytes.take 4), d.modDbg fun b => { b with outBytes := b.outBytes.drop 4 })
  else if a = 0x42 then (dmDone, b.sts, d)
  else (dmDone, b.how * 2, d)

/-- A write: STATUS and the block. A write of a register that only reads answers error (DESIGN CHOICE). -/
def Dev.dmWrite (d : Dev) (a v : Nat) : Nat × Dev :=
  let set := fun (f : DbgB → DbgB) => (dmDone, d.modDbg f)
  if a = 4 then (dmDone, d.coreCtl v)
  else if a = 6 then (if d.dbg.halted then set fun b => { b with pc := v } else (dmError, d))
  else if a = 7 then set fun b => { b with gprSel := v % 32 }
  else if a = 8 then
    if !d.dbg.halted then (dmError, d)
    else if d.dbg.gprSel = 0 then (dmDone, d)
    else set fun b => { b with gpr := SMap.put 0 b.gpr b.gprSel v }
  else if 0x10 ≤ a ∧ a < 0x18 then set fun b => { b with bp := SMap.put 0 b.bp (a - 0x10) v }
  else if 0x18 ≤ a ∧ a < 0x1C then set fun b => { b with wpAddr := SMap.put 0 b.wpAddr (a - 0x18) v }
  else if 0x1C ≤ a ∧ a < 0x20 then
    set fun b => { b with wpCtl := SMap.put 0 b.wpCtl (a - 0x1C) (v &&& (msk 11 8 + msk 1 0)) }
  else if a = 0x20 then set fun b => { b with memSpace := v }
  else if a = 0x21 then set fun b => { b with memAddr := v }
  else if a = 0x22 then set fun b => { b with memAddrHi := v }
  else if a = 0x23 then
    let x := d.memAccess true v
    (x.1, x.2.2)
  else if a = 0x30 then d.tokCtl v
  else if a = 0x40 then (dmDone, d.unlockCtl v)
  else if a = 0x41 then set fun b => { b with inBytes := b.inBytes ++ leBytes 4 v }
  else (dmError, d)

/-- One access of a Debug Module register: `op` 1 reads, 2 writes, anything else does nothing; the answer is captured
next time. A register that the class does not reach answers denied and changes nothing. -/
def Dev.dmDo (d : Dev) (a v op : Nat) : Dev :=
  let d := d.modDbg fun b => { b with last := some d.now }
  if op ≠ 1 ∧ op ≠ 2 then d.modDbg fun b => { b with status := dmDone }
  else match dmNeeds a (op == 2) with
    | none => d.modDbg fun b => { b with status := dmError, data := 0 }
    | some k =>
      if d.dmClass < k then d.modDbg fun b => { b with status := dmDenied, data := 0 }
      else if op = 1 then
        let x := d.dmRead a
        x.2.2.modDbg fun b => { b with status := x.1, data := x.2.1 }
      else
        let x := d.dmWrite a v
        x.2.modDbg fun b => { b with status := x.1, data := 0 }

/-! ## The TAP (R474, R475) -/

/-- The instruction register, and what the data register shifts out. -/
def Dev.tap (d : Dev) (ir bits v : Nat) : Dev := (d.modDbg fun b => { b with ir := ir }).emit (.tdo bits v)

/-- EXTEST: the boundary register stands between TDI and TDO; what it drives on the balls is the tool's, and what it
captures is outside the model (R474). -/
def execExtest (s : State) : Outcome State Fault Refusal := lift (fun d => d.modDbg fun b => { b with ir := 0 }) s

/-- IDCODE (R474). -/
def execIdcode (s : State) : Outcome State Fault Refusal := lift (fun d => d.tap 1 32 Config.idcode.toNat) s

/-- SAMPLE/PRELOAD: the boundary register stands between TDI and TDO. -/
def execSamplePreload (s : State) : Outcome State Fault Refusal := lift (fun d => d.modDbg fun b => { b with ir := 2 }) s

/-- BYPASS, and every unlisted code: one bit that captures 0. -/
def execBypass (s : State) : Outcome State Fault Refusal := lift (fun d => d.tap 0x1F 1 0) s

/-- DM_ACCESS: Capture-DR returns the answer of the access before, its register field free; Update-DR starts this
one. -/
def execDmAccess (addr : BitVec 8) (data : Word) (op : BitVec 4) (s : State) : Outcome State Fault Refusal :=
  lift (fun d =>
    let x := d.draw
    (x.2.tap 0x10 48 (x.1 % 256 * 2 ^ 40 + d.dbg.data * 256 + d.dbg.status)).dmDo addr.toNat data.toNat op.toNat) s

/-- HALT: CORE_CTL (R476). -/
def execHalt (s : State) : Outcome State Fault Refusal := lift (fun d => d.dmDo 4 1 2) s

/-- RESUME. -/
def execResume (s : State) : Outcome State Fault Refusal := lift (fun d => d.dmDo 4 2 2) s

/-- STEP. -/
def execStep (s : State) : Outcome State Fault Refusal := lift (fun d => d.dmDo 4 4 2) s

/-- BREAKPOINT_HIT: the core halts before the instruction at the address (R476). -/
def execBreakpointHit (i : Fin 8) (s : State) : Outcome State Fault Refusal :=
  lift (fun d =>
    let v := SMap.get 0 d.dbg.bp i.val
    if d.dbg.halted || !v.testBit 0 then d
    else (d.coreHalt 3 i.val).modDbg fun b => { b with pc := v - v % 2 }) s

/-- WATCHPOINT_HIT: the core halts after the access. -/
def execWatchpointHit (i : Fin 4) (s : State) : Outcome State Fault Refusal :=
  lift (fun d =>
    if d.dbg.halted || SMap.get 0 d.dbg.wpCtl i.val % 4 = 0 then d else d.coreHalt 4 i.val) s

/-- MEM_DATA: one access (R477). -/
def execMemData (write : Bool) (v : Word) (s : State) : Outcome State Fault Refusal :=
  lift (fun d => d.dmDo 0x23 v.toNat (if write then 2 else 1)) s

/-- FREEZE: a write of TOK_CTL (R478). -/
def execFreeze (v : Word) (s : State) : Outcome State Fault Refusal := lift (fun d => d.dmDo 0x30 v.toNat 2) s

/-- RELEASE: that many more tokens cross the frozen point; without a freeze nothing happens. -/
def execRelease (n : Nat) (s : State) : Outcome State Fault Refusal :=
  lift (fun d =>
    if d.dbg.frozen then d.dmDo 0x30 (d.dbg.point + 256 + n % 65536 * 65536) 2 else d) s

/-- CHALLENGE over the TAP (R479). -/
def execChallenge (s : State) : Outcome State Fault Refusal :=
  lift (fun d => d.dmDo 0x40 (1 + d.dbg.how * 2) 2) s

/-- CHECK over the TAP: `passes` is what the cryptographic check finds. -/
def execCheck (passes : Bool) (s : State) : Outcome State Fault Refusal :=
  lift (fun d => (d.dmDo 0x40 (8 + d.dbg.how * 2) 2).tapCheck passes) s

end Sys2Proof.Machine
end

