-- ==== Sys2Proof/Machine/Fetch.lean ====
section
/-! DEFINITION. COMMAND_FETCH: which submission queue the next entry comes from (R70, R71, R98), and the checks of the
entry (R74, R75, R95). -/

namespace Sys2Proof.Machine

open Host

/-! ## Whose turn it is -/

/-- A command context is free (R98). -/
def Dev.ctxFree (d : Dev) : Bool := decide (d.hif.cmds.length < 2 ^ d.fld 0x4C 12 8)

/-- A queue pair has an entry that may be fetched: it is live, its slot shows an entry, its completion queue has room
(R70), and a context is free or it is QP0 (R98). -/
def Dev.mayFetch (d : Dev) (q : Nat) : Bool :=
  let p := d.qp q
  p.live && !p.faulted && !p.deleting && p.head != p.tail && decide (d.cqUsed q + 1 < p.depth) && (q == 0 || d.ctxFree)

/-- The queue that the round-robin serves next: the visited one for up to WEIGHT entries, then the next QID round
(R71). -/
def Dev.rrNext (d : Dev) : Option Nat :=
  let qs := (d.hif.queues.map (·.1)).filter fun q => q != 0 && d.mayFetch q
  if qs.contains d.hif.rrQueue && decide (d.hif.rrTaken < (d.qp d.hif.rrQueue).weight) then some d.hif.rrQueue
  else match qs.find? (fun q => decide (d.hif.rrQueue < q)) with
    | some q => some q
    | none => qs.head?

/-- The queue that is served next: QP0 first (R71). -/
def Dev.fetchTurn (d : Dev) : Option Nat := if d.mayFetch 0 then some 0 else d.rrNext

/-- Note a fetch from a queue in the round-robin. -/
def Dev.noteTurn (d : Dev) (q : Nat) : Dev :=
  if q = 0 then d
  else
    let h := d.hif
    let same := h.rrQueue == q && decide (h.rrTaken < (d.qp q).weight)
    { d with hif := { h with rrQueue := q, rrTaken := if same then h.rrTaken + 1 else 1 } }

/-! ## The entry -/

/-- The command of an entry as it is fetched, conservative service noted for its volume (R325). -/
def Dev.fetched (d : Dev) (q : Nat) (entry : List Word) : Cmd :=
  let c : Cmd := {
    qid := q, cid := bitsOf (entry.getD 0 0).toNat 31 16, num := d.hif.fetchNum, dw := entry, begun := false
    since := d.now }
  { c with conserv := c.cls == 7 && d.volConserv (volN c) }

/-- A duplicate CID offends at the lowest bit of CID (R75, R518). -/
def dupSpec (sp : CmdSpec) : CmdSpec := { sp with offs := fun d c => { dw := 0, bit := 16 } :: sp.offs d c }

/-- What the checks of a fetched entry give: status and RESULT of its completion, or none where its context is made.
The checks of an entry that ORDERED or FENCE holds back are made when it begins (log entry 4); a marked entry and a
duplicate are answered at once (R75, R95). -/
def Dev.entryVerdict (d : Dev) (c : Cmd) : Option (Nat × Nat) :=
  if d.hif.marks.contains c.ref then some (stAborted, cutResult c)
  else match specOf c.cls c.opc with
    | none => some (stInvalidOpcode, 0)
    | some sp =>
      if (d.cmd? c.ref).isSome then (dupSpec sp).verdict d c
      else if d.mayBegin c then sp.verdict d c
      else none

/-- An MP_FRAME is fetched: where MP was stopped, its next frame has no history (R168). -/
def Dev.mpStarts (d : Dev) : Dev :=
  if d.srcStopped 4 then d.setRfe 4 { d.rfe? 4 with histBroken := true } else d

/-- The entry at the head of a queue is taken: its index passes, and it is completed or has a context. -/
def Dev.takeEntry (d : Dev) (q : Nat) (entry : List Word) : Dev :=
  let c := d.fetched q entry
  let v := d.entryVerdict c
  let p := d.qp q
  let d := (d.noteTurn q).setQp q { p with head := (p.head + 1) % p.depth }
  let d := { d with hif := { d.hif with fetchNum := d.hif.fetchNum + 1, marks := d.hif.marks.filter (· != c.ref) } }
  match v with
  | some (st, res) => d.postCompletion q c.cid st res
  | none =>
    let d := if c.cls = 1 ∧ c.opc = 0x20 then d.mpStarts else d
    { d with hif := { d.hif with cmds := d.hif.cmds ++ [c] } }

/-- COMMAND_FETCH (R70, R71, R74, R75). -/
def execCommandFetch (qid : Nat) (entry : List Word) (s : State) : Outcome State Fault Refusal :=
  lift (fun d => if d.fetchTurn = some qid then d.takeEntry qid entry else d) s

end Sys2Proof.Machine
end

