-- ==== Sys2Proof/Machine/Flags.lean ====
section
/-! DEFINITION. What the read-only status registers of BAR0 show, page by page (every chapter's register tables). -/

namespace Sys2Proof.Machine

open Host

def bit (b : Bool) (k : Nat) : Nat := b.toNat * 2 ^ k

/-! ## HIF (Tables 2-5 to 2-17 and 3-5 to 3-13) -/

/-- BOOT_STS (Table 2-7). -/
def Dev.bootSts (d : Dev) : Nat :=
  let b := d.boot
  b.stage.code + b.fwSts * 16 + bit b.slotB 8 + b.straps.fmt.toNat * 512 + bit b.straps.pat 12 + bit b.straps.sel 13
    + bit b.refLocked 14 + b.cause * 65536

/-- MODE (Table 2-9): CONSERVATIVE reads 1 in Kickstand as well, as its reset value says. -/
def Dev.modeReg (d : Dev) : Nat := d.boot.mode.code + bit d.conservative 4

/-- NEG_STS (Table 2-15). -/
def Dev.negSts (d : Dev) : Nat := d.hif.neg + d.hif.reason * 4 + d.hif.badBit * 256

/-- HIF_STS (Table 3-7). -/
def Dev.hifSts (d : Dev) : Nat := d.hif.ready.toNat + bit d.hif.recovery 1 + d.hif.cfgErr * 16

def Dev.stsHif (d : Dev) (o : Nat) : Option Nat :=
  match o with
  | 0x04 => some d.bootSts
  | 0x08 => some d.modeReg
  | 0x10 => some d.offered
  | 0x30 => some 0
  | 0x34 => some d.negSts
  | 0x40 => some (d.reg 0x40 + d.hif.ready.toNat)
  | 0x44 => some d.hifSts
  | _ => none

/-! ## HUB (Table 16-7) -/

/-- HUB_MEM_STS. -/
def Dev.memSts (d : Dev) : Nat :=
  d.hub.installed + d.hub.chFail * 256 + bit d.hub.inlineEcc 16 + bit d.hub.trained 31

def Dev.stsHub (d : Dev) (o : Nat) : Option Nat :=
  match o with
  | 0x10 => some d.memSts
  | 0x18 => some (d.memNet % two32)
  | 0x1C => some (d.memNet / two32)
  | 0x50 => some (d.hub.lastAddr % two32)
  | 0x54 => some (d.hub.lastAddr / two32)
  | _ => none

/-! ## SNI and RFE (Tables 4-10, 5-6 and 5-8) -/

/-- SP_STS. -/
def Dev.spSts (d : Dev) (p : Nat) : Nat :=
  let v := d.port p
  v.laneLock + v.cfgErr * 2 ^ 20 + v.state.code * 2 ^ 24 + bit v.frame.isSome 26

/-- Spoke `k` has tokens of a frame to do. -/
def spokeBusy (f : PipeFrame) (k : Nat) : Bool :=
  (fspokes f).contains k && decide (SMap.get 0 f.tok k < tokenCount f (fstripe f ((fspokes f).idxOf k)))

/-- State of spoke `k`. -/
def Dev.spokeSts (d : Dev) (k : Nat) : Nat :=
  match (rangeFrom 0 5).find? fun s => (d.spokesOf s).contains k with
  | none => 0
  | some s => if d.engDown k k then 3 else if d.rfe.frames.any fun f => f.src == s && spokeBusy f k then 2 else 1

def Dev.stsRfe (d : Dev) (o : Nat) : Option Nat :=
  if o = 0x10 then some ((rangeFrom 0 16).foldl (fun v k => v + d.spokeSts k * 4 ^ k) 0)
  else if 0x120 ≤ o ∧ o < 0x260 ∧ (o - 0x120) % 0x40 = 0 then
    let s := d.rfe? ((o - 0x120) / 0x40)
    some (s.histValid.toNat + s.lastLevel * 16 + s.hwm % 65536 * 65536)
  else none

/-! ## CBE, SPK and STU (Tables 6-15, 7-5 and 8-12) -/

/-- CBE slice `c`. -/
def Dev.sliceSts (d : Dev) (c : Nat) : Nat :=
  if d.engDown (0x11 + c) (17 + c) then 2
  else (d.rfe.frames.any fun f => !f.cbeDone && (d.srcIslands f.src).contains (17 + c)).toNat

/-- A shared 3D LUT. -/
def Dev.lutSts (d : Dev) (u : Nat) : Nat :=
  if !(d.lut u).loaded then 0 else if (d.lut u).behind.isEmpty then 1 else 2

/-- CBE_STS. -/
def Dev.cbeSts (d : Dev) : Nat :=
  let valid := fun (m : SMap (List Byte)) k => !(SMap.get [] m k).isEmpty
  d.sliceSts 0 + d.sliceSts 1 * 4 + d.lutSts 0 * 16 + d.lutSts 1 * 64 + 0x1F * 256
    + (rangeFrom 8 8).foldl (fun v b => v + bit (valid d.cbe.banks b) (8 + b)) 0
    + (rangeFrom 8 4).foldl (fun v k => v + bit (valid d.cbe.cfa k) (16 + k)) 0

/-- SPK_STS. -/
def Dev.spkSts (d : Dev) (n : Nat) : Nat :=
  let s := d.spkOf n
  (if d.spkDown n then 3 else if s.state = .stopped then 0 else if s.shedNow then 2 else 1)
    + s.cfgErr * 16 + s.bufs.length * 256

def Dev.stsSpk (d : Dev) (o : Nat) : Option Nat :=
  if o = 0x200 then some d.cbeSts
  else if 0x1040 ≤ o ∧ o < 0x1840 ∧ (o - 0x1040) % 0x100 = 0 then some (d.spkSts ((o - 0x1040) / 0x100))
  else none

/-- A scope or SDI statistics unit. -/
def Dev.unitSts (d : Dev) (u : Nat) : Nat :=
  let v := d.stuUnit u
  if d.engDown 0x20 27 then 3 else if v.stopping then 2 else v.running.toNat

def Dev.stsStu (d : Dev) (o : Nat) : Option Nat :=
  if o = 0x800 then some ((rangeFrom 0 4).foldl (fun v u => v + d.unitSts u * 4 ^ u) 0) else none

/-! ## PXE and ENE, LSE (Tables 9-8, 9-9 and 11-5) -/

/-- A slice: down, idle, or coding. Which PXE slices serve a job is the device's own: while one runs, a free value. -/
def Dev.codecSlice (d : Dev) (k : Nat) : Nat :=
  if d.engDown (0x28 + k) (28 + k) then 2
  else if 4 ≤ k then (d.codec.enc.any fun e => e.2.any fun s => s.cur.any (·.ene == some (k - 4))).toNat
  else if d.codec.enc.any fun e => e.2.any (·.cur.isSome) then Config.freeNat (d.free + k) % 2
  else 0

/-- CODEC_STS. -/
def Dev.codecSts (d : Dev) : Nat := (rangeFrom 0 6).foldl (fun v k => v + d.codecSlice k * 4 ^ k) 0 + d.codecOpen * 65536

/-- CODEC_LOAD. -/
def Dev.codecLoad (d : Dev) : Nat := ceilDiv d.lumaSum.1 (d.lumaSum.2 * 1000000) + ceilDiv d.peakSum 1000 * 65536

/-- LSE_STS. -/
def Dev.lseSts (d : Dev) : Nat :=
  (rangeFrom 0 12).foldl (fun v k =>
    v + (if d.engDown (0x30 + k / 3) (34 + k / 3) then 3
      else if SMap.get .idle d.lse.lanes k = .idle then 0 else 2) * 4 ^ k) 0
    + (d.lse.raw.filter (·.2.isSome)).length * 2 ^ 24

/-- LSE_LOAD. -/
def Dev.lseLoad (d : Dev) : Nat := let l := sumFrac (d.otherLoads 4); ceilDiv (l.1 * 1000) l.2

/-! ## REC (Tables 12-9 and 12-11) -/

/-- REC_SLOT_STS. -/
def Dev.slotSts (d : Dev) (s : Nat) : Nat :=
  let v := SMap.get {} d.recd.slots s
  let vol := d.volOf s
  v.state.code + vol.getD 0 * 16 + bit vol.isSome 7
    + bit (decide (v.width ≠ 0) && d.recd.markers.any (·.drive == v.drive)) 8 + v.width * 512 + v.speed * 2048
    + v.cause * 65536

/-- REC_VOL_STS. -/
def Dev.volSts (d : Dev) (n : Nat) : Nat :=
  let v := SMap.get {} d.recd.vols n
  if v.state = 0 then 0
  else v.state + bit (d.volConserv n) 2 + bit v.recovery 3 + v.members.length * 16

def Dev.stsRec (d : Dev) (o : Nat) : Option Nat :=
  if 0x100 ≤ o ∧ o < 0x120 then some (d.slotSts ((o - 0x100) / 4))
  else if 0x200 ≤ o ∧ o < 0x210 then some (d.volSts ((o - 0x200) / 4))
  else none

/-! ## SCO (Tables 13-7 and 13-8) -/

/-- SCO_STS; a stopped raster holds no slots. -/
def Dev.scoSts (d : Dev) (k : Nat) : Nat :=
  let r := d.raster k
  r.run.toNat + bit r.locked 3 + r.front * 16 + r.cfgErr * 256 + (if r.run then slotGranules (d.rcfg k) * 65536 else 0)

/-- DP_STS. -/
def Dev.dpSts (d : Dev) (j : Nat) : Nat :=
  let t := d.dpTx j
  t.hpd.toNat + bit t.trained 1 + t.rate * 16 + t.lanes * 256

/-- SDI_IN_STS. -/
def Dev.sdiSts (d : Dev) (i : Nat) : Nat :=
  let v := d.sdiIn i
  v.locked.toNat + bit v.run 1 + v.format.std * 16 + v.format.fmt * 256 + v.format.sampling * 65536
    + v.format.bits * 2 ^ 20

def Dev.stsSco (d : Dev) (o : Nat) : Option Nat :=
  if o = 0x400 then some (d.urPolicy.toNat + d.granulesUsed * 65536)
  else if o < 0x400 ∧ o % 0x100 = 0x40 then some (d.scoSts (o / 0x100))
  else if o = 0x804 ∨ o = 0x824 then some (d.dpSts ((o - 0x804) / 0x20))
  else if o = 0xC04 ∨ o = 0xC44 then some (d.sdiSts ((o - 0xC04) / 0x40))
  else none

/-! ## NTU and TEU (Tables 14-6 and 4-20) -/

/-- ETH_STS. -/
def Dev.ethSts (d : Dev) (p : Nat) : Nat :=
  let v := d.eth p
  if v.link then 1 + v.speed * 2 + v.fec * 16 else 0

/-- NTU_STS. -/
def Dev.ntuSts (d : Dev) : Nat := (d.dom 0).role + (d.dom 1).role * 16 + bit d.ntu.slewing 8 + d.ntu.sel * 65536

/-- PEL_STS. -/
def Dev.pelSts (d : Dev) : Nat :=
  let p := d.ntu.pel
  match p.member with
  | none => 0
  | some m => 1 + bit m.leader 1 + bit p.cur.isSome 2 + bit p.lost 3 + m.id * 65536

def Dev.stsNtu (d : Dev) (o : Nat) : Option Nat :=
  match o with
  | 0x20 => some (d.ethSts 0)
  | 0x60 => some (d.ethSts 1)
  | 0x300 => some d.ntuSts
  | 0x304 => some d.pelSts
  | _ => none

/-! ## TW (Table 15-3) -/

/-- TW_STS. -/
def Dev.twSts (d : Dev) (c : Nat) : Nat :=
  let v := d.ctl c
  let st := match v.state with
    | .disabled => 0
    | .stuck => 5
    | .enabled =>
      if v.cur.isSome && v.hold == .running then 2
      else if v.busBusy || v.sclHeld then 3
      else if v.cur.isSome then 2 else 1
  st + bit ((d.lock (64 + c)).owner != .free) 4 + v.lastEntry * 256 + bit v.scl 16 + bit v.sda 17

/-! ## PWR (Tables 17-9 to 17-11) -/

/-- State of an island; an awake one is Active while something runs on it. -/
def Dev.islandState (d : Dev) (i : Nat) : Nat :=
  if d.pwr.disabled.contains i then 4
  else if (engOfIsland i).any fun c => d.eng.resets.any (·.code == c) then 5
  else if d.awake i then (if d.islandWork i then 0 else 1)
  else (d.isl i).st

/-- PWR_ISLAND_STS. -/
def Dev.islandSts (d : Dev) (i : Nat) : Nat :=
  let v := d.isl i
  if geared i then
    d.islandState i + v.gear * 16 + bit (v.pin != 0) 8 + bit (decide (d.ceiling i < v.pin)) 9 + d.thermCeil i * 4096
      + v.k * 65536
  else d.islandState i + 8 * 4096

/-- DEGRADE: the highest step in force on any source. -/
def Dev.degradeSts (d : Dev) : Nat :=
  d.pwr.steps.foldl (fun m e => e.2.foldl (fun m s => max m (match s with | .shed _ => 1 | .level => 2 | .skip => 3)) m) 0

/-- PWR_STS. -/
def Dev.pwrSts (d : Dev) : Nat :=
  (rangeFrom 0 40).foldl (fun m i => min m (d.thermCeil i)) 8 + bit d.pwr.cap 4 + bit d.pwr.warn 5 + d.degradeSts * 256
    + bit d.anyLocked 12

def Dev.stsPwr (d : Dev) (o : Nat) : Option Nat :=
  if o = 0x04 then some d.pwrSts
  else if o = 0x08 then some (fromSigned 16 d.pwr.diode + fromSigned 16 d.pwr.est * 65536)
  else if o = 0x10 then some (if d.boot.osc then 0 else fromSigned 24 d.pwr.pull)
  else if 0x100 ≤ o ∧ o < 0x1E0 then some (d.islandSts ((o - 0x100) / 4))
  else if 0x400 ≤ o ∧ o < 0x460 then some (d.reg (0xD0000 + o) + SMap.get 0 d.pwr.hk ((o - 0x400) / 4))
  else none

/-! ## OMS (Table 18-10) -/

/-- OMS_STS. -/
def Dev.omsSts (d : Dev) : Nat :=
  d.oms.active.toNat + d.oms.trial * 16 + d.oms.counter * 256
    + (rangeFrom 0 5).foldl (fun v e => v + bit (d.codeStale e) (16 + e)) 0

def Dev.stsOms (d : Dev) (o : Nat) : Option Nat :=
  match o with
  | 0x00 => some d.omsSts
  | 0x04 => some d.oms.bootCount
  | 0x08 => some (d.oms.deviceId % two32)
  | 0x0C => some (d.oms.deviceId / two32)
  | 0x10 => some d.oms.logSeq
  | _ => none

/-- What a status register shows; none for a register that holds what is written. -/
def Dev.status (d : Dev) (off : Nat) : Option Nat :=
  let o := off % 65536
  match off / 65536 with
  | 0 => d.stsHif o
  | 1 => d.stsHub o
  | 2 => if o < 0x400 ∧ o % 0x100 = 0x80 then some (d.spSts (o / 0x100)) else none
  | 3 => d.stsRfe o
  | 4 => d.stsSpk o
  | 5 => d.stsStu o
  | 6 => if o = 4 then some d.codecSts else if o = 8 then some d.codecLoad else none
  | 7 => if o = 4 then some d.lseSts else if o = 8 then some d.lseLoad else none
  | 8 => d.stsRec o
  | 9 => d.stsSco o
  | 10 => d.stsNtu o
  | 11 => if o = 0x40 then some (d.teu.enabled + d.teu.levels * 65536) else none
  | 12 => if o % 0x1000 = 4 ∧ o < 0x8000 then some (d.twSts (o / 0x1000)) else none
  | 13 => d.stsPwr o
  | 14 => d.stsOms o
  | 15 => if o = 0 then some d.lcSts else none
  | _ => none

/-- A 32-bit read of BAR0 without a counter's clear (R34, R35): a status register, a register, or 0. -/
def Dev.readReg (d : Dev) (off : Nat) : Nat :=
  match d.status off with
  | some v => v % two32
  | none => if (regAt off).isSome then d.reg off else 0

end Sys2Proof.Machine
end

