-- ==== Sys2Proof/Machine/Window.lean ====
section
/-! DEFINITION. The host's accesses to BAR0 (R6 to R10, R34 to R36), overruns of receive boundary FIFOs (R21), and the
end of a log period (R467). -/

namespace Sys2Proof.Machine

open Host

/-- A host access shows that the host link is up, unless PERST_N is low (R504). -/
def Dev.hostSeen (d : Dev) : Dev := if d.boot.perst then d else { d with boot := { d.boot with hostLink := true } }

/-- A 32-bit write to BAR0; registers with a behaviour of their own have it here as in their own rows. -/
def Dev.barWrite (d : Dev) (off v : Nat) : Dev :=
  if off % 4 ≠ 0 then d.setupFlag 1 off
  else if off = 0x30 then (if v.testBit 0 then d.commitWrite else d)
  else if off = 0x40 then d.hifCtlWrite v
  else if 0x20800 ≤ off ∧ off < 0x20820 then d.mclkWrite ((off - 0x20800) / 8) off v
  else if off = 0x80000 then d.recCfgWrite v
  else d.writeReg off v

/-- REGISTER_WRITE (R6, R7, R35, R36). -/
def execRegisterWrite (off : Nat) (v : Word) (s : State) : Outcome State Fault Refusal :=
  lift (fun d => d.hostSeen.barWrite off v.toNat) s

/-- A 32-bit read of BAR0: a counter, or PWR_TMAX, returns its value and clears in the same access (R8, R9, Table
17-10). -/
def Dev.barRead (d : Dev) (off : Nat) : Dev :=
  if off % 4 ≠ 0 then { d.setupFlag 1 off with hostRead := 0 }
  else if isCtr off then
    { d with hostRead := SMap.get 0 d.ctrs off, ctrs := SMap.put 0 d.ctrs off 0 }
  else if off = 0xD000C then
    { d with hostRead := fromSigned 16 (d.pwr.tmax.getD 0), pwr := { d.pwr with tmax := none } }
  else { d with hostRead := d.readReg off }

/-- READ_WITH_CLEAR (R9). -/
def execReadWithClear (off : Nat) (s : State) : Outcome State Fault Refusal := lift (fun d => d.hostSeen.barRead off) s

/-- An overrun at an SDI input counts and ends the frame for every taker (R363). -/
def Dev.sdiOverrun (d : Dev) (i : Nat) (part : Option SdiFrame) : Dev :=
  if (d.sdiIn i).run && (d.sdiIn i).locked then (d.sdiBreak i true part).count (0x90C10 + 0x40 * i) 1 else d

/-- A receive boundary FIFO overruns: SNI closes the frame (R125), SCO counts (R363), and the Ethernet port counts
the loss (R21). -/
def Dev.rxOverrun (d : Dev) (u : OverrunUnit) : Dev :=
  match u with
  | .sensor p => if (d.port (d.gangOf p.val).1).frame.isSome then d.loseInput (d.gangOf p.val).1 else d
  | .sdiIn i part => d.sdiOverrun i.val part
  | .eth p => if d.ethLink p.val then d.count (0xA0038 + 0x40 * p.val) 1 else d

/-- BOUNDARY_FIFO_OVERRUN (R21). -/
def execBoundaryFifoOverrun (u : OverrunUnit) (s : State) : Outcome State Fault Refusal := lift (fun d => d.rxOverrun u) s

/-- A log period ends: the next one's first entry counts what was suppressed (R467). -/
def Dev.logPeriod (d : Dev) : Dev :=
  let n := d.oms.suppressed
  let d := { d with oms := { d.oms with period := 0, suppressed := 0 } }
  if n = 0 then d else d.log 1 0x060 (satW 32 n) 0 14 0

/-- LOG_PERIOD (R467). -/
def execLogPeriod (s : State) : Outcome State Fault Refusal := lift Dev.logPeriod s

end Sys2Proof.Machine
end

