-- ==== Sys2Proof/Machine/Dispatch.lean ====
section
/-! DEFINITION. The arms of `exec`: one meaning for each row of the table of operations and events. -/

namespace Sys2Proof.Machine

open Sys2Proof

def exec (i : Instr) (s : State) : Host.Outcome State Fault Refusal :=
  match i with
  | .coldReset straps => Sys2Proof.Machine.execColdReset straps s
  | .pwrGoodFall => Sys2Proof.Machine.execPwrGoodFall s
  | .warmReset lowNs => Sys2Proof.Machine.execWarmReset lowNs s
  | .resetNRise straps => Sys2Proof.Machine.execResetNRise straps s
  | .referenceDetection ref => Sys2Proof.Machine.execReferenceDetection ref s
  | .romBoot => Sys2Proof.Machine.execRomBoot s
  | .freewheelEntry bt => Sys2Proof.Machine.execFreewheelEntry bt s
  | .functionReset kind => Sys2Proof.Machine.execFunctionReset kind s
  | .perstNDeassert => Sys2Proof.Machine.execPerstNDeassert s
  | .omsOnlyReset => Sys2Proof.Machine.execOmsOnlyReset s
  | .watchdogExpiry => Sys2Proof.Machine.execWatchdogExpiry s
  | .trialTimerExpiry => Sys2Proof.Machine.execTrialTimerExpiry s
  | .commandFetch qid entry => Sys2Proof.Machine.execCommandFetch qid entry s
  | .kick qid slot => Sys2Proof.Machine.execKick qid slot s
  | .doorbellPoll qid slot => Sys2Proof.Machine.execDoorbellPoll qid slot s
  | .watchClear qid slot => Sys2Proof.Machine.execWatchClear qid slot s
  | .coalesceTimeout ring n => Sys2Proof.Machine.execCoalesceTimeout ring n s
  | .dmaErrorResponse acc ans addr => Sys2Proof.Machine.execDmaErrorResponse acc ans addr s
  | .dmaCompletionTimeout acc addr => Sys2Proof.Machine.execDmaCompletionTimeout acc addr s
  | .registerWrite off v => Sys2Proof.Machine.execRegisterWrite off v s
  | .bar0BadAccess off size => Sys2Proof.Machine.execBar0BadAccess off size s
  | .readWithClear off => Sys2Proof.Machine.execReadWithClear off s
  | .commit => Sys2Proof.Machine.execCommit s
  | .hifCtlEnable v => Sys2Proof.Machine.execHifCtlEnable v s
  | .mclkEnable k v => Sys2Proof.Machine.execMclkEnable k v s
  | .mclkDisable k v => Sys2Proof.Machine.execMclkDisable k v s
  | .mclkFreqWrite k v => Sys2Proof.Machine.execMclkFreqWrite k v s
  | .portEnSet v => Sys2Proof.Machine.execPortEnSet v s
  | .portEnClear v => Sys2Proof.Machine.execPortEnClear v s
  | .createQp r => Sys2Proof.Machine.execCreateQp r s
  | .deleteQp r => Sys2Proof.Machine.execDeleteQp r s
  | .resetQp r slot unfetched => Sys2Proof.Machine.execResetQp r slot unfetched s
  | .createRing r => Sys2Proof.Machine.execCreateRing r s
  | .deleteRing r => Sys2Proof.Machine.execDeleteRing r s
  | .abort r unfetched => Sys2Proof.Machine.execAbort r unfetched s
  | .semAcquire r => Sys2Proof.Machine.execSemAcquire r s
  | .semRelease r => Sys2Proof.Machine.execSemRelease r s
  | .setLatency r => Sys2Proof.Machine.execSetLatency r s
  | .setMode r => Sys2Proof.Machine.execSetMode r s
  | .startPort r => Sys2Proof.Machine.execStartPort r s
  | .stopPort r => Sys2Proof.Machine.execStopPort r s
  | .submitProgram r list => Sys2Proof.Machine.execSubmitProgram r list s
  | .mpFrame r => Sys2Proof.Machine.execMpFrame r s
  | .laneLockAcquired p lane => Sys2Proof.Machine.execLaneLockAcquired p lane s
  | .laneLockLost p lane => Sys2Proof.Machine.execLaneLockLost p lane s
  | .boundaryFifoOverrun u => Sys2Proof.Machine.execBoundaryFifoOverrun u s
  | .frameStart p code copies => Sys2Proof.Machine.execFrameStart p code copies s
  | .gangSkewTimeout p => Sys2Proof.Machine.execGangSkewTimeout p s
  | .lineReceived p line => Sys2Proof.Machine.execLineReceived p line s
  | .frameEnd x => Sys2Proof.Machine.execFrameEnd x s
  | .frameTimeout p => Sys2Proof.Machine.execFrameTimeout p s
  | .exposureTrigger p => Sys2Proof.Machine.execExposureTrigger p s
  | .latchWindowOpen p target => Sys2Proof.Machine.execLatchWindowOpen p target s
  | .latestIssueStart p target => Sys2Proof.Machine.execLatestIssueStart p target s
  | .evInputEdge pin rising stableNs => Sys2Proof.Machine.execEvInputEdge pin rising stableNs s
  | .scheduledPulseStart r => Sys2Proof.Machine.execScheduledPulseStart r s
  | .scheduledPulseEnd r => Sys2Proof.Machine.execScheduledPulseEnd r s
  | .routeAt r => Sys2Proof.Machine.execRouteAt r s
  | .pinEnable r => Sys2Proof.Machine.execPinEnable r s
  | .pinDisable r => Sys2Proof.Machine.execPinDisable r s
  | .setRoute r => Sys2Proof.Machine.execSetRoute r s
  | .scheduleEdge r => Sys2Proof.Machine.execScheduleEdge r s
  | .spokeToken spoke => Sys2Proof.Machine.execSpokeToken spoke s
  | .cbeToken spoke => Sys2Proof.Machine.execCbeToken spoke s
  | .stuRowProcessed src => Sys2Proof.Machine.execStuRowProcessed src s
  | .rfeSetParams r blk => Sys2Proof.Machine.execRfeSetParams r blk s
  | .rfeLoadTable r tbl => Sys2Proof.Machine.execRfeLoadTable r tbl s
  | .cbeLoadCfa r blk => Sys2Proof.Machine.execCbeLoadCfa r blk s
  | .cbeLoadBank r blk => Sys2Proof.Machine.execCbeLoadBank r blk s
  | .cbeSetColour r blk => Sys2Proof.Machine.execCbeSetColour r blk s
  | .cbeLoadLut3d r blk => Sys2Proof.Machine.execCbeLoadLut3d r blk s
  | .cbeReadBank r => Sys2Proof.Machine.execCbeReadBank r s
  | .spkStart r => Sys2Proof.Machine.execSpkStart r s
  | .spkStop r => Sys2Proof.Machine.execSpkStop r s
  | .spkRestart r blk => Sys2Proof.Machine.execSpkRestart r blk s
  | .spkSetPath r blk => Sys2Proof.Machine.execSpkSetPath r blk s
  | .spkLoadLut r blk => Sys2Proof.Machine.execSpkLoadLut r blk s
  | .spkBuffer r => Sys2Proof.Machine.execSpkBuffer r s
  | .spkSubmitFrame r => Sys2Proof.Machine.execSpkSubmitFrame r s
  | .spkFrameStart n => Sys2Proof.Machine.execSpkFrameStart n s
  | .patternFrameTick n => Sys2Proof.Machine.execPatternFrameTick n s
  | .spkToken n accepted outrun => Sys2Proof.Machine.execSpkToken n accepted outrun s
  | .hubSetPort r => Sys2Proof.Machine.execHubSetPort r s
  | .stuUnitStart r => Sys2Proof.Machine.execStuUnitStart r s
  | .stuUnitStop r => Sys2Proof.Machine.execStuUnitStop r s
  | .stuBuffer r => Sys2Proof.Machine.execStuBuffer r s
  | .encOpen r blk => Sys2Proof.Machine.execEncOpen r blk s
  | .encClose r => Sys2Proof.Machine.execEncClose r s
  | .encPicture r headerBits => Sys2Proof.Machine.execEncPicture r headerBits s
  | .encSetRc r blk => Sys2Proof.Machine.execEncSetRc r blk s
  | .encoderFrameArrival handle index => Sys2Proof.Machine.execEncoderFrameArrival handle index s
  | .pxeRowStart handle => Sys2Proof.Machine.execPxeRowStart handle s
  | .eneRowCommit handle row => Sys2Proof.Machine.execEneRowCommit handle row s
  | .decOpen r blk => Sys2Proof.Machine.execDecOpen r blk s
  | .decClose r => Sys2Proof.Machine.execDecClose r s
  | .decDecode r au => Sys2Proof.Machine.execDecDecode r au s
  | .decOutput r => Sys2Proof.Machine.execDecOutput r s
  | .decPictureOutput handle => Sys2Proof.Machine.execDecPictureOutput handle s
  | .decFlush r => Sys2Proof.Machine.execDecFlush r s
  | .lseOpen r => Sys2Proof.Machine.execLseOpen r s
  | .lseClose r => Sys2Proof.Machine.execLseClose r s
  | .lseBlock r run => Sys2Proof.Machine.execLseBlock r run s
  | .lseRawOpen r => Sys2Proof.Machine.execLseRawOpen r s
  | .lseRawBuffer r => Sys2Proof.Machine.execLseRawBuffer r s
  | .lseRawDecode r record => Sys2Proof.Machine.execLseRawDecode r record s
  | .rawBandStart port lane => Sys2Proof.Machine.execRawBandStart port lane s
  | .rawBandDone lane bytes => Sys2Proof.Machine.execRawBandDone lane bytes s
  | .volCreate r list => Sys2Proof.Machine.execVolCreate r list s
  | .volDelete r => Sys2Proof.Machine.execVolDelete r s
  | .volClearRecovery r => Sys2Proof.Machine.execVolClearRecovery r s
  | .recRead x => Sys2Proof.Machine.execRecRead x s
  | .recWrite x => Sys2Proof.Machine.execRecWrite x s
  | .recDeallocate r => Sys2Proof.Machine.execRecDeallocate r s
  | .driveLog r out => Sys2Proof.Machine.execDriveLog r out s
  | .driveEject r => Sys2Proof.Machine.execDriveEject r s
  | .recEvent r => Sys2Proof.Machine.execRecEvent r s
  | .driveCommandCompletion r piece out => Sys2Proof.Machine.execDriveCommandCompletion r piece out s
  | .driveCommandTimeout r piece => Sys2Proof.Machine.execDriveCommandTimeout r piece s
  | .driveRemoval slot => Sys2Proof.Machine.execDriveRemoval slot s
  | .driveInsertion slot => Sys2Proof.Machine.execDriveInsertion slot s
  | .slotReady slot facts => Sys2Proof.Machine.execSlotReady slot facts s
  | .scoStart r => Sys2Proof.Machine.execScoStart r s
  | .scoStop r => Sys2Proof.Machine.execScoStop r s
  | .scoRestart r blk => Sys2Proof.Machine.execScoRestart r blk s
  | .sdiInStart r => Sys2Proof.Machine.execSdiInStart r s
  | .sdiInStop r => Sys2Proof.Machine.execSdiInStop r s
  | .dpAux r reply => Sys2Proof.Machine.execDpAux r reply s
  | .rasterReaderBind k => Sys2Proof.Machine.execRasterReaderBind k s
  | .rasterLine k badPixel eccCorr => Sys2Proof.Machine.execRasterLine k badPixel eccCorr s
  | .frameOut k pins => Sys2Proof.Machine.execFrameOut k pins s
  | .lockSourceLost k => Sys2Proof.Machine.execLockSourceLost k s
  | .lockSourceRegained k errLines => Sys2Proof.Machine.execLockSourceRegained k errLines s
  | .hpdAssert j sink => Sys2Proof.Machine.execHpdAssert j sink s
  | .hpdDeassert j => Sys2Proof.Machine.execHpdDeassert j s
  | .hpdIrq j lockLost sink => Sys2Proof.Machine.execHpdIrq j lockLost sink s
  | .sdiInputLock k f => Sys2Proof.Machine.execSdiInputLock k f s
  | .sdiInputLost x => Sys2Proof.Machine.execSdiInputLost x s
  | .sdiInputFrame k f => Sys2Proof.Machine.execSdiInputFrame k f s
  | .ethUp r => Sys2Proof.Machine.execEthUp r s
  | .ethDown r => Sys2Proof.Machine.execEthDown r s
  | .ethLinkUp p speed => Sys2Proof.Machine.execEthLinkUp p speed s
  | .speedAlternate p => Sys2Proof.Machine.execSpeedAlternate p s
  | .ethLinkDown p => Sys2Proof.Machine.execEthLinkDown p s
  | .ntuDomStart r => Sys2Proof.Machine.execNtuDomStart r s
  | .ntuDomStop r => Sys2Proof.Machine.execNtuDomStop r s
  | .ntuDomRole r => Sys2Proof.Machine.execNtuDomRole r s
  | .ntuSetIncr r => Sys2Proof.Machine.execNtuSetIncr r s
  | .ntuAdjPhase r => Sys2Proof.Machine.execNtuAdjPhase r s
  | .ntuSetTemplate r blk => Sys2Proof.Machine.execNtuSetTemplate r blk s
  | .ntuSelect r => Sys2Proof.Machine.execNtuSelect r s
  | .ntuReadTime r => Sys2Proof.Machine.execNtuReadTime r s
  | .slewEnd => Sys2Proof.Machine.execSlewEnd s
  | .syncReceived p m => Sys2Proof.Machine.execSyncReceived p m s
  | .followUpReceived p m => Sys2Proof.Machine.execFollowUpReceived p m s
  | .delayRespReceived p m => Sys2Proof.Machine.execDelayRespReceived p m s
  | .delayReqReceived p m => Sys2Proof.Machine.execDelayReqReceived p m s
  | .ptpMsg p m body => Sys2Proof.Machine.execPtpMsg p m body s
  | .announceSend d => Sys2Proof.Machine.execAnnounceSend d s
  | .syncSend d => Sys2Proof.Machine.execSyncSend d s
  | .delayReqSend d => Sys2Proof.Machine.execDelayReqSend d s
  | .metadataSend d => Sys2Proof.Machine.execMetadataSend d s
  | .frameForward p f => Sys2Proof.Machine.execFrameForward p f s
  | .tcSyncTrackExpiry p srcId seq => Sys2Proof.Machine.execTcSyncTrackExpiry p srcId seq s
  | .arpRequest p ip => Sys2Proof.Machine.execArpRequest p ip s
  | .igmpQuery p => Sys2Proof.Machine.execIgmpQuery p s
  | .pelJoin r => Sys2Proof.Machine.execPelJoin r s
  | .pelLeave r => Sys2Proof.Machine.execPelLeave r s
  | .pelSchedule r body => Sys2Proof.Machine.execPelSchedule r body s
  | .scheduleReceived p m => Sys2Proof.Machine.execScheduleReceived p m s
  | .statusReceived p m => Sys2Proof.Machine.execStatusReceived p m s
  | .scheduleSend => Sys2Proof.Machine.execScheduleSend s
  | .statusSend => Sys2Proof.Machine.execStatusSend s
  | .leaderLost => Sys2Proof.Machine.execLeaderLost s
  | .twEnable r sdaHighAfter => Sys2Proof.Machine.execTwEnable r sdaHighAfter s
  | .twDisable r => Sys2Proof.Machine.execTwDisable r s
  | .twXfer r data => Sys2Proof.Machine.execTwXfer r data s
  | .twTransactionStart c => Sys2Proof.Machine.execTwTransactionStart c s
  | .twTransactionEnd c e => Sys2Proof.Machine.execTwTransactionEnd c e s
  | .arbitrationLoss c byte bit => Sys2Proof.Machine.execArbitrationLoss c byte bit s
  | .busNack c byte acked => Sys2Proof.Machine.execBusNack c byte acked s
  | .wakeDelayExpiry c => Sys2Proof.Machine.execWakeDelayExpiry c s
  | .stretchTimeout c acked => Sys2Proof.Machine.execStretchTimeout c acked s
  | .stretchViolation c acked => Sys2Proof.Machine.execStretchViolation c acked s
  | .busFreeTimeout c => Sys2Proof.Machine.execBusFreeTimeout c s
  | .transferRequest port dest addr len write => Sys2Proof.Machine.execTransferRequest port dest addr len write s
  | .arbiterDecision dest => Sys2Proof.Machine.execArbiterDecision dest s
  | .dataPhaseEnd dest eccCorr linkCorr uncorr => Sys2Proof.Machine.execDataPhaseEnd dest eccCorr linkCorr uncorr s
  | .starveTimerExpiry port => Sys2Proof.Machine.execStarveTimerExpiry port s
  | .hkRound diode speedK rails => Sys2Proof.Machine.execHkRound diode speedK rails s
  | .extraDiodeConversion diode => Sys2Proof.Machine.execExtraDiodeConversion diode s
  | .derailleurDecision speedK tline => Sys2Proof.Machine.execDerailleurDecision speedK tline s
  | .islandLowPowerEntry k off => Sys2Proof.Machine.execIslandLowPowerEntry k off s
  | .islandWake k => Sys2Proof.Machine.execIslandWake k s
  | .pwrIslandDisable r => Sys2Proof.Machine.execPwrIslandDisable r s
  | .pwrIslandEnable r => Sys2Proof.Machine.execPwrIslandEnable r s
  | .pwrPinGear r => Sys2Proof.Machine.execPwrPinGear r s
  | .pwrSetCfg r => Sys2Proof.Machine.execPwrSetCfg r s
  | .engineReset r dropped => Sys2Proof.Machine.execEngineReset r dropped s
  | .engineResetDone code sdaHighAfter => Sys2Proof.Machine.execEngineResetDone code sdaHighAfter s
  | .mgmtUpdateStage r c writeOk => Sys2Proof.Machine.execMgmtUpdateStage r c writeOk s
  | .mgmtUpdateActivate r => Sys2Proof.Machine.execMgmtUpdateActivate r s
  | .mgmtUpdateConfirm r fuseOk => Sys2Proof.Machine.execMgmtUpdateConfirm r fuseOk s
  | .mgmtEngineLoad r digestOk => Sys2Proof.Machine.execMgmtEngineLoad r digestOk s
  | .mgmtLogRead r => Sys2Proof.Machine.execMgmtLogRead r s
  | .mgmtAttest r => Sys2Proof.Machine.execMgmtAttest r s
  | .mgmtUnlockChallenge r => Sys2Proof.Machine.execMgmtUnlockChallenge r s
  | .mgmtUnlockAnswer r passes => Sys2Proof.Machine.execMgmtUnlockAnswer r passes s
  | .mgmtLifecycleAdvance r blk fuseOk => Sys2Proof.Machine.execMgmtLifecycleAdvance r blk fuseOk s
  | .logPeriod => Sys2Proof.Machine.execLogPeriod s
  | .extest => Sys2Proof.Machine.execExtest s
  | .idcode => Sys2Proof.Machine.execIdcode s
  | .samplePreload => Sys2Proof.Machine.execSamplePreload s
  | .bypass => Sys2Proof.Machine.execBypass s
  | .dmAccess addr data op => Sys2Proof.Machine.execDmAccess addr data op s
  | .halt => Sys2Proof.Machine.execHalt s
  | .resume => Sys2Proof.Machine.execResume s
  | .step => Sys2Proof.Machine.execStep s
  | .breakpointHit k => Sys2Proof.Machine.execBreakpointHit k s
  | .watchpointHit k => Sys2Proof.Machine.execWatchpointHit k s
  | .memData write v => Sys2Proof.Machine.execMemData write v s
  | .freeze v => Sys2Proof.Machine.execFreeze v s
  | .release n => Sys2Proof.Machine.execRelease n s
  | .challenge => Sys2Proof.Machine.execChallenge s
  | .check passes => Sys2Proof.Machine.execCheck passes s
  | .startOrStopSeen c start => Sys2Proof.Machine.execStartOrStopSeen c start s
  | .sclReleased c => Sys2Proof.Machine.execSclReleased c s
  | .shutdownComplete slot ms ok => Sys2Proof.Machine.execShutdownComplete slot ms ok s
  | .exposureTriggerEnd p => Sys2Proof.Machine.execExposureTriggerEnd p s
  | .msixUnmask acc => Sys2Proof.Machine.execMsixUnmask acc s
  | .rxFcsErr p => Sys2Proof.Machine.execRxFcsErr p s

end Sys2Proof.Machine
end

