-- ==== Sys2Proof/Machine/Step.lean ====
section
/-! DEFINITION. One step: the command at the front of the queue, or one tick of the 250 MHz timebase when none waits
(log entries 1 and 10). -/

namespace Sys2Proof.Machine

open Sys2Proof

/-- The command at the front runs on the block with the queue's rest. On an empty queue 4 ns pass (R372, R376), and a
change of mode whose work has ended completes (R60). -/
def step (s : State) : Host.Outcome State Fault Refusal :=
  match s.pending with
  | [] => .next { s with dev := if s.dev.on then s.dev.tick.settleMode else s.dev }
  | i :: rest => exec i { s with pending := rest }

/-- Put the command that a word spells at the front of the queue: the table spells none by bits. -/
def State.withFetchWord (s : State) (nbits w : Nat) : State :=
  match decodeTableWord nbits w with
  | some i => { s with pending := i :: s.pending }
  | none => s

end Sys2Proof.Machine
end

