-- ==== Sys2Proof/Safety.lean ====
section
/-! DEFINITION. What counts as a sound state of the block: memories, registers, counters and host-interface maps in their one
canonical form. And the terms that the statements use. -/

namespace Sys2Proof.Machine

/-- The memories hold their canonical form. -/
def MemB.wf (m : MemB) : Bool := Mem.wf m.lpddr && Mem.wf m.scan && Mem.wf m.sram && Mem.wf m.osram && Mem.wf m.mram

/-- Registers, counters, queue pairs, rings, locks and vectors are listed in their canonical form. -/
def Dev.mapsWf (d : Dev) : Bool :=
  SMap.wf 0 d.regs && SMap.wf 0 d.ctrs && SMap.wf {} d.hif.queues && SMap.wf {} d.hif.rings && SMap.wf {} d.hif.locks
    && SMap.wf {} d.hif.msix

/-- A sound state. -/
def State.sound (s : State) : Bool := MemB.wf s.dev.mem && s.dev.mapsWf

/-- The command that `r` names may run now and passes the checks of `sp`: the part operates, no change of mode and no
operation on a queue waits, the command is fetched and may begin, and its queue takes completions. -/
def Dev.clear (d : Dev) (sp : CmdSpec) (r : CmdRef) (c : Cmd) : Bool :=
  d.on && d.hif.modeChange.isNone && d.hif.queueOps.isEmpty && d.ready? sp r == some c && (sp.verdict d c).isNone
    && c.fail.isNone && (d.qp r.qid).live && !(d.qp r.qid).cqLost

/-- The part operates and no change of mode waits: an event takes place. -/
def Dev.idleMode (d : Dev) : Bool := d.on && d.hif.modeChange.isNone

/-- `t` holds the completion of `r` in the slot and phase that its queue had next, and no longer its context (R76,
R94). -/
def Answered (d t : Dev) (r : CmdRef) (status result : Nat) : Prop :=
  Out.completion r.qid (d.qp r.qid).cqTail result (d.qp r.qid).head r.cid (d.qp r.qid).phase status ∈ t.out
    ∧ t.cmd? r = none

/-- `t` has the command begun and not completed: its context stays, and nothing left for the host. -/
def Begun (d t : Dev) (r : CmdRef) (c : Cmd) : Prop := t.cmd? r = some { c with begun := true } ∧ t.out = d.out

/-- Class 0x0D serves the command now: the core is not halted, no earlier command holds this one back, and firmware runs,
or ROM holds Kickstand and serves it (R465, R470, R480). -/
def Dev.served (d : Dev) (c : Cmd) : Bool :=
  !d.dbg.halted && !d.mgmtHeld c && (d.boot.firmware || d.held && romServes c)

/-- No engine has work in passage: stopping one of them ends no command. -/
def Dev.noWork (d : Dev) : Bool :=
  d.rfe.frames.isEmpty
    && (rangeFrom 0 5).all (fun s => (d.rfe? s).blocks.isEmpty && (d.rfe? s).loads.isEmpty && (SMap.get [] d.cbe.blocks s).isEmpty)
    && (rangeFrom 0 2).all (fun u => (d.lut u).pend.isNone)
    && (rangeFrom 0 8).all (fun n => (d.spkOf n).cur.isNone && (d.spkOf n).paths.isEmpty && (d.spkOf n).loads.isEmpty
      && (d.spkOf n).restarts.isEmpty && (d.spkOf n).applied.isEmpty)
    && (rangeFrom 0 4).all (fun u => (d.stuUnit u).stopRef.isNone && (d.stuUnit u).cur.isNone)
    && d.stu.bufs.all (·.2.isEmpty) && d.codec.enc.all (fun e => e.2.all fun x => x.cur.isNone && x.closing.isNone)
    && d.codec.dec.isEmpty && d.lse.sessions.all (fun e => e.2.all fun x => x.closing.isNone) && d.lse.raw.isEmpty
    && d.lse.lanes.isEmpty && d.recd.cmds.isEmpty && d.recd.waiting.isEmpty && d.recd.doomed.isEmpty
    && d.recd.vols.all (·.2.deleting.isNone)

/-- While the part operates, no change of mode stays open once the work that it ended is over (R60). -/
def Dev.modeInv (d : Dev) : Prop := d.on = true → ∀ m, d.hif.modeChange = some m → d.modeSettled m = false

/-- The parts of the block's state, for frames. -/
inductive Part where
  /-- power, reset, mode and stage -/
  | boot
  /-- negotiation, link, features, locks, latency tolerances and a waiting change of mode -/
  | link
  /-- queue pairs, fetched commands, abort marks and operations on queues -/
  | fetch
  | rings
  | msix
  | sni
  | teu
  | rfe
  | cbe
  | spk
  | stu
  | codec
  | lse
  | recd
  | ntu
  | tw
  | sco
  | hub
  | pwr
  | eng
  /-- the event log and its period -/
  | log
  /-- the rest of OMS -/
  | oms
  | dbg
  /-- every byte of every memory -/
  | mem
  | regs
  | ctrs
  /-- what has left the block -/
  | out
deriving DecidableEq, Repr

/-- OMS without the event log. -/
def omsRest (o : OmsB) : OmsB := { o with log := [], logSeq := 0, period := 0, suppressed := 0 }

/-- A part is the same in two states of the block. -/
def Part.same (d t : Dev) : Part → Prop
  | .boot => t.boot = d.boot
  | .link => t.hif.neg = d.hif.neg ∧ t.hif.reason = d.hif.reason ∧ t.hif.badBit = d.hif.badBit ∧
      t.hif.sampled = d.hif.sampled ∧ t.hif.features = d.hif.features ∧ t.hif.ready = d.hif.ready ∧
      t.hif.recovery = d.hif.recovery ∧ t.hif.cfgErr = d.hif.cfgErr ∧ t.hif.locks = d.hif.locks ∧
      t.hif.tol = d.hif.tol ∧ t.hif.modeChange = d.hif.modeChange
  | .fetch => t.hif.queues = d.hif.queues ∧ t.hif.cmds = d.hif.cmds ∧ t.hif.queueOps = d.hif.queueOps ∧
      t.hif.fetchNum = d.hif.fetchNum ∧ t.hif.rrQueue = d.hif.rrQueue ∧ t.hif.rrTaken = d.hif.rrTaken ∧
      t.hif.marks = d.hif.marks
  | .rings => t.hif.rings = d.hif.rings
  | .msix => t.hif.msix = d.hif.msix
  | .sni => t.sni = d.sni
  | .teu => t.teu = d.teu
  | .rfe => t.rfe = d.rfe
  | .cbe => t.cbe = d.cbe
  | .spk => t.spk = d.spk
  | .stu => t.stu = d.stu
  | .codec => t.codec = d.codec
  | .lse => t.lse = d.lse
  | .recd => t.recd = d.recd
  | .ntu => t.ntu = d.ntu
  | .tw => t.tw = d.tw
  | .sco => t.sco = d.sco
  | .hub => t.hub = d.hub
  | .pwr => t.pwr = d.pwr
  | .eng => t.eng = d.eng
  | .log => t.oms.log = d.oms.log ∧ t.oms.logSeq = d.oms.logSeq ∧ t.oms.period = d.oms.period ∧
      t.oms.suppressed = d.oms.suppressed
  | .oms => omsRest t.oms = omsRest d.oms
  | .dbg => t.dbg = d.dbg
  | .mem => t.mem = d.mem
  | .regs => t.regs = d.regs
  | .ctrs => t.ctrs = d.ctrs
  | .out => t.out = d.out

/-- Every part but those of the list is the same: the frame of a command. -/
def Keeps (but : List Part) (d t : Dev) : Prop := ∀ p, p ∉ but → Part.same d t p

/-- What a completion may touch (R76, R83, R94). -/
def byDone : List Part := [.fetch, .msix, .out]

/-- What a posted record may touch: its ring, its vector, the log entry and the counter of a dropped entry (R83, R88,
R89, R467). -/
def byPost : List Part := [.rings, .msix, .out, .log, .ctrs]

/-- What stopping a quiet engine may touch. -/
def byStop : List Part := [.rfe, .cbe, .spk, .stu, .codec, .lse, .recd, .hub, .tw, .dbg]

/-- A step goes on: the machine neither faults nor refuses. -/
def Goes (s : State) : Prop := ∃ t, step s = .next t

end Sys2Proof.Machine
end

