-- ==== Sys2Proof/Certificates/Slice0/Obligations.lean ====
section
/-! DEFINITION. The statements for the provers. `s` is any state, `r` names a fetched command, `c` is its entry, `t` the
next state. `s.dev.clear spec r c`: the command may run now and passes the checks of its class. `Answered`: its one
completion is posted. `Keeps parts`: every other part of the block is as before. -/

open Sys2Proof Sys2Proof.Machine

/-- A step runs the command at the front of the queue (the model's queue: log entry 1). -/
def Obligations.StepRunsFront : Prop :=
  ∀ (s : State) (i : Instr) (rest : List Instr),
    step { s with pending := i :: rest } = exec i { s with pending := rest }

/-- Commands leave the queue first in, first out, and none of them stops the machine (log entry 1). -/
def Obligations.QueueDrains : Prop :=
  ∀ (xs ys : List Instr) (d : Dev),
    ∃ t : State, Sys2Proof.core.run xs.length ({ dev := d, pending := xs ++ ys } : State) = .next t ∧ t.pending = ys

/-- While the part is off, in reset or shut down, only power and RESET_N change it (log entry 2). -/
def Obligations.OffIgnores : Prop :=
  ∀ s : State, s.dev.on = false →
    (∀ i : Instr, (∀ st, i ≠ .coldReset st) → (∀ st, i ≠ .resetNRise st) → i ≠ .pwrGoodFall → exec i s = .next s)
      ∧ (s.pending = [] → step s = .next s)

/-- A SET_MODE that waits completes with the step that ends the last of the work it waits for, whichever step that is
(R60): the invariant is kept by every step from every state. -/
def Obligations.ModeChangeEnds : Prop :=
  ∀ s t : State, s.dev.modeInv → step s = .next t → t.dev.modeInv

/-- The state after reset; the register values that the spec does not give are the model's (log entry 7), and so is what
memory reads as before anything is written (log entry 6). -/
def Obligations.ResetIsSound : Prop :=
  State.reset.pending = [] ∧ State.reset.dev.on = true ∧ State.reset.dev.boot.mode = .kickstand
    ∧ State.reset.dev.boot.stage = .booting ∧ State.reset.dev.boot.cause = 0 ∧ State.reset.dev.hif.ready = false
    ∧ (∀ q, (State.reset.dev.qp q).live = false) ∧ (∀ off, State.reset.dev.reg off = regReset off)
    ∧ State.reset.dev.reg 0 = 0x16800100 ∧ State.reset.dev.reg 0x20004 = 0x086F0EFF
    ∧ State.reset.dev.ctrs = [] ∧ (∀ a, Mem.rd State.reset.dev.mem.lpddr a = 0)
    ∧ State.reset.sound = true ∧ State.reset.dev.modeInv

/-- An idle step is a tick of the timebase (log entries 1 and 10): the domain counters advance, started or not (R372), and
so does the LTS while it follows no domain (R376). -/
def Obligations.TickAdvances : Prop :=
  ∀ s : State, s.pending = [] → s.dev.on = true →
    ∃ t, step s = .next t ∧ t.pending = []
      ∧ (∀ k, k < 2 → (t.dev.dom k).counter = ((s.dev.dom k).counter + (s.dev.dom k).incr) % timeMod)
      ∧ (s.dev.ltsFollows = none → t.dev.ntu.lts = (s.dev.ntu.lts + s.dev.ntu.incr) % timeMod)
      ∧ t.dev.regs = s.dev.regs ∧ t.dev.mem = s.dev.mem

/-- What power, RESET_N and PERST_N leave (R37, R40, R501 to R504, Table 2-1). -/
def Obligations.PowerAndReset : Prop :=
  (∀ (s : State) (st : Straps), ∃ t, exec (.coldReset st) s = .next t ∧ t.pending = s.pending
      ∧ t.dev.on = true ∧ t.dev.boot.mode = .kickstand ∧ t.dev.boot.stage = .booting ∧ t.dev.boot.cause = 0
      ∧ t.dev.boot.straps = st ∧ t.dev.boot.rom = true ∧ t.dev.boot.firmware = false
      ∧ t.dev.hif.cmds = [] ∧ t.dev.hif.ready = false ∧ (∀ q, (t.dev.qp q).live = false)
      ∧ (∀ off, off / 65536 ≠ 9 → t.dev.reg off = regReset off)
      ∧ t.dev.mem = { mram := s.dev.mem.mram } ∧ t.dev.oms.log = s.dev.oms.log ∧ t.dev.oms.logSeq = s.dev.oms.logSeq
      ∧ t.dev.oms.counter = s.dev.oms.counter ∧ t.dev.oms.lifecycle = s.dev.oms.lifecycle
      ∧ t.dev.oms.slotA = s.dev.oms.slotA ∧ t.dev.oms.slotB = s.dev.oms.slotB)
  ∧ (∀ s : State, s.dev.boot.powered = true → ∃ t, exec .pwrGoodFall s = .next t ∧ t.pending = s.pending
      ∧ t.dev.on = false ∧ t.dev.boot.mode = .off ∧ t.dev.mem = { mram := s.dev.mem.mram }
      ∧ t.dev.oms.log = s.dev.oms.log ∧ t.dev.oms.slotA = s.dev.oms.slotA ∧ t.dev.oms.slotB = s.dev.oms.slotB)
  ∧ (∀ (s : State) (ns : Nat), s.dev.idleMode = true →
      (ns < 1000 → exec (.warmReset ns) s = .next s)
      ∧ (10000 ≤ ns → ∃ t, exec (.warmReset ns) s = .next t ∧ t.dev.on = false ∧ t.dev.boot.inReset = true
          ∧ t.dev.boot.cause = 1 ∧ t.dev.mem = { mram := s.dev.mem.mram } ∧ t.dev.oms.log = s.dev.oms.log))
  ∧ (∀ (s : State) (st : Straps), s.dev.boot.powered = true → s.dev.boot.inReset = true →
      ∃ t, exec (.resetNRise st) s = .next t ∧ t.dev.boot = { s.dev.boot with straps := st, inReset := false }
        ∧ t.dev.mem = s.dev.mem)
  ∧ (∀ s : State, s.dev.idleMode = true → s.dev.boot.perst = true →
      ∃ t, exec .perstNDeassert s = .next t ∧ t.dev.boot = { s.dev.boot with perst := false, hostLink := true }
        ∧ Keeps [.boot] s.dev t.dev)

/-- Reference detection (R43), ROM (R457) and the entry into Freewheel (R46, R409). -/
def Obligations.BootSequence : Prop :=
  (∀ (s : State) (ref : Option RefSignal), s.dev.idleMode = true → s.dev.boot.refDone = false →
      ∃ t, exec (.referenceDetection ref) s = .next t
        ∧ t.dev.boot = { s.dev.boot with refDone := true, refLocked := ref.any s.dev.refFits }
        ∧ (ref.any s.dev.refFits = true → ∀ k, k < 4 → (t.dev.raster k).locked = true)
        ∧ Keeps [.boot, .sco, .regs] s.dev t.dev)
  ∧ (∀ s : State, s.dev.idleMode = true → s.dev.boot.rom = true → s.dev.boot.straps.sel = true →
      s.dev.boot.stage = .booting → s.dev.hif.neg ≠ 1 →
      ∃ t, exec .romBoot s = .next t
        ∧ t.dev.boot = { s.dev.boot with rom := false, fwSts := 4, stage := .kickstandHold }
        ∧ t.dev.oms.bootCount = (s.dev.oms.bootCount + 1) % 4294967296
        ∧ Keeps (.boot :: .oms :: byPost) s.dev t.dev)
  ∧ (∀ (s : State) (c : Container), s.dev.idleMode = true → s.dev.boot.rom = true →
      s.dev.boot.straps.sel = false → s.dev.oms.trial = 0 → s.dev.oms.flash = true →
      s.dev.slot? s.dev.oms.active = .image c → s.dev.checkFirmware c = 0 →
      ∃ t, exec .romBoot s = .next t
        ∧ t.dev.boot = { s.dev.boot with rom := false, entering := true, slotB := s.dev.oms.active, fwSts := 0 }
        ∧ t.dev.oms.running = some c ∧ t.dev.oms.bootCount = (s.dev.oms.bootCount + 1) % 4294967296
        ∧ Keeps (.boot :: .oms :: byPost) s.dev t.dev)
  ∧ (∀ (s : State) (bt : BoardTable), s.dev.idleMode = true → s.dev.boot.entering = true →
      s.dev.boot.stage = .booting →
      ∃ t, exec (.freewheelEntry bt) s = .next t
        ∧ t.dev.boot.stage = .freewheel ∧ t.dev.boot.mode = .freewheel ∧ t.dev.boot.firmware = true
        ∧ t.dev.boot.entering = false ∧ t.dev.boot.fwSts = (if BoardTable.pilotOk bt then 0 else 5))

/-- What a function reset (R38, R492) and the resets of OMS alone (R39, R452, R461, R463) leave. -/
def Obligations.FunctionAndOmsResets : Prop :=
  (∀ (s : State) (k : FunctionResetKind), s.dev.on = true →
      ∃ t, exec (.functionReset k) s = .next t ∧ t.pending = s.pending
        ∧ t.dev.hif.cmds = [] ∧ t.dev.hif.ready = false ∧ t.dev.hif.features = 0 ∧ t.dev.hif.neg = 0
        ∧ (∀ q, (t.dev.qp q).live = false) ∧ (∀ n, (t.dev.ring n).live = false)
        ∧ t.dev.boot.cause = 2
        ∧ (t.dev.boot.stage ≠ .booting → t.dev.boot.firmware = true →
            t.dev.boot.stage = .freewheel ∧ t.dev.boot.mode = .freewheel)
        ∧ (t.dev.boot.stage ≠ .booting → t.dev.boot.firmware = false →
            t.dev.boot.stage = .kickstandHold ∧ t.dev.boot.mode = .kickstand)
        ∧ (k = .linkLoss ∨ k = .perstN → t.dev.boot.hostLink = false) ∧ (k = .perstN → t.dev.boot.perst = true))
  ∧ (∀ (s : State) (i : Instr) (latch : Nat), s.dev.on = true →
      (i = .omsOnlyReset ∧ latch = 0
        ∨ i = .watchdogExpiry ∧ latch = 2 ∧ s.dev.boot.firmware = true ∧ s.dev.dbg.halted = false
        ∨ i = .trialTimerExpiry ∧ latch = 1 ∧ s.dev.oms.timer.isSome = true) →
      ∃ t, exec i s = .next t ∧ t.dev.boot.rom = true ∧ t.dev.boot.firmware = false
        ∧ t.dev.boot.entering = false ∧ t.dev.boot.cause = 3 ∧ t.dev.oms.latch = latch ∧ t.dev.oms.unlock = 0
        ∧ t.dev.dbg.halted = false ∧ t.dev.dbg.cause = 0)

/-- COMMAND_FETCH (R70, R71, R75, R76). -/
def Obligations.FetchTakesAnEntry : Prop :=
  ∀ (s : State) (q : Nat) (e : List Word), s.dev.idleMode = true →
    (s.dev.fetchTurn ≠ some q → exec (.commandFetch q e) s = .next s)
    ∧ (s.dev.mayFetch 0 = true → s.dev.fetchTurn = some 0)
    ∧ (s.dev.fetchTurn = some q →
        (s.dev.qp q).live = true ∧ (s.dev.qp q).head ≠ (s.dev.qp q).tail
        ∧ (s.dev.fetchedOf q).length
            + ((s.dev.qp q).cqTail + (s.dev.qp q).depth - (s.dev.qp q).cqHead) % (s.dev.qp q).depth + 1
            < (s.dev.qp q).depth
        ∧ ∃ t, exec (.commandFetch q e) s = .next t ∧ t.pending = s.pending
          ∧ Keeps (.rfe :: byDone) s.dev t.dev
          ∧ (¬ ((s.dev.fetched q e).cls = 1 ∧ (s.dev.fetched q e).opc = 0x20) → t.dev.rfe = s.dev.rfe)
          ∧ (t.dev.qp q).head = ((s.dev.qp q).head + 1) % (s.dev.qp q).depth
          ∧ (s.dev.entryVerdict (s.dev.fetched q e) = none →
              t.dev.hif.cmds = s.dev.hif.cmds ++ [s.dev.fetched q e] ∧ t.dev.out = s.dev.out)
          ∧ (∀ st res, s.dev.entryVerdict (s.dev.fetched q e) = some (st, res) →
              t.dev.hif.cmds = s.dev.hif.cmds
              ∧ Out.completion q (s.dev.qp q).cqTail res (((s.dev.qp q).head + 1) % (s.dev.qp q).depth)
                  (s.dev.fetched q e).cid (s.dev.qp q).phase st ∈ t.dev.out)
          ∧ ((s.dev.cmd? (s.dev.fetched q e).ref).isSome = true →
              (s.dev.entryVerdict (s.dev.fetched q e)).isSome = true))

/-- The completion entry (R13, R76, R83, R84, R89). -/
def Obligations.CompletionEntry : Prop :=
  ∀ (d : Dev) (q cid st res : Nat),
    ((d.qp q).live = false ∨ (d.qp q).cqLost = true → d.postCompletion q cid st res = d)
    ∧ ((d.qp q).live = true → (d.qp q).faulted = false →
        Keeps byDone d (d.postCompletion q cid st res)
        ∧ Out.completion q (d.qp q).cqTail res (d.qp q).head cid (d.qp q).phase st ∈ (d.postCompletion q cid st res).out
        ∧ ((d.qp q).cqTail + 1 < (d.qp q).depth →
            ((d.postCompletion q cid st res).qp q).cqTail = (d.qp q).cqTail + 1
            ∧ ((d.postCompletion q cid st res).qp q).phase = (d.qp q).phase)
        ∧ ((d.qp q).depth ≤ (d.qp q).cqTail + 1 →
            ((d.postCompletion q cid st res).qp q).cqTail = 0
            ∧ ((d.postCompletion q cid st res).qp q).phase = !(d.qp q).phase)
        ∧ ((d.qp q).aggCount ≤ (d.qp q).unsig + 1 ∨ 0x3000 ≤ st →
            ((d.postCompletion q cid st res).qp q).unsig = 0
            ∧ ((SMap.get {} d.hif.msix (d.qp q).vector).masked = false →
                Out.msix (d.qp q).vector (SMap.get {} d.hif.msix (d.qp q).vector).addr
                  (SMap.get {} d.hif.msix (d.qp q).vector).data ∈ (d.postCompletion q cid st res).out)
            ∧ ((SMap.get {} d.hif.msix (d.qp q).vector).masked = true →
                (SMap.get {} (d.postCompletion q cid st res).hif.msix (d.qp q).vector).pending = true))
        ∧ ((d.qp q).unsig + 1 < (d.qp q).aggCount → st < 0x3000 →
            ((d.postCompletion q cid st res).qp q).unsig = (d.qp q).unsig + 1
            ∧ (d.postCompletion q cid st res).hif.msix = d.hif.msix))

/-- R84. -/
def Obligations.ClassThreeSignalsAtOnce : Prop :=
  ∀ (d : Dev) (q cid st res : Nat), (d.qp q).live = true → (d.qp q).faulted = false → 0x3000 ≤ st → st < 0x5000 →
    ((SMap.get {} d.hif.msix (d.qp q).vector).masked = false →
      Out.msix (d.qp q).vector (SMap.get {} d.hif.msix (d.qp q).vector).addr
        (SMap.get {} d.hif.msix (d.qp q).vector).data ∈ (d.postCompletion q cid st res).out)
    ∧ ((SMap.get {} d.hif.msix (d.qp q).vector).masked = true →
      (SMap.get {} (d.postCompletion q cid st res).hif.msix (d.qp q).vector).pending = true)
    ∧ ((d.postCompletion q cid st res).qp q).unsig = 0

/-- R67. -/
def Obligations.EnableMakesQpZeroLive : Prop :=
  ∀ (s : State) (v : Word), s.dev.idleMode = true → s.dev.hif.ready = false → v.toNat.testBit 0 = true →
    s.dev.enableErr = 0 →
    ∃ t, exec (.hifCtlEnable v) s = .next t ∧ t.dev.hif.ready = true
      ∧ (t.dev.qp 0).live = true ∧ (t.dev.qp 0).depth = s.dev.fld 0x48 11 0 + 1 ∧ (t.dev.qp 0).vector = 0
      ∧ (t.dev.qp 0).svc = 0 ∧ (t.dev.qp 0).aggCount = 0 ∧ (t.dev.qp 0).aggTime = 0
      ∧ t.dev.slotAddr 0 = t.dev.reg64 0x60 ∧ t.dev.hif.cfgErr = 0

/-- The checks of ENABLE (R65, R66, R68). -/
def Obligations.EnableChecks : Prop :=
  ∀ (s : State) (v : Word), s.dev.idleMode = true →
    (s.dev.hif.ready = false → v.toNat.testBit 0 = true → s.dev.enableErr ≠ 0 →
      ∃ t, exec (.hifCtlEnable v) s = .next t ∧ t.dev.hif = { s.dev.hif with cfgErr := s.dev.enableErr }
        ∧ Keeps [.link, .regs] s.dev t.dev)
    ∧ (s.dev.hif.ready = false → v.toNat.testBit 0 = true → s.dev.enableErr = 0 →
      ∃ t, exec (.hifCtlEnable v) s = .next t ∧ t.dev.hif.recovery = !s.dev.hub.trained
        ∧ Keeps [.link, .regs, .fetch] s.dev t.dev)
    ∧ (s.dev.hif.neg ≠ 2 → s.dev.enableErr = 1)
    ∧ (s.dev.enableErr = 6 ↔ s.dev.hif.neg = 2 ∧ s.dev.reg64 0x50 ≠ 0 ∧ s.dev.reg64 0x58 ≠ 0 ∧ s.dev.reg64 0x60 ≠ 0
        ∧ s.dev.ctxBad = false ∧ s.dev.fld 0x48 11 0 = 0)
    ∧ (s.dev.hif.ready = true → ∃ t, exec (.hifCtlEnable v) s = .next t ∧ Keeps [.regs] s.dev t.dev
        ∧ ∀ off, off ≠ 0x38 → t.dev.reg off = s.dev.reg off)

/-- COMMIT (R53 to R55). -/
def Obligations.Negotiation : Prop :=
  ∀ s : State, s.dev.idleMode = true →
    (s.dev.hif.neg ≠ 1 → s.dev.hif.neg ≠ 2 → s.dev.boot.stage ≠ .booting →
      (∀ k, k < 128 → s.dev.requested.testBit k = true →
        s.dev.offered.testBit k = true ∧ ∀ r, featRequires k = some r → s.dev.requested.testBit r = true) →
      ∃ t, exec .commit s = .next t ∧ t.dev.hif.neg = 2 ∧ t.dev.hif.features = s.dev.requested
        ∧ t.dev.hub = { s.dev.hub with inlineEcc := s.dev.requested.testBit 19 }
        ∧ Keeps [.link, .hub, .mem, .recd] s.dev t.dev)
    ∧ (∀ b, s.dev.hif.neg ≠ 1 → s.dev.hif.neg ≠ 2 → s.dev.boot.stage ≠ .booting → b < 128 →
      s.dev.requested.testBit b = true →
      (s.dev.offered.testBit b = false ∨ ∃ r, featRequires b = some r ∧ s.dev.requested.testBit r = false) →
      (∀ k, k < b → s.dev.requested.testBit k = true →
        s.dev.offered.testBit k = true ∧ ∀ r, featRequires k = some r → s.dev.requested.testBit r = true) →
      ∃ t, exec .commit s = .next t
        ∧ t.dev.hif = { s.dev.hif with neg := 3, badBit := b, reason := if s.dev.offered.testBit b then 1 else 0 }
        ∧ Keeps [.link] s.dev t.dev)
    ∧ (s.dev.hif.neg ≠ 1 → s.dev.hif.neg ≠ 2 → s.dev.boot.stage = .booting →
      ∃ t, exec .commit s = .next t ∧ t.dev.hif.neg = 1 ∧ t.dev.hif.sampled = s.dev.requested
        ∧ t.dev.hif.features = s.dev.hif.features ∧ Keeps [.link] s.dev t.dev)
    ∧ (s.dev.hif.neg = 1 → exec .commit s = .next s)
    ∧ (s.dev.hif.neg = 2 → ∃ t, exec .commit s = .next t ∧ t.dev.hif = s.dev.hif ∧ Keeps [.regs] s.dev t.dev
        ∧ t.dev.fld 0x38 0 0 = 1)

/-- Doorbells and watch words (R64, R79, R80, R82, R520). -/
def Obligations.Doorbells : Prop :=
  ∀ (s : State) (q : Nat) (sl : DbSlot), s.dev.idleMode = true →
    ((s.dev.qp q).live = false ∨ (s.dev.qp q).faulted = true → exec (.kick q sl) s = .next s)
    ∧ ((s.dev.qp q).watch = false → exec (.doorbellPoll q sl) s = .next s)
    ∧ (∀ i, (i = .kick q sl ∨ i = .doorbellPoll q sl ∧ (s.dev.qp q).watch = true) →
        (s.dev.qp q).live = true → (s.dev.qp q).faulted = false →
        (bitsOf sl.sqTail.toNat 15 0 < (s.dev.qp q).depth → bitsOf sl.cqHead.toNat 15 0 < (s.dev.qp q).depth →
          ∃ t, exec i s = .next t ∧ Keeps [.fetch, .out] s.dev t.dev
            ∧ t.dev.qp q = { s.dev.qp q with
                tail := bitsOf sl.sqTail.toNat 15 0, cqHead := bitsOf sl.cqHead.toNat 15 0
                watch := (s.dev.qp q).watch
                  || (s.dev.feat 16 && bitsOf sl.sqTail.toNat 15 0 != (s.dev.qp q).tail) })
        ∧ ((s.dev.qp q).depth ≤ bitsOf sl.sqTail.toNat 15 0 ∨ (s.dev.qp q).depth ≤ bitsOf sl.cqHead.toNat 15 0 →
          ∃ t, exec i s = .next t ∧ t.dev.qp q = { s.dev.qp q with faulted := true }
            ∧ Keeps (.fetch :: byPost) s.dev t.dev))
    ∧ ((s.dev.qp q).live = true → (s.dev.qp q).watch = true → (s.dev.qp q).faulted = false → s.dev.idleQp q = true →
        bitsOf sl.sqTail.toNat 15 0 < (s.dev.qp q).depth → bitsOf sl.cqHead.toNat 15 0 < (s.dev.qp q).depth →
        ∃ t, exec (.watchClear q sl) s = .next t ∧ Keeps [.fetch, .out] s.dev t.dev
          ∧ t.dev.qp q = { s.dev.qp q with
              tail := bitsOf sl.sqTail.toNat 15 0, cqHead := bitsOf sl.cqHead.toNat 15 0
              watch := bitsOf sl.sqTail.toNat 15 0 != (s.dev.qp q).tail
                || bitsOf sl.cqHead.toNat 15 0 != (s.dev.qp q).cqHead }
          ∧ Out.watch q false ∈ t.dev.out)

/-- COALESCE_TIMEOUT and MSIX_UNMASK (R63, R83). -/
def Obligations.InterruptTimers : Prop :=
  (∀ (s : State) (q : Nat), s.dev.idleMode = true → (s.dev.qp q).live = true → 0 < (s.dev.qp q).unsig →
      ((s.dev.qp q).aggTime = 0 → exec (.coalesceTimeout false q) s = .next s)
      ∧ (0 < (s.dev.qp q).aggTime → ∃ t, exec (.coalesceTimeout false q) s = .next t
          ∧ t.dev.qp q = { s.dev.qp q with unsig := 0 } ∧ t.dev.hif.rings = s.dev.hif.rings
          ∧ t.dev.hif.msix = (s.dev.signal (s.dev.qp q).vector).hif.msix
          ∧ t.dev.out = (s.dev.signal (s.dev.qp q).vector).out ∧ Keeps [.fetch, .msix, .out] s.dev t.dev))
  ∧ (∀ (s : State) (n : Nat), s.dev.idleMode = true → (s.dev.ring n).live = true → 0 < (s.dev.ring n).unsig →
      ((s.dev.ring n).aggTime = 0 → exec (.coalesceTimeout true n) s = .next s)
      ∧ (0 < (s.dev.ring n).aggTime → ∃ t, exec (.coalesceTimeout true n) s = .next t
          ∧ t.dev.ring n = { s.dev.ring n with unsig := 0 }
          ∧ t.dev.hif.msix = (s.dev.signal (s.dev.ring n).vector).hif.msix
          ∧ t.dev.out = (s.dev.signal (s.dev.ring n).vector).out ∧ Keeps [.rings, .msix, .out] s.dev t.dev))
  ∧ (∀ (s : State) (v : Fin 256) (w : Nat), s.dev.idleMode = true → w % 2 = 0 →
      ∃ t, exec (.msixUnmask ⟨0x1000 + 16 * v.val + 12, 4, some w⟩) s = .next t ∧ Keeps [.msix, .out] s.dev t.dev
        ∧ SMap.get {} t.dev.hif.msix v.val
            = { SMap.get {} s.dev.hif.msix v.val with masked := false, pending := false }
        ∧ (∀ x, x ≠ v.val → SMap.get {} t.dev.hif.msix x = SMap.get {} s.dev.hif.msix x)
        ∧ t.dev.out = s.dev.out ++ (if (SMap.get {} s.dev.hif.msix v.val).pending then
            [.msix v.val (SMap.get {} s.dev.hif.msix v.val).addr (SMap.get {} s.dev.hif.msix v.val).data] else []))
  ∧ (∀ (s : State) (v : Fin 256) (w : Nat), s.dev.idleMode = true → w % 2 = 1 →
      ∃ t, exec (.msixUnmask ⟨0x1000 + 16 * v.val + 12, 4, some w⟩) s = .next t ∧ Keeps [.msix] s.dev t.dev
        ∧ SMap.get {} t.dev.hif.msix v.val = { SMap.get {} s.dev.hif.msix v.val with masked := true }
        ∧ ∀ x, x ≠ v.val → SMap.get {} t.dev.hif.msix x = SMap.get {} s.dev.hif.msix x)
  ∧ (∀ (s : State) (off size w : Nat), s.dev.idleMode = true →
      (goodAccess off size = false ∨ off < 0x1000 ∨ 0x2000 ≤ off → exec (.msixUnmask ⟨off, size, some w⟩) s = .next s)
      ∧ (goodAccess off size = false →
          ∃ t, exec (.msixUnmask ⟨off, size, none⟩) s = .next t ∧ t.dev.hostRead = 0 ∧ Keeps [] s.dev t.dev))

/-- DMA_ERROR_RESPONSE and DMA_COMPLETION_TIMEOUT (R89, Table 3-24). -/
def Obligations.HostMemoryFaults : Prop :=
  ∀ (s : State) (i : Instr) (acc : DmaAccess) (ans : DmaAnswer) (addr : Nat), s.dev.idleMode = true →
    (i = .dmaErrorResponse acc ans addr ∨ i = .dmaCompletionTimeout acc addr) →
    (∀ q, acc = .sqFetch q ∨ acc = .cqWrite q ∨ acc = .dbSlot q → (s.dev.qp q).live = true →
      ∃ t, exec i s = .next t ∧ t.dev.qp q = { s.dev.qp q with
            faulted := true, cqLost := if acc = .cqWrite q then true else (s.dev.qp q).cqLost }
        ∧ (∀ p, p ≠ q → t.dev.qp p = s.dev.qp p) ∧ Keeps (.fetch :: byPost) s.dev t.dev)
    ∧ (∀ q, acc = .sqFetch q ∨ acc = .cqWrite q ∨ acc = .dbSlot q → (s.dev.qp q).live = false → exec i s = .next s)
    ∧ (∀ n, acc = .ringWrite n ∨ acc = .ringHead n → (s.dev.ring n).live = true →
      ∃ t, exec i s = .next t ∧ (t.dev.ring n).faulted = true ∧ (t.dev.ring n).gap = true
        ∧ Keeps byPost s.dev t.dev)
    ∧ (∀ r c, acc = .data r → s.dev.cmd? r = some c → c.begun = false → c.fail = none → searched c = none →
      ¬ (c.cls = 0x0C ∧ c.opc = 0x10) → s.dev.hif.queueOps = [] → (s.dev.qp r.qid).live = true →
      (s.dev.qp r.qid).cqLost = false → s.dev.ringOf 3 = none →
      ∃ t, exec i s = .next t ∧ t.dev.cmd? r = none
        ∧ Out.completion r.qid (s.dev.qp r.qid).cqTail addr (s.dev.qp r.qid).head r.cid (s.dev.qp r.qid).phase
            stHostDma ∈ t.dev.out)

/-- REGISTER_WRITE, READ_WITH_CLEAR and BAR0_BAD_ACCESS (R6 to R9, R34 to R36). -/
def Obligations.RegisterAccess : Prop :=
  (∀ (s : State) (off : Nat) (v : Word) (row : RegRow), s.dev.idleMode = true → off % 4 = 0 → off ≠ 0x30 → off ≠ 0x38 →
      off ≠ 0x40 → ¬ (0x20800 ≤ off ∧ off < 0x20820) → off ≠ 0x80000 → off / 65536 ≠ 15 → off / 65536 ≠ 12 →
      regAt off = some row →
      ∃ t, exec (.registerWrite off v) s = .next t
        ∧ t.dev.reg off = (((s.dev.hostSeen.reg off
              &&& (0xFFFFFFFF ^^^ (s.dev.hostSeen.swMask off v.toNat row.sw ||| row.rw)))
            ||| (v.toNat &&& (s.dev.hostSeen.swMask off v.toNat row.sw ||| row.rw)))
            &&& (0xFFFFFFFF ^^^ (v.toNat &&& row.w1c))) % 4294967296
        ∧ (∀ o, o ≠ off → o ≠ 0x38 → t.dev.reg o = s.dev.reg o) ∧ Keeps [.regs, .boot] s.dev t.dev)
  ∧ (∀ (s : State) (off : Nat), s.dev.idleMode = true → off % 4 = 0 → isCtr off = true →
      ∃ t, exec (.readWithClear off) s = .next t ∧ t.dev.hostRead = SMap.get 0 s.dev.ctrs off
        ∧ SMap.get 0 t.dev.ctrs off = 0 ∧ (∀ o, o ≠ off → SMap.get 0 t.dev.ctrs o = SMap.get 0 s.dev.ctrs o)
        ∧ Keeps [.ctrs, .boot] s.dev t.dev)
  ∧ (∀ (s : State) (off : Nat), s.dev.idleMode = true → off % 4 = 0 → isCtr off = false → off ≠ 0xD000C →
      ∃ t, exec (.readWithClear off) s = .next t ∧ t.dev.hostRead = s.dev.hostSeen.readReg off
        ∧ Keeps [.boot] s.dev t.dev)
  ∧ (∀ s : State, s.dev.idleMode = true → ∃ t, exec (.readWithClear 0xD000C) s = .next t
      ∧ t.dev.hostRead = fromSigned 16 (s.dev.pwr.tmax.getD 0) ∧ t.dev.pwr = { s.dev.pwr with tmax := none }
      ∧ Keeps [.boot, .pwr] s.dev t.dev)
  ∧ (∀ (s : State) (off size : Nat), s.dev.idleMode = true → goodAccess off size = false →
      ∃ t, exec (.bar0BadAccess off size) s = .next t ∧ t.dev.hostRead = 0 ∧ Keeps [.regs] s.dev t.dev
        ∧ (t.dev.reg 0x38).testBit 1 = true ∧ t.dev.fld 0x38 19 16 = off / 65536 % 16
        ∧ ∀ o, o ≠ 0x38 → t.dev.reg o = s.dev.reg o)
  ∧ (∀ (s : State) (off size : Nat), s.dev.idleMode = true → goodAccess off size = true →
      exec (.bar0BadAccess off size) s = .next s)

/-- MCLK_ENABLE, MCLK_DISABLE, MCLK_FREQ_WRITE, PORT_EN_SET and PORT_EN_CLEAR (R117, R118, R319, R336). -/
def Obligations.ClockAndPortWrites : Prop :=
  (∀ (s : State) (i : Instr) (k : Fin 4) (v : Word), s.dev.idleMode = true →
      (i = .mclkEnable k v ∧ v.toNat.testBit 0 = true ∨ i = .mclkDisable k v ∧ v.toNat.testBit 0 = false
        ∨ i = .mclkFreqWrite k v) →
      ∃ t, exec i s = .next t ∧ Keeps [.regs, .sni, .out] s.dev t.dev ∧ t.dev.sni.ports = s.dev.sni.ports
        ∧ (t.dev.fld (0x20800 + 8 * k.val) 0 0 = 1 →
            (t.dev.mclk k.val).running = true
            ∧ (6000000 ≤ t.dev.fld (0x20804 + 8 * k.val) 27 0 → t.dev.fld (0x20804 + 8 * k.val) 27 0 ≤ 100000000 →
                (t.dev.mclk k.val).freq = t.dev.fld (0x20804 + 8 * k.val) 27 0)
            ∧ (t.dev.mclk k.val).rate
                = if t.dev.fld (0x20800 + 8 * k.val) 1 1 = 1 then s.dev.ntu.incr else Config.nominalIncr)
        ∧ (t.dev.fld (0x20800 + 8 * k.val) 0 0 ≠ 1 → (t.dev.mclk k.val).running = false)
        ∧ (∀ j, j ≠ k.val → t.dev.mclk j = s.dev.mclk j)
        ∧ (s.dev.portStopped k.val = true → i ≠ .mclkFreqWrite k v →
            t.dev.fld (0x20800 + 8 * k.val) 0 0 = v.toNat % 2))
  ∧ (∀ (s : State) (v : Word) (x : Fin 8), s.dev.idleMode = true → s.dev.feat 7 = true →
      s.dev.fld 0x80000 3 0 = 0 → (s.dev.recd.vols.all fun e => e.2.state != 1) = true →
      v.toNat.testBit (x.val / 2) = true →
      (x.val % 2 = 1 → v.toNat.testBit (4 + x.val / 2) = true) → (s.dev.slot x.val).state = .empty →
      (s.dev.slot x.val).present = true →
      ∃ t, exec (.portEnSet v) s = .next t ∧ (t.dev.slot x.val).state = .training)
  ∧ (∀ (s : State) (v : Word) (x : Fin 8), s.dev.idleMode = true →
      (s.dev.fld 0x80000 3 0).testBit (x.val / 2) = true → (s.dev.recd.vols.all fun e => e.2.state != 1) = true →
      v.toNat.testBit (x.val / 2) = false → (s.dev.slot x.val).state = .ready →
      ∃ t, exec (.portEnClear v) s = .next t ∧ (t.dev.slot x.val).portOff = true
        ∧ Out.driveShutdown x.val ∈ t.dev.out)

/-- CREATE_QP (R69), CREATE_RING (R85, R88) and DELETE_RING (R91). -/
def Obligations.QueuePairsAndRings : Prop :=
  (∀ (s : State) (r : CmdRef) (c : Cmd), s.dev.clear specCreateQp r c = true →
    ∃ t, exec (.createQp r) s = .next t ∧ t.pending = s.pending
      ∧ Answered s.dev t.dev r stSuccess (c.f 4 11 0) ∧ Keeps byDone s.dev t.dev
      ∧ t.dev.qp (c.f 4 11 0) = {
          live := true, depth := c.f 5 15 0 + 1, weight := c.f 4 19 16, svc := c.f 4 22 20, vector := c.f 4 31 24
          aggCount := c.f 5 23 16, aggTime := c.f 6 15 0, sqBase := c.q 7, cqBase := c.q 9, head := 0, tail := 0
          cqTail := 0, cqHead := 0, phase := true, watch := false, faulted := false, deleting := false, unsig := 0 })
  ∧ (∀ (s : State) (r : CmdRef) (c : Cmd), s.dev.clear specCreateRing r c = true →
    ∃ t, exec (.createRing r) s = .next t ∧ t.pending = s.pending ∧ Answered s.dev t.dev r stSuccess 0
      ∧ Keeps (.rings :: byDone) s.dev t.dev ∧ (∀ n, n ≠ c.f 4 5 0 → t.dev.ring n = s.dev.ring n)
      ∧ t.dev.ring (c.f 4 5 0) = {
          live := true, base := c.q 7, slots := c.f 5 15 0 + 1, kinds := c.f 4 31 16, vector := c.f 4 15 8
          aggCount := c.f 5 23 16, aggTime := c.f 6 15 0, tail := 0, head := 0, seq := 0, phase := true, gap := false
          faulted := false, unsig := 0 })
  ∧ (∀ (s : State) (r : CmdRef) (c : Cmd), s.dev.clear specDeleteRing r c = true →
    ∃ t, exec (.deleteRing r) s = .next t ∧ t.pending = s.pending ∧ Answered s.dev t.dev r stSuccess 0
      ∧ Keeps (.rings :: byDone) s.dev t.dev ∧ (∀ n, n ≠ c.f 4 5 0 → t.dev.ring n = s.dev.ring n)
      ∧ (t.dev.ring (c.f 4 5 0)).live = false)

/-- SEM_ACQUIRE and SEM_RELEASE (R101 to R103). -/
def Obligations.LocksAreTaken : Prop :=
  (∀ (s : State) (r : CmdRef) (c : Cmd), s.dev.clear specSemAcquire r c = true →
    s.dev.waitsFrom r.qid (c.f 4 6 0) = true →
    ∃ t, exec (.semAcquire r) s = .next t ∧ Answered s.dev t.dev r stOrderViolation 0 ∧ Keeps byDone s.dev t.dev)
  ∧ (∀ (s : State) (r : CmdRef) (c : Cmd), s.dev.clear specSemAcquire r c = true → s.dev.semHeld c = false →
    s.dev.waitsFrom r.qid (c.f 4 6 0) = false →
    (s.dev.holdsFrom r.qid (c.f 4 6 0) = true →
      ∃ t, exec (.semAcquire r) s = .next t ∧ Answered s.dev t.dev r stOrderViolation 0 ∧ Keeps byDone s.dev t.dev)
    ∧ (s.dev.holdsFrom r.qid (c.f 4 6 0) = false → (s.dev.lock (c.f 4 6 0)).owner = .free →
      ∃ t, exec (.semAcquire r) s = .next t ∧ t.pending = s.pending ∧ Keeps (.link :: byDone) s.dev t.dev
        ∧ t.dev.lock (c.f 4 6 0) = { s.dev.lock (c.f 4 6 0) with owner := .queue r.qid, broken := none }
        ∧ (∀ n, n ≠ c.f 4 6 0 → t.dev.lock n = s.dev.lock n)
        ∧ ((s.dev.lock (c.f 4 6 0)).broken = none → Answered s.dev t.dev r stSuccess (c.f 4 6 0))
        ∧ (∀ cause, (s.dev.lock (c.f 4 6 0)).broken = some cause →
            Answered s.dev t.dev r stLockBroken (c.f 4 6 0 + cause * 256)))
    ∧ (s.dev.holdsFrom r.qid (c.f 4 6 0) = false → (s.dev.lock (c.f 4 6 0)).owner ≠ .free →
      ∃ t, exec (.semAcquire r) s = .next t ∧ t.pending = s.pending ∧ Begun s.dev t.dev r c
        ∧ Keeps [.link, .fetch] s.dev t.dev
        ∧ t.dev.lock (c.f 4 6 0) = { s.dev.lock (c.f 4 6 0) with
            waiters := (s.dev.lock (c.f 4 6 0)).waiters ++ [(r, s.dev.now)] }))
  ∧ (∀ (s : State) (r : CmdRef) (c : Cmd), s.dev.clear specSemRelease r c = true → s.dev.semHeld c = false →
    (s.dev.lock (c.f 4 6 0)).owner = .queue r.qid →
    ∃ t, exec (.semRelease r) s = .next t ∧ t.pending = s.pending ∧ Keeps (.link :: byDone) s.dev t.dev
      ∧ Out.completion r.qid (s.dev.qp r.qid).cqTail (c.f 4 6 0) (s.dev.qp r.qid).head r.cid (s.dev.qp r.qid).phase
          stSuccess ∈ t.dev.out
      ∧ ((s.dev.lock (c.f 4 6 0)).waiters = [] →
          t.dev.lock (c.f 4 6 0) = { owner := .free, waiters := [], broken := none })
      ∧ (∀ w ws, (s.dev.lock (c.f 4 6 0)).waiters = w :: ws →
          t.dev.lock (c.f 4 6 0) = { owner := .queue w.1.qid, waiters := ws, broken := none }))

/-- R104. -/
def Obligations.ReleaseOfALockNotHeld : Prop :=
  ∀ (s : State) (r : CmdRef) (c : Cmd), s.dev.clear specSemRelease r c = true → s.dev.semHeld c = false →
    (s.dev.lock (c.f 4 6 0)).owner ≠ .queue r.qid →
    ∃ t, exec (.semRelease r) s = .next t ∧ t.pending = s.pending ∧ Answered s.dev t.dev r stLockNotHeld 0
      ∧ Keeps byDone s.dev t.dev ∧ (∀ n, t.dev.lock n = s.dev.lock n)
      ∧ ∀ q, q ≠ r.qid → t.dev.qp q = s.dev.qp q

/-- ABORT (R94, R95) and SET_LATENCY (R105, R106). -/
def Obligations.AbortAndLatency : Prop :=
  (∀ (s : State) (r : CmdRef) (c : Cmd) (un : List Nat), s.dev.clear specAbort r c = true →
    s.dev.cmd? ⟨c.f 4 11 0, c.f 4 31 16⟩ = none →
    (un.contains (c.f 4 31 16) = false →
      ∃ t, exec (.abort r un) s = .next t ∧ Answered s.dev t.dev r stNotPending (c.f 4 11 0 + c.f 4 31 16 * 65536)
        ∧ Keeps byDone s.dev t.dev)
    ∧ (un.contains (c.f 4 31 16) = true → (s.dev.qp (c.f 4 11 0)).faulted = false →
        s.dev.hif.marks.contains ⟨c.f 4 11 0, c.f 4 31 16⟩ = false → s.dev.hif.marks.length < 256 →
      ∃ t, exec (.abort r un) s = .next t ∧ Answered s.dev t.dev r stSuccess (c.f 4 11 0 + c.f 4 31 16 * 65536)
        ∧ t.dev.hif.marks = s.dev.hif.marks ++ [⟨c.f 4 11 0, c.f 4 31 16⟩] ∧ Keeps byDone s.dev t.dev))
  ∧ (∀ (s : State) (r : CmdRef) (c k : Cmd) (un : List Nat), s.dev.clear specAbort r c = true →
    s.dev.cmd? ⟨c.f 4 11 0, c.f 4 31 16⟩ = some k → k.begun = false → k.fail = none → k.cls ≠ 0x0C → k.cls ≠ 7 →
    (s.dev.qp (c.f 4 11 0)).cqLost = false →
    s.dev.codec = {} → s.dev.lse = {} → s.dev.recd.vols = [] →
    ∃ t, exec (.abort r un) s = .next t
      ∧ Answered s.dev t.dev r stSuccess (c.f 4 11 0 + c.f 4 31 16 * 65536 + 4294967296)
      ∧ Answered s.dev t.dev ⟨c.f 4 11 0, c.f 4 31 16⟩ stAborted 0 ∧ Keeps byDone s.dev t.dev)
  ∧ (∀ (s : State) (r : CmdRef) (c : Cmd), s.dev.clear specSetLatency r c = true →
    ∃ t, exec (.setLatency r) s = .next t ∧ t.pending = s.pending
      ∧ Answered s.dev t.dev r stSuccess (if c.f 4 31 16 < 3 then 0 else if c.f 4 31 16 < 60 then 1 else 2)
      ∧ SMap.get 0 t.dev.hif.tol (c.f 4 2 0) = c.f 4 31 16
      ∧ (∀ k, k ≠ c.f 4 2 0 → SMap.get 0 t.dev.hif.tol k = SMap.get 0 s.dev.hif.tol k)
      ∧ Keeps (.link :: byDone) s.dev t.dev)

/-- DELETE_QP (R92) and RESET_QP (R93). -/
def Obligations.QueuePairsEnd : Prop :=
  (∀ (s : State) (r : CmdRef) (c : Cmd), s.dev.clear specDeleteQp r c = true →
    s.dev.fetchedOf (c.f 4 11 0) = [] → (∀ n, n < 72 → (s.dev.lock n).owner ≠ .queue (c.f 4 11 0)) →
    ∃ t, exec (.deleteQp r) s = .next t ∧ t.pending = s.pending ∧ Answered s.dev t.dev r stSuccess 0
      ∧ t.dev.qp (c.f 4 11 0) = {} ∧ (∀ q, q ≠ c.f 4 11 0 → q ≠ r.qid → t.dev.qp q = s.dev.qp q)
      ∧ (∀ m ∈ t.dev.hif.marks, m.qid ≠ c.f 4 11 0) ∧ Keeps byDone s.dev t.dev)
  ∧ (∀ (s : State) (r : CmdRef) (c : Cmd) (sl : DbSlot) (un : List Word), s.dev.clear specResetQp r c = true →
    s.dev.fetchedOf (c.f 4 11 0) = [] → (∀ n, n < 72 → (s.dev.lock n).owner ≠ .queue (c.f 4 11 0)) →
    (s.dev.qp (c.f 4 11 0)).faulted = false → (s.dev.qp (c.f 4 11 0)).cqLost = false →
    (s.dev.qp (c.f 4 11 0)).head < (s.dev.qp (c.f 4 11 0)).depth →
    bitsOf sl.sqTail.toNat 15 0 < (s.dev.qp (c.f 4 11 0)).depth →
    bitsOf sl.cqHead.toNat 15 0 < (s.dev.qp (c.f 4 11 0)).depth →
    (bitsOf sl.sqTail.toNat 15 0 + (s.dev.qp (c.f 4 11 0)).depth - (s.dev.qp (c.f 4 11 0)).head)
      % (s.dev.qp (c.f 4 11 0)).depth = un.length →
    ((s.dev.qp (c.f 4 11 0)).cqTail + (s.dev.qp (c.f 4 11 0)).depth - bitsOf sl.cqHead.toNat 15 0)
      % (s.dev.qp (c.f 4 11 0)).depth + un.length < (s.dev.qp (c.f 4 11 0)).depth →
    ∃ t, exec (.resetQp r sl un) s = .next t ∧ t.pending = s.pending
      ∧ Answered s.dev t.dev r stSuccess (min 4294967295 un.length)
      ∧ (t.dev.qp (c.f 4 11 0)).live = true ∧ (t.dev.qp (c.f 4 11 0)).head = bitsOf sl.sqTail.toNat 15 0
      ∧ (∀ w ∈ un, ∃ slot sh ph,
          Out.completion (c.f 4 11 0) slot (cutResult (unreadCmd (c.f 4 11 0) w)) sh (bitsOf w.toNat 31 16) ph
            stQueueDeleted ∈ t.dev.out)
      ∧ Keeps byDone s.dev t.dev)

/-- SET_MODE where nothing has to end first (R58 to R60). -/
def Obligations.SetModeChangesTheMode : Prop :=
  (∀ (s : State) (r : CmdRef) (c : Cmd), s.dev.clear specSetMode r c = true → s.dev.boot.stage ≠ .driver →
    s.dev.boot.pilot = none →
    ∃ t, exec (.setMode r) s = .next t ∧ t.pending = s.pending
      ∧ Answered s.dev t.dev r stSuccess (s.dev.boot.mode.code * 2 ^ 32 + c.f 4 11 8 * 2 ^ 36)
      ∧ t.dev.boot = { s.dev.boot with mode := Mode.ofCode (c.f 4 11 8), stage := .driver }
      ∧ Keeps (.boot :: byDone) s.dev t.dev)
  ∧ (∀ (s : State) (r : CmdRef) (c : Cmd), s.dev.clear specSetMode r c = true → s.dev.boot.stage = .driver →
    s.dev.hif.cmds = [c] → s.dev.sni = {} → s.dev.spk = {} → s.dev.stu = {} → s.dev.sco.sdi = [] →
    ∃ t, exec (.setMode r) s = .next t ∧ t.pending = s.pending
      ∧ Answered s.dev t.dev r stSuccess (s.dev.boot.mode.code * 2 ^ 32 + c.f 4 11 8 * 2 ^ 36)
      ∧ t.dev.boot = { s.dev.boot with mode := Mode.ofCode (c.f 4 11 8) }
      ∧ t.dev.hif.modeChange = none ∧ Keeps (.boot :: .link :: byDone) s.dev t.dev)

/-- START_PORT (R119), STOP_PORT (R139) and MP_FRAME (R132). -/
def Obligations.PortsStartAndStop : Prop :=
  (∀ (s : State) (r : CmdRef) (c : Cmd), s.dev.clear specStartPort r c = true →
    s.dev.engOff (0x40 + c.f 4 1 0) (47 + c.f 4 1 0) = true →
    ∃ t, exec (.startPort r) s = .next t ∧ Answered s.dev t.dev r stEngineDown 0 ∧ Keeps byDone s.dev t.dev)
  ∧ (∀ (s : State) (r : CmdRef) (c : Cmd), s.dev.clear specStartPort r c = true →
    s.dev.engDown (0x40 + c.f 4 1 0) (47 + c.f 4 1 0) = false → (s.dev.port (c.f 4 1 0)).frame = none →
    (s.dev.startErr (c.f 4 1 0) (s.dev.startSched c) (s.dev.firstIndex (c.f 4 1 0) (s.dev.startSched c) (c.b 4 3)) = 0 →
      s.dev.allProgs = [] → (s.dev.port (c.f 4 1 0)).waiting = [] →
      ∃ t, exec (.startPort r) s = .next t ∧ t.pending = s.pending
        ∧ Answered s.dev t.dev r stSuccess (s.dev.firstIndex (c.f 4 1 0) (s.dev.startSched c) (c.b 4 3))
        ∧ (t.dev.port (c.f 4 1 0)).state = .locking ∧ (t.dev.port (c.f 4 1 0)).survives = false
        ∧ (t.dev.port (c.f 4 1 0)).cfgErr = 0
        ∧ (t.dev.port (c.f 4 1 0)).nextIndex = s.dev.firstIndex (c.f 4 1 0) (s.dev.startSched c) (c.b 4 3)
        ∧ (t.dev.port (c.f 4 1 0)).scheduled = (s.dev.startSched c).isSome
        ∧ (t.dev.port (c.f 4 1 0)).latched = s.dev.latch (c.f 4 1 0) ∧ (t.dev.port (c.f 4 1 0)).triggers = []
        ∧ Keeps (.sni :: .rfe :: .lse :: .tw :: .regs :: byDone) s.dev t.dev)
    ∧ (s.dev.startErr (c.f 4 1 0) (s.dev.startSched c) (s.dev.firstIndex (c.f 4 1 0) (s.dev.startSched c) (c.b 4 3)) ≠ 0 →
      ∃ t, exec (.startPort r) s = .next t ∧ Answered s.dev t.dev r stInvalidField 4
        ∧ (t.dev.port (c.f 4 1 0)).cfgErr
            = s.dev.startErr (c.f 4 1 0) (s.dev.startSched c)
                (s.dev.firstIndex (c.f 4 1 0) (s.dev.startSched c) (c.b 4 3))
        ∧ (t.dev.port (c.f 4 1 0)).state = (s.dev.port (c.f 4 1 0)).state ∧ Keeps (.sni :: byDone) s.dev t.dev))
  ∧ (∀ (s : State) (r : CmdRef) (c : Cmd), s.dev.clear specStopPort r c = true →
    ((s.dev.port (c.f 4 1 0)).frame = none → (s.dev.port (c.f 4 1 0)).programs = [] →
      (s.dev.port (c.f 4 1 0)).waiting = [] → (s.dev.port (c.f 4 1 0)).stopRef = none →
      s.dev.boot.stopDue ≠ some (c.f 4 1 0) →
      ∃ t, exec (.stopPort r) s = .next t ∧ t.pending = s.pending
        ∧ Answered s.dev t.dev r stSuccess ((s.dev.port (c.f 4 1 0)).lastClosed.getD ones64)
        ∧ (t.dev.port (c.f 4 1 0)).state = .stopped
        ∧ (t.dev.port (c.f 4 1 0)).nextIndex = (s.dev.port (c.f 4 1 0)).counted
        ∧ Keeps (.sni :: .teu :: .fetch :: byPost) s.dev t.dev)
    ∧ ((s.dev.port (c.f 4 1 0)).frame.isSome = true → c.b 4 2 = false → (s.dev.port (c.f 4 1 0)).stopping = false →
      ∃ t, exec (.stopPort r) s = .next t ∧ t.pending = s.pending ∧ Begun s.dev t.dev r c
        ∧ t.dev.port (c.f 4 1 0) = { s.dev.port (c.f 4 1 0) with stopping := true, stopRef := some r }
        ∧ Keeps [.sni, .fetch] s.dev t.dev))
  ∧ (∀ (s : State) (r : CmdRef) (c : Cmd), s.dev.clear specMpFrame r c = true → (s.dev.port 4).mpRun = none →
    (s.dev.hif.cmds.any fun e => e.cls == 1 && e.opc == 0x20 && decide (e.num < c.num)) = false →
    (s.dev.mpErr c = false →
      ∃ t, exec (.mpFrame r) s = .next t ∧ t.pending = s.pending ∧ Begun s.dev t.dev r c
        ∧ (t.dev.port 4).mpRun = some r ∧ (t.dev.port 4).latched = s.dev.latch 4 ∧ Keeps [.sni, .fetch] s.dev t.dev)
    ∧ (s.dev.mpErr c = true →
      ∃ t, exec (.mpFrame r) s = .next t ∧ Answered s.dev t.dev r stInvalidField 4 ∧ Keeps byDone s.dev t.dev))

/-- LANE_LOCK_ACQUIRED, LANE_LOCK_LOST (R108, R125), GANG_SKEW_TIMEOUT (R115) and BOUNDARY_FIFO_OVERRUN (R21). -/
def Obligations.LanesLock : Prop :=
  (∀ (s : State) (p : Fin 4) (n : Fin 20), s.dev.idleMode = true →
    ((s.dev.port p.val).state = .stopped →
      exec (.laneLockAcquired p n) s = .next s ∧ exec (.laneLockLost p n) s = .next s)
    ∧ ((s.dev.port p.val).state ≠ .stopped → n.val ∈ s.dev.activeLanes p.val →
        (s.dev.port p.val).laneLock.testBit n.val = false →
        ∃ t, exec (.laneLockAcquired p n) s = .next t
          ∧ (t.dev.port p.val).laneLock = (s.dev.port p.val).laneLock ||| 2 ^ n.val
          ∧ Keeps (.sni :: byPost) s.dev t.dev
          ∧ (s.dev.gangOf p.val = (p.val, 1) → (s.dev.port p.val).state = .locking →
              (∀ k ∈ s.dev.activeLanes p.val, ((s.dev.port p.val).laneLock ||| 2 ^ n.val).testBit k = true) →
              (t.dev.port p.val).state = .running))
    ∧ ((s.dev.port p.val).state ≠ .stopped → (s.dev.port p.val).laneLock.testBit n.val = true →
        (s.dev.port (s.dev.gangOf p.val).1).frame = none →
        ∃ t, exec (.laneLockLost p n) s = .next t
          ∧ (t.dev.port p.val).laneLock = (s.dev.port p.val).laneLock ^^^ 2 ^ n.val
          ∧ (s.dev.gangOf p.val = (p.val, 1) → (s.dev.port p.val).state = .running →
              (t.dev.port p.val).state = .locking)
          ∧ Keeps (.sni :: byPost) s.dev t.dev))
  ∧ (∀ (s : State) (p : Fin 4), s.dev.idleMode = true →
      s.dev.gangOf p.val = (p.val, (s.dev.port p.val).gang) → 1 < (s.dev.port p.val).gang →
      (s.dev.port p.val).frame.isSome = true → (s.dev.port p.val).stopping = false →
      ∃ t, exec (.gangSkewTimeout p) s = .next t ∧ (t.dev.port p.val).frame = none
        ∧ (t.dev.port p.val).blind = true)
  ∧ (∀ (s : State) (p : Fin 4) (m : Nat), s.dev.idleMode = true → m = (s.dev.gangOf p.val).1 →
      ((s.dev.port m).frame = none → exec (.boundaryFifoOverrun (.sensor p)) s = .next s)
      ∧ ((s.dev.port m).frame.isSome = true → (s.dev.port m).stopping = false →
        ∃ t, exec (.boundaryFifoOverrun (.sensor p)) s = .next t ∧ (t.dev.port m).frame = none
          ∧ (t.dev.port m).blind = true))
  ∧ (∀ (s : State) (k : Fin 2), s.dev.idleMode = true →
      (s.dev.ethLink k.val = true →
        ∃ t, exec (.boundaryFifoOverrun (.eth k)) s = .next t
          ∧ t.dev.ctrs = (s.dev.count (0xA0038 + 0x40 * k.val) 1).ctrs ∧ Keeps [.ctrs] s.dev t.dev)
      ∧ (s.dev.ethLink k.val = false → exec (.boundaryFifoOverrun (.eth k)) s = .next s)
      ∧ ((s.dev.sdiIn k.val).run = false ∨ (s.dev.sdiIn k.val).locked = false →
        ∀ part, exec (.boundaryFifoOverrun (.sdiIn k part)) s = .next s))

/-- FRAME_START, LINE_RECEIVED, FRAME_END and FRAME_TIMEOUT (R110, R111, R113, R120 to R125, R132, R156). -/
def Obligations.FramesAtIngest : Prop :=
  (∀ (s : State) (p : Fin 5) (code : CodeIn) (copies : LaneCopies) (w vc : Nat) (h : Header), s.dev.idleMode = true → p.val < 4 →
      ((s.dev.port p.val).state ≠ .running → exec (.frameStart p code copies) s = .next s)
      ∧ ((s.dev.port p.val).state = .running → (s.dev.port p.val).frame = none →
          (s.dev.port p.val).stopping = false → (s.dev.port p.val).scheduled = false →
          (s.dev.laneMode p.val = 1 ∧ code = .sync w ∧ s.dev.syncIs p.val 0 w = true
              ∧ copies.missing = false ∧ copies.spreadUi ≤ 64
            ∨ s.dev.laneMode p.val = 2 ∧ code = .packet vc h ∧ h ≠ .bad ∧ vc = s.dev.linkVc p.val 0) →
          ∃ t f, exec (.frameStart p code copies) s = .next t ∧ (t.dev.port p.val).frame = some f
            ∧ f.index = (s.dev.port p.val).nextIndex ∧ f.start = s.dev.now ∧ f.lines = 0 ∧ f.discarded = 0
            ∧ f.rows = [] ∧ (t.dev.port p.val).nextIndex = (s.dev.port p.val).nextIndex + 1
            ∧ (t.dev.port p.val).blind = false)
      ∧ ((s.dev.port p.val).state = .running → s.dev.laneMode p.val = 1 → s.dev.syncIs p.val 0 w = true →
          copies.missing = true ∨ 64 < copies.spreadUi →
            ∃ t, exec (.frameStart p (.sync w) copies) s = .next t
              ∧ t.dev.port p.val = { s.dev.port p.val with blind := true } ∧ Keeps (.sni :: byPost) s.dev t.dev)
      ∧ ((s.dev.port p.val).state = .running → s.dev.laneMode p.val = 1 → s.dev.syncIs p.val 0 w = false →
          ∃ t, exec (.frameStart p (.sync w) copies) s = .next t ∧ Keeps [.ctrs] s.dev t.dev))
  ∧ (∀ (s : State) (code : CodeIn) (copies : LaneCopies), s.dev.idleMode = true →
      ((s.dev.port 4).mpRun = none ∨ (s.dev.port 4).frame.isSome = true → exec (.frameStart 4 code copies) s = .next s)
      ∧ ((s.dev.port 4).mpRun.isSome = true → (s.dev.port 4).frame = none → (s.dev.port 4).scheduled = false →
          ∃ t f, exec (.frameStart 4 code copies) s = .next t ∧ (t.dev.port 4).frame = some f
            ∧ f.index = (s.dev.port 4).nextIndex ∧ f.lines = 0 ∧ f.rows = []))
  ∧ (∀ (s : State) (p : Fin 5) (l : LineIn) (f : Frame), s.dev.idleMode = true → p.val < 4 →
      (s.dev.port p.val).state ≠ .stopped → (s.dev.port p.val).state ≠ .gangSecondary →
      ((s.dev.port p.val).frame = none →
        ∃ t, exec (.lineReceived p l) s = .next t ∧ Keeps [.ctrs] s.dev t.dev)
      ∧ ((s.dev.port p.val).frame = some f → (s.dev.port p.val).blind = false →
          (s.dev.assemble p.val l).got = true →
          (s.dev.srcHeight p.val ≤ f.lines →
            ∃ t, exec (.lineReceived p l) s = .next t ∧ Keeps [.sni, .ctrs] s.dev t.dev
              ∧ (t.dev.port p.val).frame = some { f with
                  discarded := f.discarded + 1
                  crcErrs := f.crcErrs + (s.dev.assemble p.val l).crcError.toNat })
          ∧ (f.lines < s.dev.srcHeight p.val →
              (f.skipped.isSome = true
                ∨ ∀ e ∈ s.dev.stripes p.val,
                    s.dev.backlog p.val e < ingestLines e.2.2 (s.dev.srcDual p.val)) →
            ∃ t f', exec (.lineReceived p l) s = .next t ∧ (t.dev.port p.val).frame = some f'
              ∧ f'.index = f.index ∧ f'.lines = f.lines + 1 ∧ f'.rows = f.rows ++ [(s.dev.assemble p.val l).samples]
              ∧ (f.skipped.isSome = true → Keeps [.sni, .ctrs] s.dev t.dev))))
  ∧ (∀ (s : State) (l : LineIn) (f : Frame) (c : Cmd), s.dev.idleMode = true → (s.dev.port 4).frame = some f →
      s.dev.mpCmd = some c → (s.dev.port 4).mpAbort = none → f.lines < s.dev.srcHeight 4 →
      ∃ t f', exec (.lineReceived 4 l) s = .next t ∧ (t.dev.port 4).frame = some f' ∧ f'.lines = f.lines + 1
        ∧ f'.rows = f.rows ++ [(s.dev.joinParts 4 (s.dev.lineLen 4) [s.dev.mpRow c f.lines]).samples])
  ∧ (∀ (s : State) (p : Fin 5) (code : CodeIn) (f : Frame) (w vc : Nat) (h : Header),
      s.dev.idleMode = true → p.val < 4 → (s.dev.port p.val).state = .running → (s.dev.port p.val).frame = some f →
      (s.dev.port p.val).blind = false → (s.dev.port p.val).stopping = false →
      (s.dev.laneMode p.val = 1 ∧ code = .sync w ∧ s.dev.syncIs p.val 3 w = true
        ∨ s.dev.laneMode p.val = 2 ∧ code = .packet vc h ∧ h ≠ .bad ∧ vc = s.dev.linkVc p.val 0) →
      ∃ t, exec (.frameEnd ⟨p, code⟩) s = .next t ∧ (t.dev.port p.val).frame = none
        ∧ (t.dev.port p.val).lastClosed = some f.index)
  ∧ (∀ (s : State) (code : CodeIn) (f : Frame), s.dev.idleMode = true → (s.dev.port 4).frame = some f →
      (s.dev.port 4).mpAbort = none → s.dev.srcHeight 4 ≤ f.lines →
      ∃ t, exec (.frameEnd ⟨4, code⟩) s = .next t ∧ (t.dev.port 4).frame = none ∧ (t.dev.port 4).mpRun = none
        ∧ (t.dev.port 4).lastClosed = some f.index)
  ∧ (∀ (s : State) (p : Fin 4) (f : Frame), s.dev.idleMode = true → (s.dev.port p.val).frame = some f →
      (s.dev.overdue p.val f = false → exec (.frameTimeout p) s = .next s)
      ∧ (s.dev.overdue p.val f = true → (s.dev.port p.val).stopping = false →
        ∃ t, exec (.frameTimeout p) s = .next t ∧ (t.dev.port p.val).frame = none
          ∧ (t.dev.port p.val).lastClosed = some f.index))

/-- EXPOSURE_TRIGGER and EXPOSURE_TRIGGER_END (R129, R130). -/
def Obligations.ExposureTriggers : Prop :=
  ∀ (s : State) (p : Fin 4), s.dev.idleMode = true →
    ((s.dev.port p.val).scheduled = false ∨ (s.dev.port p.val).state = .stopped →
      exec (.exposureTrigger p) s = .next s)
    ∧ ((s.dev.port p.val).scheduled = true → (s.dev.port p.val).state ≠ .stopped → (s.dev.port p.val).change = none →
      s.dev.now < dueTime {
          num := (s.dev.port p.val).rateNum, den := (s.dev.port p.val).rateDen
          epoch := (s.dev.port p.val).epoch, offNs := (s.dev.port p.val).offNs } (s.dev.port p.val).nextExp →
      exec (.exposureTrigger p) s = .next s)
    ∧ ((s.dev.port p.val).scheduled = true → (s.dev.port p.val).state ≠ .stopped → (s.dev.port p.val).change = none →
      dueTime {
          num := (s.dev.port p.val).rateNum, den := (s.dev.port p.val).rateDen
          epoch := (s.dev.port p.val).epoch, offNs := (s.dev.port p.val).offNs } (s.dev.port p.val).nextExp ≤ s.dev.now →
      ∃ t, exec (.exposureTrigger p) s = .next t
        ∧ t.dev.port p.val = { s.dev.port p.val with
            trigHigh := true, trigEnd := s.dev.now + (s.dev.port p.val).trigUs * tUs
            nextExp := (s.dev.port p.val).nextExp + 1
            triggers := (s.dev.port p.val).triggers ++ [{
              n := (s.dev.port p.val).nextExp
              time := dueTime {
                num := (s.dev.port p.val).rateNum, den := (s.dev.port p.val).rateDen
                epoch := (s.dev.port p.val).epoch, offNs := (s.dev.port p.val).offNs } (s.dev.port p.val).nextExp }] }
        ∧ Keeps (.sni :: .teu :: byPost) s.dev t.dev)
    ∧ ((s.dev.port p.val).trigHigh = false ∨ s.dev.now < (s.dev.port p.val).trigEnd →
      exec (.exposureTriggerEnd p) s = .next s)
    ∧ ((s.dev.port p.val).trigHigh = true → (s.dev.port p.val).trigEnd ≤ s.dev.now →
      ∃ t, exec (.exposureTriggerEnd p) s = .next t
        ∧ t.dev.port p.val = { s.dev.port p.val with trigHigh := false }
        ∧ Keeps (.sni :: .teu :: byPost) s.dev t.dev)

/-- SUBMIT_PROGRAM, LATCH_WINDOW_OPEN and LATEST_ISSUE_START (R133, R135, R139, R522). -/
def Obligations.ExposurePrograms : Prop :=
  (∀ (s : State) (r : CmdRef) (c : Cmd) (l : List Byte), s.dev.clear specSubmitProgram r c = true →
    s.dev.listBad c l = [] → s.dev.allProgs = [] →
    (c.f 4 13 8 = 0 → s.dev.canReach (newProg c l) (c.q 6) = true →
      ∃ t, exec (.submitProgram r l) s = .next t ∧ Answered s.dev t.dev r stSuccess (c.q 6)
        ∧ newProg c l ∈ (t.dev.port (c.f 4 1 0)).applied)
    ∧ (s.dev.canReach (newProg c l) (c.q 6) = false → c.nextPossible = false →
      ((s.dev.port (c.f 4 1 0)).state ≠ .stopped ∨ c.f 4 13 8 = 0) →
      ∃ t n, exec (.submitProgram r l) s = .next t ∧ c.q 6 < n ∧ Answered s.dev t.dev r stLate n)
    ∧ (c.f 4 13 8 ≠ 0 →
      (s.dev.canReach (newProg c l) (c.q 6) = true ∨ (s.dev.port (c.f 4 1 0)).state = .stopped) →
      ∃ t, exec (.submitProgram r l) s = .next t ∧ t.dev.cmd? r = some { c with begun := true }
        ∧ ∃ g ∈ (t.dev.port (c.f 4 1 0)).programs, g.ref = r ∧ g.target = c.q 6 ∧ g.id = c.w 5))
  ∧ (∀ (s : State) (p : Fin 4) (n : Nat), s.dev.idleMode = true →
    ((s.dev.port p.val).state = .stopped →
      exec (.latchWindowOpen p n) s = .next s ∧ exec (.latestIssueStart p n) s = .next s)
    ∧ ((s.dev.port p.val).state ≠ .stopped → s.dev.twFree (s.dev.portCtl p.val) = false →
    ∃ t, exec (.latchWindowOpen p n) s = .next t ∧ n ∈ (t.dev.port p.val).windows
      ∧ (∀ g ∈ (s.dev.port p.val).programs, g.target = n → g.writes ≠ [] →
          { g with opened := true } ∈ (t.dev.port p.val).programs)
      ∧ Keeps [.sni] s.dev t.dev))
  ∧ (∀ (s : State) (p : Fin 4) (g : Prog) (k : Cmd), s.dev.idleMode = true →
    (s.dev.port p.val).state ≠ .stopped → (s.dev.port p.val).programs = [g] → (s.dev.port p.val).waiting = [] →
    g.port = p.val → g.issuing = false →
    g.next = false → s.dev.cmd? g.ref = some k → k.fail = none → (s.dev.qp g.ref.qid).live = true →
    (s.dev.qp g.ref.qid).cqLost = false → s.dev.hif.queueOps = [] →
    ∃ t, exec (.latestIssueStart p g.target) s = .next t ∧ (t.dev.port p.val).programs = []
      ∧ Answered s.dev t.dev g.ref stLate (s.dev.nextReach g) ∧ Keeps (.sni :: byDone) s.dev t.dev)

/-- The Timing Event Unit (R143 to R147). -/
def Obligations.TimingPins : Prop :=
  (∀ (s : State) (r : CmdRef) (c : Cmd), s.dev.clear specPinEnable r c = true →
    ((rangeFrom 0 16).any fun n => (c.f 4 15 0).testBit n && !s.dev.teu.enabled.testBit n && s.dev.evBad n) = false →
    ∃ t, exec (.pinEnable r) s = .next t ∧ t.pending = s.pending
      ∧ t.dev.teu.enabled = s.dev.teu.enabled ||| c.f 4 15 0
      ∧ Answered s.dev t.dev r stSuccess (s.dev.teu.enabled ||| c.f 4 15 0)
      ∧ Keeps (.teu :: .fetch :: byPost) s.dev t.dev)
  ∧ (∀ (s : State) (r : CmdRef) (c : Cmd), s.dev.clear specPinDisable r c = true → s.dev.teu.pulses = [] →
    ∃ t, exec (.pinDisable r) s = .next t ∧ t.pending = s.pending
      ∧ t.dev.teu.enabled = s.dev.teu.enabled &&& (0xFFFF ^^^ c.f 4 15 0)
      ∧ Answered s.dev t.dev r stSuccess (s.dev.teu.enabled &&& (0xFFFF ^^^ c.f 4 15 0))
      ∧ Keeps (.teu :: .fetch :: byPost) s.dev t.dev)
  ∧ (∀ (s : State) (r : CmdRef) (c : Cmd), s.dev.clear specSetRoute r c = true →
    (c.w 5 = 0 ∧ c.w 6 = 0 ∧ c.w 7 = 0 →
      ∃ t, exec (.setRoute r) s = .next t ∧ Answered s.dev t.dev r stSuccess 0
        ∧ t.dev.ev (c.f 4 3 0) 31 16 = c.f 4 31 16 ∧ t.dev.ev (c.f 4 3 0) 15 0 = s.dev.ev (c.f 4 3 0) 15 0
        ∧ Keeps (.regs :: .teu :: .fetch :: byPost) s.dev t.dev)
    ∧ (¬ (c.w 5 = 0 ∧ c.w 6 = 0 ∧ c.w 7 = 0) →
      ∃ t, exec (.setRoute r) s = .next t ∧ Begun s.dev t.dev r c
        ∧ t.dev.teu.routes = s.dev.teu.routes
            ++ [{ ref := r, pin := c.f 4 3 0, route := c.f 4 31 16, time := cmdLts c 5 }]
        ∧ Keeps [.teu, .fetch] s.dev t.dev))
  ∧ (∀ (s : State) (r : CmdRef) (c : Cmd), s.dev.clear specScheduleEdge r c = true →
    (s.dev.teu.enabled.testBit (c.f 4 3 0) = false →
      ∃ t, exec (.scheduleEdge r) s = .next t ∧ Answered s.dev t.dev r stEngineDown 0 ∧ Keeps byDone s.dev t.dev)
    ∧ (s.dev.teu.enabled.testBit (c.f 4 3 0) = true →
      ∃ t, exec (.scheduleEdge r) s = .next t ∧ Begun s.dev t.dev r c
        ∧ t.dev.teu.pulses = s.dev.teu.pulses ++ [{
            ref := r, pin := c.f 4 3 0, start := cmdLts c 5, width := c.w 8, period := c.w 9
            count := c.f 4 31 16 + 1, driven := 0, high := false, ending := none }]
        ∧ Keeps [.teu, .fetch] s.dev t.dev))
  ∧ (∀ (s : State) (w : RouteWait) (k : Cmd), s.dev.idleMode = true → s.dev.teu.routes = [w] →
    s.dev.cmd? w.ref = some k → k.fail = none → (s.dev.qp w.ref.qid).live = true →
    (s.dev.qp w.ref.qid).cqLost = false → s.dev.hif.queueOps = [] →
    (s.dev.now < w.time → exec (.routeAt w.ref) s = .next s)
    ∧ (w.time ≤ s.dev.now →
    ∃ t, exec (.routeAt w.ref) s = .next t ∧ t.dev.teu.routes = [] ∧ Answered s.dev t.dev w.ref stSuccess 0
      ∧ t.dev.ev w.pin 31 16 = w.route % 65536 ∧ Keeps (.regs :: .teu :: .fetch :: byPost) s.dev t.dev))
  ∧ (∀ (s : State) (p : Pulses) (k : Cmd), s.dev.idleMode = true → s.dev.teu.pulses = [p] → p.ending = none →
    (p.high = false → s.dev.now < pulseAt p p.driven → exec (.scheduledPulseStart p.ref) s = .next s)
    ∧ (p.high = true → s.dev.now < pulseAt p (p.driven - 1) + p.width * tNs →
      exec (.scheduledPulseEnd p.ref) s = .next s)
    ∧ (p.high = false → p.driven < p.count → pulseAt p p.driven ≤ s.dev.now →
      ∃ t, exec (.scheduledPulseStart p.ref) s = .next t
        ∧ t.dev.teu.pulses = [{ p with high := true, driven := p.driven + 1 }]
        ∧ Keeps (.teu :: byPost) s.dev t.dev)
    ∧ (p.high = true → p.driven < p.count → pulseAt p (p.driven - 1) + p.width * tNs ≤ s.dev.now →
      ∃ t, exec (.scheduledPulseEnd p.ref) s = .next t ∧ t.dev.teu.pulses = [{ p with high := false }]
        ∧ Keeps (.teu :: byPost) s.dev t.dev)
    ∧ (p.high = true → p.count ≤ p.driven → pulseAt p (p.driven - 1) + p.width * tNs ≤ s.dev.now →
      s.dev.cmd? p.ref = some k → k.fail = none →
      (s.dev.qp p.ref.qid).live = true → (s.dev.qp p.ref.qid).cqLost = false → s.dev.hif.queueOps = [] →
      ∃ t, exec (.scheduledPulseEnd p.ref) s = .next t ∧ t.dev.teu.pulses = []
        ∧ Answered s.dev t.dev p.ref stSuccess p.driven ∧ Keeps (.teu :: .fetch :: byPost) s.dev t.dev))
  ∧ (∀ (s : State) (n : Fin 16) (rising : Bool) (ns : Nat), s.dev.idleMode = true →
    (s.dev.evIn n.val = false → exec (.evInputEdge n rising ns) s = .next s)
    ∧ (s.dev.evIn n.val = true →
      ∃ t, exec (.evInputEdge n rising ns) s = .next t ∧ t.dev.teu.levels.testBit n.val = rising
        ∧ Keeps (.sni :: .teu :: byPost) s.dev t.dev))

/-- RFE_SET_PARAMS, RFE_LOAD_TABLE, CBE_SET_COLOUR and CBE_LOAD_LUT3D (R176, R198, R204). -/
def Obligations.PipelineBlocksWait : Prop :=
  (∀ (s : State) (r : CmdRef) (c : Cmd) (blk : List Byte), s.dev.clear specRfeSetParams r c = true →
    (s.dev.paramsBad (c.f 4 2 0) (s.dev.blockOf false 0 256 blk) ≠ [] →
      ∃ t res, exec (.rfeSetParams r blk) s = .next t ∧ Answered s.dev t.dev r stInvalidField res
        ∧ Keeps byDone s.dev t.dev)
    ∧ (s.dev.paramsBad (c.f 4 2 0) (s.dev.blockOf false 0 256 blk) = [] → s.dev.engOff 0x10 16 = true →
      ∃ t, exec (.rfeSetParams r blk) s = .next t ∧ Answered s.dev t.dev r stEngineDown 0 ∧ Keeps byDone s.dev t.dev)
    ∧ (s.dev.paramsBad (c.f 4 2 0) (s.dev.blockOf false 0 256 blk) = [] → s.dev.engOff 0x10 16 = false →
      (8 ≤ (s.dev.rfe? (c.f 4 2 0)).blocks.length → exec (.rfeSetParams r blk) s = .next s)
      ∧ ((s.dev.rfe? (c.f 4 2 0)).blocks.length < 8 →
        ∃ t, exec (.rfeSetParams r blk) s = .next t ∧ t.pending = s.pending ∧ Begun s.dev t.dev r c
          ∧ t.dev.rfe? (c.f 4 2 0) = { s.dev.rfe? (c.f 4 2 0) with
              blocks := (s.dev.rfe? (c.f 4 2 0)).blocks ++ [{
                ref := r, at? := if c.b 4 9 then some (c.q 5) else none, reset := c.b 4 8
                bytes := s.dev.blockOf false 0 256 blk }] }
          ∧ (∀ k, k ≠ c.f 4 2 0 → t.dev.rfe? k = s.dev.rfe? k) ∧ Keeps [.rfe, .fetch] s.dev t.dev)))
  ∧ (∀ (s : State) (r : CmdRef) (c : Cmd) (tbl : List Byte), s.dev.clear specRfeLoadTable r c = true →
    tableBad (c.f 4 7 4) (s.dev.tableOf c tbl) = [] → s.dev.engOff 0x10 16 = false →
    (2 ≤ ((s.dev.rfe? (c.f 4 2 0)).loads.filter (·.table == c.f 4 7 4)).length →
      exec (.rfeLoadTable r tbl) s = .next s)
    ∧ (((s.dev.rfe? (c.f 4 2 0)).loads.filter (·.table == c.f 4 7 4)).length < 2 →
      ∃ t b, exec (.rfeLoadTable r tbl) s = .next t ∧ t.pending = s.pending ∧ Begun s.dev t.dev r c
        ∧ t.dev.rfe? (c.f 4 2 0)
            = { s.dev.rfe? (c.f 4 2 0) with loads := (s.dev.rfe? (c.f 4 2 0)).loads ++ [b] }
        ∧ b.ref = r ∧ b.table = c.f 4 7 4 ∧ b.at? = (if c.b 4 9 then some (c.q 8) else none)
        ∧ (s.dev.tableOf c tbl ≠ [] → b.bytes = s.dev.tableOf c tbl)
        ∧ (∀ k, k ≠ c.f 4 2 0 → t.dev.rfe? k = s.dev.rfe? k) ∧ Keeps [.rfe, .fetch] s.dev t.dev))
  ∧ (∀ (s : State) (r : CmdRef) (c : Cmd) (blk : List Byte), s.dev.clear specCbeSetColour r c = true →
    s.dev.colourBad (c.f 4 2 0) (s.dev.blockOf false 0 128 blk) = [] → s.dev.cbeOff = false →
    (8 ≤ (SMap.get [] s.dev.cbe.blocks (c.f 4 2 0)).length → exec (.cbeSetColour r blk) s = .next s)
    ∧ ((SMap.get [] s.dev.cbe.blocks (c.f 4 2 0)).length < 8 →
      ∃ t, exec (.cbeSetColour r blk) s = .next t ∧ t.pending = s.pending ∧ Begun s.dev t.dev r c
        ∧ SMap.get [] t.dev.cbe.blocks (c.f 4 2 0) = SMap.get [] s.dev.cbe.blocks (c.f 4 2 0) ++ [{
            ref := r, at? := if c.b 4 9 then some (c.q 5) else none, bytes := s.dev.blockOf false 0 128 blk }]
        ∧ (∀ k, k ≠ c.f 4 2 0 → SMap.get [] t.dev.cbe.blocks k = SMap.get [] s.dev.cbe.blocks k)
        ∧ t.dev.cbe.colour = s.dev.cbe.colour ∧ Keeps [.cbe, .fetch] s.dev t.dev))
  ∧ (∀ (s : State) (r : CmdRef) (c : Cmd) (blk : List Byte), s.dev.clear specCbeLoadLut3d r c = true →
    lut3Bad (s.dev.blockOf (c.b 4 8) (c.q 7) 3344700 blk) 274625 = [] → s.dev.cbeOff = false →
    (s.dev.lut (c.f 4 0 0)).pend = none → (s.dev.lut (c.f 4 0 0)).behind = [] →
    ((∀ src, src < 5 → s.dev.usesLut src (c.f 4 0 0) = false) →
      ∃ t, exec (.cbeLoadLut3d r blk) s = .next t ∧ t.pending = s.pending ∧ Answered s.dev t.dev r stSuccess ones64
        ∧ t.dev.lut (c.f 4 0 0) = { s.dev.lut (c.f 4 0 0) with
            loaded := true, old := [], cur := s.dev.blockOf (c.b 4 8) (c.q 7) 3344700 blk }
        ∧ (∀ k, k ≠ c.f 4 0 0 → t.dev.lut k = s.dev.lut k) ∧ Keeps (.cbe :: byDone) s.dev t.dev)
    ∧ (∀ src, src < 5 → s.dev.usesLut src (c.f 4 0 0) = true →
      ∃ t, exec (.cbeLoadLut3d r blk) s = .next t ∧ Begun s.dev t.dev r c
        ∧ (t.dev.lut (c.f 4 0 0)).cur = (s.dev.lut (c.f 4 0 0)).cur ∧ (t.dev.lut (c.f 4 0 0)).pendSrc = c.f 4 6 4
        ∧ (t.dev.lut (c.f 4 0 0)).pend.isSome = true ∧ Keeps [.cbe, .fetch] s.dev t.dev))

/-- CBE_LOAD_CFA, CBE_LOAD_BANK and CBE_READ_BANK (R187, R205). -/
def Obligations.BanksAndDescriptions : Prop :=
  (∀ (s : State) (r : CmdRef) (c : Cmd) (blk : List Byte), s.dev.cbeOff = false →
    (s.dev.clear specCbeLoadCfa r c = true → cfaBad (s.dev.blockOf (c.b 4 8) (c.q 5) 36 blk) = [] →
      ∃ t, exec (.cbeLoadCfa r blk) s = .next t ∧ t.pending = s.pending ∧ Answered s.dev t.dev r stSuccess 0
        ∧ SMap.get [] t.dev.cbe.cfa (c.f 4 3 0) = s.dev.blockOf (c.b 4 8) (c.q 5) 36 blk
        ∧ (∀ k, k ≠ c.f 4 3 0 → SMap.get [] t.dev.cbe.cfa k = SMap.get [] s.dev.cbe.cfa k)
        ∧ t.dev.cbe.banks = s.dev.cbe.banks ∧ Keeps (.cbe :: byDone) s.dev t.dev)
    ∧ (s.dev.clear specCbeLoadBank r c = true → bankBad (s.dev.bankBlock c blk) = [] →
      ∃ t, exec (.cbeLoadBank r blk) s = .next t ∧ t.pending = s.pending ∧ Answered s.dev t.dev r stSuccess 0
        ∧ SMap.get [] t.dev.cbe.banks (c.f 4 3 0) = s.dev.bankBlock c blk
        ∧ t.dev.bankBytes (c.f 4 3 0) = s.dev.bankBlock c blk
        ∧ (∀ k, k ≠ c.f 4 3 0 → SMap.get [] t.dev.cbe.banks k = SMap.get [] s.dev.cbe.banks k)
        ∧ t.dev.cbe.cfa = s.dev.cbe.cfa ∧ Keeps (.cbe :: byDone) s.dev t.dev))
  ∧ (∀ (s : State) (r : CmdRef) (c : Cmd), s.dev.clear specCbeReadBank r c = true → s.dev.cbeOff = false →
    ∃ t, exec (.cbeReadBank r) s = .next t ∧ t.pending = s.pending ∧ Answered s.dev t.dev r stSuccess 0
      ∧ (c.b 4 8 = false → Out.hostWrite (c.q 5) (s.dev.bankBytes (c.f 4 3 0)) ∈ t.dev.out
          ∧ Keeps byDone s.dev t.dev)
      ∧ (c.b 4 8 = true →
          Mem.rdN t.dev.mem.lpddr (c.q 5) (s.dev.bankBytes (c.f 4 3 0)).length = s.dev.bankBytes (c.f 4 3 0)
          ∧ (∀ a, a < c.q 5 ∨ c.q 5 + (s.dev.bankBytes (c.f 4 3 0)).length ≤ a →
              Mem.rd t.dev.mem.lpddr a = Mem.rd s.dev.mem.lpddr a)
          ∧ t.dev.mem = { s.dev.mem with lpddr := t.dev.mem.lpddr } ∧ Keeps (.mem :: byDone) s.dev t.dev))

/-- SPOKE_TOKEN, CBE_TOKEN and STU_ROW_PROCESSED (R174, R179, R225, R227). -/
def Obligations.PixelTokens : Prop :=
  (∀ (s : State) (k : Fin 16) (f : PipeFrame) (wy : Nat) (xs : List Nat), s.dev.idleMode = true →
    s.dev.rfe.frames = [f] → f.rfeDone = false → k.val ∈ fspokes f →
    tokenSites f (fstripe f ((fspokes f).idxOf k.val)) (SMap.get 0 f.tok k.val) = some (wy, xs) →
    ((s.dev.engDown k.val k.val = true ∨ s.dev.engDown 0x10 16 = true ∨ rowsReady f wy = false
        ∨ s.dev.cbeHeld f.src = true) →
      exec (.spokeToken k) s = .next s)
    ∧ (s.dev.engDown k.val k.val = false → s.dev.engDown 0x10 16 = false → rowsReady f wy = true →
      s.dev.cbeHeld f.src = false →
      (s.dev.dbg.frozen = true → 8 * k.val ≤ s.dev.dbg.point → s.dev.dbg.point < 8 * k.val + 8 →
        s.dev.dbg.credits = 0 →
        exec (.spokeToken k) s = .next { s with dev := { s.dev with dbg := { s.dev.dbg with waits := true } } })
      ∧ (s.dev.dbg.frozen = false →
        ∃ t g, exec (.spokeToken k) s = .next t ∧ t.pending = s.pending ∧ t.dev.rfe.frames = [g]
          ∧ g.src = f.src ∧ g.index = f.index ∧ SMap.get 0 g.tok k.val = SMap.get 0 f.tok k.val + 1
          ∧ (∀ j, j ≠ k.val → SMap.get 0 g.tok j = SMap.get 0 f.tok j)
          ∧ (∀ site, (∀ x ∈ xs, site ≠ siteKey x ((fwin f).y0 + wy)) →
              SMap.get 0 g.mos site = SMap.get 0 f.mos site)
          ∧ Keeps [.rfe, .ctrs, .mem] s.dev t.dev)))
  ∧ (∀ (s : State) (k : Fin 16) (f : PipeFrame) (wy : Nat) (xs : List Nat), s.dev.idleMode = true →
    s.dev.rfe.frames = [f] → f.cbeDone = false → k.val ∈ fspokes f →
    tokenSites f (fstripe f ((fspokes f).idxOf k.val)) (SMap.get 0 f.cbeTok k.val) = some (wy, xs) →
    (s.dev.engDown (sliceOf k.val).1 (sliceOf k.val).2 = true ∨ mosReady f wy = false
        ∨ s.dev.cbeHeld f.src = true →
      exec (.cbeToken k) s = .next s)
    ∧ (s.dev.engDown (sliceOf k.val).1 (sliceOf k.val).2 = false → mosReady f wy = true →
      s.dev.cbeHeld f.src = false → s.dev.dbg.frozen = false →
      ∃ t g, exec (.cbeToken k) s = .next t ∧ t.pending = s.pending ∧ t.dev.rfe.frames = [g]
        ∧ g.mos = f.mos ∧ SMap.get 0 g.cbeTok k.val = SMap.get 0 f.cbeTok k.val + 1
        ∧ (∀ j, j ≠ k.val → SMap.get 0 g.cbeTok j = SMap.get 0 f.cbeTok j)
        ∧ (∀ site, (∀ x ∈ xs, site ≠ siteKey x ((fwin f).y0 + wy)) →
            SMap.get {} g.work site = SMap.get {} f.work site)
        ∧ Keeps [.rfe] s.dev t.dev))
  ∧ (∀ (s : State) (src : Fin 5) (f : PipeFrame), s.dev.idleMode = true → s.dev.engDown 0x20 27 = false →
    s.dev.rfe.frames = [f] → f.src = src.val → f.stuDone = false → ffld f (0x50000 + 0x40 * src.val) 0 0 = 1 →
    (f.closed = false → f.stuRow < (fwin f).h → cbeRow f f.stuRow = false →
      exec (.stuRowProcessed src) s = .next s)
    ∧ (f.closed = false → f.stuRow < (fwin f).h → cbeRow f f.stuRow = true →
      ffld f (0x50000 + 0x40 * src.val) 1 1 = 0 →
      ∃ t g, exec (.stuRowProcessed src) s = .next t ∧ t.dev.rfe.frames = [g]
        ∧ g = { f with stuRow := f.stuRow + 1, clipped := g.clipped, ovf := g.ovf }
        ∧ t.dev.rfe.src = s.dev.rfe.src ∧ Keeps [.rfe] s.dev t.dev)
    ∧ (∀ n, f.closed = true → f.rfeDone = true → rowsGot f ≤ f.stuRow → s.dev.ringOf 1 = some n → s.dev.fits n 2 = true →
      ∃ t slot rc, exec (.stuRowProcessed src) s = .next t ∧ Out.record n slot rc ∈ t.dev.out ∧ rc.type = 0x1001
        ∧ rc.frame = f.index ∧ rc.page = 5 ∧ rc.inst = src.val ∧ (⟨37, 1, 2⟩ : Fld) ∈ rc.body
        ∧ (∀ g ∈ t.dev.rfe.frames, g.stuDone = true)))

/-- SPK_START and SPK_STOP (R221, R223). -/
def Obligations.SprocketsStartAndStop : Prop :=
  (∀ (s : State) (r : CmdRef) (c : Cmd) (n : Nat) (k : SpkCfg), s.dev.clear specSpkStart r c = true → n = c.f 4 2 0 →
    k = s.dev.spkRegs n →
    (s.dev.engOff (0x18 + n) (19 + n) = true →
      ∃ t, exec (.spkStart r) s = .next t ∧ Answered s.dev t.dev r stEngineDown 0 ∧ Keeps byDone s.dev t.dev)
    ∧ (s.dev.engDown (0x18 + n) (19 + n) = false → s.dev.spkErr n k c.handle ≠ 0 →
      ∃ t, exec (.spkStart r) s = .next t ∧ Answered s.dev t.dev r stInvalidField 4
        ∧ t.dev.spkOf n = { s.dev.spkOf n with cfgErr := s.dev.spkErr n k c.handle }
        ∧ (∀ m, m ≠ n → t.dev.spkOf m = s.dev.spkOf m) ∧ Keeps (.spk :: byDone) s.dev t.dev)
    ∧ (s.dev.engDown (0x18 + n) (19 + n) = false → s.dev.spkErr n k c.handle = 0 → k.dest = 4 →
      s.dev.ethLink k.destId = false →
      ∃ t, exec (.spkStart r) s = .next t ∧ Answered s.dev t.dev r stLinkDown 0 ∧ Keeps byDone s.dev t.dev)
    ∧ (s.dev.engDown (0x18 + n) (19 + n) = false → s.dev.spkErr n k c.handle = 0 →
      (k.dest = 4 → s.dev.ethLink k.destId = true) →
      ∃ t, exec (.spkStart r) s = .next t ∧ t.pending = s.pending
        ∧ Answered s.dev t.dev r stSuccess (s.dev.spkFirst n k)
        ∧ t.dev.spkOf n = { s.dev.spkOf n with
            state := .running, cfgErr := 0, latched := s.dev.spkLatch n, handle := c.handle
            fromIndex := if k.kind = 1 then s.dev.nextIndex k.id else 0
            lastDone := none, shed := false, shedNow := false, stopping := false }
        ∧ (∀ i, i < 12 → (SMap.get 0 (t.dev.spkOf n).latched (4 * i)).toNat
            = s.dev.reg (0x41000 + 0x100 * n + 4 * i) % 4294967296)
        ∧ (∀ m, m ≠ n → t.dev.spkOf m = s.dev.spkOf m) ∧ Keeps (.spk :: byDone) s.dev t.dev))
  ∧ (∀ (s : State) (r : CmdRef) (c : Cmd) (n : Nat), s.dev.clear specSpkStop r c = true → n = c.f 4 2 0 →
    ((s.dev.spkOf n).cur = none → (s.dev.spkOf n).bufs = [] → (s.dev.spkOf n).submits = [] →
      (s.dev.spkOf n).restarts = [] → (s.dev.spkOf n).applied = [] →
      ∃ t, exec (.spkStop r) s = .next t ∧ t.pending = s.pending
        ∧ Answered s.dev t.dev r stSuccess ((s.dev.spkOf n).lastDone.getD ones64)
        ∧ (t.dev.spkOf n).state = .stopped ∧ (t.dev.spkOf n).stopping = false ∧ (t.dev.spkOf n).latched = []
        ∧ (∀ m, m ≠ n → t.dev.spkOf m = s.dev.spkOf m)
        ∧ t.dev.boot = { s.dev.boot with pilot := if n = 0 then none else s.dev.boot.pilot }
        ∧ Keeps (.spk :: .rfe :: .boot :: byDone) s.dev t.dev)
    ∧ ((s.dev.spkOf n).cur.isSome = true → c.b 4 8 = false →
      ∃ t, exec (.spkStop r) s = .next t ∧ t.pending = s.pending ∧ Begun s.dev t.dev r c
        ∧ t.dev.spkOf n = { s.dev.spkOf n with stopping := true, stopRef := some r }
        ∧ (∀ m, m ≠ n → t.dev.spkOf m = s.dev.spkOf m) ∧ Keeps [.spk, .fetch] s.dev t.dev))

/-- SPK_RESTART, SPK_SET_PATH, SPK_LOAD_LUT, SPK_BUFFER and SPK_SUBMIT_FRAME (R209, R216, R221, R222). -/
def Obligations.SprocketQueues : Prop :=
  ∀ (s : State) (r : CmdRef) (c : Cmd) (blk : List Byte) (n : Nat), n = c.f 4 2 0 →
    (s.dev.clear (specSpkRestartTo blk) r c = true → s.dev.restartBad n (s.dev.blockOf false 0 64 blk) = [] →
      ∃ t, exec (.spkRestart r blk) s = .next t ∧ t.pending = s.pending ∧ Begun s.dev t.dev r c
        ∧ t.dev.spkOf n = { s.dev.spkOf n with
            restarts := (s.dev.spkOf n).restarts ++ [{ ref := r, bytes := s.dev.blockOf false 0 64 blk }] }
        ∧ (∀ m, m ≠ n → t.dev.spkOf m = s.dev.spkOf m) ∧ Keeps [.spk, .fetch] s.dev t.dev)
    ∧ (s.dev.engOff (0x18 + n) (19 + n) = false →
      (s.dev.clear specSpkSetPath r c = true → s.dev.pathBad n (if c.b 4 9 then some (c.q 5) else none) (s.dev.blockOf false 0 256 blk) = [] →
        (8 ≤ (s.dev.spkOf n).paths.length → exec (.spkSetPath r blk) s = .next s)
        ∧ ((s.dev.spkOf n).paths.length < 8 →
          ∃ t, exec (.spkSetPath r blk) s = .next t ∧ t.pending = s.pending ∧ Begun s.dev t.dev r c
            ∧ t.dev.spkOf n = { s.dev.spkOf n with paths := (s.dev.spkOf n).paths ++ [{
                ref := r, at? := if c.b 4 9 then some (c.q 5) else none, bytes := s.dev.blockOf false 0 256 blk }] }
            ∧ (∀ m, m ≠ n → t.dev.spkOf m = s.dev.spkOf m) ∧ Keeps [.spk, .fetch] s.dev t.dev))
      ∧ (s.dev.clear specSpkLoadLut r c = true →
        spkTableBad (c.f 4 7 4) (s.dev.blockOf (c.b 4 8) (c.q 7) (spkTableLen (c.f 4 7 4)) blk) = [] →
        ((s.dev.spkOf n).loads.filter (·.table == c.f 4 7 4)).length < 2 →
        ∃ t, exec (.spkLoadLut r blk) s = .next t ∧ t.pending = s.pending ∧ Begun s.dev t.dev r c
          ∧ t.dev.spkOf n = { s.dev.spkOf n with loads := (s.dev.spkOf n).loads ++ [{
              ref := r, table := c.f 4 7 4, at? := if c.b 4 9 then some (c.q 5) else none
              bytes := s.dev.blockOf (c.b 4 8) (c.q 7) (spkTableLen (c.f 4 7 4)) blk }] }
          ∧ (∀ m, m ≠ n → t.dev.spkOf m = s.dev.spkOf m) ∧ Keeps [.spk, .fetch] s.dev t.dev)
      ∧ (s.dev.clear specSpkBuffer r c = true →
        (16 ≤ (s.dev.spkOf n).bufs.length → exec (.spkBuffer r) s = .next s)
        ∧ ((s.dev.spkOf n).bufs.length < 16 →
          ∃ t, exec (.spkBuffer r) s = .next t ∧ t.pending = s.pending ∧ Begun s.dev t.dev r c
            ∧ t.dev.spkOf n = { s.dev.spkOf n with bufs := (s.dev.spkOf n).bufs ++ [{
                ref := r, a0 := c.q 5, a1 := c.q 7, a2 := c.q 9, dev := (s.dev.spkNow n).dest == 0 }] }
            ∧ (∀ m, m ≠ n → t.dev.spkOf m = s.dev.spkOf m) ∧ Keeps [.spk, .fetch] s.dev t.dev))
      ∧ (s.dev.clear specSpkSubmitFrame r c = true →
        (4 ≤ (s.dev.spkOf n).submits.length → exec (.spkSubmitFrame r) s = .next s)
        ∧ ((s.dev.spkOf n).submits.length < 4 →
          ∃ t m, exec (.spkSubmitFrame r) s = .next t ∧ t.pending = s.pending ∧ Begun s.dev t.dev r c
            ∧ t.dev.spkOf n = { s.dev.spkOf n with submits := (s.dev.spkOf n).submits ++ [m] }
            ∧ m.ref = c.ref ∧ m.format = c.f 4 11 8 ∧ m.addr = c.q 5 ∧ m.stride = c.w 7 ∧ m.w = c.f 8 13 0 + 1
            ∧ m.h = c.f 8 29 16 + 1 ∧ (∀ i, m.index = some i ↔ c.q 9 ≠ ones64 ∧ i = c.q 9)
            ∧ (∀ k, k ≠ n → t.dev.spkOf k = s.dev.spkOf k) ∧ Keeps [.spk, .fetch] s.dev t.dev)))

/-- SPK_FRAME_START, PATTERN_FRAME_TICK and SPK_TOKEN (R209, R214, R216, R219). -/
def Obligations.SprocketFrames : Prop :=
  (∀ (s : State) (n : Fin 8), s.dev.idleMode = true → s.dev.spkTake n.val = none →
    exec (.spkFrameStart n) s = .next s)
  ∧ (∀ (s : State) (n : Fin 8) (m : Submit) (ms : List Submit), (s.dev.skc n.val).kind = 2 →
    (s.dev.skc n.val).dest < 2 → (s.dev.skc n.val).m = (s.dev.skc n.val).n → 0 < (s.dev.skc n.val).n →
    (s.dev.spkOf n.val).submits = m :: ms → (s.dev.spkOf n.val).bufs = [] → s.dev.spkTake n.val = none)
  ∧ (∀ (s : State) (n : Fin 8) (f : SpkFrame) (v : Spk), s.dev.idleMode = true →
    (s.dev.spkOf n.val).state = .running → (s.dev.spkOf n.val).stopping = false → (s.dev.spkOf n.val).cur = none →
    (s.dev.spkOf n.val).paths = [] → (s.dev.spkOf n.val).loads = [] → (s.dev.spkOf n.val).restarts = [] →
    (s.dev.spkOf n.val).applied = [] → s.dev.spkTake n.val = some (f, v) → (∀ m, f.input ≠ .memory m) →
    (keptFrame (s.dev.skc n.val) f.index = false →
      ∃ t, exec (.spkFrameStart n) s = .next t ∧ (t.dev.spkOf n.val).cur = none
        ∧ t.dev.ctrs = s.dev.ctrs ∧ Keeps [.spk, .rfe] s.dev t.dev)
    ∧ (keptFrame (s.dev.skc n.val) f.index = true → v.shed = true →
      ∃ t, exec (.spkFrameStart n) s = .next t ∧ (t.dev.spkOf n.val).cur = none ∧ (t.dev.spkOf n.val).shedNow = true
        ∧ t.dev.ctrs = (s.dev.count (0x41064 + 0x100 * n.val) 1).ctrs ∧ Keeps [.spk, .rfe, .ctrs] s.dev t.dev)
    ∧ (keptFrame (s.dev.skc n.val) f.index = true → v.shed = false → s.dev.spkDown n.val = true →
      ∃ t, exec (.spkFrameStart n) s = .next t ∧ (t.dev.spkOf n.val).cur = none
        ∧ t.dev.ctrs = (s.dev.count (0x41068 + 0x100 * n.val) 1).ctrs ∧ Keeps [.spk, .rfe, .ctrs] s.dev t.dev)
    ∧ (keptFrame (s.dev.skc n.val) f.index = true → v.shed = false → s.dev.spkDown n.val = false →
      (s.dev.skc n.val).dest < 2 → v.bufs = [] →
      ∃ t, exec (.spkFrameStart n) s = .next t ∧ (t.dev.spkOf n.val).cur = none
        ∧ t.dev.ctrs = (s.dev.count (0x4106C + 0x100 * n.val) 1).ctrs ∧ Keeps [.spk, .rfe, .ctrs] s.dev t.dev)
    ∧ (∀ b bs, keptFrame (s.dev.skc n.val) f.index = true → v.shed = false → s.dev.spkDown n.val = false →
      (s.dev.skc n.val).dest < 2 → v.bufs = b :: bs →
      ∃ t g, exec (.spkFrameStart n) s = .next t ∧ (t.dev.spkOf n.val).cur = some g ∧ (t.dev.spkOf n.val).bufs = bs
        ∧ g.index = f.index ∧ g.input = f.input ∧ g.buf = some b ∧ g.latched = v.latched
        ∧ Keeps [.spk, .stu] s.dev t.dev)
    ∧ (keptFrame (s.dev.skc n.val) f.index = true → v.shed = false → s.dev.spkDown n.val = false →
      (s.dev.skc n.val).dest = 4 → s.dev.ethLink (s.dev.skc n.val).destId = false →
      ∃ t, exec (.spkFrameStart n) s = .next t ∧ (t.dev.spkOf n.val).cur = none
        ∧ t.dev.ctrs = (s.dev.count (0x41070 + 0x100 * n.val) 1).ctrs ∧ Keeps [.spk, .rfe, .ctrs] s.dev t.dev))
  ∧ (∀ (s : State) (n : Fin 8), s.dev.idleMode = true → (s.dev.spkOf n.val).state = .running →
    (s.dev.spkOf n.val).stopping = false → (s.dev.skc n.val).kind = 3 → s.dev.spkDown n.val = false →
    ((s.dev.skc n.val).pace = true → (s.dev.skc n.val).dest = 3 → (s.dev.spkOf n.val).paceDue = true) →
    ∃ t f, exec (.patternFrameTick n) s = .next t ∧ f.index = (s.dev.spkOf n.val).nextIndex ∧ f.input = .pattern
      ∧ f.expStart = s.dev.now
      ∧ t.dev.spkOf n.val = { s.dev.spkOf n.val with
          paceDue := false, nextIndex := (s.dev.spkOf n.val).nextIndex + 1
          arrivals := (s.dev.spkOf n.val).arrivals ++ [f] }
      ∧ (∀ m, m ≠ n.val → t.dev.spkOf m = s.dev.spkOf m) ∧ Keeps [.spk] s.dev t.dev)
  ∧ (∀ (s : State) (n : Fin 8) (f : SpkFrame), s.dev.idleMode = true → (s.dev.spkOf n.val).cur = some f →
    (frameSkc f).dest < 3 → s.dev.spkDown n.val = false →
    s.dev.spkReady f (frameSkc f).out (f.tok / ceilDiv (frameSkc f).out.w 8) = true →
    (f.tok + 1 < ceilDiv (frameSkc f).out.w 8 * (frameSkc f).out.h →
      ∃ t g, exec (.spkToken n true 0) s = .next t ∧ (t.dev.spkOf n.val).cur = some g ∧ g.tok = f.tok + 1
        ∧ g.index = f.index ∧ g.buf = f.buf ∧ (t.dev.spkOf n.val).bufs = (s.dev.spkOf n.val).bufs
        ∧ (∀ m, m ≠ n.val → t.dev.spkOf m = s.dev.spkOf m) ∧ Keeps [.spk] s.dev t.dev)
    ∧ (∀ i, f.tok + 1 < ceilDiv (frameSkc f).out.w 8 * (frameSkc f).out.h → s.dev.scopesOf 0 n.val = [0] →
      (s.dev.stuUnit 0).cur = some i → (s.dev.stuUnit 0).stopping = false →
      ∃ t, exec (.spkToken n true 1) s = .next t ∧ (t.dev.stuUnit 0).cur = none ∧ (t.dev.stuUnit 0).lastTerm = some i
        ∧ (t.dev.spkOf n.val).cur.map (·.tok) = some (f.tok + 1) ∧ Keeps (.spk :: .stu :: byPost) s.dev t.dev)
    ∧ (∀ b k o, ceilDiv (frameSkc f).out.w 8 * (frameSkc f).out.h ≤ f.tok + 1 → (frameSkc f).dest < 2 → f.buf = some b →
      (s.dev.spkOf n.val).stopping = false → s.dev.stu.units = [] → s.dev.hif.queueOps = [] →
      s.dev.cmd? b.ref = some k → k.fail = none → (s.dev.qp b.ref.qid).live = true →
      (s.dev.qp b.ref.qid).cqLost = false →
      ∃ t, exec (.spkToken n true o) s = .next t ∧ Answered s.dev t.dev b.ref stSuccess f.index
        ∧ (t.dev.spkOf n.val).cur = none ∧ (t.dev.spkOf n.val).lastDone = some f.index
        ∧ t.dev.ctrs = (s.dev.count (0x41060 + 0x100 * n.val) 1).ctrs
        ∧ Keeps (.spk :: .rfe :: .mem :: .ctrs :: byDone) s.dev t.dev)
    ∧ (∀ o src, (frameSkc f).prot = true → f.input = .live src →
      ∃ t, exec (.spkToken n false o) s = .next t
        ∧ t.dev.spkOf n.val = { s.dev.spkOf n.val with held := true } ∧ Keeps [.spk] s.dev t.dev)
    ∧ (∀ o, f.input = .pattern ∨ (∃ m, f.input = .memory m) →
      ∃ t, exec (.spkToken n false o) s = .next t ∧ t.dev.spkOf n.val = s.dev.spkOf n.val ∧ Keeps [.spk] s.dev t.dev)
    ∧ (∀ b o, (frameSkc f).prot = false → f.buf = some b → (s.dev.spkOf n.val).stopping = false →
      (∃ src, f.input = .live src) →
      ∃ t, exec (.spkToken n false o) s = .next t ∧ (t.dev.spkOf n.val).cur = none
        ∧ (t.dev.spkOf n.val).bufs = b :: (s.dev.spkOf n.val).bufs
        ∧ t.dev.ctrs = (s.dev.count (0x41068 + 0x100 * n.val) 1).ctrs
        ∧ Keeps (.spk :: .stu :: .rfe :: .ctrs :: byDone) s.dev t.dev))

/-- STU_UNIT_START, STU_UNIT_STOP and STU_BUFFER (R228, R240, R243). -/
def Obligations.StatisticsUnitsAndBuffers : Prop :=
  (∀ (s : State) (r : CmdRef) (c : Cmd), s.dev.clear specUnitStart r c = true →
    (s.dev.engOff 0x20 27 = true →
      ∃ t, exec (.stuUnitStart r) s = .next t ∧ Answered s.dev t.dev r stEngineDown 0 ∧ Keeps byDone s.dev t.dev)
    ∧ (s.dev.engDown 0x20 27 = false → c.f 4 1 0 < 2 → s.dev.scopeBad (c.f 4 1 0) = true →
      ∃ t, exec (.stuUnitStart r) s = .next t ∧ Answered s.dev t.dev r stInvalidField 4 ∧ Keeps byDone s.dev t.dev)
    ∧ (s.dev.engDown 0x20 27 = false → (c.f 4 1 0 < 2 → s.dev.scopeBad (c.f 4 1 0) = false) →
      ∃ t, exec (.stuUnitStart r) s = .next t ∧ t.pending = s.pending
        ∧ Answered s.dev t.dev r stSuccess (s.dev.unitFirst (c.f 4 1 0))
        ∧ (t.dev.stuUnit (c.f 4 1 0)).running = true ∧ (t.dev.stuUnit (c.f 4 1 0)).stopping = false
        ∧ (c.f 4 1 0 < 2 → (t.dev.stuUnit (c.f 4 1 0)).latched = BitVec.ofNat 32 (s.dev.reg (0x50400 + 0x20 * c.f 4 1 0)))
        ∧ (∀ u, u ≠ c.f 4 1 0 → t.dev.stuUnit u = s.dev.stuUnit u) ∧ t.dev.stu.bufs = s.dev.stu.bufs
        ∧ Keeps (.stu :: byDone) s.dev t.dev))
  ∧ (∀ (s : State) (r : CmdRef) (c : Cmd), s.dev.clear specUnitStop r c = true →
    ((s.dev.stuUnit (c.f 4 1 0)).cur = none →
      ∃ t, exec (.stuUnitStop r) s = .next t ∧ t.pending = s.pending
        ∧ Answered s.dev t.dev r stSuccess ((s.dev.stuUnit (c.f 4 1 0)).lastTerm.getD ones64)
        ∧ (t.dev.stuUnit (c.f 4 1 0)).running = false
        ∧ (∀ u, u ≠ c.f 4 1 0 → t.dev.stuUnit u = s.dev.stuUnit u) ∧ Keeps (.stu :: byDone) s.dev t.dev)
    ∧ (∀ i, (s.dev.stuUnit (c.f 4 1 0)).cur = some i → c.b 4 8 = false →
      ∃ t, exec (.stuUnitStop r) s = .next t ∧ t.pending = s.pending ∧ Begun s.dev t.dev r c
        ∧ t.dev.stuUnit (c.f 4 1 0)
            = { s.dev.stuUnit (c.f 4 1 0) with stopping := true, stopRef := some r }
        ∧ (∀ u, u ≠ c.f 4 1 0 → t.dev.stuUnit u = s.dev.stuUnit u) ∧ Keeps [.stu, .fetch] s.dev t.dev)
    ∧ (∀ i, (s.dev.stuUnit (c.f 4 1 0)).cur = some i → c.b 4 8 = true →
      ∃ t, exec (.stuUnitStop r) s = .next t ∧ Answered s.dev t.dev r stSuccess i
        ∧ (t.dev.stuUnit (c.f 4 1 0)).running = false ∧ Keeps (.stu :: .fetch :: byPost) s.dev t.dev))
  ∧ (∀ (s : State) (r : CmdRef) (c : Cmd), s.dev.clear specStuBuffer r c = true →
    (16 ≤ (SMap.get [] s.dev.stu.bufs (c.f 4 3 0)).length → exec (.stuBuffer r) s = .next s)
    ∧ ((SMap.get [] s.dev.stu.bufs (c.f 4 3 0)).length < 16 →
      ∃ t, exec (.stuBuffer r) s = .next t ∧ t.pending = s.pending ∧ Begun s.dev t.dev r c
        ∧ SMap.get [] t.dev.stu.bufs (c.f 4 3 0) = SMap.get [] s.dev.stu.bufs (c.f 4 3 0) ++ [{
            ref := r, a0 := c.q 5, dev := c.b 4 8, len := c.w 7 }]
        ∧ (∀ k, k ≠ c.f 4 3 0 → SMap.get [] t.dev.stu.bufs k = SMap.get [] s.dev.stu.bufs k)
        ∧ t.dev.stu.units = s.dev.stu.units ∧ Keeps [.stu, .fetch] s.dev t.dev))

/-- TRANSFER_REQUEST, ARBITER_DECISION, DATA_PHASE_END, STARVE_TIMER_EXPIRY and HUB_SET_PORT (R407 to R425). -/
def Obligations.HubArbitration : Prop :=
  (∀ (s : State) (p : Fin 38) (k : Fin 12) (a len : Nat) (w : Bool), s.dev.idleMode = true →
    (s.dev.hubBusy p.val = true ∨ s.dev.transferOk p.val k.val a len = false →
      exec (.transferRequest p k a len w) s = .next s)
    ∧ (s.dev.hubBusy p.val = false → s.dev.transferOk p.val k.val a len = true →
      (s.dev.arb k.val).credits + (if w then len / 64 else 0) ≤ (if k.val < 8 then 512 else 128) →
      ∃ t, exec (.transferRequest p k a len w) s = .next t
        ∧ t.dev.arb k.val = { s.dev.arb k.val with
            credits := (s.dev.arb k.val).credits + (if w then len / 64 else 0)
            reqs := (s.dev.arb k.val).reqs ++ [{
              port := p.val, addr := a, len := len, write := w, starve := s.dev.fld (0x10100 + 4 * p.val) 31 16 }] }
        ∧ (∀ j, j ≠ k.val → t.dev.arb j = s.dev.arb j) ∧ Keeps [.hub] s.dev t.dev))
  ∧ (∀ (s : State) (k : Fin 12), s.dev.idleMode = true →
    ((s.dev.arb k.val).reqs = [] ∨ (s.dev.arb k.val).next.isSome = true → exec (.arbiterDecision k) s = .next s)
    ∧ ((s.dev.arb k.val).next = none →
      (∃ q ∈ (s.dev.arb k.val).reqs, s.dev.masked (s.dev.arb k.val) q.port = false) →
      ∃ t r, exec (.arbiterDecision k) s = .next t ∧ r ∈ (s.dev.arb k.val).reqs
        ∧ s.dev.masked (s.dev.arb k.val) r.port = false
        ∧ (∀ q ∈ (s.dev.arb k.val).reqs, s.dev.masked (s.dev.arb k.val) q.port = false →
            s.dev.hubPort r.port 1 0 ≤ s.dev.hubPort q.port 1 0
            ∧ (s.dev.hubPort r.port 1 0 = s.dev.hubPort q.port 1 0 →
                roundFrom (SMap.get 0 (s.dev.arb k.val).last (s.dev.hubPort r.port 1 0)) r.port
                  ≤ roundFrom (SMap.get 0 (s.dev.arb k.val).last (s.dev.hubPort r.port 1 0)) q.port))
        ∧ (t.dev.arb k.val).reqs = (s.dev.arb k.val).reqs.filter (· != r)
        ∧ SMap.get 0 (t.dev.arb k.val).last (s.dev.hubPort r.port 1 0) = r.port + 1
        ∧ ((s.dev.arb k.val).owner = none →
            (t.dev.arb k.val).owner = some r ∧ t.dev.out = s.dev.out ++ [.hubGrant k.val r.port])
        ∧ (∀ o, (s.dev.arb k.val).owner = some o →
            (t.dev.arb k.val).owner = some o ∧ (t.dev.arb k.val).next = some r ∧ t.dev.out = s.dev.out)
        ∧ (∀ j, j ≠ k.val → t.dev.arb j = s.dev.arb j) ∧ Keeps [.hub, .out] s.dev t.dev))
  ∧ (∀ (s : State) (k : Fin 12) (ecc link : Nat) (un : Option Nat) (r : HubReq), s.dev.idleMode = true →
    (s.dev.arb k.val).owner = some r →
    (un = none → ∃ t, exec (.dataPhaseEnd k ecc link un) s = .next t
      ∧ t.dev.arb k.val = { s.dev.arb k.val with
          owner := (s.dev.arb k.val).next, next := none
          credits := (s.dev.arb k.val).credits - (if r.write then r.len / 64 else 0) }
      ∧ t.dev.out = s.dev.out ++ ((s.dev.arb k.val).next.map fun n => Out.hubGrant k.val n.port).toList
      ∧ (∀ j, j ≠ k.val → t.dev.arb j = s.dev.arb j) ∧ Keeps [.hub, .out, .ctrs] s.dev t.dev)
    ∧ (∀ a, un = some a → k.val < 8 → r.write = false →
      ∃ t, exec (.dataPhaseEnd k ecc link un) s = .next t ∧ t.dev.hub.lastAddr = a
        ∧ (t.dev.arb k.val).owner = (s.dev.arb k.val).next ∧ Keeps (.hub :: byPost) s.dev t.dev))
  ∧ (∀ (s : State) (p : Fin 38), s.dev.idleMode = true →
    ((∀ e ∈ s.dev.hub.arbs, ∀ q ∈ e.2.reqs, q.port = p.val → q.starve = 0) →
      exec (.starveTimerExpiry p) s = .next s)
    ∧ ((∃ e ∈ s.dev.hub.arbs, ∃ q ∈ e.2.reqs, q.port = p.val ∧ q.starve ≠ 0) →
      ∃ t, exec (.starveTimerExpiry p) s = .next t
        ∧ (t.dev.reg (0x10020 + p.val / 32 * 4)).testBit (p.val % 32) = true
        ∧ (∀ o, o ≠ 0x10020 + p.val / 32 * 4 → t.dev.reg o = s.dev.reg o)
        ∧ Keeps (.regs :: byPost) s.dev t.dev))
  ∧ (∀ (s : State) (r : CmdRef) (c : Cmd), s.dev.clear specHubSetPort r c = true →
    ∃ t, exec (.hubSetPort r) s = .next t ∧ t.pending = s.pending ∧ Answered s.dev t.dev r stSuccess 0
      ∧ t.dev.hubPort (c.f 4 5 0) 1 0 = c.f 5 1 0 ∧ t.dev.hubPort (c.f 4 5 0) 15 8 = c.f 4 15 8
      ∧ t.dev.hubPort (c.f 4 5 0) 31 16 = c.f 4 31 16
      ∧ (∀ o, o ≠ 0x10100 + 4 * c.f 4 5 0 → t.dev.reg o = s.dev.reg o) ∧ Keeps (.regs :: byDone) s.dev t.dev)

/-- ENC_OPEN, ENC_PICTURE, ENC_SET_RC, ENC_CLOSE and ENCODER_FRAME_ARRIVAL (R251, R256, R268 to R272). -/
def Obligations.EncodeSessions : Prop :=
  (∀ (s : State) (r : CmdRef) (c : Cmd) (blk b : List Byte), s.dev.clear (specEncOpenOf blk) r c = true →
    b = s.dev.blockOf false 0 256 blk →
    (s.dev.encOffs c b ≠ [] →
      ∃ t res, exec (.encOpen r blk) s = .next t ∧ Answered s.dev t.dev r stInvalidField res ∧ Keeps byDone s.dev t.dev)
    ∧ (s.dev.encOffs c b = [] → s.dev.codecOff = true →
      ∃ t, exec (.encOpen r blk) s = .next t ∧ Answered s.dev t.dev r stEngineDown 0 ∧ Keeps byDone s.dev t.dev)
    ∧ (s.dev.encOffs c b = [] → s.dev.codecOff = false →
      ∃ t e, exec (.encOpen r blk) s = .next t ∧ t.pending = s.pending ∧ Answered s.dev t.dev r stSuccess 0
        ∧ t.dev.enc? c.handle = some e ∧ e.block = b ∧ e.src = c.b 4 0 ∧ e.workAddr = c.q 7 ∧ e.workLen = c.w 9
        ∧ e.full = bn b 84 4 * 65536 ∧ e.debt = 0 ∧ e.picNum = 0 ∧ e.lastPic = none ∧ e.sinceIdr = none
        ∧ e.jobs = [] ∧ e.cur = none ∧ e.closing = none ∧ e.frames = [] ∧ e.refs = []
        ∧ (∀ h, h ≠ c.handle → t.dev.enc? h = s.dev.enc? h) ∧ t.dev.codec.dec = s.dev.codec.dec
        ∧ Keeps (.codec :: byDone) s.dev t.dev))
  ∧ (∀ (s : State) (r : CmdRef) (c : Cmd) (hb : Nat) (e : EncSession), s.dev.clear specEncPicture r c = true →
    s.dev.enc? c.handle = some e →
    (s.dev.codecGone = true →
      ∃ t, exec (.encPicture r hb) s = .next t ∧ Answered s.dev t.dev r stEngineDown 0
        ∧ Keeps (.codec :: .ctrs :: byDone) s.dev t.dev)
    ∧ (s.dev.codecGone = false → s.dev.jobAhead c = true → exec (.encPicture r hb) s = .next s)
    ∧ (s.dev.codecGone = false → s.dev.jobAhead c = false →
      ∃ t, exec (.encPicture r hb) s = .next t ∧ t.pending = s.pending ∧ Begun s.dev t.dev r c
        ∧ t.dev.enc? c.handle
            = some { e with jobs := e.jobs ++ [{ ref := r, num := c.num, headerBits := hb }] }
        ∧ (∀ h, h ≠ c.handle → t.dev.enc? h = s.dev.enc? h) ∧ Keeps [.codec, .fetch] s.dev t.dev))
  ∧ (∀ (s : State) (r : CmdRef) (c : Cmd) (blk : List Byte) (e : EncSession), s.dev.clear specEncSetRc r c = true →
    s.dev.enc? c.handle = some e → rcBad e (s.dev.blockOf false 0 64 blk) = [] →
    ∃ t, exec (.encSetRc r blk) s = .next t ∧ t.pending = s.pending
      ∧ Answered s.dev t.dev r stSuccess ((e.picNum + if e.cur.isSome then 1 else 0) % 4294967296)
      ∧ t.dev.enc? c.handle = some { e with pendRc := some (s.dev.blockOf false 0 64 blk) }
      ∧ (∀ h, h ≠ c.handle → t.dev.enc? h = s.dev.enc? h) ∧ Keeps (.codec :: byDone) s.dev t.dev)
  ∧ (∀ (s : State) (r : CmdRef) (c : Cmd) (e : EncSession), s.dev.clear specEncClose r c = true →
    s.dev.enc? c.handle = some e → s.dev.jobsLeft 4 c.handle = [] → e.jobs = [] → e.frames = [] →
    (∀ n, n < 8 → ∀ x ∈ (s.dev.spkOf n).encOut, x.1 ≠ c.handle) →
    (e.cur = none →
      ∃ t, exec (.encClose r) s = .next t ∧ t.pending = s.pending
        ∧ Answered s.dev t.dev r stSuccess (e.lastPic.getD 4294967295) ∧ t.dev.enc? c.handle = none
        ∧ (∀ h, h ≠ c.handle → t.dev.enc? h = s.dev.enc? h) ∧ Keeps (.codec :: byDone) s.dev t.dev)
    ∧ (e.cur.isSome = true →
      ∃ t, exec (.encClose r) s = .next t ∧ Begun s.dev t.dev r c
        ∧ t.dev.enc? c.handle = some { e with closing := some r }
        ∧ (∀ h, h ≠ c.handle → t.dev.enc? h = s.dev.enc? h) ∧ Keeps [.codec, .fetch] s.dev t.dev))
  ∧ (∀ (s : State) (h i n : Nat) (b : EncBind) (rest : List (Nat × EncBind)) (e : EncSession)
    (m : List EncFrame × Nat), s.dev.idleMode = true → n < 8 → b.index = i →
    (s.dev.spkOf n).encOut = (h, b) :: rest →
    (∀ k, k < n → ∀ x ∈ (s.dev.spkOf k).encOut, ¬ (x.1 = h ∧ x.2.index = i)) → s.dev.enc? h = some e →
    m = matchFrames (s.dev.encPend h e) (e.frames ++ [{ bind := b, num := s.dev.hif.fetchNum }]) →
    ∃ t, exec (.encoderFrameArrival h i) s = .next t ∧ t.dev.enc? h = some { e with frames := m.1 }
      ∧ t.dev.ctrs = (s.dev.count 0x60040 m.2).ctrs ∧ t.dev.spkOf n = { s.dev.spkOf n with encOut := rest }
      ∧ (∀ k, k ≠ h → t.dev.enc? k = s.dev.enc? k) ∧ Keeps [.spk, .codec, .ctrs] s.dev t.dev)
  ∧ (∀ (f : EncFrame) (a : Nat) (js : List Nat), (a < f.num → matchFrames (a :: js) [f] = ([f], 0))
    ∧ (f.num ≤ a → matchFrames [a] [f] = ([], 1)))

/-- PXE_ROW_START and ENE_ROW_COMMIT (R254 to R256, R263 to R265). -/
def Obligations.EncodeRows : Prop :=
  (∀ (s : State) (h : Nat) (e : EncSession) (p : EncPic), s.dev.idleMode = true → s.dev.enc? h = some e →
    s.dev.pxeUp = true → e.cur = some p →
    (p.begun < encRows e → p.begun ≤ p.committed + s.dev.fld 0x60000 2 0 →
      ∃ t, exec (.pxeRowStart h) s = .next t
        ∧ t.dev.enc? h = some { e with cur := some { p with begun := p.begun + 1 } }
        ∧ (∀ k, k ≠ h → t.dev.enc? k = s.dev.enc? k) ∧ Keeps [.codec, .mem] s.dev t.dev)
    ∧ (encRows e ≤ p.begun ∨ p.committed + s.dev.fld 0x60000 2 0 < p.begun → exec (.pxeRowStart h) s = .next s))
  ∧ (∀ (s : State) (h : Nat) (e : EncSession) (j : EncJob) (js : List EncJob) (c : Cmd) (idr forced : Bool)
    (n need : Nat) (sweep : Option Nat), s.dev.idleMode = true → s.dev.enc? h = some e → s.dev.pxeUp = true →
    e.cur = none → e.jobs = j :: js → s.dev.cmd? j.ref = some c →
    (e.src = true → ∃ f fs, e.frames = f :: fs ∧ j.num < f.num) →
    encKind (takeRc e) c = (idr, forced, n, sweep) →
    need = j.headerBits + eosBits c + reserveFrom (takeRc e) idr sweep 0 →
    (need ≤ capHost (takeRc e) (c.w 7) (c.w 13) →
      ∃ t g p, exec (.pxeRowStart h) s = .next t ∧ t.dev.enc? h = some g ∧ g.jobs = js ∧ g.frames = e.frames.drop 1
        ∧ g.cur = some p ∧ g.pendRc = none ∧ p.ref = j.ref ∧ p.idr = idr ∧ p.poc = n ∧ p.sweep = sweep ∧ p.begun = 1
        ∧ p.committed = 0 ∧ p.floorFrom = none ∧ p.cap = capEff (takeRc e) (c.w 7) (c.w 13)
        ∧ p.bits = j.headerBits + eosBits c
        ∧ (∀ f fs, e.src = true → e.frames = f :: fs → p.bind = f.bind) ∧ (∀ k, k ≠ h → t.dev.enc? k = s.dev.enc? k)
        ∧ Keeps [.codec, .mem] s.dev t.dev)
    ∧ (capHost (takeRc e) (c.w 7) (c.w 13) < need → c.fail = none →
      (s.dev.qp j.ref.qid).live = true → (s.dev.qp j.ref.qid).cqLost = false → s.dev.hif.queueOps = [] →
      e.closing = none →
      ∃ t res g, exec (.pxeRowStart h) s = .next t ∧ Answered s.dev t.dev j.ref stInvalidField res
        ∧ t.dev.enc? h = some g ∧ g.jobs = js ∧ g.cur = none ∧ Keeps (.codec :: .ctrs :: byDone) s.dev t.dev))
  ∧ (∀ (s : State) (h i : Nat) (e : EncSession) (p q : EncPic) (c : Cmd) (row : RowBits), s.dev.idleMode = true →
    s.dev.enc? h = some e → e.cur = some p → s.dev.cmd? p.ref = some c → s.dev.eneFor c.num p.ene = some i →
    p.committed < p.begun →
    q = { p with
      bits := p.bits + row.bits, committed := p.committed + 1, rows := p.rows ++ [row.ctus], ene := some i } →
    (∀ f, row.internal = none → p.floorFrom = some f → f ≤ p.committed →
      (rowRight e p true p.committed row.ctus = false ∨ rowReserve e p.idr p.sweep p.committed < row.bits →
        exec (.eneRowCommit h row) s = .next s)
      ∧ (rowRight e p true p.committed row.ctus = true → row.bits ≤ rowReserve e p.idr p.sweep p.committed →
        p.committed + 1 ≠ encRows e →
        ∃ t, exec (.eneRowCommit h row) s = .next t ∧ t.dev.enc? h = some { e with cur := some q }
          ∧ Keeps [.codec] s.dev t.dev))
    ∧ (row.internal = none → p.floorFrom = none → rowRight e p false p.committed row.ctus = false →
      exec (.eneRowCommit h row) s = .next s)
    ∧ (∀ k, row.internal = none → p.floorFrom = none → rowRight e p false p.committed row.ctus = true →
      p.cap = some k → k < p.bits + row.bits + reserveFrom e p.idr p.sweep (p.committed + 1) →
      ∃ t, exec (.eneRowCommit h row) s = .next t
        ∧ t.dev.enc? h
            = some { e with cur := some { p with floorFrom := some p.committed, begun := p.committed, ene := some i } }
        ∧ Keeps [.codec] s.dev t.dev)
    ∧ (row.internal = none → p.floorFrom = none → rowRight e p false p.committed row.ctus = true →
      (∀ k, p.cap = some k → p.bits + row.bits + reserveFrom e p.idr p.sweep (p.committed + 1) ≤ k) →
      (p.committed + 1 ≠ encRows e →
        ∃ t, exec (.eneRowCommit h row) s = .next t ∧ t.dev.enc? h = some { e with cur := some q }
          ∧ (∀ k, k ≠ h → t.dev.enc? k = s.dev.enc? k) ∧ Keeps [.codec] s.dev t.dev)
      ∧ (p.committed + 1 = encRows e → fillerOk e p (p.bits + row.bits) row.filler = true → e.closing = none →
        c.fail = none → (s.dev.qp p.ref.qid).live = true → (s.dev.qp p.ref.qid).cqLost = false →
        s.dev.hif.queueOps = [] →
        ∃ t g, exec (.eneRowCommit h row) s = .next t
          ∧ Answered s.dev t.dev p.ref stSuccess
              ((ceilDiv (p.bits + row.bits + row.filler) 8 + 4 * encNals e q row.filler (c.b 4 2)) % 4294967296
                + 65535 * 2 ^ 32)
          ∧ t.dev.enc? h = some g ∧ g.cur = none ∧ g.picNum = (e.picNum + 1) % 4294967296
          ∧ g.lastPic = some e.picNum ∧ g.sinceIdr = some p.poc ∧ g.jobs = e.jobs ∧ g.refs = refsAfter e q
          ∧ g.full = (rcAfter e (p.bits + row.bits + row.filler)).full
          ∧ Keeps (.codec :: .mem :: .ctrs :: byDone) s.dev t.dev))
    ∧ (∀ k, row.internal = some k → s.dev.sliceServes k = true → c.fail = none →
      (s.dev.qp p.ref.qid).live = true → (s.dev.qp p.ref.qid).cqLost = false → s.dev.hif.queueOps = [] →
      ∃ t x, exec (.eneRowCommit h row) s = .next t ∧ Answered s.dev t.dev p.ref stInternal 0
        ∧ x ∈ t.dev.eng.resets ∧ x.code = k ∧ x.auto = true))

/-- DEC_OPEN, DEC_OUTPUT, DEC_FLUSH and DEC_CLOSE (R278, R280, R283, R290). -/
def Obligations.DecodeSessions : Prop :=
  (∀ (s : State) (r : CmdRef) (c : Cmd) (blk b : List Byte), s.dev.clear (specDecOpenOf blk) r c = true →
    b = s.dev.blockOf false 0 64 blk →
    blkOffs 5 (s.dev.decBad b) ++ s.dev.workOffs c (decWork b (s.dev.fld 0x60000 2 0)) = [] →
    (s.dev.codecOff = true →
      ∃ t, exec (.decOpen r blk) s = .next t ∧ Answered s.dev t.dev r stEngineDown 0 ∧ Keeps byDone s.dev t.dev)
    ∧ (s.dev.codecOff = false →
      ∃ t, exec (.decOpen r blk) s = .next t ∧ t.pending = s.pending ∧ Answered s.dev t.dev r stSuccess 0
        ∧ t.dev.dec? c.handle = some (newDec c b) ∧ (newDec c b).block = b ∧ (newDec c b).dpb = [] ∧ (newDec c b).bufs = []
        ∧ (∀ h, h ≠ c.handle → t.dev.dec? h = s.dev.dec? h) ∧ t.dev.codec.enc = s.dev.codec.enc
        ∧ Keeps (.codec :: byDone) s.dev t.dev))
  ∧ (∀ (s : State) (r : CmdRef) (c : Cmd) (e : DecSession), s.dev.dec? c.handle = some e →
    (s.dev.clear specDecOutput r c = true →
      ∃ t, exec (.decOutput r) s = .next t ∧ t.pending = s.pending ∧ Begun s.dev t.dev r c
        ∧ t.dev.dec? c.handle = some { e with
            bufs := e.bufs ++ [{ ref := r, a0 := c.q 5, a1 := c.w 7, dev := c.b 4 8, len := c.w 8 }] }
        ∧ (∀ h, h ≠ c.handle → t.dev.dec? h = s.dev.dec? h) ∧ Keeps [.codec, .fetch] s.dev t.dev)
    ∧ (s.dev.clear specDecFlush r c = true → s.dev.jobAhead c = false → e.flushing = none → e.closing = none →
      e.drain = false →
      (waiting e = [] →
        ∃ t g, exec (.decFlush r) s = .next t ∧ t.pending = s.pending ∧ Answered s.dev t.dev r stSuccess 0
          ∧ t.dev.dec? c.handle = some g ∧ g.dpb = [] ∧ g.flushing = none ∧ g.bufs = e.bufs ∧ g.picNum = e.picNum
          ∧ Keeps (.codec :: byDone) s.dev t.dev)
      ∧ (waiting e ≠ [] →
        ∃ t g, exec (.decFlush r) s = .next t ∧ Begun s.dev t.dev r c ∧ t.dev.dec? c.handle = some g
          ∧ g.flushing = some r ∧ (∀ p ∈ g.dpb, p.isRef = false ∧ p.output = true) ∧ Keeps [.codec, .fetch] s.dev t.dev))
    ∧ (s.dev.clear specDecClose r c = true → s.dev.hif.cmds = [c] → e.flushing = none → waiting e = [] → e.bufs = [] →
      ∃ t, exec (.decClose r) s = .next t ∧ t.pending = s.pending
        ∧ Answered s.dev t.dev r stSuccess 0
        ∧ t.dev.dec? c.handle = none ∧ (∀ h, h ≠ c.handle → t.dev.dec? h = s.dev.dec? h)
        ∧ Keeps (.codec :: byDone) s.dev t.dev))

/-- DEC_DECODE and DEC_PICTURE_OUTPUT (R279 to R288). -/
def Obligations.DecodeJobs : Prop :=
  (∀ (s : State) (r : CmdRef) (c : Cmd) (a : AccessUnit) (e : DecSession), s.dev.clear specDecDecode r c = true →
    s.dev.codecGone = false → s.dev.pxeUp = true → (s.dev.eneFor c.num none).isSome = true → s.dev.jobAhead c = false →
    s.dev.dec? c.handle = some e → e.flushing = none → e.closing = none → e.drain = false →
    (∀ k, a.internal = some k → s.dev.sliceServes k = true →
      ∃ t x, exec (.decDecode r a) s = .next t ∧ Answered s.dev t.dev r stInternal 0
        ∧ x ∈ t.dev.eng.resets ∧ x.code = k ∧ x.auto = true)
    ∧ (a.internal = none → discardCode e a ≠ 0 →
      ∃ t g, exec (.decDecode r a) s = .next t
        ∧ Answered s.dev t.dev r stBitstream (e.picNum + 16777215 * 4294967296 + discardCode e a * 2 ^ 56)
        ∧ t.dev.dec? c.handle = some g ∧ g.dpb = e.dpb ∧ g.picNum = e.picNum
        ∧ t.dev.ctrs = (s.dev.count 0x60844 1).ctrs ∧ Keeps (.codec :: .ctrs :: byDone) s.dev t.dev)
    ∧ (a.internal = none → discardCode e a = 0 → min (b8 e.block 5) (max 1 a.size) ≤ (refSet e a).length →
      (∃ p ∈ refSet e a, p.output = true ∧ p.isRef = false) →
      ∃ t, exec (.decDecode r a) s = .next t ∧ t.dev.cmd? r = some c
        ∧ t.dev.dec? c.handle = some { e with need := some c.num } ∧ Keeps [.codec] s.dev t.dev)
    ∧ (a.internal = none →
      (refSet e a).length < min (b8 e.block 5) (max 1 a.size) ∨ (∀ p ∈ refSet e a, p.isRef = true) →
      auOver e a = false →
      (a.irap = true → a.errCode = 0 →
        ∃ t g p, exec (.decDecode r a) s = .next t ∧ t.pending = s.pending
          ∧ Answered s.dev t.dev r stSuccess (e.picNum + 16777215 * 4294967296) ∧ t.dev.dec? c.handle = some g
          ∧ g.picNum = (e.picNum + 1) % 4294967296 ∧ g.dpb.getLast? = some p ∧ p.poc = a.poc ∧ p.tainted = false
          ∧ p.output = a.outputFlag ∧ p.src = .coded g.made ∧ g.discard = none ∧ g.firstTaint = none
          ∧ Keeps (.codec :: .mem :: .ctrs :: byDone) s.dev t.dev)
      ∧ (a.errCode = 5 ∨ a.errCode = 6 → e.discard = none →
        ∃ t g p, exec (.decDecode r a) s = .next t
          ∧ Answered s.dev t.dev r stBitstream
              (e.picNum + a.firstBadCtu % 16777216 * 4294967296 + a.errCode * 2 ^ 56)
          ∧ t.dev.dec? c.handle = some g ∧ g.picNum = (e.picNum + 1) % 4294967296 ∧ g.dpb.getLast? = some p
          ∧ p.poc = a.poc ∧ p.tainted = true ∧ Keeps (.codec :: .mem :: .ctrs :: byDone) s.dev t.dev)))
  ∧ (∀ (s : State) (h : Nat) (e : DecSession), s.dev.idleMode = true → s.dev.dec? h = some e →
    (e.bufs = [] ∨ waiting e = [] → exec (.decPictureOutput h) s = .next s)
    ∧ (∀ p b bs k, firstOut e = some p → e.bufs = b :: bs → e.drain = false → outDue e false (s.dev.decNeeds e) = true →
      e.flushing = none → e.closing = none → fmtRow (decFmt p) p.w ≤ b.a1 → b.a1 * decRows p ≤ b.len →
      s.dev.outSpk e = none → s.dev.hif.queueOps = [] → s.dev.cmd? b.ref = some k → k.fail = none →
      (s.dev.qp b.ref.qid).live = true → (s.dev.qp b.ref.qid).cqLost = false →
      ∃ t g, exec (.decPictureOutput h) s = .next t
        ∧ Answered s.dev t.dev b.ref (if p.tainted then stConcealed else stSuccess)
            (e.outNum + fromSigned 32 p.poc * 4294967296)
        ∧ t.dev.dec? h = some g ∧ g.bufs = bs ∧ g.outNum = (e.outNum + 1) % 4294967296
        ∧ Keeps (.codec :: .mem :: byDone) s.dev t.dev))

/-- The predictor and its inverse agree on whole records (R302, R303, R311). -/
def Obligations.RecordIsLossless : Prop :=
  ∀ (f : StagedFrame) (bands : Nat) (v : RawRecord), 1 ≤ bands → bands ≤ 12 → 1 ≤ f.px → f.px ≤ 8 → 1 ≤ f.py → f.py ≤ 8 →
    (f.depth = 10 ∨ f.depth = 12 ∨ f.depth = 14 ∨ f.depth = 16) → (f.planes = 1 ∨ f.planes = 2) → 1 ≤ f.width →
    f.rows.length = f.height → (∀ row ∈ f.rows, row.length = f.width * f.planes ∧ ∀ z ∈ row, z < 2 ^ f.depth) →
    (bands - 1) * bandRows f.height bands f.py < f.height →
    v = { fault := false, frameIndex := f.index, depth := f.depth, px := f.px, py := f.py, planes := f.planes
          width := f.width, height := f.height
          row0 := (rangeFrom 0 bands).map (· * bandRows f.height bands f.py)
          bands := (rangeFrom 0 bands).map (bandWords f bands) } →
    recordOk v = true ∧ recordRows v = f.rows

/-- LSE_OPEN, LSE_RAW_OPEN, LSE_RAW_BUFFER and LSE_CLOSE (R297, R304, R310, R314). -/
def Obligations.LosslessSessions : Prop :=
  (∀ (s : State) (r : CmdRef) (c : Cmd), s.dev.clear specLseOpen r c = true →
    (s.dev.lseGone = true →
      ∃ t, exec (.lseOpen r) s = .next t ∧ Answered s.dev t.dev r stEngineDown 0 ∧ Keeps byDone s.dev t.dev)
    ∧ (s.dev.lseGone = false →
      ∃ t, exec (.lseOpen r) s = .next t ∧ t.pending = s.pending ∧ Answered s.dev t.dev r stSuccess 0
        ∧ t.dev.lse? c.handle = some {
            format := c.f 4 1 0, decomp := c.b 4 2, level := c.f 4 7 4, wlog := c.f 4 12 8, checksum := c.b 4 16
            workAddr := c.q 5, workLen := c.w 7 }
        ∧ (∀ h, h ≠ c.handle → t.dev.lse? h = s.dev.lse? h) ∧ t.dev.lse.raw = s.dev.lse.raw
        ∧ Keeps (.lse :: byDone) s.dev t.dev))
  ∧ (∀ (s : State) (r : CmdRef) (c : Cmd), s.dev.clear specLseRawOpen r c = true → s.dev.lseGone = false →
    ∃ t e, exec (.lseRawOpen r) s = .next t ∧ t.pending = s.pending ∧ Answered s.dev t.dev r stSuccess 0
      ∧ t.dev.raw? (c.f 4 1 0) = some e ∧ e.handle = c.handle ∧ e.level = c.f 4 7 4 ∧ e.bands = c.f 4 11 8
      ∧ e.wlog = c.f 4 16 12 ∧ e.checksum = c.b 4 24 ∧ e.stage = c.q 5 ∧ e.slots = c.w 7 ∧ e.ring = [] ∧ e.bufs = []
      ∧ e.dropped = 0 ∧ (∀ p, p ≠ c.f 4 1 0 → t.dev.raw? p = s.dev.raw? p) ∧ Keeps (.lse :: byDone) s.dev t.dev)
  ∧ (∀ (s : State) (r : CmdRef) (c : Cmd) (p : Nat) (e : RawSession), s.dev.clear specLseRawBuffer r c = true →
    s.dev.rawPort c.handle = some p → s.dev.raw? p = some e →
    (16 ≤ e.bufs.length → exec (.lseRawBuffer r) s = .next s)
    ∧ (e.bufs.length < 16 →
      ∃ t, exec (.lseRawBuffer r) s = .next t ∧ t.pending = s.pending ∧ Begun s.dev t.dev r c
        ∧ t.dev.raw? p
            = some { e with bufs := e.bufs ++ [{ ref := r, a0 := c.q 5, dev := c.b 4 8, len := c.w 7 }] }
        ∧ (∀ q, q ≠ p → t.dev.raw? q = s.dev.raw? q) ∧ Keeps [.lse, .fetch] s.dev t.dev))
  ∧ (∀ (s : State) (r : CmdRef) (c : Cmd), s.dev.clear specLseClose r c = true →
    (∀ e, s.dev.rawPort c.handle = none → s.dev.lse? c.handle = some e → s.dev.hif.cmds = [c] →
      ∃ t, exec (.lseClose r) s = .next t ∧ t.pending = s.pending ∧ Answered s.dev t.dev r stSuccess 0
        ∧ t.dev.lse? c.handle = none ∧ (∀ h, h ≠ c.handle → t.dev.lse? h = s.dev.lse? h)
        ∧ t.dev.lse.raw = s.dev.lse.raw ∧ Keeps (.lse :: byDone) s.dev t.dev)
    ∧ (∀ p e, s.dev.rawPort c.handle = some p → s.dev.raw? p = some e → e.ring = [] → e.bufs = [] →
      ∃ t, exec (.lseClose r) s = .next t ∧ t.pending = s.pending ∧ Answered s.dev t.dev r stSuccess 0
        ∧ t.dev.raw? p = none ∧ t.dev.lse.sessions = s.dev.lse.sessions ∧ Keeps (.lse :: byDone) s.dev t.dev))

/-- LSE_BLOCK, LSE_RAW_DECODE, RAW_BAND_START and RAW_BAND_DONE (R298 to R311). -/
def Obligations.LosslessJobs : Prop :=
  (∀ (s : State) (r : CmdRef) (c : Cmd) (v : LseRun) (e : LseSession), s.dev.clear specLseBlock r c = true →
    s.dev.lseGone = false → s.dev.lseAhead c = false → s.dev.laneTurn c = true → s.dev.lse? c.handle = some e →
    v.internal = none →
    ((e.pending != 0) ≠ c.b 4 1 →
      ∃ t, exec (.lseBlock r v) s = .next t ∧ Answered s.dev t.dev r stInvalidField 260 ∧ Keeps byDone s.dev t.dev)
    ∧ ((e.pending != 0) = c.b 4 1 → runOk e c v = true → e.closing = none →
      (v.fault = true →
        ∃ t, exec (.lseBlock r v) s = .next t
          ∧ Answered s.dev t.dev r stBitstream (v.consumed + v.produced * 4294967296)
          ∧ t.dev.lse? c.handle = some { e with pend := [], busy := false, taken := [], made := 0 }
          ∧ Keeps (.lse :: .mem :: .ctrs :: byDone) s.dev t.dev)
      ∧ (v.fault = false → v.consumed = c.w 7 → v.pending = 0 →
        ∃ t g, exec (.lseBlock r v) s = .next t ∧ t.pending = s.pending
          ∧ Answered s.dev t.dev r stSuccess (v.consumed + v.produced * 4294967296)
          ∧ t.dev.lse? c.handle = some g
          ∧ g = lseAfter e c v (s.dev.blockOf (c.b 4 8) (c.q 5) v.consumed v.input) ∧ g.pend = []
          ∧ (c.b 4 0 = true → g.busy = false) ∧ (c.b 4 0 = false → 0 < v.consumed → g.busy = true)
          ∧ (∀ h, h ≠ c.handle → t.dev.lse? h = s.dev.lse? h) ∧ Keeps (.lse :: .mem :: byDone) s.dev t.dev)
      ∧ (v.fault = false → v.consumed ≠ c.w 7 ∨ v.pending ≠ 0 →
        ∃ t g, exec (.lseBlock r v) s = .next t
          ∧ Answered s.dev t.dev r stOutOfSpace (v.consumed + v.produced * 4294967296)
          ∧ t.dev.lse? c.handle = some g
          ∧ g = lseAfter e c v (s.dev.blockOf (c.b 4 8) (c.q 5) v.consumed v.input) ∧ g.pending = v.pending
          ∧ (0 < v.consumed ∨ c.b 4 0 = true → g.busy = true) ∧ Keeps (.lse :: .mem :: .ctrs :: byDone) s.dev t.dev)
      ∧ (c.b 4 9 = true →
        ∃ t, exec (.lseBlock r v) s = .next t
          ∧ Mem.rdN t.dev.mem.lpddr (c.q 8) v.produced
              = (e.pend ++ lseFormed e c v (s.dev.blockOf (c.b 4 8) (c.q 5) v.consumed v.input)).take v.produced)))
  ∧ (∀ (s : State) (r : CmdRef) (c : Cmd) (v : LseRun) (k : Nat), s.dev.clear specLseBlock r c = true →
    s.dev.lseGone = false → s.dev.lseAhead c = false → v.internal = some k → s.dev.groupServes k = true →
    s.dev.resumeBad c = false → s.dev.noWork = true → s.dev.hif.cmds = [c] →
    (∀ e, s.dev.lse? c.handle = some e → e.closing = none) →
    ∃ t x, exec (.lseBlock r v) s = .next t ∧ Answered s.dev t.dev r stInternal 0
      ∧ t.dev.lse.sessions = s.dev.lse.sessions ∧ t.dev.eng.resets = s.dev.eng.resets ++ [x] ∧ x.code = k
      ∧ x.auto = true ∧ x.ref = none
      ∧ (((s.dev.eng.autos.filter fun e => decide (s.dev.now - e.2 ≤ escalateTime)).filter (·.1 == k)).length < 2 →
          t.dev.pwr = s.dev.pwr)
      ∧ (2 ≤ ((s.dev.eng.autos.filter fun e => decide (s.dev.now - e.2 ≤ escalateTime)).filter (·.1 == k)).length →
          t.dev.pwr.disabled = s.dev.pwr.disabled ++ [k - 14])
      ∧ Keeps (.eng :: .pwr :: .mem :: .fetch :: byStop ++ byPost) s.dev t.dev)
  ∧ (∀ (s : State) (r : CmdRef) (c : Cmd) (v : RawRecord) (e : LseSession), s.dev.clear specLseRawDecode r c = true →
    s.dev.lseGone = false → s.dev.lseAhead c = false → s.dev.laneTurn c = true → s.dev.lse? c.handle = some e →
    e.closing = none →
    (recordOk v = false →
      ∃ t, exec (.lseRawDecode r v) s = .next t ∧ Answered s.dev t.dev r stBitstream 0
        ∧ Keeps (.ctrs :: byDone) s.dev t.dev)
    ∧ (recordOk v = true → (∀ row ∈ recordRows v, (mpRowBytes (c.b 4 0) v.depth row).length ≤ c.w 10) →
      s.dev.devBad (c.q 8) (c.w 10 * v.height) = false →
      ∃ t, exec (.lseRawDecode r v) s = .next t ∧ t.pending = s.pending
        ∧ Answered s.dev t.dev r stSuccess v.frameIndex
        ∧ (∀ y row, (recordRows v)[y]? = some row →
            Mem.rdN t.dev.mem.lpddr (c.q 8 + c.w 10 * y) (mpRowBytes (c.b 4 0) v.depth row).length
              = mpRowBytes (c.b 4 0) v.depth row)
        ∧ (∀ a, a < c.q 8 ∨ c.q 8 + c.w 10 * (recordRows v).length ≤ a →
            Mem.rd t.dev.mem.lpddr a = Mem.rd s.dev.mem.lpddr a)
        ∧ t.dev.mem = { s.dev.mem with lpddr := t.dev.mem.lpddr } ∧ Keeps (.mem :: byDone) s.dev t.dev))
  ∧ (∀ (s : State) (p : Fin 4) (k : Fin 12) (e : RawSession) (f : StagedFrame), s.dev.idleMode = true →
    s.dev.raw? p.val = some e → nextBand e = some f →
    (s.dev.lseLaneUp k.val = false ∨ s.dev.laneIdle k.val = false ∨ f.lanes.contains k.val = true → exec (.rawBandStart p k) s = .next s)
    ∧ (s.dev.lseLaneUp k.val = true → s.dev.laneIdle k.val = true → f.lanes.contains k.val = false →
      ∃ t g, exec (.rawBandStart p k) s = .next t
        ∧ SMap.get .idle t.dev.lse.lanes k.val = .band p.val f.index f.started ∧ t.dev.raw? p.val = some g
        ∧ (∀ b, f.buf = some b → g.bufs = e.bufs)
        ∧ (∀ b bs, f.buf = none → e.bufs = b :: bs → g.bufs = bs
            ∧ ∃ x ∈ g.ring, x.index = f.index ∧ x.buf = some b)
        ∧ t.dev.lse.sessions = s.dev.lse.sessions ∧ Keeps [.lse] s.dev t.dev))
  ∧ (∀ (s : State) (k : Fin 12) (p i b bytes : Nat) (e : RawSession) (f : StagedFrame) (u : Buf),
    s.dev.idleMode = true → SMap.get .idle s.dev.lse.lanes k.val = .band p i b → s.dev.raw? p = some e → e.ring = [f] →
    f.index = i → f.buf = some u → (fcsFlags e (bandBytes f e.bands b).length bytes).isEmpty = false →
    recordLen { f with done := SMap.ins f.done b bytes } e.bands ≤ u.len →
    ((SMap.ins f.done b bytes).length ≠ e.bands →
      ∃ t, exec (.rawBandDone k bytes) s = .next t ∧ SMap.get .idle t.dev.lse.lanes k.val = .idle
        ∧ t.dev.raw? p = some { e with ring := [{ f with done := SMap.ins f.done b bytes }] } ∧ Keeps [.lse] s.dev t.dev)
    ∧ (∀ q, (SMap.ins f.done b bytes).length = e.bands → e.closing = none → s.dev.hif.queueOps = [] →
      s.dev.cmd? u.ref = some q → q.fail = none → (s.dev.qp u.ref.qid).live = true →
      (s.dev.qp u.ref.qid).cqLost = false →
      ∃ t, exec (.rawBandDone k bytes) s = .next t
        ∧ Answered s.dev t.dev u.ref stSuccess
            (i % 4294967296 + recordLen { f with done := SMap.ins f.done b bytes } e.bands * 4294967296)
        ∧ SMap.get .idle t.dev.lse.lanes k.val = .idle ∧ t.dev.raw? p = some { e with ring := [], dropped := 0 }
        ∧ Keeps (.lse :: .mem :: byDone) s.dev t.dev))

/-- Volumes, REC_EVENT, DRIVE_LOG, DRIVE_EJECT and the slots (R318 to R323, R329 to R332, R336, R339). -/
def Obligations.RecorderVolumesAndDrives : Prop :=
  (∀ (s : State) (r : CmdRef) (c : Cmd) (list b : List Byte) (ms : List Member) (back : Bool),
    s.dev.clear specVolCreate r c = true → b = s.dev.blockOf false 0 72 list → s.dev.membersBad b = [] →
    s.dev.recDown = false → s.dev.recd.waiting = [] → ms = (rangeFrom 0 (b8 b 0)).map (listMember b) →
    back = (ms.any fun m => (s.dev.marker? (s.dev.slot m.slot).drive).isSome) →
    ∃ t, exec (.volCreate r list) s = .next t ∧ t.pending = s.pending
      ∧ Answered s.dev t.dev r stSuccess ((ms.length * bn b 4 4 * 256) % 2 ^ 48 + if back then 2 ^ 48 else 0)
      ∧ t.dev.vol (c.f 4 1 0) = { state := 1, recovery := back, members := ms, units := bn b 4 4, deleting := none }
      ∧ (∀ n, n ≠ c.f 4 1 0 → t.dev.vol n = s.dev.vol n) ∧ (∀ k, t.dev.slot k = s.dev.slot k)
      ∧ (∀ m ∈ ms, (t.dev.marker? (s.dev.slot m.slot).drive).isSome = true)
      ∧ (s.dev.recd.events = [] → t.dev.recd.events = [{ volume := true, n := c.f 4 1 0, old := 0, new := 1, cause := 0 }])
      ∧ Keeps (.recd :: byDone) s.dev t.dev)
  ∧ (∀ (s : State) (r : CmdRef) (c : Cmd), s.dev.clear specVolDelete r c = true → s.dev.recDown = false →
    s.dev.recd.waiting = [] → s.dev.recd.cmds = [] → s.dev.hif.cmds = [c] → s.dev.recd.doomed = [] →
    ∃ t, exec (.volDelete r) s = .next t ∧ t.pending = s.pending ∧ Answered s.dev t.dev r stSuccess 0
      ∧ t.dev.vol (volN c) = {} ∧ (∀ n, n ≠ volN c → t.dev.vol n = s.dev.vol n)
      ∧ (∀ m ∈ (s.dev.vol (volN c)).members, (s.dev.slot m.slot).present = true →
          t.dev.marker? (s.dev.slot m.slot).drive = none)
      ∧ (∀ k, t.dev.slot k = s.dev.slot k) ∧ Keeps (.recd :: byDone) s.dev t.dev)
  ∧ (∀ (s : State) (r : CmdRef) (c : Cmd), s.dev.clear specVolClearRecovery r c = true → s.dev.recDown = false →
    ((s.dev.vol (volN c)).state = 2 →
      ∃ t, exec (.volClearRecovery r) s = .next t ∧ Answered s.dev t.dev r stMediaAbsent 0 ∧ Keeps byDone s.dev t.dev)
    ∧ ((s.dev.vol (volN c)).state ≠ 2 →
      ∃ t, exec (.volClearRecovery r) s = .next t ∧ t.pending = s.pending ∧ Answered s.dev t.dev r stSuccess 0
        ∧ t.dev.vol (volN c) = { s.dev.vol (volN c) with recovery := false }
        ∧ (∀ n, n ≠ volN c → t.dev.vol n = s.dev.vol n) ∧ Keeps (.recd :: byDone) s.dev t.dev))
  ∧ (∀ (s : State) (r : CmdRef) (c : Cmd), s.dev.clear specRecEvent r c = true → s.dev.recDown = false →
    (∀ e es, s.dev.recd.events = e :: es →
      ∃ t, exec (.recEvent r) s = .next t ∧ t.pending = s.pending
        ∧ Answered s.dev t.dev r stSuccess
            (e.n + e.old * 16 + e.new * 256 + (if e.volume then 16384 else 0) + e.cause * 65536)
        ∧ t.dev.recd = { s.dev.recd with events := es } ∧ Keeps (.recd :: byDone) s.dev t.dev)
    ∧ (s.dev.recd.events = [] → s.dev.recd.waiting.length < 4 →
      ∃ t, exec (.recEvent r) s = .next t ∧ Begun s.dev t.dev r c
        ∧ t.dev.recd = { s.dev.recd with waiting := s.dev.recd.waiting ++ [r] } ∧ Keeps [.recd, .fetch] s.dev t.dev)
    ∧ (s.dev.recd.events = [] → 4 ≤ s.dev.recd.waiting.length → exec (.recEvent r) s = .next s))
  ∧ (∀ (s : State) (r : CmdRef) (c : Cmd), s.dev.recDown = false →
    (s.dev.clear specDriveLog r c = true →
      (∃ t, exec (.driveLog r .ok) s = .next t ∧ t.pending = s.pending
        ∧ Answered s.dev t.dev r stSuccess (if c.f 4 11 8 = 2 then 512 else 4096)
        ∧ Out.driveAdmin (c.f 4 2 0) (if c.f 4 11 8 < 2 then 6 else 2) ∈ t.dev.out
        ∧ Keeps (.mem :: byDone) s.dev t.dev)
      ∧ (∃ t, exec (.driveLog r .mediaError) s = .next t ∧ Answered s.dev t.dev r stMediaError 0
        ∧ t.dev.ctrs = (s.dev.count 0x80300 1).ctrs ∧ Keeps (.ctrs :: byDone) s.dev t.dev)
      ∧ (∃ t, exec (.driveLog r .timeout) s = .next t ∧ Answered s.dev t.dev r stMediaTimeout 0
        ∧ t.dev.ctrs = ((s.dev.count 0x8030C 1).count 0x80304 1).ctrs
        ∧ Keeps (.recd :: .ctrs :: byDone) s.dev t.dev)
      ∧ (s.dev.recd.cmds = [] → s.dev.recd.waiting = [] → (s.dev.slot (c.f 4 2 0)).ejecting = none →
        s.dev.volOf (c.f 4 2 0) = none →
        ∃ t, exec (.driveLog r .removed) s = .next t ∧ Answered s.dev t.dev r stMediaAbsent 0
          ∧ t.dev.ctrs = (s.dev.count 0x80310 1).ctrs ∧ t.dev.slot (c.f 4 2 0) = {}
          ∧ Keeps (.recd :: .ctrs :: byDone) s.dev t.dev))
    ∧ (s.dev.clear specDriveEject r c = true →
      ∃ t, exec (.driveEject r) s = .next t ∧ t.pending = s.pending ∧ t.dev.cmd? r = some { c with begun := true }
        ∧ t.dev.slot (c.f 4 2 0) = { s.dev.slot (c.f 4 2 0) with ejecting := some r }
        ∧ (∀ k, k ≠ c.f 4 2 0 → t.dev.slot k = s.dev.slot k) ∧ t.dev.out = s.dev.out ++ [.driveShutdown (c.f 4 2 0)]
        ∧ Keeps [.recd, .fetch, .out] s.dev t.dev))
  ∧ (∀ (s : State) (x : Fin 8), s.dev.idleMode = true → s.dev.recd.waiting = [] →
    (∀ q k ms ok, (s.dev.slot x.val).ejecting = some q → s.dev.hif.queueOps = [] → s.dev.cmd? q = some k →
      k.fail = none → (s.dev.qp q.qid).live = true → (s.dev.qp q.qid).cqLost = false →
      ∃ t, exec (.shutdownComplete x ms ok) s = .next t
        ∧ Answered s.dev t.dev q (if ok then stSuccess else stMediaTimeout) (if ok then min 4294967295 ms else 0)
        ∧ (t.dev.slot x.val).state = .ejected ∧ (t.dev.slot x.val).ejecting = none
        ∧ Out.driveReset x.val true ∈ t.dev.out ∧ (∀ j, j ≠ x.val → t.dev.slot j = s.dev.slot j)
        ∧ Keeps (.recd :: byDone) s.dev t.dev)
    ∧ (∀ n, s.dev.volOf x.val = some n → (s.dev.vol n).state = 1 → s.dev.recd.cmds = [] →
      (s.dev.slot x.val).ejecting = none → (s.dev.slot x.val).state = .ready →
      ∃ t, exec (.driveRemoval x) s = .next t ∧ t.dev.slot x.val = {} ∧ t.dev.vol n = { s.dev.vol n with state := 2 }
        ∧ (∀ j, j ≠ x.val → t.dev.slot j = s.dev.slot j) ∧ (∀ m, m ≠ n → t.dev.vol m = s.dev.vol m)
        ∧ t.dev.ctrs = (s.dev.count 0x80310 1).ctrs ∧ Keeps [.recd, .ctrs] s.dev t.dev)
    ∧ ((s.dev.slot x.val).present = false → (s.dev.slot x.val).state = .empty → s.dev.slotOn x.val = true →
      ∃ t, exec (.driveInsertion x) s = .next t
        ∧ t.dev.slot x.val = { s.dev.slot x.val with present := true, state := .training, cause := 0 }
        ∧ (∀ j, j ≠ x.val → t.dev.slot j = s.dev.slot j) ∧ Keeps [.recd] s.dev t.dev)
    ∧ (∀ f, (s.dev.slot x.val).state = .training → (s.dev.slot x.val).present = true →
      ∃ t, exec (.slotReady x f) s = .next t
        ∧ (driveCause f = 0 → (t.dev.slot x.val).state = .ready)
        ∧ (driveCause f ≠ 0 → (t.dev.slot x.val).state = .unsuitable ∧ (t.dev.slot x.val).cause = driveCause f)
        ∧ (t.dev.slot x.val).drive = f.driveId ∧ (t.dev.slot x.val).blocks = f.blocks
        ∧ (t.dev.slot x.val).mdts = f.mdts ∧ (∀ j, j ≠ x.val → t.dev.slot j = s.dev.slot j)
        ∧ Keeps [.recd] s.dev t.dev))

/-- REC_READ, REC_WRITE, REC_DEALLOCATE and the drive commands (R320, R326 to R330). -/
def Obligations.RecorderData : Prop :=
  (∀ (s : State) (r : CmdRef) (c : Cmd) (i : Instr) (list : List Byte) (kind : Nat) (v : Volume) (ps : List Piece),
    (kind = 0 ∧ i = .recRead ⟨r, list⟩ ∧ s.dev.clear specRecRead r c = true ∧ hostListBad c list = []
      ∨ kind = 1 ∧ i = .recWrite ⟨r, list⟩ ∧ s.dev.clear specRecWrite r c = true ∧ hostListBad c list = []
      ∨ kind = 2 ∧ i = .recDeallocate r ∧ s.dev.clear specRecDeallocate r c = true) →
    s.dev.recDown = false → v = s.dev.vol (volN c) →
    (v.state = 2 →
      ∃ t, exec i s = .next t ∧ Answered s.dev t.dev r stMediaAbsent (255 * 2 ^ 32) ∧ Keeps byDone s.dev t.dev)
    ∧ (v.state ≠ 2 → s.dev.recd.cmds = [] → c.conserv = false →
      ps = s.dev.cutUnits v 258 0 (c.q 5) (min (c.f 7 15 0 + 1) (volBlocks v - c.q 5)) → ps ≠ [] →
      (∀ p ∈ ps, (s.dev.slot p.slot).state = .ready) →
      ps.Pairwise (fun p q => p.off ≠ q.off ∧ (p.slot = q.slot →
        overlaps (p.lba, p.blocks) (q.lba, q.blocks) = false ∧ overlaps (q.lba, q.blocks) (p.lba, p.blocks) = false)) →
      ∃ t e, exec i s = .next t ∧ t.pending = s.pending ∧ t.dev.cmd? r = some { c with begun := true }
        ∧ t.dev.recd.cmds = [e] ∧ e.ref = r ∧ e.kind = kind ∧ e.begun = true
        ∧ e.pieces = ps.map (fun p => { p with issued := true })
        ∧ (∀ p ∈ ps, Out.drive p.slot (if kind = 0 then 2 else if kind = 1 then 1 else 9) p.lba p.blocks ∈ t.dev.out)
        ∧ (e.cut = true ↔ volBlocks v - c.q 5 < c.f 7 15 0 + 1) ∧ Keeps [.recd, .fetch, .out] s.dev t.dev))
  ∧ (∀ (s : State) (r : CmdRef) (c : Cmd) (list : List Byte) (k : Nat) (ks : List Nat), hostListBad c list = k :: ks →
    (s.dev.clear specRecRead r c = true →
      ∃ t, exec (.recRead ⟨r, list⟩) s = .next t
        ∧ Answered s.dev t.dev r stInvalidField (Offence.result { dw := 8, bit := 0, blk := some k })
        ∧ Keeps byDone s.dev t.dev)
    ∧ (s.dev.clear specRecWrite r c = true →
      ∃ t, exec (.recWrite ⟨r, list⟩) s = .next t
        ∧ Answered s.dev t.dev r stInvalidField (Offence.result { dw := 8, bit := 0, blk := some k })
        ∧ Keeps byDone s.dev t.dev))
  ∧ (∀ (s : State) (e : RecCmd) (p : Piece) (k : Cmd), s.dev.idleMode = true → s.dev.recd.cmds = [e] →
    e.begun = true → e.fail = none → e.ending = none → e.pieces = [p] → p.issued = true → p.done = false →
    s.dev.recd.doomed = [] → (s.dev.vol e.vol).deleting = none → s.dev.hif.queueOps = [] → s.dev.cmd? e.ref = some k →
    k.fail = none → (s.dev.qp e.ref.qid).live = true → (s.dev.qp e.ref.qid).cqLost = false →
    (∃ t, exec (.driveCommandCompletion e.ref p.off .ok) s = .next t
      ∧ Answered s.dev t.dev e.ref (if e.cut then stOutOfSpace else stSuccess) (p.blocks + 255 * 2 ^ 32)
      ∧ t.dev.recd = { s.dev.recd with cmds := [] } ∧ Keeps (.recd :: .mem :: byDone) s.dev t.dev)
    ∧ (p.tries < s.dev.fld 0x80000 27 24 →
      ∃ t, exec (.driveCommandCompletion e.ref p.off .retryable) s = .next t
        ∧ t.dev.recd.cmds = [{ e with pieces := [{ p with tries := p.tries + 1, aborting := false }] }]
        ∧ t.dev.out = s.dev.out ++ [.drive p.slot (if e.kind = 0 then 2 else if e.kind = 1 then 1 else 9) p.lba p.blocks]
        ∧ t.dev.ctrs = (s.dev.count 0x80308 1).ctrs ∧ Keeps [.recd, .out, .ctrs] s.dev t.dev)
    ∧ (∀ out, out = .mediaError ∨ out = .retryable ∧ s.dev.fld 0x80000 27 24 ≤ p.tries →
      ∃ t, exec (.driveCommandCompletion e.ref p.off out) s = .next t
        ∧ Answered s.dev t.dev e.ref stMediaError (p.slot * 2 ^ 32 + p.unit % 2 ^ 24 * 2 ^ 40)
        ∧ t.dev.recd = { s.dev.recd with cmds := [] } ∧ t.dev.ctrs = (s.dev.count 0x80300 1).ctrs
        ∧ Keeps (.recd :: .ctrs :: byDone) s.dev t.dev)
    ∧ (p.aborting = false →
      ∃ t, exec (.driveCommandTimeout e.ref p.off) s = .next t
        ∧ t.dev.recd.cmds = [{ e with pieces := [{ p with aborting := true }] }]
        ∧ t.dev.out = s.dev.out ++ [.driveAdmin p.slot 8] ∧ Keeps [.recd, .out] s.dev t.dev)
    ∧ (p.aborting = true →
      ∃ t, exec (.driveCommandTimeout e.ref p.off) s = .next t
        ∧ Answered s.dev t.dev e.ref stMediaTimeout (p.slot * 2 ^ 32 + p.unit % 2 ^ 24 * 2 ^ 40)
        ∧ Out.driveCtlReset p.slot ∈ t.dev.out ∧ t.dev.recd.cmds = [] ∧ Keeps (.recd :: .ctrs :: byDone) s.dev t.dev))

/-- SCO_START, SCO_STOP, SCO_RESTART and the events of a raster (R343, R344, R352 to R360, R365, R366). -/
def Obligations.RastersRun : Prop :=
  (∀ (s : State) (r : CmdRef) (c : Cmd) (k : Nat), s.dev.clear specScoStart r c = true → k = c.f 4 1 0 →
    (s.dev.scoErr k (rasterCfg fun o => s.dev.reg (0x90000 + 0x100 * k + o)) ≠ 0 →
      ∃ t, exec (.scoStart r) s = .next t ∧ Answered s.dev t.dev r stInvalidField 4
        ∧ t.dev.raster k = { s.dev.raster k with
            cfgErr := s.dev.scoErr k (rasterCfg fun o => s.dev.reg (0x90000 + 0x100 * k + o)) }
        ∧ (∀ j, j ≠ k → t.dev.raster j = s.dev.raster j) ∧ Keeps (.sco :: byDone) s.dev t.dev)
    ∧ (s.dev.scoErr k (rasterCfg fun o => s.dev.reg (0x90000 + 0x100 * k + o)) = 0 →
      ∃ t, exec (.scoStart r) s = .next t ∧ t.pending = s.pending
        ∧ Answered s.dev t.dev r stSuccess
            (slotGranules (t.dev.rcfg k) + if t.dev.urPolicy then 65536 else 0)
        ∧ (t.dev.raster k).run = true ∧ (t.dev.raster k).ks = false ∧ (t.dev.raster k).count = 0
        ∧ (t.dev.raster k).locked = (s.dev.fld (0x90000 + 0x100 * k) 31 30 == 0) ∧ (t.dev.raster k).cfgErr = 0
        ∧ (∀ i, i < 9 → (SMap.get 0 (t.dev.raster k).latched (4 * i)).toNat
            = s.dev.reg (0x90000 + 0x100 * k + 4 * i) % 4294967296)
        ∧ (∀ j, j ≠ k → t.dev.raster j = s.dev.raster j) ∧ Keeps (.sco :: .fetch :: byPost) s.dev t.dev))
  ∧ (∀ (s : State) (r : CmdRef) (c : Cmd) (k : Nat), s.dev.clear specScoStop r c = true → k = c.f 4 1 0 →
    (c.b 4 8 = true ∨ (s.dev.raster k).active = false → (s.dev.raster k).restarts = [] →
      ∃ t res, exec (.scoStop r) s = .next t ∧ t.pending = s.pending ∧ Answered s.dev t.dev r stSuccess res
        ∧ ((s.dev.raster k).began = true → res = ((s.dev.raster k).count + 4294967295) % 4294967296) ∧ (t.dev.raster k).run = false
        ∧ (t.dev.raster k).reports = (s.dev.raster k).reports
        ∧ (∀ j, j ≠ k → t.dev.raster j = s.dev.raster j) ∧ Keeps (.sco :: byDone) s.dev t.dev)
    ∧ (c.b 4 8 = false → (s.dev.raster k).active = true →
      ∃ t, exec (.scoStop r) s = .next t ∧ Begun s.dev t.dev r c
        ∧ t.dev.raster k = { s.dev.raster k with stopRef := some r }
        ∧ (∀ j, j ≠ k → t.dev.raster j = s.dev.raster j) ∧ Keeps [.sco, .fetch] s.dev t.dev))
  ∧ (∀ (s : State) (r : CmdRef) (c : Cmd) (blk : List Byte) (k : Nat), s.dev.clear specScoRestart r c = true →
    k = c.f 4 1 0 → s.dev.scoBlkBad k (s.dev.blockOf false 0 64 blk) = [] →
    ∃ t, exec (.scoRestart r blk) s = .next t ∧ t.pending = s.pending ∧ Begun s.dev t.dev r c
      ∧ t.dev.raster k = { s.dev.raster k with
          restarts := (s.dev.raster k).restarts ++ [{ ref := r, bytes := s.dev.blockOf false 0 64 blk }] }
      ∧ (∀ j, j ≠ k → t.dev.raster j = s.dev.raster j) ∧ Keeps [.sco, .fetch] s.dev t.dev)
  ∧ (∀ (s : State) (k : Fin 4) (v : Raster) (g : RasterCfg), s.dev.idleMode = true → v = s.dev.raster k.val →
    g = s.dev.rcfg k.val →
    (v.run = false ∨ s.dev.boot.refDone = false ∨ v.active = true → exec (.rasterReaderBind k) s = .next s)
    ∧ (v.run = true → s.dev.boot.refDone = true → v.active = false → v.restarts = [] →
      ∃ t w, exec (.rasterReaderBind k) s = .next t ∧ w = t.dev.raster k.val ∧ w.active = true ∧ w.line = 0
        ∧ w.count = (v.count + 1) % 4294967296 ∧ w.policy = s.dev.urPolicy
        ∧ (v.ks = false → g.content = 1 → w.shows = .black) ∧ (v.ks = false → g.content = 2 → w.shows = .bars)
        ∧ (∀ p, v.ks = false → g.content = 0 → g.chase = false → v.pub = some p →
            w.shows = .slot p.slot p.serial p.index ∧ w.front = p.slot ∧ w.pub = none ∧ w.repeated = false)
        ∧ (∀ p, v.ks = false → g.content = 0 → g.chase = false → v.pub = none → v.bound = some p →
            w.shows = .slot p.slot p.serial p.index ∧ w.repeated = true)
        ∧ (∀ j, j ≠ k.val → t.dev.raster j = s.dev.raster j) ∧ Keeps [.sco, .spk] s.dev t.dev)
    ∧ (v.run = false ∨ v.active = false → ∀ b n, exec (.rasterLine k b n) s = .next s)
    ∧ (∀ b n, v.run = true → v.active = true → v.line + 1 < g.vact →
      ∃ t row dp, exec (.rasterLine k b n) s = .next t ∧ (t.dev.raster k.val).line = v.line + 1
        ∧ (t.dev.raster k.val).active = true
        ∧ t.dev.out = s.dev.out ++ .rasterLine k.val v.line row :: (if g.dp = 0 then [] else [.dpLine k.val v.line dp])
        ∧ (v.ks = false → dp = row)
        ∧ (v.ks = true → v.shows = .black → dp = List.replicate g.hact (blackOf 10 false true))
        ∧ (v.shows = .black → v.blank = false → row = List.replicate g.hact (blackOf g.bits g.full (g.samp == 2)))
        ∧ (∀ j, j ≠ k.val → t.dev.raster j = s.dev.raster j) ∧ Keeps [.sco, .spk, .ctrs, .out] s.dev t.dev)
    ∧ (∀ b n, v.run = true → v.active = true → g.vact ≤ v.line + 1 → v.stopRef = none →
      ∃ t row dp f, exec (.rasterLine k b n) s = .next t ∧ (t.dev.raster k.val).active = false
        ∧ t.dev.out = s.dev.out ++ .rasterLine k.val v.line row :: (if g.dp = 0 then [] else [.dpLine k.val v.line dp])
        ∧ (t.dev.raster k.val).reports = v.reports ++ [f]
        ∧ f.out = (v.count + 4294967295) % 4294967296 ∧ f.report = g.report
        ∧ Keeps [.sco, .spk, .ctrs, .out] s.dev t.dev)
    ∧ (∀ pins, v.reports = [] → exec (.frameOut k pins) s = .next s)
    ∧ (∀ pins f fs, v.reports = f :: fs → f.report = false →
      ∃ t, exec (.frameOut k pins) s = .next t ∧ t.dev.raster k.val = { v with reports := fs }
        ∧ (mismatchOf f pins = 0 → t.dev.ctrs = s.dev.ctrs)
        ∧ (mismatchOf f pins ≠ 0 → t.dev.ctrs = (s.dev.count (0x90070 + 0x100 * k.val) 1).ctrs)
        ∧ Keeps [.sco, .ctrs] s.dev t.dev)
    ∧ (∀ pins f fs n, v.reports = f :: fs → f.report = true → s.dev.ringOf 2 = some n → s.dev.fits n 2 = true →
      ∃ t slot rc, exec (.frameOut k pins) s = .next t ∧ t.dev.raster k.val = { v with reports := fs }
        ∧ Out.record n slot rc ∈ t.dev.out ∧ rc.type = 0x2001 ∧ rc.frame = f.index ∧ rc.page = 9 ∧ rc.inst = k.val
        ∧ rc.time = ltsForm f.time ∧ Keeps (.sco :: byPost) s.dev t.dev)
    ∧ (v.run = true → g.lock ≠ 0 →
      (∃ t, exec (.lockSourceLost k) s = .next t ∧ t.dev.raster k.val = { v with locked := false }
        ∧ (∀ j, j ≠ k.val → t.dev.raster j = s.dev.raster j) ∧ Keeps [.sco] s.dev t.dev)
      ∧ (∀ e, v.locked = false →
        ∃ t, exec (.lockSourceRegained k e) s = .next t
          ∧ t.dev.raster k.val = { v with locked := true, crash := v.crash || decide (1 < e) }
          ∧ (∀ j, j ≠ k.val → t.dev.raster j = s.dev.raster j) ∧ Keeps [.sco] s.dev t.dev)))

/-- DP_AUX, HPD, SDI_IN_START, SDI_IN_STOP and the events of an SDI input (R347, R361 to R366). -/
def Obligations.DisplayPortAndSdi : Prop :=
  (∀ (s : State) (j : Fin 2), s.dev.idleMode = true →
    (∀ sink, (s.dev.dpTx j.val).hpd = true → exec (.hpdAssert j sink) s = .next s)
    ∧ (∀ sink, (s.dev.dpTx j.val).hpd = false → s.dev.dpRaster j.val = none →
      ∃ t, exec (.hpdAssert j sink) s = .next t
        ∧ t.dev.dpTx j.val = { s.dev.dpTx j.val with hpd := true, sink := sink }
        ∧ t.dev.sco.rasters = s.dev.sco.rasters ∧ Keeps (.sco :: byPost) s.dev t.dev)
    ∧ (∀ sink k e, (s.dev.dpTx j.val).hpd = false → s.dev.dpRaster j.val = some k →
      (if (s.dev.raster k).ks then dpStandby else dpLowest) ((dpSettings (s.dev.rcfg k) (s.dev.dpBpp k)
        (min (s.dev.fld (0x90800 + 0x20 * j.val) 5 4) sink.maxLanes)
        (min (s.dev.fld (0x90800 + 0x20 * j.val) 2 0) sink.maxRate)).filter fun x => !sink.failing.contains x) = some e →
      ∃ t, exec (.hpdAssert j sink) s = .next t
        ∧ t.dev.dpTx j.val = { hpd := true, trained := true, lanes := e.1, rate := e.2, sink := sink }
        ∧ Out.dpLink j.val (2 ^ e.1) e.2 ∈ t.dev.out ∧ t.dev.sco.rasters = s.dev.sco.rasters
        ∧ Keeps (.sco :: byPost) s.dev t.dev)
    ∧ ((s.dev.dpTx j.val).hpd = false → exec (.hpdDeassert j) s = .next s)
    ∧ ((s.dev.dpTx j.val).hpd = true →
      ∃ t, exec (.hpdDeassert j) s = .next t ∧ (t.dev.dpTx j.val).hpd = false ∧ (t.dev.dpTx j.val).trained = false
        ∧ Out.dpLink j.val 0 0 ∈ t.dev.out ∧ (∀ k, k < 4 → (t.dev.raster k).dpUp.testBit j.val = false)
        ∧ Keeps (.sco :: byPost) s.dev t.dev)
    ∧ (∀ lost sink, (s.dev.dpTx j.val).hpd = false ∨ lost = false → exec (.hpdIrq j lost sink) s = .next s)
    ∧ (∀ sink k, (s.dev.dpTx j.val).hpd = true → s.dev.dpRaster j.val = some k →
      (if (s.dev.raster k).ks then dpStandby else dpLowest) ((dpSettings (s.dev.rcfg k) (s.dev.dpBpp k)
        (min (s.dev.fld (0x90800 + 0x20 * j.val) 5 4) sink.maxLanes)
        (min (s.dev.fld (0x90800 + 0x20 * j.val) 2 0) sink.maxRate)).filter fun x => !sink.failing.contains x) = none →
      ∃ t, exec (.hpdIrq j true sink) s = .next t ∧ (t.dev.dpTx j.val).trained = false
        ∧ (t.dev.dpTx j.val).hpd = true ∧ Out.dpLink j.val 0 0 ∈ t.dev.out ∧ Keeps (.sco :: byPost) s.dev t.dev))
  ∧ (∀ (s : State) (r : CmdRef) (c : Cmd), s.dev.clear specDpAux r c = true →
    (∀ k, (s.dev.dpTx (c.f 4 0 0)).hpd = false →
      ∃ t, exec (.dpAux r k) s = .next t ∧ Answered s.dev t.dev r stLinkDown 0 ∧ Keeps byDone s.dev t.dev)
    ∧ ((s.dev.dpTx (c.f 4 0 0)).hpd = true →
      (∃ t, exec (.dpAux r none) s = .next t ∧ Answered s.dev t.dev r stBusNack 0 ∧ Keeps byDone s.dev t.dev)
      ∧ (∀ n, n ≤ c.f 4 12 8 + 1 →
        ∃ t, exec (.dpAux r (some n)) s = .next t ∧ t.pending = s.pending ∧ Answered s.dev t.dev r stSuccess n
          ∧ (c.f 4 2 2 = 0 → Out.hostUndef (c.q 6) n ∈ t.dev.out) ∧ Keeps byDone s.dev t.dev)))
  ∧ (∀ (s : State) (r : CmdRef) (c : Cmd) (i : Nat), i = c.f 4 0 0 →
    (s.dev.clear specSdiInStart r c = true →
      (s.dev.pwr.disabled.contains 55 = true →
        ∃ t, exec (.sdiInStart r) s = .next t ∧ Answered s.dev t.dev r stEngineDown 0 ∧ Keeps byDone s.dev t.dev)
      ∧ (s.dev.pwr.disabled.contains 55 = false → s.dev.sdiCfgBad i = true →
        ∃ t, exec (.sdiInStart r) s = .next t ∧ Answered s.dev t.dev r stInvalidField 4 ∧ Keeps byDone s.dev t.dev)
      ∧ (s.dev.pwr.disabled.contains 55 = false → s.dev.sdiCfgBad i = false →
        ∃ t, exec (.sdiInStart r) s = .next t ∧ t.pending = s.pending ∧ Answered s.dev t.dev r stSuccess 0
          ∧ t.dev.sdiIn i = { s.dev.sdiIn i with
              run := true, stopping := false, auto := s.dev.fld (0x90C00 + 0x40 * i) 0 0 == 1, lastIndex := none
              want := ⟨s.dev.fld (0x90C00 + 0x40 * i) 10 4, s.dev.fld (0x90C00 + 0x40 * i) 19 16,
                s.dev.fld (0x90C00 + 0x40 * i) 13 12, 0⟩ }
          ∧ (∀ k, k ≠ i → t.dev.sdiIn k = s.dev.sdiIn k) ∧ Keeps (.sco :: byDone) s.dev t.dev))
    ∧ (s.dev.clear specSdiInStop r c = true →
      ∃ t, exec (.sdiInStop r) s = .next t ∧ t.pending = s.pending
        ∧ Answered s.dev t.dev r stSuccess ((s.dev.sdiIn i).lastIndex.getD ones64)
        ∧ (t.dev.sdiIn i).run = false ∧ (t.dev.sdiIn i).locked = false
        ∧ (t.dev.sdiIn i).nextIndex = (s.dev.sdiIn i).nextIndex
        ∧ (∀ k, k ≠ i → t.dev.sdiIn k = s.dev.sdiIn k) ∧ Keeps (.sco :: byDone) s.dev t.dev))
  ∧ (∀ (s : State) (i : Fin 2) (v : SdiIn), s.dev.idleMode = true → v = s.dev.sdiIn i.val →
    (∀ f, v.run = false → exec (.sdiInputLock i f) s = .next s)
    ∧ (∀ f, v.run = true → v.locked = false →
      ∃ t, exec (.sdiInputLock i f) s = .next t
        ∧ t.dev.sdiIn i.val = { v with locked := true, format := f, want := if v.auto then f else v.want }
        ∧ (∀ k, k ≠ i.val → t.dev.sdiIn k = s.dev.sdiIn k) ∧ Keeps (.sco :: byPost) s.dev t.dev)
    ∧ (v.run = false ∨ v.locked = false → ∀ part, exec (.sdiInputLost ⟨i, part⟩) s = .next s)
    ∧ (v.run = true → v.locked = true → s.dev.stu.units = [] →
      ∀ part, ∃ t, exec (.sdiInputLost ⟨i, part⟩) s = .next t
        ∧ t.dev.sdiIn i.val = { v with
            locked := false, nextIndex := if part.isSome then v.nextIndex + 1 else v.nextIndex }
        ∧ (∀ k, k ≠ i.val → t.dev.sdiIn k = s.dev.sdiIn k) ∧ Keeps (.sco :: byPost) s.dev t.dev)
    ∧ (∀ f, v.run = false ∨ v.locked = false → exec (.sdiInputFrame i f) s = .next s)
    ∧ (∀ f, v.run = true → v.locked = true → s.dev.stu.units = [] →
      (f.format.fmt = v.want.fmt → f.format.bits = v.want.bits → f.format.sampling = v.want.sampling →
        ∃ t, exec (.sdiInputFrame i f) s = .next t
          ∧ t.dev.sdiIn i.val = { v with nextIndex := v.nextIndex + 1, lastIndex := some v.nextIndex }
          ∧ (∀ n, n < 8 → s.dev.spkRunning n = true → (s.dev.skc n).kind = 4 → (s.dev.skc n).id = i.val →
              ∃ x, t.dev.spkOf n = { s.dev.spkOf n with arrivals := (s.dev.spkOf n).arrivals ++ [x] }
                ∧ x.index = v.nextIndex)
          ∧ (∀ n, (s.dev.skc n).kind ≠ 4 ∨ (s.dev.skc n).id ≠ i.val → t.dev.spkOf n = s.dev.spkOf n)
          ∧ Keeps [.sco, .spk] s.dev t.dev)
      ∧ (f.format.fmt ≠ v.want.fmt ∨ f.format.bits ≠ v.want.bits ∨ f.format.sampling ≠ v.want.sampling →
        ∃ t, exec (.sdiInputFrame i f) s = .next t ∧ t.dev.sdiIn i.val = { v with nextIndex := v.nextIndex + 1 }
          ∧ t.dev.ctrs = (s.dev.count (0x90C14 + 0x40 * i.val) 1).ctrs ∧ Keeps [.sco, .ctrs] s.dev t.dev)))

/-- The commands of class 0x0B (R401, R402, R406). -/
def Obligations.TwoWireCommands : Prop :=
  (∀ (s : State) (r : CmdRef) (c : Cmd) (k : Option Nat), s.dev.clear specTwEnable r c = true →
    s.dev.twInReset (c.f 4 2 0) = false →
    (s.dev.fld (twReg (c.f 4 2 0) 0) 1 0 = 3 →
      ∃ t, exec (.twEnable r k) s = .next t ∧ Answered s.dev t.dev r stInvalidField 4 ∧ Keeps byDone s.dev t.dev)
    ∧ (∀ n, s.dev.fld (twReg (c.f 4 2 0) 0) 1 0 ≠ 3 → k = some n → n ≤ 9 →
      ∃ t, exec (.twEnable r k) s = .next t ∧ t.pending = s.pending ∧ Answered s.dev t.dev r stSuccess n
        ∧ (t.dev.ctl (c.f 4 2 0)).state = .enabled ∧ (t.dev.ctl (c.f 4 2 0)).sda = true
        ∧ Keeps (.tw :: .ctrs :: byDone) s.dev t.dev)
    ∧ (s.dev.fld (twReg (c.f 4 2 0) 0) 1 0 ≠ 3 → k = none →
      ∃ t, exec (.twEnable r k) s = .next t ∧ t.pending = s.pending ∧ Answered s.dev t.dev r stStuckLow 9
        ∧ (t.dev.ctl (c.f 4 2 0)).state = .stuck ∧ Keeps (.tw :: .ctrs :: byDone) s.dev t.dev))
  ∧ (∀ (s : State) (r : CmdRef) (c : Cmd), s.dev.clear specTwDisable r c = true →
    s.dev.twInReset (c.f 4 2 0) = false → (s.dev.ctl (c.f 4 2 0)).disabling = none →
    (s.dev.ctl (c.f 4 2 0)).cur = none → (s.dev.ctl (c.f 4 2 0)).xfers = [] → s.dev.allProgs = [] →
    ∃ t, exec (.twDisable r) s = .next t ∧ t.pending = s.pending ∧ Answered s.dev t.dev r stSuccess 0
      ∧ (t.dev.ctl (c.f 4 2 0)).state = .disabled ∧ (t.dev.ctl (c.f 4 2 0)).sclHeld = false
      ∧ Keeps (.tw :: byDone) s.dev t.dev)
  ∧ (∀ (s : State) (r : CmdRef) (c : Cmd) (data : List Byte), s.dev.clear specTwXfer r c = true →
    (s.dev.twOff (c.f 4 2 0) = true →
      ∃ t, exec (.twXfer r data) s = .next t ∧ Answered s.dev t.dev r stEngineDown 0 ∧ Keeps byDone s.dev t.dev)
    ∧ (s.dev.twOff (c.f 4 2 0) = false → (s.dev.ctl (c.f 4 2 0)).disabling = none →
      ∃ t x, exec (.twXfer r data) s = .next t ∧ t.pending = s.pending ∧ Begun s.dev t.dev r c
        ∧ t.dev.ctl (c.f 4 2 0) = { s.dev.ctl (c.f 4 2 0) with xfers := (s.dev.ctl (c.f 4 2 0)).xfers ++ [x] }
        ∧ x.ref = r ∧ x.entry = c.f 4 12 8 ∧ x.op = c.f 4 18 16 ∧ x.wlen = c.f 6 12 0 ∧ x.rlen = c.f 6 28 16
        ∧ x.written = 0 ∧ x.got = [] ∧ x.started = false ∧ Keeps [.tw, .fetch] s.dev t.dev))

/-- Transactions of a TW_XFER on the bus (R390 to R400). -/
def Obligations.TwoWireTransfers : Prop :=
  (∀ (s : State) (c : Fin 8) (x : Xfer), s.dev.idleMode = true → s.dev.twFree c.val = true →
    (s.dev.ctl c.val).cur = none → (s.dev.ctl c.val).disabling = none → (s.dev.ctl c.val).xfers = [x] →
    s.dev.allProgs = [] → s.dev.lockLets c.val x.ref.qid = true →
    ∃ t, exec (.twTransactionStart c) s = .next t ∧ (t.dev.ctl c.val).cur = some (.xfer x.ref)
      ∧ (t.dev.ctl c.val).hold = .running ∧ (t.dev.ctl c.val).xfers = [{ x with started := true }]
      ∧ Out.twStart c.val (s.dev.xferBytes c.val x) ∈ t.dev.out ∧ Keeps [.tw, .out] s.dev t.dev)
  ∧ (∀ (s : State) (c : Fin 8) (x : Xfer) (k : Cmd) (e : TxEnd), s.dev.idleMode = true →
    (s.dev.ctl c.val).cur = some (.xfer x.ref) → (s.dev.ctl c.val).hold = .running →
    (s.dev.ctl c.val).disabling = none → (s.dev.ctl c.val).xfers = [x] → s.dev.cmd? x.ref = some k → k.fail = none →
    (s.dev.qp x.ref.qid).live = true → (s.dev.qp x.ref.qid).cqLost = false → s.dev.hif.queueOps = [] →
    (e.nack = none → s.dev.tgtSmbus c.val x.entry = false → x.op = 0 → x.rlen = 0 → x.got = [] → 0 < x.wlen →
      x.written + s.dev.chunk c.val x = x.wlen →
      ∃ t, exec (.twTransactionEnd c e) s = .next t
        ∧ Answered s.dev t.dev x.ref stSuccess (xferResult { x with written := x.wlen, trunc := false, count := 0 })
        ∧ (t.dev.ctl c.val).xfers = [] ∧ (t.dev.ctl c.val).cur = none ∧ Keeps (.tw :: byDone) s.dev t.dev)
    ∧ (∀ byte acked, 0 < byte →
      ∃ t res, exec (.busNack c byte acked) s = .next t ∧ Answered s.dev t.dev x.ref stBusNack res
        ∧ (t.dev.ctl c.val).xfers = [] ∧ (t.dev.ctl c.val).cur = none)
    ∧ (∀ byte bit, (s.dev.ctl c.val).arbLeft = 0 →
      ∃ t res, exec (.arbitrationLoss c byte bit) s = .next t ∧ Answered s.dev t.dev x.ref stArbLost res
        ∧ (t.dev.ctl c.val).xfers = [] ∧ (t.dev.ctl c.val).cur = none ∧ (t.dev.ctl c.val).busBusy = true)
    ∧ (∀ byte bit, 0 < (s.dev.ctl c.val).arbLeft →
      ∃ t, exec (.arbitrationLoss c byte bit) s = .next t ∧ (t.dev.ctl c.val).hold = .lost
        ∧ (t.dev.ctl c.val).arbLeft = (s.dev.ctl c.val).arbLeft - 1 ∧ t.dev.cmd? x.ref = some k
        ∧ Keeps [.tw, .ctrs] s.dev t.dev)
    ∧ (∀ acked, s.dev.stretchOn c.val = true →
      ∃ t res, exec (.stretchTimeout c acked) s = .next t ∧ Answered s.dev t.dev x.ref stStretchTimeout res
        ∧ (t.dev.ctl c.val).sclHeld = true)
    ∧ (∀ acked, s.dev.tgt c.val (s.dev.ctl c.val).lastEntry 0 12 12 = 1 →
      ∃ t res, exec (.stretchViolation c acked) s = .next t ∧ Answered s.dev t.dev x.ref stStretchViolation res
        ∧ (t.dev.ctl c.val).sclHeld = true))
  ∧ (∀ (s : State) (c : Fin 8) (k : TwWork), s.dev.idleMode = true → (s.dev.ctl c.val).hold = .waking →
    (s.dev.ctl c.val).cur = some k → s.dev.twFree c.val = false →
    ∃ t, exec (.wakeDelayExpiry c) s = .next t
      ∧ t.dev.ctl c.val = { s.dev.ctl c.val with hold := .lost } ∧ Keeps [.tw] s.dev t.dev)

/-- BUS_FREE_TIMEOUT, START_OR_STOP_SEEN, SCL_RELEASED (R389, R395). -/
def Obligations.TwoWireBusState : Prop :=
  ∀ (s : State) (c : Fin 8), s.dev.idleMode = true →
    (∃ t, exec (.busFreeTimeout c) s = .next t ∧ t.dev.ctl c.val = { s.dev.ctl c.val with busBusy := false }
      ∧ (∀ k, k ≠ c.val → t.dev.ctl k = s.dev.ctl k) ∧ Keeps [.tw] s.dev t.dev)
    ∧ (∀ start, ∃ t, exec (.startOrStopSeen c start) s = .next t
      ∧ t.dev.ctl c.val = { s.dev.ctl c.val with busBusy := start }
      ∧ (∀ k, k ≠ c.val → t.dev.ctl k = s.dev.ctl k) ∧ Keeps [.tw] s.dev t.dev)
    ∧ ((s.dev.ctl c.val).sclHeld = true →
      ∃ t, exec (.sclReleased c) s = .next t
        ∧ t.dev.ctl c.val = { s.dev.ctl c.val with sclHeld := false, scl := true }
        ∧ t.dev.out = s.dev.out ++ [.twStop c.val] ∧ (∀ k, k ≠ c.val → t.dev.ctl k = s.dev.ctl k)
        ∧ Keeps [.tw, .out] s.dev t.dev)
    ∧ ((s.dev.ctl c.val).sclHeld = false → exec (.sclReleased c) s = .next s)
    ∧ ((s.dev.ctl c.val).hold ≠ .waking → exec (.wakeDelayExpiry c) s = .next s)

/-- ETH_UP, ETH_DOWN and the events of an Ethernet port (R367, R368, R370, R375, R386, R387). -/
def Obligations.EthernetPorts : Prop :=
  (∀ (s : State) (r : CmdRef) (c : Cmd) (p : Nat), p = c.f 4 0 0 →
    (s.dev.clear specEthUp r c = true →
      (s.dev.noCode 3 = true →
        ∃ t, exec (.ethUp r) s = .next t ∧ Answered s.dev t.dev r stEngineDown 0 ∧ Keeps byDone s.dev t.dev)
      ∧ (s.dev.noCode 3 = false → (s.dev.eth p).up = true →
        ∃ t, exec (.ethUp r) s = .next t
          ∧ Answered s.dev t.dev r stSuccess (if (s.dev.eth p).link then (s.dev.eth p).speed else 0)
          ∧ Keeps byDone s.dev t.dev)
      ∧ (s.dev.noCode 3 = false → (s.dev.eth p).up = false → s.dev.ethBad p = true →
        ∃ t, exec (.ethUp r) s = .next t ∧ Answered s.dev t.dev r stInvalidField 4 ∧ Keeps byDone s.dev t.dev)
      ∧ (s.dev.noCode 3 = false → (s.dev.eth p).up = false → s.dev.ethBad p = false →
        ∃ t, exec (.ethUp r) s = .next t ∧ t.pending = s.pending ∧ Answered s.dev t.dev r stSuccess 0
          ∧ t.dev.eth p = { up := true, link := false, speed := 0, fec := 0, trial := 1 }
          ∧ (∀ q, q ≠ p → t.dev.eth q = s.dev.eth q) ∧ t.dev.ntu.doms = s.dev.ntu.doms
          ∧ Keeps (.ntu :: byDone) s.dev t.dev))
    ∧ (s.dev.clear specEthDown r c = true → s.dev.noCode 3 = false →
      ∃ t, exec (.ethDown r) s = .next t ∧ t.pending = s.pending ∧ Answered s.dev t.dev r stSuccess 0
        ∧ t.dev.eth p = { up := false, link := false, speed := 0, fec := 0, trial := 1 }
        ∧ (∀ q, q ≠ p → t.dev.eth q = s.dev.eth q) ∧ t.dev.ntu.doms = s.dev.ntu.doms ∧ t.dev.ntu.lts = s.dev.ntu.lts
        ∧ Keeps (.ntu :: .fetch :: byPost) s.dev t.dev))
  ∧ (∀ (s : State) (p : Fin 2) (e : Eth), s.dev.idleMode = true → e = s.dev.eth p.val →
    (∀ speed, e.up = true → e.link = false →
      speed = (if s.dev.fld (0xA0000 + 0x40 * p.val) 1 0 = 0 then e.trial
        else s.dev.fld (0xA0000 + 0x40 * p.val) 1 0) →
      ∃ t tag, exec (.ethLinkUp p speed) s = .next t ∧ Out.net p.val tag (.igmpReport 0xE0000181) ∈ t.dev.out
        ∧ t.dev.eth p.val = { e with
            link := true, speed := speed, fec := if speed = 1 then s.dev.fld (0xA0000 + 0x40 * p.val) 5 4 else 2 }
        ∧ (∀ q, q ≠ p.val → t.dev.eth q = s.dev.eth q) ∧ Keeps (.ntu :: byPost) s.dev t.dev)
    ∧ (∀ speed, e.up = false ∨ e.link = true → exec (.ethLinkUp p speed) s = .next s)
    ∧ (e.up = true → e.link = false → s.dev.fld (0xA0000 + 0x40 * p.val) 1 0 = 0 →
      ∃ t, exec (.speedAlternate p) s = .next t ∧ t.dev.eth p.val = { e with trial := 3 - e.trial }
        ∧ (∀ q, q ≠ p.val → t.dev.eth q = s.dev.eth q) ∧ Keeps [.ntu] s.dev t.dev)
    ∧ (e.up = false ∨ e.link = true ∨ s.dev.fld (0xA0000 + 0x40 * p.val) 1 0 ≠ 0 →
      exec (.speedAlternate p) s = .next s)
    ∧ (e.link = true →
      ∃ t, exec (.ethLinkDown p) s = .next t
        ∧ t.dev.eth p.val = { up := e.up, link := false, speed := 0, fec := 0, trial := 1 }
        ∧ (∀ q, q ≠ p.val → t.dev.eth q = s.dev.eth q) ∧ t.dev.ntu.lts = s.dev.ntu.lts
        ∧ Keeps (.ntu :: byPost) s.dev t.dev)
    ∧ (e.link = false → exec (.ethLinkDown p) s = .next s ∧ exec (.igmpQuery p) s = .next s
        ∧ exec (.rxFcsErr p) s = .next s ∧ ∀ ip, exec (.arpRequest p ip) s = .next s)
    ∧ (e.link = true →
      (∃ t tag, exec (.arpRequest p (s.dev.reg (0xA000C + 0x40 * p.val))) s = .next t
        ∧ t.dev.out = s.dev.out ++ [.net p.val tag (.arpReply (s.dev.reg (0xA000C + 0x40 * p.val))
            (s.dev.reg (0xA0004 + 0x40 * p.val) + 4294967296 * s.dev.fld (0xA0008 + 0x40 * p.val) 15 0))]
        ∧ Keeps [.out] s.dev t.dev)
      ∧ (∀ ip, ip ≠ s.dev.reg (0xA000C + 0x40 * p.val) → exec (.arpRequest p ip) s = .next s)
      ∧ (s.dev.ntu.pel.member = none →
        ∃ t tag, exec (.igmpQuery p) s = .next t
          ∧ t.dev.out = s.dev.out ++ [.net p.val tag (.igmpReport 0xE0000181)] ∧ Keeps [.out] s.dev t.dev)
      ∧ (∃ t, exec (.rxFcsErr p) s = .next t ∧ t.dev.ctrs = (s.dev.count (0xA0034 + 0x40 * p.val) 1).ctrs
        ∧ Keeps [.ctrs] s.dev t.dev)))
  ∧ (∀ (s : State) (p : Fin 2) (f : BridgeFrame), s.dev.idleMode = true →
    (s.dev.bridging = false ∨ f.dstIsPort = true ∨ 9216 < f.len → exec (.frameForward p f) s = .next s)
    ∧ (s.dev.bridging = true → f.dstIsPort = false → f.len ≤ 9216 →
      (f.bufferFull = true →
        ∃ t, exec (.frameForward p f) s = .next t ∧ t.dev.ctrs = (s.dev.count (0xA0030 + 0x40 * p.val) 1).ctrs
          ∧ Keeps [.ctrs] s.dev t.dev)
      ∧ (f.bufferFull = false →
        (f.ptp ≠ 2 → f.ptp ≠ 3 →
          ∃ t tag, exec (.frameForward p f) s = .next t
            ∧ t.dev.out = s.dev.out ++ [.net (1 - p.val) tag (.forwarded f (if f.ptp = 1 then f.corr + f.residence else f.corr))]
            ∧ Keeps [.out] s.dev t.dev)
        ∧ (f.ptp = 2 →
          ∃ t tag, exec (.frameForward p f) s = .next t
            ∧ t.dev.out = s.dev.out ++ [.net (1 - p.val) tag (.forwarded f f.corr)]
            ∧ (s.dev.tracked p.val < 16 → t.dev.ntu.tc = s.dev.ntu.tc ++ [{
                port := p.val, srcId := f.srcId, seq := f.seq, residence := f.residence }])
            ∧ (16 ≤ s.dev.tracked p.val → t.dev.ntu.tc = s.dev.ntu.tc)
            ∧ t.dev.ntu = { s.dev.ntu with tc := t.dev.ntu.tc } ∧ Keeps [.ntu, .out] s.dev t.dev)
        ∧ (∀ x, f.ptp = 3 → s.dev.ntu.tc = [x] → x.port = p.val → x.srcId = f.srcId → x.seq = f.seq →
          ∃ t tag, exec (.frameForward p f) s = .next t
            ∧ t.dev.out = s.dev.out ++ [.net (1 - p.val) tag (.forwarded f (f.corr + x.residence))]
            ∧ t.dev.ntu = { s.dev.ntu with tc := [] } ∧ Keeps [.ntu, .out] s.dev t.dev)
        ∧ (f.ptp = 3 → (∀ x ∈ s.dev.ntu.tc, ¬ (x.port = p.val ∧ x.srcId = f.srcId ∧ x.seq = f.seq)) →
          ∃ t tag, exec (.frameForward p f) s = .next t
            ∧ t.dev.out = s.dev.out ++ [.net (1 - p.val) tag (.forwarded f f.corr)]
            ∧ t.dev.ctrs = (s.dev.count (0xA003C + 0x40 * p.val) 1).ctrs ∧ Keeps [.ctrs, .out] s.dev t.dev)))
    ∧ (∀ id q, ∃ t, exec (.tcSyncTrackExpiry p id q) s = .next t ∧ Keeps [.ntu] s.dev t.dev
        ∧ t.dev.ntu = { s.dev.ntu with tc := t.dev.ntu.tc }
        ∧ ∀ x, x ∈ t.dev.ntu.tc ↔ x ∈ s.dev.ntu.tc ∧ ¬ (x.port = p.val ∧ x.srcId = id ∧ x.seq = q)))

/-- Class 0x09 on domains and the LTS, and PTP messages (R372 to R378, R387). -/
def Obligations.PtpDomains : Prop :=
  (∀ (s : State) (r : CmdRef) (c : Cmd) (k : Nat), k = c.f 4 0 0 → s.dev.noCode 3 = false →
    (s.dev.clear specDomStart r c = true →
      ((s.dev.dom k).role ≠ 0 →
        ∃ t, exec (.ntuDomStart r) s = .next t ∧ Answered s.dev t.dev r stSuccess 0 ∧ Keeps byDone s.dev t.dev)
      ∧ ((s.dev.dom k).role = 0 → s.dev.domBad k = true →
        ∃ t, exec (.ntuDomStart r) s = .next t ∧ Answered s.dev t.dev r stInvalidField 4 ∧ Keeps byDone s.dev t.dev)
      ∧ ((s.dev.dom k).role = 0 → s.dev.domBad k = false →
        ∃ t, exec (.ntuDomStart r) s = .next t ∧ t.pending = s.pending ∧ Answered s.dev t.dev r stSuccess 0
          ∧ t.dev.dom k = { s.dev.dom k with role := 1, pend := none, asked := none, exch := none, fresh := false }
          ∧ (∀ j, j ≠ k → t.dev.dom j = s.dev.dom j) ∧ t.dev.ntu.lts = s.dev.ntu.lts
          ∧ Keeps (.ntu :: .fetch :: byPost) s.dev t.dev))
    ∧ (s.dev.clear specDomStop r c = true →
      ∃ t, exec (.ntuDomStop r) s = .next t ∧ t.pending = s.pending ∧ Answered s.dev t.dev r stSuccess 0
        ∧ (t.dev.dom k).role = 0 ∧ (t.dev.dom k).counter = (s.dev.dom k).counter
        ∧ (t.dev.dom k).incr = (s.dev.dom k).incr ∧ (∀ j, j ≠ k → t.dev.dom j = s.dev.dom j)
        ∧ t.dev.ntu.lts = s.dev.ntu.lts ∧ Keeps (.ntu :: .fetch :: byPost) s.dev t.dev)
    ∧ (s.dev.clear specDomRole r c = true →
      (c.f 4 5 4 ≠ 1 → s.dev.ethLink (s.dev.domCfg k 0 0) = false →
        ∃ t, exec (.ntuDomRole r) s = .next t ∧ Answered s.dev t.dev r stLinkDown 0 ∧ Keeps byDone s.dev t.dev)
      ∧ (c.f 4 5 4 = 1 ∨ s.dev.ethLink (s.dev.domCfg k 0 0) = true →
        ∃ t, exec (.ntuDomRole r) s = .next t ∧ t.pending = s.pending ∧ Answered s.dev t.dev r stSuccess 0
          ∧ t.dev.dom k = { s.dev.dom k with
              role := c.f 4 5 4, masterId := c.q 5, masterPort := c.f 7 15 0, gm := c.q 8, pend := none, asked := none
              exch := none, fresh := false }
          ∧ (∀ j, j ≠ k → t.dev.dom j = s.dev.dom j) ∧ Keeps (.ntu :: byDone) s.dev t.dev))
    ∧ (s.dev.clear specSetIncr r c = true →
      ∃ t, exec (.ntuSetIncr r) s = .next t ∧ t.pending = s.pending ∧ Answered s.dev t.dev r stSuccess 0
        ∧ t.dev.dom k = { s.dev.dom k with incr := c.q 5, locked := c.b 4 8 }
        ∧ (∀ j, j ≠ k → t.dev.dom j = s.dev.dom j) ∧ Keeps (.ntu :: byDone) s.dev t.dev)
    ∧ (s.dev.clear specAdjPhase r c = true →
      ∃ t, exec (.ntuAdjPhase r) s = .next t ∧ t.pending = s.pending ∧ Answered s.dev t.dev r stSuccess 0
        ∧ t.dev.dom k = { s.dev.dom k with
            counter := (((s.dev.dom k).counter + toSigned 64 (c.q 5) * 65536) % (timeMod : Int)).toNat }
        ∧ (∀ j, j ≠ k → t.dev.dom j = s.dev.dom j) ∧ t.dev.ntu.lts = s.dev.ntu.lts
        ∧ Keeps (.ntu :: .fetch :: byPost) s.dev t.dev)
    ∧ (∀ blk, s.dev.clear specSetTemplate r c = true → blk.length = c.f 4 15 8 →
      ∃ t, exec (.ntuSetTemplate r blk) s = .next t ∧ t.pending = s.pending ∧ Answered s.dev t.dev r stSuccess 0
        ∧ (c.b 4 4 = false → t.dev.dom k = { s.dev.dom k with announce := some blk })
        ∧ (c.b 4 4 = true → t.dev.dom k = { s.dev.dom k with metadata := if blk.isEmpty then none else some blk })
        ∧ (∀ j, j ≠ k → t.dev.dom j = s.dev.dom j) ∧ Keeps (.ntu :: byDone) s.dev t.dev)
    ∧ (s.dev.clear specSelect r c = true →
      ∃ t, exec (.ntuSelect r) s = .next t ∧ t.pending = s.pending
        ∧ Answered s.dev t.dev r stSuccess (if t.dev.ntu.slewing then 1 else 0) ∧ t.dev.ntu.sel = c.f 4 1 0
        ∧ (c.b 4 8 = true → c.f 4 1 0 < 2 →
            t.dev.ntu.lts = (s.dev.dom (c.f 4 1 0)).counter ∧ t.dev.ntu.slewing = false)
        ∧ (c.b 4 8 = false → t.dev.ntu.lts = s.dev.ntu.lts) ∧ t.dev.ntu.doms = s.dev.ntu.doms
        ∧ Keeps (.ntu :: .fetch :: byPost) s.dev t.dev)
    ∧ (s.dev.clear specReadTime r c = true →
      ∃ t, exec (.ntuReadTime r) s = .next t ∧ t.pending = s.pending ∧ Answered s.dev t.dev r stSuccess 0
        ∧ Out.hostFields (c.q 5) 36 [⟨0, 12, ltsForm s.dev.ntu.lts⟩, ⟨12, 12, ltsForm (s.dev.dom 0).counter⟩,
            ⟨24, 12, ltsForm (if s.dev.feat 9 then (s.dev.dom 1).counter else 0)⟩] ∈ t.dev.out
        ∧ Keeps byDone s.dev t.dev))
  ∧ (∀ (s : State) (k : Nat), s.dev.idleMode = true →
    (s.dev.ltsFollows = none ∨ s.dev.ntu.slewing = false → exec .slewEnd s = .next s)
    ∧ (s.dev.ltsFollows = some k → s.dev.ntu.slewing = true →
      s.dev.ltsDiff.natAbs < s.dev.slewAdj (s.dev.dom k).incr →
      ∃ t, exec .slewEnd s = .next t ∧ t.dev.ntu.slewing = false
        ∧ t.dev.ntu.lts = ((s.dev.ntu.lts : Int) + s.dev.ltsDiff).toNat % timeMod ∧ t.dev.ntu.doms = s.dev.ntu.doms
        ∧ Keeps (.ntu :: byPost) s.dev t.dev))
  ∧ (∀ (s : State) (p k : Fin 2) (m : PtpMsg) (v : Dom), s.dev.idleMode = true →
    s.dev.domHears k.val p.val m.domain = true → (s.dev.dom (1 - k.val)).role = 0 → v = s.dev.dom k.val →
    (s.dev.domTakes k.val m = false → exec (.syncReceived p m) s = .next s ∧ exec (.followUpReceived p m) s = .next s
      ∧ exec (.delayRespReceived p m) s = .next s)
    ∧ (s.dev.domTakes k.val m = true → m.twoStep = true →
      ∃ t, exec (.syncReceived p m) s = .next t
        ∧ t.dev.dom k.val = { v with pend := some {
            seq := m.seq, srcId := m.srcId, srcPort := m.srcPort, t2 := v.counter, corr := m.corr } }
        ∧ Keeps [.ntu] s.dev t.dev)
    ∧ (∀ n, s.dev.domTakes k.val m = true → m.twoStep = false → s.dev.ringOf 4 = some n → s.dev.fits n 2 = true →
      ∃ t slot rc, exec (.syncReceived p m) s = .next t ∧ Out.record n slot rc ∈ t.dev.out ∧ rc.type = 0x4100
        ∧ rc.inst = k.val ∧ (⟨34, 2, m.seq⟩ : Fld) ∈ rc.body ∧ (⟨52, 12, ltsForm v.counter⟩ : Fld) ∈ rc.body
        ∧ t.dev.dom k.val = { v with pend := none, fresh := false } ∧ Keeps (.ntu :: byPost) s.dev t.dev)
    ∧ (∀ y n, s.dev.domTakes k.val m = true → v.pend = some y → y.seq = m.seq → y.srcId = m.srcId →
      y.srcPort = m.srcPort → s.dev.ringOf 4 = some n → s.dev.fits n 2 = true →
      ∃ t slot rc, exec (.followUpReceived p m) s = .next t ∧ Out.record n slot rc ∈ t.dev.out ∧ rc.type = 0x4100
        ∧ rc.inst = k.val ∧ (⟨52, 12, ltsForm y.t2⟩ : Fld) ∈ rc.body
        ∧ (⟨88, 8, fromSigned 64 (y.corr + m.corr)⟩ : Fld) ∈ rc.body
        ∧ t.dev.dom k.val = { v with pend := none, fresh := false } ∧ Keeps (.ntu :: byPost) s.dev t.dev)
    ∧ (∀ t3, s.dev.domTakes k.val m = true → m.reqOwn = true → v.asked = some (m.seq, t3) →
      ∃ t, exec (.delayRespReceived p m) s = .next t
        ∧ t.dev.dom k.val = { v with
            asked := none, fresh := true, exch := some { seq := m.seq, t3 := t3, t4 := m.time, corr := m.corr } }
        ∧ Keeps [.ntu] s.dev t.dev)
    ∧ (v.role = 3 →
      ∃ t tag, exec (.delayReqReceived p m) s = .next t
        ∧ t.dev.out = s.dev.out ++ [.net p.val tag (.delayResp m.domain m.seq m.srcId m.srcPort v.counter m.corr)]
        ∧ Keeps [.out] s.dev t.dev)
    ∧ (v.role ≠ 3 → exec (.delayReqReceived p m) s = .next s)
    ∧ (∀ body n, body.length ≤ 192 → s.dev.ringOf 4 = some n → s.dev.fits n (ceilDiv (64 + body.length) 64) = true →
      ∃ t slot rc, exec (.ptpMsg p m body) s = .next t ∧ Out.record n slot rc ∈ t.dev.out ∧ rc.type = 0x4101
        ∧ rc.slots = ceilDiv (64 + body.length) 64 ∧ rc.inst = k.val
        ∧ (⟨64, body.length, leNat body⟩ : Fld) ∈ rc.body ∧ Keeps byPost s.dev t.dev))
  ∧ (∀ (s : State) (k : Fin 2) (v : Dom), s.dev.idleMode = true → v = s.dev.dom k.val →
    (s.dev.domSends k.val 3 = false → exec (.announceSend k) s = .next s ∧ exec (.syncSend k) s = .next s
      ∧ exec (.metadataSend k) s = .next s)
    ∧ (s.dev.domSends k.val 2 = false → exec (.delayReqSend k) s = .next s)
    ∧ (s.dev.domSends k.val 3 = true →
      (∀ b, v.announce = some b →
        ∃ t tag, exec (.announceSend k) s = .next t ∧ t.dev.dom k.val = { v with annSeq := (v.annSeq + 1) % 65536 }
          ∧ t.dev.out = s.dev.out ++ [.net (s.dev.domCfg k.val 0 0) tag (.announce (s.dev.domCfg k.val 31 24) v.annSeq
              (toSigned 4 (s.dev.domCfg k.val 15 12)) b)]
          ∧ Keeps [.ntu, .out] s.dev t.dev)
      ∧ (∃ t tag, exec (.syncSend k) s = .next t ∧ t.dev.dom k.val = { v with syncSeq := (v.syncSeq + 1) % 65536 }
          ∧ t.dev.out = s.dev.out ++ [.net (s.dev.domCfg k.val 0 0) tag (.sync (s.dev.domCfg k.val 31 24) v.syncSeq
              (toSigned 4 (s.dev.domCfg k.val 19 16)) (v.counter / 4294967296) ((v.counter % 4294967296 / 65536 : Nat) : Int))]
          ∧ Keeps [.ntu, .out] s.dev t.dev)
      ∧ (∀ b, v.metadata = some b →
        ∃ t tag, exec (.metadataSend k) s = .next t ∧ t.dev.dom k.val = { v with metaSeq := (v.metaSeq + 1) % 65536 }
          ∧ t.dev.out = s.dev.out ++ [.net (s.dev.domCfg k.val 0 0) tag
              (.metadata (s.dev.domCfg k.val 31 24) v.metaSeq b)]
          ∧ Keeps [.ntu, .out] s.dev t.dev))
    ∧ (s.dev.domSends k.val 2 = true →
      ∃ t tag, exec (.delayReqSend k) s = .next t
        ∧ t.dev.dom k.val = { v with dreqSeq := (v.dreqSeq + 1) % 65536, asked := some (v.dreqSeq, v.counter) }
        ∧ t.dev.out = s.dev.out ++ [.net (s.dev.domCfg k.val 0 0) tag (.delayReq (s.dev.domCfg k.val 31 24) v.dreqSeq
            (if s.dev.domCfg k.val 1 1 = 1 then s.dev.reg (0xA0204 + 0x40 * k.val) else 0xE0000181))]
        ∧ Keeps [.ntu, .out] s.dev t.dev))

/-- The Peloton (R379 to R384, R387). -/
def Obligations.PelotonMessages : Prop :=
  (∀ (s : State) (r : CmdRef) (c : Cmd), s.dev.noCode 3 = false →
    (s.dev.clear specPelJoin r c = true →
      (s.dev.ethLink (c.f 4 24 24) = false →
        ∃ t, exec (.pelJoin r) s = .next t ∧ Answered s.dev t.dev r stLinkDown 0 ∧ Keeps byDone s.dev t.dev)
      ∧ (s.dev.ethLink (c.f 4 24 24) = true →
        ∃ t tag, exec (.pelJoin r) s = .next t ∧ t.pending = s.pending ∧ Answered s.dev t.dev r stSuccess 0
          ∧ t.dev.ntu.pel.member = some {
              id := c.f 4 13 0, leader := c.b 4 16, port := c.f 4 24 24, group := c.f 5 15 0, udp := c.f 5 31 16
              ip := c.w 6, schedMs := c.f 7 15 0, statusMs := c.f 7 31 16, holdMs := c.f 8 15 0 }
          ∧ t.dev.ntu.pel.cur = none ∧ t.dev.ntu.pel.follow = none ∧ t.dev.ntu.pel.lost = false
          ∧ Out.net (c.f 4 24 24) tag (.igmpReport (c.w 6)) ∈ t.dev.out
          ∧ t.dev.ntu = { s.dev.ntu with pel := t.dev.ntu.pel } ∧ Keeps (.ntu :: .fetch :: byPost) s.dev t.dev))
    ∧ (s.dev.clear specPelLeave r c = true →
      ∃ t, exec (.pelLeave r) s = .next t ∧ t.pending = s.pending ∧ Answered s.dev t.dev r stSuccess 0
        ∧ t.dev.ntu.pel = { seq := s.dev.ntu.pel.seq }
        ∧ (∀ p, p < 4 → (t.dev.port p).peloton = false ∧ (t.dev.port p).rateNum = (s.dev.port p).rateNum
            ∧ (t.dev.port p).epoch = (s.dev.port p).epoch ∧ (t.dev.port p).scheduled = (s.dev.port p).scheduled)
        ∧ Keeps (.ntu :: .sni :: byDone) s.dev t.dev)
    ∧ (∀ body m, s.dev.clear specPelSchedule r c = true → s.dev.ntu.pel.member = some m →
      (s.dev.ethLink m.port = false →
        ∃ t, exec (.pelSchedule r body) s = .next t ∧ Answered s.dev t.dev r stLinkDown 0 ∧ Keeps byDone s.dev t.dev)
      ∧ (s.dev.ethLink m.port = true → body.length = 76 → blkOffs 5 (s.dev.schedBlk c body) = [] →
        ∃ t tag x, exec (.pelSchedule r body) s = .next t ∧ t.pending = s.pending
          ∧ Answered s.dev t.dev r stSuccess s.dev.ntu.pel.seq
          ∧ Out.net m.port tag (.schedule m.ip m.udp (ltsForm s.dev.now) x) ∈ t.dev.out ∧ x.seq = s.dev.ntu.pel.seq
          ∧ x.sender = m.id ∧ x.group = m.group ∧ x.leader = true
          ∧ (s.dev.ntu.pel.cur = none → t.dev.ntu.pel.cur = some (blkSched body 0) ∧ x.cur = blkSched body 0)
          ∧ t.dev.ntu.pel.member = some m ∧ t.dev.ntu.pel.seq = (s.dev.ntu.pel.seq + 1) % 4294967296
          ∧ Keeps (.ntu :: .sni :: .fetch :: byPost) s.dev t.dev)))
  ∧ (∀ (s : State) (m : PelMember), s.dev.idleMode = true → s.dev.ntu.pel.member = some m →
    (∀ (p : Fin 2) (x : SchedMsg), m.port ≠ p.val ∨ m.group ≠ x.group ∨ s.dev.ethLink p.val = false →
      exec (.scheduleReceived p x) s = .next s)
    ∧ (∀ (p : Fin 2) (x : SchedMsg), m.port = p.val → m.group = x.group → s.dev.ethLink p.val = true → x.leader = true →
      (m.leader = true → ∃ t, exec (.scheduleReceived p x) s = .next t ∧ Keeps byPost s.dev t.dev)
      ∧ (m.leader = false → (∀ f, s.dev.ntu.pel.follow = some f → x.sender ≤ f) → x.sender ≠ m.id →
        (∀ l, s.dev.ntu.pel.last = some l → l.1 = x.sender → seqLater l.2 x.seq = true) → schedOk x.cur = true →
        s.dev.myGm = some x.gm → s.dev.ntu.pel.cur = none → x.change = none →
        ∃ t, exec (.scheduleReceived p x) s = .next t
          ∧ t.dev.ntu.pel = { s.dev.ntu.pel with
              follow := some x.sender, lost := false, last := some (x.sender, x.seq), gm := x.gm
              ptpDomain := x.ptpDomain, cur := some x.cur }
          ∧ Keeps (.ntu :: byPost) s.dev t.dev))
    ∧ (∀ (p : Fin 2) (x : StatusMsg), m.port = p.val → m.group = x.group → s.dev.ethLink p.val = true → x.sender ≠ m.id →
      (m.leader = false → exec (.statusReceived p x) s = .next s)
      ∧ (∀ n, m.leader = true → s.dev.ringOf 5 = some n → s.dev.fits n 1 = true →
        ∃ t slot rc, exec (.statusReceived p x) s = .next t ∧ Out.record n slot rc ∈ t.dev.out ∧ rc.type = 0x5001
          ∧ (⟨32, 8, x.lastIndex⟩ : Fld) ∈ rc.body ∧ (⟨40, 4, x.schedSeq⟩ : Fld) ∈ rc.body ∧ Keeps byPost s.dev t.dev))
    ∧ (m.leader = false ∨ s.dev.ethLink m.port = false ∨ s.dev.ntu.pel.cur = none → exec .scheduleSend s = .next s)
    ∧ (∀ cur, m.leader = true → s.dev.ethLink m.port = true → s.dev.ntu.pel.cur = some cur →
      ∃ t tag x, exec .scheduleSend s = .next t
        ∧ t.dev.out = s.dev.out ++ [.net m.port tag (.schedule m.ip m.udp (ltsForm s.dev.now) x)]
        ∧ x.cur = cur ∧ x.seq = s.dev.ntu.pel.seq ∧ x.gm = s.dev.ntu.pel.gm ∧ x.sender = m.id
        ∧ t.dev.ntu.pel = { s.dev.ntu.pel with
            seq := (s.dev.ntu.pel.seq + 1) % 4294967296, last := some (m.id, s.dev.ntu.pel.seq) }
        ∧ Keeps [.ntu, .out] s.dev t.dev)
    ∧ (m.statusMs = 0 ∨ s.dev.ethLink m.port = false → exec .statusSend s = .next s)
    ∧ (m.statusMs ≠ 0 → s.dev.ethLink m.port = true →
      ∃ t tag x, exec .statusSend s = .next t
        ∧ t.dev.out = s.dev.out ++ [.net m.port tag (.status m.ip m.udp (ltsForm s.dev.now) x)]
        ∧ x.seq = s.dev.ntu.pel.seq ∧ x.sender = m.id ∧ x.leader = m.leader ∧ x.lastIndex = s.dev.pelLast
        ∧ t.dev.ntu.pel = { s.dev.ntu.pel with seq := (s.dev.ntu.pel.seq + 1) % 4294967296 }
        ∧ Keeps [.ntu, .out] s.dev t.dev)
    ∧ (m.leader = true ∨ s.dev.ntu.pel.lost = true → exec .leaderLost s = .next s)
    ∧ (m.leader = false → s.dev.ntu.pel.lost = false →
      ∃ t, exec .leaderLost s = .next t ∧ t.dev.ntu.pel = { s.dev.ntu.pel with lost := true, follow := none }
        ∧ Keeps (.ntu :: byPost) s.dev t.dev))

/-- Islands, the derailleur, temperature and the commands of class 0x0C (R428 to R450, R484, R485). -/
def Obligations.PowerAndEngines : Prop :=
  (∀ (s : State) (i : Fin 56) (off : Bool) (g : Nat), s.dev.idleMode = true → g = (if off then 3 else 2) →
    (s.dev.pwr.disabled.contains i.val = true ∨ g ≤ (s.dev.isl i.val).st ∨ s.dev.islandDepth i.val + 1 < g →
      exec (.islandLowPowerEntry i off) s = .next s)
    ∧ (s.dev.pwr.disabled.contains i.val = false → (s.dev.isl i.val).st < g → g ≤ s.dev.islandDepth i.val + 1 →
      ∃ t, exec (.islandLowPowerEntry i off) s = .next t
        ∧ t.dev.isl i.val = { s.dev.isl i.val with st := g, gear := 0, below := 0 }
        ∧ (∀ j, j ≠ i.val → t.dev.isl j = s.dev.isl j) ∧ Keeps [.pwr] s.dev t.dev))
  ∧ (∀ (s : State) (i : Fin 56), s.dev.idleMode = true →
    (s.dev.pwr.disabled.contains i.val = true ∨ (s.dev.isl i.val).st = 0 → exec (.islandWake i) s = .next s)
    ∧ (s.dev.pwr.disabled.contains i.val = false → (s.dev.isl i.val).st ≠ 0 →
      ∃ t, exec (.islandWake i) s = .next t ∧ (t.dev.isl i.val).st = 0
        ∧ (t.dev.isl i.val).pin = (s.dev.isl i.val).pin
        ∧ (i.val < 40 → (t.dev.isl i.val).gear ≤ max 1 (s.dev.ceiling i.val) ∧ 1 ≤ (t.dev.isl i.val).gear)
        ∧ (40 ≤ i.val → (t.dev.isl i.val).gear = 0)
        ∧ (∀ j, j ≠ i.val → t.dev.isl j = s.dev.isl j) ∧ Keeps [.pwr, .ctrs] s.dev t.dev))
  ∧ (∀ s : State, s.dev.idleMode = true →
    ∃ t, exec (.derailleurDecision [] []) s = .next t ∧ Keeps [.pwr, .spk, .ctrs] s.dev t.dev
      ∧ ∀ i, i < 40 →
        (s.dev.awake i = false → t.dev.isl i = s.dev.isl i)
        ∧ (s.dev.awake i = true → (t.dev.isl i).st = 0
          ∧ ((s.dev.isl i).pin ≠ 0 → (t.dev.isl i).gear = min (s.dev.isl i).pin (s.dev.ceiling i))
          ∧ ((s.dev.isl i).pin = 0 →
            ((s.dev.isl i).gear < s.dev.candidate i → (t.dev.isl i).gear = s.dev.candidate i ∧ (t.dev.isl i).below = 0)
            ∧ ((s.dev.isl i).gear = s.dev.candidate i →
                (t.dev.isl i).gear = (s.dev.isl i).gear ∧ (t.dev.isl i).below = 0)
            ∧ (s.dev.ceiling i < (s.dev.isl i).gear → (t.dev.isl i).gear = s.dev.ceiling i)
            ∧ (s.dev.candidate i < (s.dev.isl i).gear → (s.dev.isl i).gear ≤ s.dev.ceiling i →
              ((s.dev.isl i).below < 3 →
                (t.dev.isl i).gear = (s.dev.isl i).gear ∧ (t.dev.isl i).below = (s.dev.isl i).below + 1)
              ∧ (3 ≤ (s.dev.isl i).below →
                (t.dev.isl i).gear = (s.dev.isl i).gear - 1 ∧ (t.dev.isl i).below = 0)))))
  ∧ (∀ (s : State) (i : Instr) (v : Int) (ks : List (Nat × Nat)), s.dev.idleMode = true →
    (i = .hkRound v ks [] ∨ i = .extraDiodeConversion v) →
    (v < 1888 → ∃ t, exec i s = .next t ∧ t.dev.pwr.diode = v ∧ t.dev.on = true
      ∧ t.dev.pwr.tmax = some (max v (s.dev.pwr.tmax.getD v))
      ∧ t.dev.pwr.warn = (decide (1600 ≤ v) || s.dev.pwr.warn && decide (1552 ≤ v))
      ∧ t.dev.pwr.cap = (decide (1680 ≤ v) || s.dev.pwr.cap && decide (1632 ≤ v))
      ∧ (s.dev.pwr.cap = false → 1680 ≤ v → ∀ k, k < 40 → (s.dev.isl k).gear ≠ 0 →
          t.dev.thermCeil k = (s.dev.isl k).gear)
      ∧ (s.dev.pwr.cap = true → v < 1632 → ∀ k, t.dev.thermCeil k = 8)
      ∧ Keeps (.pwr :: byPost) s.dev t.dev)
    ∧ (1888 ≤ v → ∃ t, exec i s = .next t ∧ t.dev.boot.tripped = true ∧ Out.thermTrip ∈ t.dev.out
      ∧ t.dev.teu.enabled = 0 ∧ (∀ k, k < 4 → (t.dev.raster k).run = false ∧ (t.dev.mclk k).running = false)
      ∧ Keeps (.boot :: .pwr :: .sco :: .teu :: .sni :: byPost) s.dev t.dev))
  ∧ (∀ (s : State) (v : Int) (ch n : Nat), s.dev.idleMode = true → v < 1888 → 0 < ch → ch < 10 →
    ∃ t, exec (.hkRound v [] [(ch, n, true)]) s = .next t ∧ SMap.get 0 t.dev.pwr.hk ch = n % 65536
      ∧ (t.dev.reg (0xD0400 + 4 * ch)).testBit 31 = true)
  ∧ (∀ (s : State) (r : CmdRef) (c : Cmd), s.dev.clear specPinGear r c = true →
    (s.dev.ceiling (c.f 4 5 0) < c.f 4 11 8 →
      ∃ t, exec (.pwrPinGear r) s = .next t ∧ Answered s.dev t.dev r stThermal 0 ∧ Keeps byDone s.dev t.dev)
    ∧ (c.f 4 11 8 ≤ s.dev.ceiling (c.f 4 5 0) →
      ∃ t, exec (.pwrPinGear r) s = .next t ∧ t.pending = s.pending
        ∧ Answered s.dev t.dev r stSuccess
            (if c.f 4 11 8 = 0 then (s.dev.isl (c.f 4 5 0)).gear else c.f 4 11 8)
        ∧ (t.dev.isl (c.f 4 5 0)).pin = c.f 4 11 8
        ∧ (0 < c.f 4 11 8 → s.dev.awake (c.f 4 5 0) = true → (t.dev.isl (c.f 4 5 0)).gear = c.f 4 11 8)
        ∧ (∀ j, j ≠ c.f 4 5 0 → t.dev.isl j = s.dev.isl j) ∧ Keeps (.pwr :: .ctrs :: byDone) s.dev t.dev))
  ∧ (∀ (s : State) (r : CmdRef) (c : Cmd), s.dev.clear specSetCfg r c = true →
    ∃ t, exec (.pwrSetCfg r) s = .next t ∧ t.pending = s.pending ∧ Answered s.dev t.dev r stSuccess 0
      ∧ t.dev.reg 0xD0000 = c.w 4 ∧ (∀ o, o ≠ 0xD0000 → t.dev.reg o = s.dev.reg o)
      ∧ Keeps (.regs :: byDone) s.dev t.dev)
  ∧ (∀ (s : State) (r : CmdRef) (c : Cmd), s.dev.clear specIslandEnable r c = true → s.dev.recd.cmds = [] →
    ∃ t, exec (.pwrIslandEnable r) s = .next t ∧ t.pending = s.pending ∧ Answered s.dev t.dev r stSuccess 0
      ∧ t.dev.pwr = { s.dev.pwr with disabled := s.dev.pwr.disabled.filter (· != c.f 4 5 0) }
      ∧ Keeps (.pwr :: .recd :: byDone) s.dev t.dev)
  ∧ (∀ (s : State) (r : CmdRef) (c : Cmd) (i : Nat), s.dev.clear specIslandDisable r c = true → i = c.f 4 5 0 →
    (s.dev.pwr.disabled.contains i = true →
      ∃ t, exec (.pwrIslandDisable r) s = .next t ∧ Answered s.dev t.dev r stSuccess 0 ∧ Keeps byDone s.dev t.dev)
    ∧ (s.dev.pwr.disabled.contains i = false → s.dev.islandWork i = true → c.b 4 8 = false →
      ∃ t, exec (.pwrIslandDisable r) s = .next t ∧ Answered s.dev t.dev r stEngineBusy 0 ∧ Keeps byDone s.dev t.dev)
    ∧ (s.dev.pwr.disabled.contains i = false → (s.dev.islandWork i = true → c.b 4 8 = true) →
      s.dev.noWork = true → s.dev.hif.cmds = [c] →
      ∃ t, exec (.pwrIslandDisable r) s = .next t ∧ t.pending = s.pending ∧ Answered s.dev t.dev r stSuccess 0
        ∧ t.dev.pwr.disabled = s.dev.pwr.disabled ++ [i]
        ∧ t.dev.isl i = { s.dev.isl i with st := 3, gear := 0, k := 0 }
        ∧ (∀ j, j ≠ i → t.dev.isl j = s.dev.isl j)
        ∧ Keeps (.pwr :: .fetch :: byStop ++ byPost) s.dev t.dev))
  ∧ (∀ (s : State) (r : CmdRef) (c : Cmd) (n e : Nat), s.dev.clear specEngineReset r c = true → e = c.f 4 7 0 →
    ((engIsland e).any s.dev.pwr.disabled.contains = true →
      ∃ t, exec (.engineReset r n) s = .next t ∧ Answered s.dev t.dev r stEngineDown 0 ∧ Keeps byDone s.dev t.dev)
    ∧ ((engIsland e).any s.dev.pwr.disabled.contains = false → s.dev.eng.resets.any (·.code == e) = true →
      ∃ t, exec (.engineReset r n) s = .next t ∧ Begun s.dev t.dev r c
        ∧ t.dev.eng = { s.dev.eng with
            resets := s.dev.eng.resets.map fun (x : EngReset) =>
              if x.code = e then { x with also := x.also ++ [r] } else x }
        ∧ Keeps [.eng, .fetch] s.dev t.dev)
    ∧ ((engIsland e).any s.dev.pwr.disabled.contains = false → s.dev.eng.resets.any (·.code == e) = false →
      (s.dev.engAsleep e = true →
        ∃ t, exec (.engineReset r n) s = .next t ∧ Answered s.dev t.dev r stSuccess 0 ∧ Keeps byDone s.dev t.dev)
      ∧ (s.dev.engAsleep e = false → e < 0x40 → s.dev.noWork = true → s.dev.hif.cmds = [c] →
        ∃ t, exec (.engineReset r n) s = .next t ∧ t.pending = s.pending ∧ Begun s.dev t.dev r c
          ∧ t.dev.eng = { s.dev.eng with
              resets := s.dev.eng.resets ++ [{ code := e, ref := some r, dropped := satW 16 n }] }
          ∧ Keeps (.eng :: .fetch :: byStop ++ byPost) s.dev t.dev)
      ∧ (0x48 ≤ e → (s.dev.ctl (e - 0x48)).cur = none → (s.dev.ctl (e - 0x48)).xfers = [] →
        (s.dev.ctl (e - 0x48)).disabling = none → s.dev.allProgs = [] → s.dev.noWork = true → s.dev.hif.cmds = [c] →
        ∃ t, exec (.engineReset r n) s = .next t ∧ t.pending = s.pending ∧ Begun s.dev t.dev r c
          ∧ t.dev.eng = { s.dev.eng with
              resets := s.dev.eng.resets ++ [{
                code := e, ref := some r, dropped := satW 16 n
                was := (s.dev.ctl (e - 0x48)).state == .enabled }] }
          ∧ Keeps (.eng :: .fetch :: byStop ++ byPost) s.dev t.dev)
      ∧ (∀ p, e = 0x40 + p → p < 4 → s.dev.engAsleep e = false → s.dev.gangOf p = (p, 1) →
        (s.dev.port p).state ≠ .gangSecondary → (s.dev.port p).frame = none → (s.dev.port p).programs = [] →
        (s.dev.port p).waiting = [] → (s.dev.port p).stopRef = none → s.dev.noWork = true → s.dev.hif.cmds = [c] →
        ∃ t x, exec (.engineReset r n) s = .next t ∧ (t.dev.port p).state = .stopped ∧ (t.dev.mclk p).running = false
          ∧ x ∈ t.dev.eng.resets ∧ x.code = e ∧ x.ref = some r ∧ t.dev.cmd? r = some { c with begun := true })))
  ∧ (∀ (s : State) (e : Nat) (k : Option Nat), s.dev.idleMode = true →
    (s.dev.eng.resets.any (·.code == e) = false → exec (.engineResetDone e k) s = .next s)
    ∧ (∀ x q c, s.dev.eng.resets = [x] → x.code = e → x.ref = some q → x.also = [] → x.load = false →
      s.dev.recd.cmds = [] → s.dev.hif.queueOps = [] → s.dev.cmd? q = some c → c.fail = none →
      (s.dev.qp q.qid).live = true → (s.dev.qp q.qid).cqLost = false →
      ∃ t, exec (.engineResetDone e k) s = .next t ∧ t.dev.eng.resets = []
        ∧ Answered s.dev t.dev q stSuccess (x.ended + x.kept * 65536 + x.dropped * 4294967296)
        ∧ Keeps (.eng :: .tw :: .recd :: .fetch :: byPost) s.dev t.dev))

/-- Class 0x0D and the log period (R455 to R473). -/
def Obligations.Management : Prop :=
  (∀ (s : State) (r : CmdRef) (c : Cmd) (k : Container) (ok : Bool) (sl : Option Bool),
    s.dev.clear specStage r c = true → s.dev.served c = true → sl = s.dev.stageSlot (c.f 4 1 0) →
    (k.magicOk = true → k.layoutOk = true → kindFits k sl = false →
      ∃ t, exec (.mgmtUpdateStage r k ok) s = .next t ∧ Answered s.dev t.dev r stInvalidField 4
        ∧ Keeps byDone s.dev t.dev)
    ∧ (k.magicOk = false ∨ kindFits k sl = true ∧ s.dev.containerOk k = false →
      ∃ t, exec (.mgmtUpdateStage r k ok) s = .next t ∧ Answered s.dev t.dev r stAuthFailed 0
        ∧ Keeps byDone s.dev t.dev)
    ∧ (k.magicOk = true → kindFits k sl = true → s.dev.containerOk k = true →
      (sl.isSome = true → k.version < s.dev.oms.counter →
        ∃ t, exec (.mgmtUpdateStage r k ok) s = .next t ∧ Answered s.dev t.dev r stRollback 0
          ∧ Keeps byDone s.dev t.dev)
      ∧ ((sl.isSome = true → s.dev.oms.counter ≤ k.version ∧ s.dev.oms.flash = true) →
        ∃ t, exec (.mgmtUpdateStage r k ok) s = .next t ∧ t.pending = s.pending
          ∧ (ok = true → Answered s.dev t.dev r stSuccess (k.version % 128 + k.components % 256 * 256)
            ∧ t.dev.oms = (s.dev.putSlot sl (.image k)).oms)
          ∧ (ok = false → Answered s.dev t.dev r stMediaError 0 ∧ t.dev.oms = (s.dev.putSlot sl .broken).oms)
          ∧ Keeps (.oms :: byDone) s.dev t.dev)))
  ∧ (∀ (s : State) (r : CmdRef) (c : Cmd), s.dev.clear specActivate r c = true → s.dev.served c = true →
    s.dev.oms.flash = true →
    ((s.dev.verifySlot (c.b 4 0)).1 = 0 →
      ∃ t u, exec (.mgmtUpdateActivate r) s = .next t ∧ t.pending = s.pending
        ∧ Answered s.dev u r stSuccess (c.b 4 0).toNat
        ∧ u.oms = (if c.b 4 1 = false ∧ c.b 4 0 = s.dev.oms.active then s.dev.oms
            else (s.dev.bootRecord (activateRecord c)).oms)
        ∧ Keeps (.oms :: byDone) s.dev u ∧ t.dev = if c.b 4 2 then u.omsReset 0 else u)
    ∧ ((s.dev.verifySlot (c.b 4 0)).1 ≠ 0 →
      ∃ t, exec (.mgmtUpdateActivate r) s = .next t
        ∧ Answered s.dev t.dev r (if (s.dev.verifySlot (c.b 4 0)).1 = 3 then stRollback else stAuthFailed) 0
        ∧ Keeps byDone s.dev t.dev))
  ∧ (∀ (s : State) (r : CmdRef) (c : Cmd) (ok : Bool), s.dev.clear specConfirm r c = true → s.dev.served c = true →
    ((c.b 4 1 = true ∨ c.b 4 0 = false ∨ s.dev.runVersion ≤ s.dev.oms.counter) →
      ∃ t u, exec (.mgmtUpdateConfirm r ok) s = .next t ∧ t.pending = s.pending
        ∧ Answered s.dev u r stSuccess s.dev.oms.counter ∧ u.oms.counter = s.dev.oms.counter
        ∧ (s.dev.oms.trial = 0 → omsRest u.oms = omsRest s.dev.oms)
        ∧ (s.dev.oms.trial = 2 → u.oms.trial = 0 ∧ u.oms.timer = none
            ∧ u.oms.active = if c.b 4 1 then s.dev.oms.active else s.dev.boot.slotB)
        ∧ Keeps (.oms :: .fetch :: byPost) s.dev u ∧ t.dev = if c.b 4 2 then u.omsReset 0 else u)
    ∧ (c.b 4 1 = false → c.b 4 0 = true → s.dev.oms.counter < s.dev.runVersion →
      (ok = true →
        ∃ t u, exec (.mgmtUpdateConfirm r ok) s = .next t ∧ Answered s.dev u r stSuccess s.dev.runVersion
          ∧ u.oms.counter = s.dev.runVersion ∧ Keeps (.oms :: .fetch :: byPost) s.dev u
          ∧ t.dev = if c.b 4 2 then u.omsReset 0 else u)
      ∧ (ok = false →
        ∃ t, exec (.mgmtUpdateConfirm r ok) s = .next t ∧ Answered s.dev t.dev r stInternal 0
          ∧ s.dev.oms.counter ≤ t.dev.oms.counter ∧ t.dev.oms.counter < s.dev.runVersion
          ∧ Keeps (.oms :: .fetch :: byPost) s.dev t.dev)))
  ∧ (∀ (s : State) (r : CmdRef) (c : Cmd) (ok : Bool) (e : Nat), s.dev.clear specEngineLoad r c = true →
    s.dev.served c = true → e = c.f 4 2 0 →
    (s.dev.loadOff e = true →
      ∃ t, exec (.mgmtEngineLoad r ok) s = .next t ∧ Answered s.dev t.dev r stEngineDown 0 ∧ Keeps byDone s.dev t.dev)
    ∧ (s.dev.loadOff e = false → s.dev.eng.load = none →
      (s.dev.pendingCtx e = true → c.b 4 8 = false →
        ∃ t, exec (.mgmtEngineLoad r ok) s = .next t ∧ Answered s.dev t.dev r stEngineBusy 0
          ∧ Keeps byDone s.dev t.dev)
      ∧ ((s.dev.pendingCtx e = false ∨ c.b 4 8 = true) → s.dev.codeCurrent e = true →
        ∃ t, exec (.mgmtEngineLoad r ok) s = .next t ∧ Answered s.dev t.dev r stSuccess 0 ∧ Keeps byDone s.dev t.dev)
      ∧ (s.dev.pendingCtx e = false → s.dev.codeCurrent e = false → c.b 4 8 = false →
        (∀ b g, ok = true → s.dev.oms.running = some b → Container.code? b e = some g →
          ∃ t, exec (.mgmtEngineLoad r ok) s = .next t ∧ t.pending = s.pending ∧ Answered s.dev t.dev r stSuccess 1
            ∧ SMap.get {} t.dev.oms.code e
                = { src := s.dev.boot.slotB.toNat, signer := b.signer, version := b.version, digest := g }
            ∧ (∀ j, j ≠ e → SMap.get {} t.dev.oms.code j = SMap.get {} s.dev.oms.code j)
            ∧ Keeps (.oms :: byDone) s.dev t.dev)
        ∧ (ok = false ∨ s.dev.runCode e = none →
          ∃ t, exec (.mgmtEngineLoad r ok) s = .next t ∧ Answered s.dev t.dev r stInternal 0
            ∧ t.dev.noCode e = true ∧ Keeps (.oms :: .fetch :: byPost) s.dev t.dev))))
  ∧ (∀ (s : State) (r : CmdRef) (c : Cmd), s.dev.clear specLogRead r c = true → s.dev.served c = true →
    ∃ t n, exec (.mgmtLogRead r) s = .next t ∧ t.pending = s.pending ∧ Answered s.dev t.dev r stSuccess n
      ∧ n % two32 = ((s.dev.logFrom (c.w 4)).take (c.f 5 12 0)).length % two32
      ∧ (∀ x xs, s.dev.logFrom (c.w 4) = x :: xs → n / two32 = x.seq
          ∧ Out.hostFields (c.q 6) 64 (LogEntry.flds x) ∈ t.dev.out)
      ∧ Keeps byDone s.dev t.dev)
  ∧ (∀ (s : State) (r : CmdRef) (c : Cmd), s.dev.clear specAttest r c = true → s.dev.served c = true →
    ∃ t, exec (.mgmtAttest r) s = .next t ∧ t.pending = s.pending ∧ Answered s.dev t.dev r stSuccess 25504
      ∧ Out.hostFields (c.q 12) 25504 (s.dev.reportHead c ++ s.dev.measures) ∈ t.dev.out ∧ Keeps byDone s.dev t.dev)
  ∧ (∀ (s : State) (r : CmdRef) (c : Cmd), s.dev.clear specChallenge r c = true → s.dev.served c = true →
    ∃ t n, exec (.mgmtUnlockChallenge r) s = .next t ∧ t.pending = s.pending ∧ Answered s.dev t.dev r stSuccess 0
      ∧ t.dev.oms = { s.dev.oms with nonce := some n }
      ∧ Out.hostFields (c.q 5) 40 [⟨0, 32, n⟩, ⟨32, 8, s.dev.oms.deviceId⟩] ∈ t.dev.out
      ∧ Keeps (.oms :: byDone) s.dev t.dev)
  ∧ (∀ (s : State) (r : CmdRef) (c : Cmd) (ok : Bool), s.dev.clear specAnswer r c = true → s.dev.served c = true →
    (s.dev.oms.lifecycle < 2 →
      ∃ t, exec (.mgmtUnlockAnswer r ok) s = .next t ∧ Answered s.dev t.dev r stSuccess 2 ∧ Keeps byDone s.dev t.dev)
    ∧ (2 ≤ s.dev.oms.lifecycle →
      (s.dev.oms.authFails < 8 → ok = true →
        (if c.f 4 0 0 = 0 then s.dev.oms.nonce.isSome = true else s.dev.oms.pwdHash ≠ 0) →
        ∃ t, exec (.mgmtUnlockAnswer r ok) s = .next t ∧ t.pending = s.pending
          ∧ Answered s.dev t.dev r stSuccess (2 - c.f 4 0 0)
          ∧ t.dev.oms.unlock = max s.dev.oms.unlock (2 - c.f 4 0 0)
          ∧ t.dev.oms.authFails = s.dev.oms.authFails ∧ (c.f 4 0 0 = 0 → t.dev.oms.nonce = none)
          ∧ Keeps (.oms :: .fetch :: byPost) s.dev t.dev)
      ∧ (8 ≤ s.dev.oms.authFails ∨ ok = false ∨ c.f 4 0 0 = 0 ∧ s.dev.oms.nonce = none →
        ∃ t, exec (.mgmtUnlockAnswer r ok) s = .next t ∧ Answered s.dev t.dev r stAuthFailed 0
          ∧ t.dev.oms.unlock = s.dev.oms.unlock ∧ (c.f 4 0 0 = 0 → t.dev.oms.nonce = none)
          ∧ (s.dev.oms.authFails < 8 → t.dev.oms.authFails
              = if c.f 4 0 0 = 0 ∧ s.dev.oms.nonce = none then s.dev.oms.authFails else s.dev.oms.authFails + 1)
          ∧ (8 ≤ s.dev.oms.authFails → t.dev.oms.authFails = 8)
          ∧ Keeps (.oms :: .fetch :: byPost) s.dev t.dev)))
  ∧ (∀ (s : State) (r : CmdRef) (c : Cmd) (b : List Byte) (ok : Bool), s.dev.clear specLifecycle r c = true →
    s.dev.served c = true → s.dev.lifeBad b = [] →
    (ok = true →
      ∃ t, exec (.mgmtLifecycleAdvance r b ok) s = .next t ∧ t.pending = s.pending
        ∧ Answered s.dev t.dev r stSuccess (s.dev.oms.lifecycle + 1)
        ∧ t.dev.oms.lifecycle = s.dev.oms.lifecycle + 1 ∧ omsRest t.dev.oms = omsRest (lifeFuses b s.dev.oms)
        ∧ Keeps (.oms :: .fetch :: byPost) s.dev t.dev)
    ∧ (ok = false →
      ∃ t, exec (.mgmtLifecycleAdvance r b ok) s = .next t ∧ Answered s.dev t.dev r stInternal 0
        ∧ Keeps (.fetch :: byPost) s.dev t.dev))
  ∧ (∀ s : State, s.dev.idleMode = true →
    ∃ t, exec .logPeriod s = .next t ∧ t.pending = s.pending ∧ t.dev.oms.suppressed = 0
      ∧ (s.dev.oms.suppressed = 0 → t.dev.oms = { s.dev.oms with period := 0 } ∧ Keeps [.log] s.dev t.dev)
      ∧ (s.dev.oms.suppressed ≠ 0 → (∃ e ∈ t.dev.oms.log, e.code = 0x060 ∧ e.arg0 = satW 32 s.dev.oms.suppressed)
          ∧ Keeps byPost s.dev t.dev))

/-- The debug port (R474 to R479); that a hit of a breakpoint that is not enabled does nothing is the model's (log
entry 2). -/
def Obligations.DebugPort : Prop :=
  ∀ s : State, s.dev.idleMode = true →
    ((∃ t, exec .extest s = .next t ∧ t.dev.dbg = { s.dev.dbg with ir := 0 } ∧ Keeps [.dbg] s.dev t.dev)
      ∧ (∃ t, exec .samplePreload s = .next t ∧ t.dev.dbg = { s.dev.dbg with ir := 2 } ∧ Keeps [.dbg] s.dev t.dev)
      ∧ (∃ t, exec .idcode s = .next t ∧ t.dev.dbg = { s.dev.dbg with ir := 1 }
          ∧ t.dev.out = s.dev.out ++ [.tdo 32 Config.idcode.toNat] ∧ Keeps [.dbg, .out] s.dev t.dev)
      ∧ (∃ t, exec .bypass s = .next t ∧ t.dev.dbg = { s.dev.dbg with ir := 0x1F }
          ∧ t.dev.out = s.dev.out ++ [.tdo 1 0] ∧ Keeps [.dbg, .out] s.dev t.dev))
    ∧ (∀ (a : BitVec 8) (v : Word) (op : BitVec 4),
      ∃ t x, exec (.dmAccess a v op) s = .next t ∧ t.pending = s.pending ∧ t.dev.dbg.ir = 0x10 ∧ x < 256
        ∧ t.dev.dbg.last = some s.dev.now
        ∧ t.dev.out = s.dev.out ++ [.tdo 48 (x * 2 ^ 40 + s.dev.dbg.data * 256 + s.dev.dbg.status)]
        ∧ (op.toNat ≠ 1 → op.toNat ≠ 2 → t.dev.dbg.status = 0 ∧ Keeps [.dbg, .out] s.dev t.dev)
        ∧ (op.toNat = 1 ∨ op.toNat = 2 →
          (dmNeeds a.toNat (op.toNat == 2) = none →
            t.dev.dbg = { s.dev.dbg with ir := 0x10, last := some s.dev.now, status := 12, data := 0 }
            ∧ Keeps [.dbg, .out] s.dev t.dev)
          ∧ (∀ k, dmNeeds a.toNat (op.toNat == 2) = some k → s.dev.dmClass < k →
            t.dev.dbg = { s.dev.dbg with ir := 0x10, last := some s.dev.now, status := 8, data := 0 }
            ∧ Keeps [.dbg, .out] s.dev t.dev))
        ∧ (op.toNat = 1 → a.toNat = 0 → t.dev.dbg.status = 0 ∧ t.dev.dbg.data = t.dev.lcSts
            ∧ Keeps [.dbg, .out] s.dev t.dev)
        ∧ (op.toNat = 1 → a.toNat = 5 → s.dev.dmClass = 2 → t.dev.dbg.status = 0
            ∧ t.dev.dbg.data = s.dev.coreSts ∧ Keeps [.dbg, .out] s.dev t.dev)
        ∧ (op.toNat = 2 → a.toNat = 6 → s.dev.dmClass = 2 → s.dev.dbg.halted = true → t.dev.dbg.pc = v.toNat
            ∧ t.dev.dbg.status = 0 ∧ Keeps [.dbg, .out] s.dev t.dev))
    ∧ (s.dev.dmClass < 2 → ∀ i, i = .halt ∨ i = .resume ∨ i = .step →
      ∃ t, exec i s = .next t ∧ t.dev.dbg = { s.dev.dbg with last := some s.dev.now, status := 8, data := 0 }
        ∧ Keeps [.dbg] s.dev t.dev)
    ∧ (s.dev.dmClass = 2 →
      (∃ t, exec .halt s = .next t ∧ t.dev.dbg.halted = true ∧ t.dev.dbg.status = 0
        ∧ (s.dev.dbg.halted = false → t.dev.dbg.cause = 1) ∧ Keeps [.dbg] s.dev t.dev)
      ∧ (∃ t, exec .resume s = .next t ∧ t.dev.dbg = { s.dev.dbg with
            halted := false, cause := 0, index := 0, last := some s.dev.now, status := 0, data := 0 }
          ∧ Keeps [.dbg] s.dev t.dev)
      ∧ (∃ t, exec .step s = .next t ∧ t.dev.dbg.halted = s.dev.dbg.halted ∧ t.dev.dbg.status = 0
        ∧ (s.dev.dbg.halted = true → t.dev.dbg.cause = 2) ∧ Keeps [.dbg] s.dev t.dev))
    ∧ (∀ i : Fin 8,
      (s.dev.dbg.halted = true ∨ (SMap.get 0 s.dev.dbg.bp i.val).testBit 0 = false →
        exec (.breakpointHit i) s = .next s)
      ∧ (s.dev.dbg.halted = false → (SMap.get 0 s.dev.dbg.bp i.val).testBit 0 = true →
        ∃ t, exec (.breakpointHit i) s = .next t ∧ t.dev.dbg.halted = true ∧ t.dev.dbg.cause = 3
          ∧ t.dev.dbg.index = i.val ∧ t.dev.dbg.pc + 1 = SMap.get 0 s.dev.dbg.bp i.val ∧ Keeps [.dbg] s.dev t.dev))
    ∧ (∀ i : Fin 4,
      (s.dev.dbg.halted = true ∨ SMap.get 0 s.dev.dbg.wpCtl i.val % 4 = 0 → exec (.watchpointHit i) s = .next s)
      ∧ (s.dev.dbg.halted = false → SMap.get 0 s.dev.dbg.wpCtl i.val % 4 ≠ 0 →
        ∃ t, exec (.watchpointHit i) s = .next t ∧ t.dev.dbg.halted = true ∧ t.dev.dbg.cause = 4
          ∧ t.dev.dbg.index = i.val ∧ Keeps [.dbg] s.dev t.dev))
    ∧ (∀ (w : Bool) (v : Word), s.dev.dmClass = 2 →
      (s.dev.spaceSize = none ∨ (∃ n, s.dev.spaceSize = some n ∧ n < s.dev.dmAddr + 4) →
        ∃ t, exec (.memData w v) s = .next t
          ∧ t.dev.dbg = { s.dev.dbg with last := some s.dev.now, status := 12, data := 0 } ∧ Keeps [.dbg] s.dev t.dev)
      ∧ (∀ n, s.dev.spaceSize = some n → s.dev.dmAddr + 4 ≤ n → s.dev.dbg.memSpace < 3 →
        ∃ t, exec (.memData w v) s = .next t ∧ t.dev.dbg.status = 0
          ∧ t.dev.dbg.memAddr = (s.dev.dbg.memAddr + 4) % 4294967296 ∧ t.dev.dbg.memAddrHi = s.dev.dbg.memAddrHi
          ∧ (w = false → Keeps [.dbg] s.dev t.dev
            ∧ (s.dev.dbg.memSpace = 0 → overlaps (s.dev.dmAddr, 4) s.dev.ctxRange = false →
                t.dev.dbg.data = leNat (Mem.rdN s.dev.mem.lpddr s.dev.dmAddr 4))
            ∧ (s.dev.dbg.memSpace = 1 → t.dev.dbg.data = leNat (Mem.rdN s.dev.mem.scan s.dev.dmAddr 4))
            ∧ (s.dev.dbg.memSpace = 2 → s.dev.wroteAt s.dev.dmAddr 4 = true →
                t.dev.dbg.data = leNat (Mem.rdN s.dev.mem.sram s.dev.dmAddr 4)))
          ∧ (w = true → Keeps [.dbg, .mem] s.dev t.dev
            ∧ (s.dev.dbg.memSpace = 0 → t.dev.mem = { s.dev.mem with
                lpddr := Mem.wrN s.dev.mem.lpddr s.dev.dmAddr (leBytes 4 v.toNat) })
            ∧ (s.dev.dbg.memSpace = 1 → t.dev.mem = { s.dev.mem with
                scan := Mem.wrN s.dev.mem.scan s.dev.dmAddr (leBytes 4 v.toNat) })
            ∧ (s.dev.dbg.memSpace = 2 → t.dev.mem = { s.dev.mem with
                sram := Mem.wrN s.dev.mem.sram s.dev.dmAddr (leBytes 4 v.toNat) }))))
    ∧ (∀ v : Word, s.dev.dmClass = 2 →
      (pointOk (bitsOf v.toNat 7 0) = false →
        ∃ t, exec (.freeze v) s = .next t
          ∧ t.dev.dbg = { s.dev.dbg with last := some s.dev.now, status := 12, data := 0 } ∧ Keeps [.dbg] s.dev t.dev)
      ∧ (pointOk (bitsOf v.toNat 7 0) = true →
        ∃ t, exec (.freeze v) s = .next t ∧ t.dev.dbg.status = 0 ∧ t.dev.dbg.point = bitsOf v.toNat 7 0
          ∧ t.dev.dbg.frozen = v.toNat.testBit 8
          ∧ (v.toNat.testBit 8 = true → t.dev.dbg.credits
              = bitsOf v.toNat 31 16 + if s.dev.dbg.frozen = true ∧ s.dev.dbg.point = bitsOf v.toNat 7 0
                then s.dev.dbg.credits else 0)
          ∧ Keeps [.dbg] s.dev t.dev))
    ∧ (∀ n : Nat, (s.dev.dbg.frozen = false → exec (.release n) s = .next s)
      ∧ (s.dev.dbg.frozen = true → s.dev.dmClass = 2 → pointOk s.dev.dbg.point = true →
        ∃ t, exec (.release n) s = .next t ∧ t.dev.dbg = { s.dev.dbg with
            credits := s.dev.dbg.credits + n % 65536, last := some s.dev.now, status := 0, data := 0 }
          ∧ Keeps [.dbg] s.dev t.dev))
    ∧ (s.dev.dbg.how < 4 →
      (∃ t n, exec .challenge s = .next t ∧ t.dev.oms = { s.dev.oms with nonce := some n }
        ∧ t.dev.dbg.outBytes = leBytes 32 n ++ leBytes 8 s.dev.oms.deviceId ∧ t.dev.dbg.inBytes = []
        ∧ t.dev.dbg.sts = 0 ∧ Keeps [.dbg, .oms] s.dev t.dev)
      ∧ (∀ ok, ∃ t, exec (.check ok) s = .next t ∧ t.dev.dbg.inBytes = [] ∧ Keeps (.dbg :: .oms :: byPost) s.dev t.dev
        ∧ (s.dev.oms.lifecycle < 2 → t.dev.dbg.sts = 2)
        ∧ (2 ≤ s.dev.oms.lifecycle → 8 ≤ s.dev.oms.authFails → t.dev.dbg.sts = 4 ∧ t.dev.oms.unlock = s.dev.oms.unlock)
        ∧ (2 ≤ s.dev.oms.lifecycle → s.dev.oms.authFails < 8 → ok = false →
            t.dev.dbg.sts = 3 ∧ t.dev.oms.unlock = s.dev.oms.unlock)
        ∧ (2 ≤ s.dev.oms.lifecycle → s.dev.oms.authFails < 8 → ok = true → s.dev.dbg.how % 2 = 0 →
            s.dev.oms.nonce.isSome = true → s.dev.dbg.inBytes.length = 7856 →
            t.dev.dbg.sts = 2 ∧ t.dev.oms.unlock = max s.dev.oms.unlock 2 ∧ t.dev.oms.nonce = none)
        ∧ (2 ≤ s.dev.oms.lifecycle → s.dev.oms.authFails < 8 → ok = true → s.dev.dbg.how % 2 = 1 →
            s.dev.oms.pwdHash ≠ 0 → s.dev.dbg.inBytes.length = 16 →
            t.dev.dbg.sts = 2 ∧ t.dev.oms.unlock = max s.dev.oms.unlock 1)))
end

