-- ==== Sys2Proof/Laws/Maps.lean ====
section
/-! SUPPORT. Laws of sparse maps and of memory: a read after a write, what a write leaves alone, and the canonical form,
which every operation keeps. -/

namespace Sys2Proof

namespace SMap

variable {α : Type} [DecidableEq α]

omit [DecidableEq α] in
theorem get_del_same (d : α) (m : SMap α) (k : Nat) : get d (del m k) k = d := by
  induction m with
  | nil => rfl
  | cons e t ih =>
    obtain ⟨a, v⟩ := e
    by_cases h : a = k <;> simp [del, get, h, ih]

omit [DecidableEq α] in
theorem get_del_ne (d : α) (m : SMap α) {k j : Nat} (h : j ≠ k) : get d (del m k) j = get d m j := by
  induction m with
  | nil => rfl
  | cons e t ih =>
    obtain ⟨a, v⟩ := e
    by_cases ha : a = k
    · subst ha
      simp [del, get, ih, Ne.symm h]
    · by_cases hj : a = j
      · subst hj
        simp [del, get, h]
      · simp [del, get, ha, hj, ih]

omit [DecidableEq α] in
theorem get_ins_same (d : α) (m : SMap α) (k : Nat) (v : α) : get d (ins m k v) k = v := by
  induction m with
  | nil => simp [ins, get]
  | cons e t ih =>
    obtain ⟨a, w⟩ := e
    by_cases h1 : k < a
    · simp [ins, get, h1]
    · by_cases h2 : a = k
      · simp [ins, get, h2]
      · simp [ins, get, h1, h2, ih]

omit [DecidableEq α] in
theorem get_ins_ne (d : α) (m : SMap α) {k j : Nat} (v : α) (h : j ≠ k) : get d (ins m k v) j = get d m j := by
  induction m with
  | nil => simp [ins, get, Ne.symm h]
  | cons e t ih =>
    obtain ⟨a, w⟩ := e
    by_cases h1 : k < a
    · simp [ins, get, h1, Ne.symm h]
    · by_cases h2 : a = k
      · subst h2
        simp [ins, get, Ne.symm h]
      · by_cases h3 : a = j
        · subst h3
          simp [ins, get, h1, h]
        · simp [ins, get, h1, h2, h3, ih]

/-- A read after a write to the same place. -/
@[simp] theorem get_put_same (d : α) (m : SMap α) (k : Nat) (v : α) : get d (put d m k v) k = v := by
  by_cases h : v = d
  · simp [put, h, get_del_same]
  · simp [put, h, get_ins_same]

/-- A write leaves every other place alone. -/
theorem get_put_ne (d : α) (m : SMap α) {k j : Nat} (v : α) (h : j ≠ k) : get d (put d m k v) j = get d m j := by
  by_cases hv : v = d
  · simp [put, hv, get_del_ne d m h]
  · simp [put, hv, get_ins_ne d m v h]

omit [DecidableEq α] in
theorem sorted_tail {e : Nat × α} {t : SMap α} (h : sorted (e :: t) = true) : sorted t = true := by
  obtain ⟨a, v⟩ := e
  cases t with
  | nil => rfl
  | cons f u =>
    obtain ⟨b, w⟩ := f
    simp [sorted] at h
    exact h.2

omit [DecidableEq α] in
/-- In a sorted list every key after the head is above it. -/
theorem sorted_head_lt {a : Nat} {v : α} {t : SMap α} (h : sorted ((a, v) :: t) = true) : ∀ e ∈ t, a < e.1 := by
  induction t generalizing a v with
  | nil => simp
  | cons f u ih =>
    obtain ⟨b, w⟩ := f
    have hab : a < b := by simp [sorted] at h; exact h.1
    intro e he
    rcases List.mem_cons.mp he with rfl | he
    · exact hab
    · exact Nat.lt_trans hab (ih (sorted_tail h) e he)

omit [DecidableEq α] in
theorem sorted_cons {a : Nat} {v : α} {t : SMap α} (ht : sorted t = true) (h : ∀ e ∈ t, a < e.1) :
    sorted ((a, v) :: t) = true := by
  cases t with
  | nil => rfl
  | cons f u =>
    obtain ⟨b, w⟩ := f
    simp [sorted, ht, h (b, w) (by simp)]

omit [DecidableEq α] in
theorem mem_del {m : SMap α} {k : Nat} {e : Nat × α} (h : e ∈ del m k) : e ∈ m := by
  induction m with
  | nil => simp [del] at h
  | cons f t ih =>
    obtain ⟨a, v⟩ := f
    by_cases ha : a = k
    · simp only [del, ha, if_true] at h
      exact List.mem_cons_of_mem _ (ih h)
    · simp only [del, ha, if_false, List.mem_cons] at h
      rcases h with rfl | h
      · simp
      · exact List.mem_cons_of_mem _ (ih h)

omit [DecidableEq α] in
theorem mem_ins {m : SMap α} {k : Nat} {v : α} {e : Nat × α} (h : e ∈ ins m k v) : e = (k, v) ∨ e ∈ m := by
  induction m with
  | nil => simpa [ins] using h
  | cons f t ih =>
    obtain ⟨a, w⟩ := f
    by_cases h1 : k < a
    · simpa [ins, h1] using h
    · by_cases h2 : a = k
      · subst h2
        simp only [ins, Nat.lt_irrefl, if_true, if_false, List.mem_cons] at h
        rcases h with rfl | h
        · simp
        · simp [h]
      · simp only [ins, h1, h2, if_false, List.mem_cons] at h
        rcases h with rfl | h
        · simp
        · rcases ih h with rfl | h
          · simp
          · simp [h]

omit [DecidableEq α] in
theorem sorted_del {m : SMap α} (k : Nat) (h : sorted m = true) : sorted (del m k) = true := by
  induction m with
  | nil => rfl
  | cons f t ih =>
    obtain ⟨a, v⟩ := f
    by_cases ha : a = k
    · simpa [del, ha] using ih (sorted_tail h)
    · simp only [del, ha, if_false]
      exact sorted_cons (ih (sorted_tail h)) fun e he => sorted_head_lt h e (mem_del he)

omit [DecidableEq α] in
theorem sorted_ins {m : SMap α} (k : Nat) (v : α) (h : sorted m = true) : sorted (ins m k v) = true := by
  induction m with
  | nil => rfl
  | cons f t ih =>
    obtain ⟨a, w⟩ := f
    by_cases h1 : k < a
    · simp only [ins, h1, if_true]
      refine sorted_cons h fun e he => ?_
      rcases List.mem_cons.mp he with rfl | he
      · exact h1
      · exact Nat.lt_trans h1 (sorted_head_lt h e he)
    · by_cases h2 : a = k
      · subst h2
        simp only [ins, h1, if_true, if_false]
        exact sorted_cons (sorted_tail h) (sorted_head_lt h)
      · simp only [ins, h1, h2, if_false]
        refine sorted_cons (ih (sorted_tail h)) fun e he => ?_
        rcases mem_ins he with rfl | he
        · simp only []; omega
        · exact sorted_head_lt h e he

theorem noDefault_iff (d : α) (m : SMap α) : noDefault d m = true ↔ ∀ e ∈ m, e.2 ≠ d := by
  simp [noDefault, List.all_eq_true]

/-- Every write keeps the canonical form. -/
theorem put_wf (d : α) {m : SMap α} (k : Nat) (v : α) (h : wf d m = true) : wf d (put d m k v) = true := by
  simp only [wf, Bool.and_eq_true] at h ⊢
  have hn := (noDefault_iff d m).mp h.2
  by_cases hv : v = d
  · simp only [put, hv, if_true]
    exact ⟨sorted_del k h.1, (noDefault_iff d _).mpr fun e he => hn e (mem_del he)⟩
  · simp only [put, hv, if_false]
    refine ⟨sorted_ins k v h.1, (noDefault_iff d _).mpr fun e he => ?_⟩
    rcases mem_ins he with rfl | he
    · exact hv
    · exact hn e he

/-- Dropping entries keeps the canonical form. -/
theorem keep_wf (d : α) {m : SMap α} (p : Nat → Bool) (h : wf d m = true) : wf d (keep p m) = true := by
  simp only [wf, Bool.and_eq_true] at h ⊢
  have hn := (noDefault_iff d m).mp h.2
  refine ⟨?_, (noDefault_iff d _).mpr fun e he => hn e (List.mem_filter.mp he).1⟩
  have hs := h.1
  clear h hn
  induction m with
  | nil => rfl
  | cons f t ih =>
    obtain ⟨a, v⟩ := f
    by_cases hp : p a = true
    · have : keep p ((a, v) :: t) = (a, v) :: keep p t := by simp [keep, hp]
      rw [this]
      exact sorted_cons (ih (sorted_tail hs)) fun e he => sorted_head_lt hs e (List.mem_filter.mp he).1
    · have : keep p ((a, v) :: t) = keep p t := by simp [keep, hp]
      rw [this]
      exact ih (sorted_tail hs)

end SMap

namespace Mem

/-- The byte just written. -/
@[simp] theorem rd_wr_same (m : Mem) (a : Nat) (b : Byte) : rd (wr m a b) a = b := SMap.get_put_same _ _ _ _

/-- Every other byte. -/
theorem rd_wr_ne (m : Mem) {a c : Nat} (b : Byte) (h : c ≠ a) : rd (wr m a b) c = rd m c := SMap.get_put_ne _ _ _ h

theorem wr_wf {m : Mem} (a : Nat) (b : Byte) (h : Mem.wf m = true) : Mem.wf (wr m a b) = true := SMap.put_wf 0 a b h

/-- Writing a run of bytes keeps the canonical form. -/
theorem wrN_wf {m : Mem} (a : Nat) (bs : List Byte) (h : Mem.wf m = true) : Mem.wf (wrN m a bs) = true := by
  induction bs generalizing m a with
  | nil => exact h
  | cons b t ih => exact ih (a + 1) (wr_wf a b h)

/-- Bytes outside a run that is written stay. -/
theorem rd_wrN_out (m : Mem) (a : Nat) (bs : List Byte) {c : Nat} (h : c < a ∨ a + bs.length ≤ c) :
    rd (wrN m a bs) c = rd m c := by
  induction bs generalizing m a with
  | nil => rfl
  | cons b t ih =>
    have hl : (b :: t).length = t.length + 1 := rfl
    rw [hl] at h
    exact (ih (wr m a b) (a + 1) (by omega)).trans (rd_wr_ne m b (by omega))

end Mem

end Sys2Proof
end

