-- ==== Sys2Proof/Laws/State.lean ====
section
/-! SUPPORT. One lemma per field per update: what the record updates of the block leave alone, and what a place just
written reads as. -/

namespace Sys2Proof.Machine

variable (d : Dev)

/-! ## emit -/

@[simp] theorem Dev.emit_boot (o : Out) : (d.emit o).boot = d.boot := rfl
@[simp] theorem Dev.emit_hif (o : Out) : (d.emit o).hif = d.hif := rfl
@[simp] theorem Dev.emit_sni (o : Out) : (d.emit o).sni = d.sni := rfl
@[simp] theorem Dev.emit_teu (o : Out) : (d.emit o).teu = d.teu := rfl
@[simp] theorem Dev.emit_rfe (o : Out) : (d.emit o).rfe = d.rfe := rfl
@[simp] theorem Dev.emit_cbe (o : Out) : (d.emit o).cbe = d.cbe := rfl
@[simp] theorem Dev.emit_spk (o : Out) : (d.emit o).spk = d.spk := rfl
@[simp] theorem Dev.emit_stu (o : Out) : (d.emit o).stu = d.stu := rfl
@[simp] theorem Dev.emit_codec (o : Out) : (d.emit o).codec = d.codec := rfl
@[simp] theorem Dev.emit_lse (o : Out) : (d.emit o).lse = d.lse := rfl
@[simp] theorem Dev.emit_recd (o : Out) : (d.emit o).recd = d.recd := rfl
@[simp] theorem Dev.emit_ntu (o : Out) : (d.emit o).ntu = d.ntu := rfl
@[simp] theorem Dev.emit_tw (o : Out) : (d.emit o).tw = d.tw := rfl
@[simp] theorem Dev.emit_sco (o : Out) : (d.emit o).sco = d.sco := rfl
@[simp] theorem Dev.emit_hub (o : Out) : (d.emit o).hub = d.hub := rfl
@[simp] theorem Dev.emit_pwr (o : Out) : (d.emit o).pwr = d.pwr := rfl
@[simp] theorem Dev.emit_eng (o : Out) : (d.emit o).eng = d.eng := rfl
@[simp] theorem Dev.emit_oms (o : Out) : (d.emit o).oms = d.oms := rfl
@[simp] theorem Dev.emit_dbg (o : Out) : (d.emit o).dbg = d.dbg := rfl
@[simp] theorem Dev.emit_mem (o : Out) : (d.emit o).mem = d.mem := rfl
@[simp] theorem Dev.emit_regs (o : Out) : (d.emit o).regs = d.regs := rfl
@[simp] theorem Dev.emit_ctrs (o : Out) : (d.emit o).ctrs = d.ctrs := rfl
@[simp] theorem Dev.emit_free (o : Out) : (d.emit o).free = d.free := rfl
@[simp] theorem Dev.emit_hostRead (o : Out) : (d.emit o).hostRead = d.hostRead := rfl

/-! ## setReg -/

@[simp] theorem Dev.setReg_boot (off v : Nat) : (d.setReg off v).boot = d.boot := rfl
@[simp] theorem Dev.setReg_hif (off v : Nat) : (d.setReg off v).hif = d.hif := rfl
@[simp] theorem Dev.setReg_sni (off v : Nat) : (d.setReg off v).sni = d.sni := rfl
@[simp] theorem Dev.setReg_teu (off v : Nat) : (d.setReg off v).teu = d.teu := rfl
@[simp] theorem Dev.setReg_rfe (off v : Nat) : (d.setReg off v).rfe = d.rfe := rfl
@[simp] theorem Dev.setReg_cbe (off v : Nat) : (d.setReg off v).cbe = d.cbe := rfl
@[simp] theorem Dev.setReg_spk (off v : Nat) : (d.setReg off v).spk = d.spk := rfl
@[simp] theorem Dev.setReg_stu (off v : Nat) : (d.setReg off v).stu = d.stu := rfl
@[simp] theorem Dev.setReg_codec (off v : Nat) : (d.setReg off v).codec = d.codec := rfl
@[simp] theorem Dev.setReg_lse (off v : Nat) : (d.setReg off v).lse = d.lse := rfl
@[simp] theorem Dev.setReg_recd (off v : Nat) : (d.setReg off v).recd = d.recd := rfl
@[simp] theorem Dev.setReg_ntu (off v : Nat) : (d.setReg off v).ntu = d.ntu := rfl
@[simp] theorem Dev.setReg_tw (off v : Nat) : (d.setReg off v).tw = d.tw := rfl
@[simp] theorem Dev.setReg_sco (off v : Nat) : (d.setReg off v).sco = d.sco := rfl
@[simp] theorem Dev.setReg_hub (off v : Nat) : (d.setReg off v).hub = d.hub := rfl
@[simp] theorem Dev.setReg_pwr (off v : Nat) : (d.setReg off v).pwr = d.pwr := rfl
@[simp] theorem Dev.setReg_eng (off v : Nat) : (d.setReg off v).eng = d.eng := rfl
@[simp] theorem Dev.setReg_oms (off v : Nat) : (d.setReg off v).oms = d.oms := rfl
@[simp] theorem Dev.setReg_dbg (off v : Nat) : (d.setReg off v).dbg = d.dbg := rfl
@[simp] theorem Dev.setReg_mem (off v : Nat) : (d.setReg off v).mem = d.mem := rfl
@[simp] theorem Dev.setReg_ctrs (off v : Nat) : (d.setReg off v).ctrs = d.ctrs := rfl
@[simp] theorem Dev.setReg_out (off v : Nat) : (d.setReg off v).out = d.out := rfl
@[simp] theorem Dev.setReg_free (off v : Nat) : (d.setReg off v).free = d.free := rfl
@[simp] theorem Dev.setReg_hostRead (off v : Nat) : (d.setReg off v).hostRead = d.hostRead := rfl

/-! ## count -/

@[simp] theorem Dev.count_boot (off n : Nat) : (d.count off n).boot = d.boot := rfl
@[simp] theorem Dev.count_hif (off n : Nat) : (d.count off n).hif = d.hif := rfl
@[simp] theorem Dev.count_sni (off n : Nat) : (d.count off n).sni = d.sni := rfl
@[simp] theorem Dev.count_teu (off n : Nat) : (d.count off n).teu = d.teu := rfl
@[simp] theorem Dev.count_rfe (off n : Nat) : (d.count off n).rfe = d.rfe := rfl
@[simp] theorem Dev.count_cbe (off n : Nat) : (d.count off n).cbe = d.cbe := rfl
@[simp] theorem Dev.count_spk (off n : Nat) : (d.count off n).spk = d.spk := rfl
@[simp] theorem Dev.count_stu (off n : Nat) : (d.count off n).stu = d.stu := rfl
@[simp] theorem Dev.count_codec (off n : Nat) : (d.count off n).codec = d.codec := rfl
@[simp] theorem Dev.count_lse (off n : Nat) : (d.count off n).lse = d.lse := rfl
@[simp] theorem Dev.count_recd (off n : Nat) : (d.count off n).recd = d.recd := rfl
@[simp] theorem Dev.count_ntu (off n : Nat) : (d.count off n).ntu = d.ntu := rfl
@[simp] theorem Dev.count_tw (off n : Nat) : (d.count off n).tw = d.tw := rfl
@[simp] theorem Dev.count_sco (off n : Nat) : (d.count off n).sco = d.sco := rfl
@[simp] theorem Dev.count_hub (off n : Nat) : (d.count off n).hub = d.hub := rfl
@[simp] theorem Dev.count_pwr (off n : Nat) : (d.count off n).pwr = d.pwr := rfl
@[simp] theorem Dev.count_eng (off n : Nat) : (d.count off n).eng = d.eng := rfl
@[simp] theorem Dev.count_oms (off n : Nat) : (d.count off n).oms = d.oms := rfl
@[simp] theorem Dev.count_dbg (off n : Nat) : (d.count off n).dbg = d.dbg := rfl
@[simp] theorem Dev.count_mem (off n : Nat) : (d.count off n).mem = d.mem := rfl
@[simp] theorem Dev.count_regs (off n : Nat) : (d.count off n).regs = d.regs := rfl
@[simp] theorem Dev.count_out (off n : Nat) : (d.count off n).out = d.out := rfl
@[simp] theorem Dev.count_free (off n : Nat) : (d.count off n).free = d.free := rfl
@[simp] theorem Dev.count_hostRead (off n : Nat) : (d.count off n).hostRead = d.hostRead := rfl

/-! ## setQp -/

@[simp] theorem Dev.setQp_boot (q : Nat) (p : QP) : (d.setQp q p).boot = d.boot := rfl
@[simp] theorem Dev.setQp_sni (q : Nat) (p : QP) : (d.setQp q p).sni = d.sni := rfl
@[simp] theorem Dev.setQp_teu (q : Nat) (p : QP) : (d.setQp q p).teu = d.teu := rfl
@[simp] theorem Dev.setQp_rfe (q : Nat) (p : QP) : (d.setQp q p).rfe = d.rfe := rfl
@[simp] theorem Dev.setQp_cbe (q : Nat) (p : QP) : (d.setQp q p).cbe = d.cbe := rfl
@[simp] theorem Dev.setQp_spk (q : Nat) (p : QP) : (d.setQp q p).spk = d.spk := rfl
@[simp] theorem Dev.setQp_stu (q : Nat) (p : QP) : (d.setQp q p).stu = d.stu := rfl
@[simp] theorem Dev.setQp_codec (q : Nat) (p : QP) : (d.setQp q p).codec = d.codec := rfl
@[simp] theorem Dev.setQp_lse (q : Nat) (p : QP) : (d.setQp q p).lse = d.lse := rfl
@[simp] theorem Dev.setQp_recd (q : Nat) (p : QP) : (d.setQp q p).recd = d.recd := rfl
@[simp] theorem Dev.setQp_ntu (q : Nat) (p : QP) : (d.setQp q p).ntu = d.ntu := rfl
@[simp] theorem Dev.setQp_tw (q : Nat) (p : QP) : (d.setQp q p).tw = d.tw := rfl
@[simp] theorem Dev.setQp_sco (q : Nat) (p : QP) : (d.setQp q p).sco = d.sco := rfl
@[simp] theorem Dev.setQp_hub (q : Nat) (p : QP) : (d.setQp q p).hub = d.hub := rfl
@[simp] theorem Dev.setQp_pwr (q : Nat) (p : QP) : (d.setQp q p).pwr = d.pwr := rfl
@[simp] theorem Dev.setQp_eng (q : Nat) (p : QP) : (d.setQp q p).eng = d.eng := rfl
@[simp] theorem Dev.setQp_oms (q : Nat) (p : QP) : (d.setQp q p).oms = d.oms := rfl
@[simp] theorem Dev.setQp_dbg (q : Nat) (p : QP) : (d.setQp q p).dbg = d.dbg := rfl
@[simp] theorem Dev.setQp_mem (q : Nat) (p : QP) : (d.setQp q p).mem = d.mem := rfl
@[simp] theorem Dev.setQp_regs (q : Nat) (p : QP) : (d.setQp q p).regs = d.regs := rfl
@[simp] theorem Dev.setQp_ctrs (q : Nat) (p : QP) : (d.setQp q p).ctrs = d.ctrs := rfl
@[simp] theorem Dev.setQp_out (q : Nat) (p : QP) : (d.setQp q p).out = d.out := rfl
@[simp] theorem Dev.setQp_free (q : Nat) (p : QP) : (d.setQp q p).free = d.free := rfl
@[simp] theorem Dev.setQp_hostRead (q : Nat) (p : QP) : (d.setQp q p).hostRead = d.hostRead := rfl

/-! ## setRing -/

@[simp] theorem Dev.setRing_boot (n : Nat) (r : Ring) : (d.setRing n r).boot = d.boot := rfl
@[simp] theorem Dev.setRing_sni (n : Nat) (r : Ring) : (d.setRing n r).sni = d.sni := rfl
@[simp] theorem Dev.setRing_teu (n : Nat) (r : Ring) : (d.setRing n r).teu = d.teu := rfl
@[simp] theorem Dev.setRing_rfe (n : Nat) (r : Ring) : (d.setRing n r).rfe = d.rfe := rfl
@[simp] theorem Dev.setRing_cbe (n : Nat) (r : Ring) : (d.setRing n r).cbe = d.cbe := rfl
@[simp] theorem Dev.setRing_spk (n : Nat) (r : Ring) : (d.setRing n r).spk = d.spk := rfl
@[simp] theorem Dev.setRing_stu (n : Nat) (r : Ring) : (d.setRing n r).stu = d.stu := rfl
@[simp] theorem Dev.setRing_codec (n : Nat) (r : Ring) : (d.setRing n r).codec = d.codec := rfl
@[simp] theorem Dev.setRing_lse (n : Nat) (r : Ring) : (d.setRing n r).lse = d.lse := rfl
@[simp] theorem Dev.setRing_recd (n : Nat) (r : Ring) : (d.setRing n r).recd = d.recd := rfl
@[simp] theorem Dev.setRing_ntu (n : Nat) (r : Ring) : (d.setRing n r).ntu = d.ntu := rfl
@[simp] theorem Dev.setRing_tw (n : Nat) (r : Ring) : (d.setRing n r).tw = d.tw := rfl
@[simp] theorem Dev.setRing_sco (n : Nat) (r : Ring) : (d.setRing n r).sco = d.sco := rfl
@[simp] theorem Dev.setRing_hub (n : Nat) (r : Ring) : (d.setRing n r).hub = d.hub := rfl
@[simp] theorem Dev.setRing_pwr (n : Nat) (r : Ring) : (d.setRing n r).pwr = d.pwr := rfl
@[simp] theorem Dev.setRing_eng (n : Nat) (r : Ring) : (d.setRing n r).eng = d.eng := rfl
@[simp] theorem Dev.setRing_oms (n : Nat) (r : Ring) : (d.setRing n r).oms = d.oms := rfl
@[simp] theorem Dev.setRing_dbg (n : Nat) (r : Ring) : (d.setRing n r).dbg = d.dbg := rfl
@[simp] theorem Dev.setRing_mem (n : Nat) (r : Ring) : (d.setRing n r).mem = d.mem := rfl
@[simp] theorem Dev.setRing_regs (n : Nat) (r : Ring) : (d.setRing n r).regs = d.regs := rfl
@[simp] theorem Dev.setRing_ctrs (n : Nat) (r : Ring) : (d.setRing n r).ctrs = d.ctrs := rfl
@[simp] theorem Dev.setRing_out (n : Nat) (r : Ring) : (d.setRing n r).out = d.out := rfl
@[simp] theorem Dev.setRing_free (n : Nat) (r : Ring) : (d.setRing n r).free = d.free := rfl
@[simp] theorem Dev.setRing_hostRead (n : Nat) (r : Ring) : (d.setRing n r).hostRead = d.hostRead := rfl

/-! ## begin -/

@[simp] theorem Dev.begin_boot (r : CmdRef) : (d.begin r).boot = d.boot := rfl
@[simp] theorem Dev.begin_sni (r : CmdRef) : (d.begin r).sni = d.sni := rfl
@[simp] theorem Dev.begin_teu (r : CmdRef) : (d.begin r).teu = d.teu := rfl
@[simp] theorem Dev.begin_rfe (r : CmdRef) : (d.begin r).rfe = d.rfe := rfl
@[simp] theorem Dev.begin_cbe (r : CmdRef) : (d.begin r).cbe = d.cbe := rfl
@[simp] theorem Dev.begin_spk (r : CmdRef) : (d.begin r).spk = d.spk := rfl
@[simp] theorem Dev.begin_stu (r : CmdRef) : (d.begin r).stu = d.stu := rfl
@[simp] theorem Dev.begin_codec (r : CmdRef) : (d.begin r).codec = d.codec := rfl
@[simp] theorem Dev.begin_lse (r : CmdRef) : (d.begin r).lse = d.lse := rfl
@[simp] theorem Dev.begin_recd (r : CmdRef) : (d.begin r).recd = d.recd := rfl
@[simp] theorem Dev.begin_ntu (r : CmdRef) : (d.begin r).ntu = d.ntu := rfl
@[simp] theorem Dev.begin_tw (r : CmdRef) : (d.begin r).tw = d.tw := rfl
@[simp] theorem Dev.begin_sco (r : CmdRef) : (d.begin r).sco = d.sco := rfl
@[simp] theorem Dev.begin_hub (r : CmdRef) : (d.begin r).hub = d.hub := rfl
@[simp] theorem Dev.begin_pwr (r : CmdRef) : (d.begin r).pwr = d.pwr := rfl
@[simp] theorem Dev.begin_eng (r : CmdRef) : (d.begin r).eng = d.eng := rfl
@[simp] theorem Dev.begin_oms (r : CmdRef) : (d.begin r).oms = d.oms := rfl
@[simp] theorem Dev.begin_dbg (r : CmdRef) : (d.begin r).dbg = d.dbg := rfl
@[simp] theorem Dev.begin_mem (r : CmdRef) : (d.begin r).mem = d.mem := rfl
@[simp] theorem Dev.begin_regs (r : CmdRef) : (d.begin r).regs = d.regs := rfl
@[simp] theorem Dev.begin_ctrs (r : CmdRef) : (d.begin r).ctrs = d.ctrs := rfl
@[simp] theorem Dev.begin_out (r : CmdRef) : (d.begin r).out = d.out := rfl
@[simp] theorem Dev.begin_free (r : CmdRef) : (d.begin r).free = d.free := rfl
@[simp] theorem Dev.begin_hostRead (r : CmdRef) : (d.begin r).hostRead = d.hostRead := rfl

/-! ## dropCmd -/

@[simp] theorem Dev.dropCmd_boot (r : CmdRef) : (d.dropCmd r).boot = d.boot := rfl
@[simp] theorem Dev.dropCmd_sni (r : CmdRef) : (d.dropCmd r).sni = d.sni := rfl
@[simp] theorem Dev.dropCmd_teu (r : CmdRef) : (d.dropCmd r).teu = d.teu := rfl
@[simp] theorem Dev.dropCmd_rfe (r : CmdRef) : (d.dropCmd r).rfe = d.rfe := rfl
@[simp] theorem Dev.dropCmd_cbe (r : CmdRef) : (d.dropCmd r).cbe = d.cbe := rfl
@[simp] theorem Dev.dropCmd_spk (r : CmdRef) : (d.dropCmd r).spk = d.spk := rfl
@[simp] theorem Dev.dropCmd_stu (r : CmdRef) : (d.dropCmd r).stu = d.stu := rfl
@[simp] theorem Dev.dropCmd_codec (r : CmdRef) : (d.dropCmd r).codec = d.codec := rfl
@[simp] theorem Dev.dropCmd_lse (r : CmdRef) : (d.dropCmd r).lse = d.lse := rfl
@[simp] theorem Dev.dropCmd_recd (r : CmdRef) : (d.dropCmd r).recd = d.recd := rfl
@[simp] theorem Dev.dropCmd_ntu (r : CmdRef) : (d.dropCmd r).ntu = d.ntu := rfl
@[simp] theorem Dev.dropCmd_tw (r : CmdRef) : (d.dropCmd r).tw = d.tw := rfl
@[simp] theorem Dev.dropCmd_sco (r : CmdRef) : (d.dropCmd r).sco = d.sco := rfl
@[simp] theorem Dev.dropCmd_hub (r : CmdRef) : (d.dropCmd r).hub = d.hub := rfl
@[simp] theorem Dev.dropCmd_pwr (r : CmdRef) : (d.dropCmd r).pwr = d.pwr := rfl
@[simp] theorem Dev.dropCmd_eng (r : CmdRef) : (d.dropCmd r).eng = d.eng := rfl
@[simp] theorem Dev.dropCmd_oms (r : CmdRef) : (d.dropCmd r).oms = d.oms := rfl
@[simp] theorem Dev.dropCmd_dbg (r : CmdRef) : (d.dropCmd r).dbg = d.dbg := rfl
@[simp] theorem Dev.dropCmd_mem (r : CmdRef) : (d.dropCmd r).mem = d.mem := rfl
@[simp] theorem Dev.dropCmd_regs (r : CmdRef) : (d.dropCmd r).regs = d.regs := rfl
@[simp] theorem Dev.dropCmd_ctrs (r : CmdRef) : (d.dropCmd r).ctrs = d.ctrs := rfl
@[simp] theorem Dev.dropCmd_out (r : CmdRef) : (d.dropCmd r).out = d.out := rfl
@[simp] theorem Dev.dropCmd_free (r : CmdRef) : (d.dropCmd r).free = d.free := rfl
@[simp] theorem Dev.dropCmd_hostRead (r : CmdRef) : (d.dropCmd r).hostRead = d.hostRead := rfl

/-! ## Updates of one block -/

@[simp] theorem Dev.setLock_frame (n : Nat) (v : Lock) :
    (d.setLock n v).boot = d.boot ∧ (d.setLock n v).sni = d.sni ∧ (d.setLock n v).teu = d.teu ∧
    (d.setLock n v).rfe = d.rfe ∧ (d.setLock n v).cbe = d.cbe ∧ (d.setLock n v).spk = d.spk ∧
    (d.setLock n v).stu = d.stu ∧ (d.setLock n v).codec = d.codec ∧ (d.setLock n v).lse = d.lse ∧
    (d.setLock n v).recd = d.recd ∧ (d.setLock n v).ntu = d.ntu ∧ (d.setLock n v).tw = d.tw ∧
    (d.setLock n v).sco = d.sco ∧ (d.setLock n v).hub = d.hub ∧ (d.setLock n v).pwr = d.pwr ∧
    (d.setLock n v).eng = d.eng ∧ (d.setLock n v).oms = d.oms ∧ (d.setLock n v).dbg = d.dbg ∧
    (d.setLock n v).mem = d.mem ∧ (d.setLock n v).regs = d.regs ∧ (d.setLock n v).ctrs = d.ctrs ∧
    (d.setLock n v).out = d.out ∧ (d.setLock n v).free = d.free ∧ (d.setLock n v).hostRead = d.hostRead :=
  ⟨rfl, rfl, rfl, rfl, rfl, rfl, rfl, rfl, rfl, rfl, rfl, rfl, rfl, rfl, rfl, rfl, rfl, rfl, rfl, rfl, rfl, rfl, rfl, rfl⟩

@[simp] theorem Dev.modOp_frame (r : CmdRef) (f : QueueOp → QueueOp) :
    (d.modOp r f).boot = d.boot ∧ (d.modOp r f).sni = d.sni ∧ (d.modOp r f).teu = d.teu ∧ (d.modOp r f).rfe = d.rfe ∧
    (d.modOp r f).cbe = d.cbe ∧ (d.modOp r f).spk = d.spk ∧ (d.modOp r f).stu = d.stu ∧
    (d.modOp r f).codec = d.codec ∧ (d.modOp r f).lse = d.lse ∧ (d.modOp r f).recd = d.recd ∧
    (d.modOp r f).ntu = d.ntu ∧ (d.modOp r f).tw = d.tw ∧ (d.modOp r f).sco = d.sco ∧ (d.modOp r f).hub = d.hub ∧
    (d.modOp r f).pwr = d.pwr ∧ (d.modOp r f).eng = d.eng ∧ (d.modOp r f).oms = d.oms ∧ (d.modOp r f).dbg = d.dbg ∧
    (d.modOp r f).mem = d.mem ∧ (d.modOp r f).regs = d.regs ∧ (d.modOp r f).ctrs = d.ctrs ∧
    (d.modOp r f).out = d.out ∧ (d.modOp r f).free = d.free ∧ (d.modOp r f).hostRead = d.hostRead :=
  ⟨rfl, rfl, rfl, rfl, rfl, rfl, rfl, rfl, rfl, rfl, rfl, rfl, rfl, rfl, rfl, rfl, rfl, rfl, rfl, rfl, rfl, rfl, rfl, rfl⟩

@[simp] theorem Dev.setPort_frame (p : Nat) (v : Port) :
    (d.setPort p v).boot = d.boot ∧ (d.setPort p v).hif = d.hif ∧ (d.setPort p v).teu = d.teu ∧
    (d.setPort p v).rfe = d.rfe ∧ (d.setPort p v).cbe = d.cbe ∧ (d.setPort p v).spk = d.spk ∧
    (d.setPort p v).stu = d.stu ∧ (d.setPort p v).codec = d.codec ∧ (d.setPort p v).lse = d.lse ∧
    (d.setPort p v).recd = d.recd ∧ (d.setPort p v).ntu = d.ntu ∧ (d.setPort p v).tw = d.tw ∧
    (d.setPort p v).sco = d.sco ∧ (d.setPort p v).hub = d.hub ∧ (d.setPort p v).pwr = d.pwr ∧
    (d.setPort p v).eng = d.eng ∧ (d.setPort p v).oms = d.oms ∧ (d.setPort p v).dbg = d.dbg ∧
    (d.setPort p v).mem = d.mem ∧ (d.setPort p v).regs = d.regs ∧ (d.setPort p v).ctrs = d.ctrs ∧
    (d.setPort p v).out = d.out ∧ (d.setPort p v).free = d.free ∧ (d.setPort p v).hostRead = d.hostRead :=
  ⟨rfl, rfl, rfl, rfl, rfl, rfl, rfl, rfl, rfl, rfl, rfl, rfl, rfl, rfl, rfl, rfl, rfl, rfl, rfl, rfl, rfl, rfl, rfl, rfl⟩

@[simp] theorem Dev.setSpk_frame (n : Nat) (v : Spk) :
    (d.setSpk n v).boot = d.boot ∧ (d.setSpk n v).hif = d.hif ∧ (d.setSpk n v).sni = d.sni ∧
    (d.setSpk n v).teu = d.teu ∧ (d.setSpk n v).rfe = d.rfe ∧ (d.setSpk n v).cbe = d.cbe ∧
    (d.setSpk n v).stu = d.stu ∧ (d.setSpk n v).codec = d.codec ∧ (d.setSpk n v).lse = d.lse ∧
    (d.setSpk n v).recd = d.recd ∧ (d.setSpk n v).ntu = d.ntu ∧ (d.setSpk n v).tw = d.tw ∧
    (d.setSpk n v).sco = d.sco ∧ (d.setSpk n v).hub = d.hub ∧ (d.setSpk n v).pwr = d.pwr ∧
    (d.setSpk n v).eng = d.eng ∧ (d.setSpk n v).oms = d.oms ∧ (d.setSpk n v).dbg = d.dbg ∧
    (d.setSpk n v).mem = d.mem ∧ (d.setSpk n v).regs = d.regs ∧ (d.setSpk n v).ctrs = d.ctrs ∧
    (d.setSpk n v).out = d.out ∧ (d.setSpk n v).free = d.free ∧ (d.setSpk n v).hostRead = d.hostRead :=
  ⟨rfl, rfl, rfl, rfl, rfl, rfl, rfl, rfl, rfl, rfl, rfl, rfl, rfl, rfl, rfl, rfl, rfl, rfl, rfl, rfl, rfl, rfl, rfl, rfl⟩

@[simp] theorem Dev.setCtl_frame (c : Nat) (v : TwCtl) :
    (d.setCtl c v).boot = d.boot ∧ (d.setCtl c v).hif = d.hif ∧ (d.setCtl c v).sni = d.sni ∧
    (d.setCtl c v).teu = d.teu ∧ (d.setCtl c v).rfe = d.rfe ∧ (d.setCtl c v).cbe = d.cbe ∧
    (d.setCtl c v).spk = d.spk ∧ (d.setCtl c v).stu = d.stu ∧ (d.setCtl c v).codec = d.codec ∧
    (d.setCtl c v).lse = d.lse ∧ (d.setCtl c v).recd = d.recd ∧ (d.setCtl c v).ntu = d.ntu ∧
    (d.setCtl c v).sco = d.sco ∧ (d.setCtl c v).hub = d.hub ∧ (d.setCtl c v).pwr = d.pwr ∧
    (d.setCtl c v).eng = d.eng ∧ (d.setCtl c v).oms = d.oms ∧ (d.setCtl c v).dbg = d.dbg ∧
    (d.setCtl c v).mem = d.mem ∧ (d.setCtl c v).regs = d.regs ∧ (d.setCtl c v).ctrs = d.ctrs ∧
    (d.setCtl c v).out = d.out ∧ (d.setCtl c v).free = d.free ∧ (d.setCtl c v).hostRead = d.hostRead :=
  ⟨rfl, rfl, rfl, rfl, rfl, rfl, rfl, rfl, rfl, rfl, rfl, rfl, rfl, rfl, rfl, rfl, rfl, rfl, rfl, rfl, rfl, rfl, rfl, rfl⟩

@[simp] theorem Dev.setRaster_frame (k : Nat) (v : Raster) :
    (d.setRaster k v).boot = d.boot ∧ (d.setRaster k v).hif = d.hif ∧ (d.setRaster k v).sni = d.sni ∧
    (d.setRaster k v).teu = d.teu ∧ (d.setRaster k v).rfe = d.rfe ∧ (d.setRaster k v).cbe = d.cbe ∧
    (d.setRaster k v).spk = d.spk ∧ (d.setRaster k v).stu = d.stu ∧ (d.setRaster k v).codec = d.codec ∧
    (d.setRaster k v).lse = d.lse ∧ (d.setRaster k v).recd = d.recd ∧ (d.setRaster k v).ntu = d.ntu ∧
    (d.setRaster k v).tw = d.tw ∧ (d.setRaster k v).hub = d.hub ∧ (d.setRaster k v).pwr = d.pwr ∧
    (d.setRaster k v).eng = d.eng ∧ (d.setRaster k v).oms = d.oms ∧ (d.setRaster k v).dbg = d.dbg ∧
    (d.setRaster k v).mem = d.mem ∧ (d.setRaster k v).regs = d.regs ∧ (d.setRaster k v).ctrs = d.ctrs ∧
    (d.setRaster k v).out = d.out ∧ (d.setRaster k v).free = d.free ∧ (d.setRaster k v).hostRead = d.hostRead :=
  ⟨rfl, rfl, rfl, rfl, rfl, rfl, rfl, rfl, rfl, rfl, rfl, rfl, rfl, rfl, rfl, rfl, rfl, rfl, rfl, rfl, rfl, rfl, rfl, rfl⟩

@[simp] theorem Dev.setSdi_frame (i : Nat) (v : SdiIn) :
    (d.setSdi i v).boot = d.boot ∧ (d.setSdi i v).hif = d.hif ∧ (d.setSdi i v).sni = d.sni ∧
    (d.setSdi i v).teu = d.teu ∧ (d.setSdi i v).rfe = d.rfe ∧ (d.setSdi i v).cbe = d.cbe ∧
    (d.setSdi i v).spk = d.spk ∧ (d.setSdi i v).stu = d.stu ∧ (d.setSdi i v).codec = d.codec ∧
    (d.setSdi i v).lse = d.lse ∧ (d.setSdi i v).recd = d.recd ∧ (d.setSdi i v).ntu = d.ntu ∧
    (d.setSdi i v).tw = d.tw ∧ (d.setSdi i v).hub = d.hub ∧ (d.setSdi i v).pwr = d.pwr ∧ (d.setSdi i v).eng = d.eng ∧
    (d.setSdi i v).oms = d.oms ∧ (d.setSdi i v).dbg = d.dbg ∧ (d.setSdi i v).mem = d.mem ∧
    (d.setSdi i v).regs = d.regs ∧ (d.setSdi i v).ctrs = d.ctrs ∧ (d.setSdi i v).out = d.out ∧
    (d.setSdi i v).free = d.free ∧ (d.setSdi i v).hostRead = d.hostRead :=
  ⟨rfl, rfl, rfl, rfl, rfl, rfl, rfl, rfl, rfl, rfl, rfl, rfl, rfl, rfl, rfl, rfl, rfl, rfl, rfl, rfl, rfl, rfl, rfl, rfl⟩

@[simp] theorem Dev.setDp_frame (j : Nat) (v : DpTx) :
    (d.setDp j v).boot = d.boot ∧ (d.setDp j v).hif = d.hif ∧ (d.setDp j v).sni = d.sni ∧ (d.setDp j v).teu = d.teu ∧
    (d.setDp j v).rfe = d.rfe ∧ (d.setDp j v).cbe = d.cbe ∧ (d.setDp j v).spk = d.spk ∧ (d.setDp j v).stu = d.stu ∧
    (d.setDp j v).codec = d.codec ∧ (d.setDp j v).lse = d.lse ∧ (d.setDp j v).recd = d.recd ∧
    (d.setDp j v).ntu = d.ntu ∧ (d.setDp j v).tw = d.tw ∧ (d.setDp j v).hub = d.hub ∧ (d.setDp j v).pwr = d.pwr ∧
    (d.setDp j v).eng = d.eng ∧ (d.setDp j v).oms = d.oms ∧ (d.setDp j v).dbg = d.dbg ∧ (d.setDp j v).mem = d.mem ∧
    (d.setDp j v).regs = d.regs ∧ (d.setDp j v).ctrs = d.ctrs ∧ (d.setDp j v).out = d.out ∧
    (d.setDp j v).free = d.free ∧ (d.setDp j v).hostRead = d.hostRead :=
  ⟨rfl, rfl, rfl, rfl, rfl, rfl, rfl, rfl, rfl, rfl, rfl, rfl, rfl, rfl, rfl, rfl, rfl, rfl, rfl, rfl, rfl, rfl, rfl, rfl⟩

@[simp] theorem Dev.setDom_frame (k : Nat) (v : Dom) :
    (d.setDom k v).boot = d.boot ∧ (d.setDom k v).hif = d.hif ∧ (d.setDom k v).sni = d.sni ∧
    (d.setDom k v).teu = d.teu ∧ (d.setDom k v).rfe = d.rfe ∧ (d.setDom k v).cbe = d.cbe ∧
    (d.setDom k v).spk = d.spk ∧ (d.setDom k v).stu = d.stu ∧ (d.setDom k v).codec = d.codec ∧
    (d.setDom k v).lse = d.lse ∧ (d.setDom k v).recd = d.recd ∧ (d.setDom k v).tw = d.tw ∧
    (d.setDom k v).sco = d.sco ∧ (d.setDom k v).hub = d.hub ∧ (d.setDom k v).pwr = d.pwr ∧
    (d.setDom k v).eng = d.eng ∧ (d.setDom k v).oms = d.oms ∧ (d.setDom k v).dbg = d.dbg ∧
    (d.setDom k v).mem = d.mem ∧ (d.setDom k v).regs = d.regs ∧ (d.setDom k v).ctrs = d.ctrs ∧
    (d.setDom k v).out = d.out ∧ (d.setDom k v).free = d.free ∧ (d.setDom k v).hostRead = d.hostRead :=
  ⟨rfl, rfl, rfl, rfl, rfl, rfl, rfl, rfl, rfl, rfl, rfl, rfl, rfl, rfl, rfl, rfl, rfl, rfl, rfl, rfl, rfl, rfl, rfl, rfl⟩

@[simp] theorem Dev.setEth_frame (p : Nat) (v : Eth) :
    (d.setEth p v).boot = d.boot ∧ (d.setEth p v).hif = d.hif ∧ (d.setEth p v).sni = d.sni ∧
    (d.setEth p v).teu = d.teu ∧ (d.setEth p v).rfe = d.rfe ∧ (d.setEth p v).cbe = d.cbe ∧
    (d.setEth p v).spk = d.spk ∧ (d.setEth p v).stu = d.stu ∧ (d.setEth p v).codec = d.codec ∧
    (d.setEth p v).lse = d.lse ∧ (d.setEth p v).recd = d.recd ∧ (d.setEth p v).tw = d.tw ∧
    (d.setEth p v).sco = d.sco ∧ (d.setEth p v).hub = d.hub ∧ (d.setEth p v).pwr = d.pwr ∧
    (d.setEth p v).eng = d.eng ∧ (d.setEth p v).oms = d.oms ∧ (d.setEth p v).dbg = d.dbg ∧
    (d.setEth p v).mem = d.mem ∧ (d.setEth p v).regs = d.regs ∧ (d.setEth p v).ctrs = d.ctrs ∧
    (d.setEth p v).out = d.out ∧ (d.setEth p v).free = d.free ∧ (d.setEth p v).hostRead = d.hostRead :=
  ⟨rfl, rfl, rfl, rfl, rfl, rfl, rfl, rfl, rfl, rfl, rfl, rfl, rfl, rfl, rfl, rfl, rfl, rfl, rfl, rfl, rfl, rfl, rfl, rfl⟩

@[simp] theorem Dev.setPel_frame (v : Pel) :
    (d.setPel v).boot = d.boot ∧ (d.setPel v).hif = d.hif ∧ (d.setPel v).sni = d.sni ∧ (d.setPel v).teu = d.teu ∧
    (d.setPel v).rfe = d.rfe ∧ (d.setPel v).cbe = d.cbe ∧ (d.setPel v).spk = d.spk ∧ (d.setPel v).stu = d.stu ∧
    (d.setPel v).codec = d.codec ∧ (d.setPel v).lse = d.lse ∧ (d.setPel v).recd = d.recd ∧ (d.setPel v).tw = d.tw ∧
    (d.setPel v).sco = d.sco ∧ (d.setPel v).hub = d.hub ∧ (d.setPel v).pwr = d.pwr ∧ (d.setPel v).eng = d.eng ∧
    (d.setPel v).oms = d.oms ∧ (d.setPel v).dbg = d.dbg ∧ (d.setPel v).mem = d.mem ∧ (d.setPel v).regs = d.regs ∧
    (d.setPel v).ctrs = d.ctrs ∧ (d.setPel v).out = d.out ∧ (d.setPel v).free = d.free ∧
    (d.setPel v).hostRead = d.hostRead :=
  ⟨rfl, rfl, rfl, rfl, rfl, rfl, rfl, rfl, rfl, rfl, rfl, rfl, rfl, rfl, rfl, rfl, rfl, rfl, rfl, rfl, rfl, rfl, rfl, rfl⟩

@[simp] theorem Dev.setRfe_frame (n : Nat) (v : RfeSrc) :
    (d.setRfe n v).boot = d.boot ∧ (d.setRfe n v).hif = d.hif ∧ (d.setRfe n v).sni = d.sni ∧
    (d.setRfe n v).teu = d.teu ∧ (d.setRfe n v).cbe = d.cbe ∧ (d.setRfe n v).spk = d.spk ∧
    (d.setRfe n v).stu = d.stu ∧ (d.setRfe n v).codec = d.codec ∧ (d.setRfe n v).lse = d.lse ∧
    (d.setRfe n v).recd = d.recd ∧ (d.setRfe n v).ntu = d.ntu ∧ (d.setRfe n v).tw = d.tw ∧
    (d.setRfe n v).sco = d.sco ∧ (d.setRfe n v).hub = d.hub ∧ (d.setRfe n v).pwr = d.pwr ∧
    (d.setRfe n v).eng = d.eng ∧ (d.setRfe n v).oms = d.oms ∧ (d.setRfe n v).dbg = d.dbg ∧
    (d.setRfe n v).mem = d.mem ∧ (d.setRfe n v).regs = d.regs ∧ (d.setRfe n v).ctrs = d.ctrs ∧
    (d.setRfe n v).out = d.out ∧ (d.setRfe n v).free = d.free ∧ (d.setRfe n v).hostRead = d.hostRead :=
  ⟨rfl, rfl, rfl, rfl, rfl, rfl, rfl, rfl, rfl, rfl, rfl, rfl, rfl, rfl, rfl, rfl, rfl, rfl, rfl, rfl, rfl, rfl, rfl, rfl⟩

@[simp] theorem Dev.modFrame_frame (s i : Nat) (g : PipeFrame → PipeFrame) :
    (d.modFrame s i g).boot = d.boot ∧ (d.modFrame s i g).hif = d.hif ∧ (d.modFrame s i g).sni = d.sni ∧
    (d.modFrame s i g).teu = d.teu ∧ (d.modFrame s i g).cbe = d.cbe ∧ (d.modFrame s i g).spk = d.spk ∧
    (d.modFrame s i g).stu = d.stu ∧ (d.modFrame s i g).codec = d.codec ∧ (d.modFrame s i g).lse = d.lse ∧
    (d.modFrame s i g).recd = d.recd ∧ (d.modFrame s i g).ntu = d.ntu ∧ (d.modFrame s i g).tw = d.tw ∧
    (d.modFrame s i g).sco = d.sco ∧ (d.modFrame s i g).hub = d.hub ∧ (d.modFrame s i g).pwr = d.pwr ∧
    (d.modFrame s i g).eng = d.eng ∧ (d.modFrame s i g).oms = d.oms ∧ (d.modFrame s i g).dbg = d.dbg ∧
    (d.modFrame s i g).mem = d.mem ∧ (d.modFrame s i g).regs = d.regs ∧ (d.modFrame s i g).ctrs = d.ctrs ∧
    (d.modFrame s i g).out = d.out ∧ (d.modFrame s i g).free = d.free ∧ (d.modFrame s i g).hostRead = d.hostRead :=
  ⟨rfl, rfl, rfl, rfl, rfl, rfl, rfl, rfl, rfl, rfl, rfl, rfl, rfl, rfl, rfl, rfl, rfl, rfl, rfl, rfl, rfl, rfl, rfl, rfl⟩

@[simp] theorem Dev.setLut_frame (u : Nat) (v : LutUnit) :
    (d.setLut u v).boot = d.boot ∧ (d.setLut u v).hif = d.hif ∧ (d.setLut u v).sni = d.sni ∧
    (d.setLut u v).teu = d.teu ∧ (d.setLut u v).rfe = d.rfe ∧ (d.setLut u v).spk = d.spk ∧
    (d.setLut u v).stu = d.stu ∧ (d.setLut u v).codec = d.codec ∧ (d.setLut u v).lse = d.lse ∧
    (d.setLut u v).recd = d.recd ∧ (d.setLut u v).ntu = d.ntu ∧ (d.setLut u v).tw = d.tw ∧
    (d.setLut u v).sco = d.sco ∧ (d.setLut u v).hub = d.hub ∧ (d.setLut u v).pwr = d.pwr ∧
    (d.setLut u v).eng = d.eng ∧ (d.setLut u v).oms = d.oms ∧ (d.setLut u v).dbg = d.dbg ∧
    (d.setLut u v).mem = d.mem ∧ (d.setLut u v).regs = d.regs ∧ (d.setLut u v).ctrs = d.ctrs ∧
    (d.setLut u v).out = d.out ∧ (d.setLut u v).free = d.free ∧ (d.setLut u v).hostRead = d.hostRead :=
  ⟨rfl, rfl, rfl, rfl, rfl, rfl, rfl, rfl, rfl, rfl, rfl, rfl, rfl, rfl, rfl, rfl, rfl, rfl, rfl, rfl, rfl, rfl, rfl, rfl⟩

@[simp] theorem Dev.setUnit_frame (u : Nat) (v : StuUnit) :
    (d.setUnit u v).boot = d.boot ∧ (d.setUnit u v).hif = d.hif ∧ (d.setUnit u v).sni = d.sni ∧
    (d.setUnit u v).teu = d.teu ∧ (d.setUnit u v).rfe = d.rfe ∧ (d.setUnit u v).cbe = d.cbe ∧
    (d.setUnit u v).spk = d.spk ∧ (d.setUnit u v).codec = d.codec ∧ (d.setUnit u v).lse = d.lse ∧
    (d.setUnit u v).recd = d.recd ∧ (d.setUnit u v).ntu = d.ntu ∧ (d.setUnit u v).tw = d.tw ∧
    (d.setUnit u v).sco = d.sco ∧ (d.setUnit u v).hub = d.hub ∧ (d.setUnit u v).pwr = d.pwr ∧
    (d.setUnit u v).eng = d.eng ∧ (d.setUnit u v).oms = d.oms ∧ (d.setUnit u v).dbg = d.dbg ∧
    (d.setUnit u v).mem = d.mem ∧ (d.setUnit u v).regs = d.regs ∧ (d.setUnit u v).ctrs = d.ctrs ∧
    (d.setUnit u v).out = d.out ∧ (d.setUnit u v).free = d.free ∧ (d.setUnit u v).hostRead = d.hostRead :=
  ⟨rfl, rfl, rfl, rfl, rfl, rfl, rfl, rfl, rfl, rfl, rfl, rfl, rfl, rfl, rfl, rfl, rfl, rfl, rfl, rfl, rfl, rfl, rfl, rfl⟩

@[simp] theorem Dev.setEnc_frame (h : Nat) (v : Option EncSession) :
    (d.setEnc h v).boot = d.boot ∧ (d.setEnc h v).hif = d.hif ∧ (d.setEnc h v).sni = d.sni ∧
    (d.setEnc h v).teu = d.teu ∧ (d.setEnc h v).rfe = d.rfe ∧ (d.setEnc h v).cbe = d.cbe ∧
    (d.setEnc h v).spk = d.spk ∧ (d.setEnc h v).stu = d.stu ∧ (d.setEnc h v).lse = d.lse ∧
    (d.setEnc h v).recd = d.recd ∧ (d.setEnc h v).ntu = d.ntu ∧ (d.setEnc h v).tw = d.tw ∧
    (d.setEnc h v).sco = d.sco ∧ (d.setEnc h v).hub = d.hub ∧ (d.setEnc h v).pwr = d.pwr ∧
    (d.setEnc h v).eng = d.eng ∧ (d.setEnc h v).oms = d.oms ∧ (d.setEnc h v).dbg = d.dbg ∧
    (d.setEnc h v).mem = d.mem ∧ (d.setEnc h v).regs = d.regs ∧ (d.setEnc h v).ctrs = d.ctrs ∧
    (d.setEnc h v).out = d.out ∧ (d.setEnc h v).free = d.free ∧ (d.setEnc h v).hostRead = d.hostRead :=
  ⟨rfl, rfl, rfl, rfl, rfl, rfl, rfl, rfl, rfl, rfl, rfl, rfl, rfl, rfl, rfl, rfl, rfl, rfl, rfl, rfl, rfl, rfl, rfl, rfl⟩

@[simp] theorem Dev.setDec_frame (h : Nat) (v : Option DecSession) :
    (d.setDec h v).boot = d.boot ∧ (d.setDec h v).hif = d.hif ∧ (d.setDec h v).sni = d.sni ∧
    (d.setDec h v).teu = d.teu ∧ (d.setDec h v).rfe = d.rfe ∧ (d.setDec h v).cbe = d.cbe ∧
    (d.setDec h v).spk = d.spk ∧ (d.setDec h v).stu = d.stu ∧ (d.setDec h v).lse = d.lse ∧
    (d.setDec h v).recd = d.recd ∧ (d.setDec h v).ntu = d.ntu ∧ (d.setDec h v).tw = d.tw ∧
    (d.setDec h v).sco = d.sco ∧ (d.setDec h v).hub = d.hub ∧ (d.setDec h v).pwr = d.pwr ∧
    (d.setDec h v).eng = d.eng ∧ (d.setDec h v).oms = d.oms ∧ (d.setDec h v).dbg = d.dbg ∧
    (d.setDec h v).mem = d.mem ∧ (d.setDec h v).regs = d.regs ∧ (d.setDec h v).ctrs = d.ctrs ∧
    (d.setDec h v).out = d.out ∧ (d.setDec h v).free = d.free ∧ (d.setDec h v).hostRead = d.hostRead :=
  ⟨rfl, rfl, rfl, rfl, rfl, rfl, rfl, rfl, rfl, rfl, rfl, rfl, rfl, rfl, rfl, rfl, rfl, rfl, rfl, rfl, rfl, rfl, rfl, rfl⟩

@[simp] theorem Dev.setLse_frame (h : Nat) (v : Option LseSession) :
    (d.setLse h v).boot = d.boot ∧ (d.setLse h v).hif = d.hif ∧ (d.setLse h v).sni = d.sni ∧
    (d.setLse h v).teu = d.teu ∧ (d.setLse h v).rfe = d.rfe ∧ (d.setLse h v).cbe = d.cbe ∧
    (d.setLse h v).spk = d.spk ∧ (d.setLse h v).stu = d.stu ∧ (d.setLse h v).codec = d.codec ∧
    (d.setLse h v).recd = d.recd ∧ (d.setLse h v).ntu = d.ntu ∧ (d.setLse h v).tw = d.tw ∧
    (d.setLse h v).sco = d.sco ∧ (d.setLse h v).hub = d.hub ∧ (d.setLse h v).pwr = d.pwr ∧
    (d.setLse h v).eng = d.eng ∧ (d.setLse h v).oms = d.oms ∧ (d.setLse h v).dbg = d.dbg ∧
    (d.setLse h v).mem = d.mem ∧ (d.setLse h v).regs = d.regs ∧ (d.setLse h v).ctrs = d.ctrs ∧
    (d.setLse h v).out = d.out ∧ (d.setLse h v).free = d.free ∧ (d.setLse h v).hostRead = d.hostRead :=
  ⟨rfl, rfl, rfl, rfl, rfl, rfl, rfl, rfl, rfl, rfl, rfl, rfl, rfl, rfl, rfl, rfl, rfl, rfl, rfl, rfl, rfl, rfl, rfl, rfl⟩

@[simp] theorem Dev.setRaw_frame (p : Nat) (v : Option RawSession) :
    (d.setRaw p v).boot = d.boot ∧ (d.setRaw p v).hif = d.hif ∧ (d.setRaw p v).sni = d.sni ∧
    (d.setRaw p v).teu = d.teu ∧ (d.setRaw p v).rfe = d.rfe ∧ (d.setRaw p v).cbe = d.cbe ∧
    (d.setRaw p v).spk = d.spk ∧ (d.setRaw p v).stu = d.stu ∧ (d.setRaw p v).codec = d.codec ∧
    (d.setRaw p v).recd = d.recd ∧ (d.setRaw p v).ntu = d.ntu ∧ (d.setRaw p v).tw = d.tw ∧
    (d.setRaw p v).sco = d.sco ∧ (d.setRaw p v).hub = d.hub ∧ (d.setRaw p v).pwr = d.pwr ∧
    (d.setRaw p v).eng = d.eng ∧ (d.setRaw p v).oms = d.oms ∧ (d.setRaw p v).dbg = d.dbg ∧
    (d.setRaw p v).mem = d.mem ∧ (d.setRaw p v).regs = d.regs ∧ (d.setRaw p v).ctrs = d.ctrs ∧
    (d.setRaw p v).out = d.out ∧ (d.setRaw p v).free = d.free ∧ (d.setRaw p v).hostRead = d.hostRead :=
  ⟨rfl, rfl, rfl, rfl, rfl, rfl, rfl, rfl, rfl, rfl, rfl, rfl, rfl, rfl, rfl, rfl, rfl, rfl, rfl, rfl, rfl, rfl, rfl, rfl⟩

@[simp] theorem Dev.setLane_frame (k : Nat) (w : LaneWork) :
    (d.setLane k w).boot = d.boot ∧ (d.setLane k w).hif = d.hif ∧ (d.setLane k w).sni = d.sni ∧
    (d.setLane k w).teu = d.teu ∧ (d.setLane k w).rfe = d.rfe ∧ (d.setLane k w).cbe = d.cbe ∧
    (d.setLane k w).spk = d.spk ∧ (d.setLane k w).stu = d.stu ∧ (d.setLane k w).codec = d.codec ∧
    (d.setLane k w).recd = d.recd ∧ (d.setLane k w).ntu = d.ntu ∧ (d.setLane k w).tw = d.tw ∧
    (d.setLane k w).sco = d.sco ∧ (d.setLane k w).hub = d.hub ∧ (d.setLane k w).pwr = d.pwr ∧
    (d.setLane k w).eng = d.eng ∧ (d.setLane k w).oms = d.oms ∧ (d.setLane k w).dbg = d.dbg ∧
    (d.setLane k w).mem = d.mem ∧ (d.setLane k w).regs = d.regs ∧ (d.setLane k w).ctrs = d.ctrs ∧
    (d.setLane k w).out = d.out ∧ (d.setLane k w).free = d.free ∧ (d.setLane k w).hostRead = d.hostRead :=
  ⟨rfl, rfl, rfl, rfl, rfl, rfl, rfl, rfl, rfl, rfl, rfl, rfl, rfl, rfl, rfl, rfl, rfl, rfl, rfl, rfl, rfl, rfl, rfl, rfl⟩

@[simp] theorem Dev.setSlot_frame (n : Nat) (v : Slot) :
    (d.setSlot n v).boot = d.boot ∧ (d.setSlot n v).hif = d.hif ∧ (d.setSlot n v).sni = d.sni ∧
    (d.setSlot n v).teu = d.teu ∧ (d.setSlot n v).rfe = d.rfe ∧ (d.setSlot n v).cbe = d.cbe ∧
    (d.setSlot n v).spk = d.spk ∧ (d.setSlot n v).stu = d.stu ∧ (d.setSlot n v).codec = d.codec ∧
    (d.setSlot n v).lse = d.lse ∧ (d.setSlot n v).ntu = d.ntu ∧ (d.setSlot n v).tw = d.tw ∧
    (d.setSlot n v).sco = d.sco ∧ (d.setSlot n v).hub = d.hub ∧ (d.setSlot n v).pwr = d.pwr ∧
    (d.setSlot n v).eng = d.eng ∧ (d.setSlot n v).oms = d.oms ∧ (d.setSlot n v).dbg = d.dbg ∧
    (d.setSlot n v).mem = d.mem ∧ (d.setSlot n v).regs = d.regs ∧ (d.setSlot n v).ctrs = d.ctrs ∧
    (d.setSlot n v).out = d.out ∧ (d.setSlot n v).free = d.free ∧ (d.setSlot n v).hostRead = d.hostRead :=
  ⟨rfl, rfl, rfl, rfl, rfl, rfl, rfl, rfl, rfl, rfl, rfl, rfl, rfl, rfl, rfl, rfl, rfl, rfl, rfl, rfl, rfl, rfl, rfl, rfl⟩

@[simp] theorem Dev.setVol_frame (n : Nat) (v : Volume) :
    (d.setVol n v).boot = d.boot ∧ (d.setVol n v).hif = d.hif ∧ (d.setVol n v).sni = d.sni ∧
    (d.setVol n v).teu = d.teu ∧ (d.setVol n v).rfe = d.rfe ∧ (d.setVol n v).cbe = d.cbe ∧
    (d.setVol n v).spk = d.spk ∧ (d.setVol n v).stu = d.stu ∧ (d.setVol n v).codec = d.codec ∧
    (d.setVol n v).lse = d.lse ∧ (d.setVol n v).ntu = d.ntu ∧ (d.setVol n v).tw = d.tw ∧ (d.setVol n v).sco = d.sco ∧
    (d.setVol n v).hub = d.hub ∧ (d.setVol n v).pwr = d.pwr ∧ (d.setVol n v).eng = d.eng ∧
    (d.setVol n v).oms = d.oms ∧ (d.setVol n v).dbg = d.dbg ∧ (d.setVol n v).mem = d.mem ∧
    (d.setVol n v).regs = d.regs ∧ (d.setVol n v).ctrs = d.ctrs ∧ (d.setVol n v).out = d.out ∧
    (d.setVol n v).free = d.free ∧ (d.setVol n v).hostRead = d.hostRead :=
  ⟨rfl, rfl, rfl, rfl, rfl, rfl, rfl, rfl, rfl, rfl, rfl, rfl, rfl, rfl, rfl, rfl, rfl, rfl, rfl, rfl, rfl, rfl, rfl, rfl⟩

@[simp] theorem Dev.modRec_frame (r : CmdRef) (f : RecCmd → RecCmd) :
    (d.modRec r f).boot = d.boot ∧ (d.modRec r f).hif = d.hif ∧ (d.modRec r f).sni = d.sni ∧
    (d.modRec r f).teu = d.teu ∧ (d.modRec r f).rfe = d.rfe ∧ (d.modRec r f).cbe = d.cbe ∧
    (d.modRec r f).spk = d.spk ∧ (d.modRec r f).stu = d.stu ∧ (d.modRec r f).codec = d.codec ∧
    (d.modRec r f).lse = d.lse ∧ (d.modRec r f).ntu = d.ntu ∧ (d.modRec r f).tw = d.tw ∧ (d.modRec r f).sco = d.sco ∧
    (d.modRec r f).hub = d.hub ∧ (d.modRec r f).pwr = d.pwr ∧ (d.modRec r f).eng = d.eng ∧
    (d.modRec r f).oms = d.oms ∧ (d.modRec r f).dbg = d.dbg ∧ (d.modRec r f).mem = d.mem ∧
    (d.modRec r f).regs = d.regs ∧ (d.modRec r f).ctrs = d.ctrs ∧ (d.modRec r f).out = d.out ∧
    (d.modRec r f).free = d.free ∧ (d.modRec r f).hostRead = d.hostRead :=
  ⟨rfl, rfl, rfl, rfl, rfl, rfl, rfl, rfl, rfl, rfl, rfl, rfl, rfl, rfl, rfl, rfl, rfl, rfl, rfl, rfl, rfl, rfl, rfl, rfl⟩

@[simp] theorem Dev.setArb_frame (k : Nat) (v : Arb) :
    (d.setArb k v).boot = d.boot ∧ (d.setArb k v).hif = d.hif ∧ (d.setArb k v).sni = d.sni ∧
    (d.setArb k v).teu = d.teu ∧ (d.setArb k v).rfe = d.rfe ∧ (d.setArb k v).cbe = d.cbe ∧
    (d.setArb k v).spk = d.spk ∧ (d.setArb k v).stu = d.stu ∧ (d.setArb k v).codec = d.codec ∧
    (d.setArb k v).lse = d.lse ∧ (d.setArb k v).recd = d.recd ∧ (d.setArb k v).ntu = d.ntu ∧
    (d.setArb k v).tw = d.tw ∧ (d.setArb k v).sco = d.sco ∧ (d.setArb k v).pwr = d.pwr ∧ (d.setArb k v).eng = d.eng ∧
    (d.setArb k v).oms = d.oms ∧ (d.setArb k v).dbg = d.dbg ∧ (d.setArb k v).mem = d.mem ∧
    (d.setArb k v).regs = d.regs ∧ (d.setArb k v).ctrs = d.ctrs ∧ (d.setArb k v).out = d.out ∧
    (d.setArb k v).free = d.free ∧ (d.setArb k v).hostRead = d.hostRead :=
  ⟨rfl, rfl, rfl, rfl, rfl, rfl, rfl, rfl, rfl, rfl, rfl, rfl, rfl, rfl, rfl, rfl, rfl, rfl, rfl, rfl, rfl, rfl, rfl, rfl⟩

@[simp] theorem Dev.setIsl_frame (i : Nat) (v : Island) :
    (d.setIsl i v).boot = d.boot ∧ (d.setIsl i v).hif = d.hif ∧ (d.setIsl i v).sni = d.sni ∧
    (d.setIsl i v).teu = d.teu ∧ (d.setIsl i v).rfe = d.rfe ∧ (d.setIsl i v).cbe = d.cbe ∧
    (d.setIsl i v).spk = d.spk ∧ (d.setIsl i v).stu = d.stu ∧ (d.setIsl i v).codec = d.codec ∧
    (d.setIsl i v).lse = d.lse ∧ (d.setIsl i v).recd = d.recd ∧ (d.setIsl i v).ntu = d.ntu ∧
    (d.setIsl i v).tw = d.tw ∧ (d.setIsl i v).sco = d.sco ∧ (d.setIsl i v).hub = d.hub ∧ (d.setIsl i v).eng = d.eng ∧
    (d.setIsl i v).oms = d.oms ∧ (d.setIsl i v).dbg = d.dbg ∧ (d.setIsl i v).mem = d.mem ∧
    (d.setIsl i v).regs = d.regs ∧ (d.setIsl i v).ctrs = d.ctrs ∧ (d.setIsl i v).out = d.out ∧
    (d.setIsl i v).free = d.free ∧ (d.setIsl i v).hostRead = d.hostRead :=
  ⟨rfl, rfl, rfl, rfl, rfl, rfl, rfl, rfl, rfl, rfl, rfl, rfl, rfl, rfl, rfl, rfl, rfl, rfl, rfl, rfl, rfl, rfl, rfl, rfl⟩

@[simp] theorem Dev.modDbg_frame (f : DbgB → DbgB) :
    (d.modDbg f).boot = d.boot ∧ (d.modDbg f).hif = d.hif ∧ (d.modDbg f).sni = d.sni ∧ (d.modDbg f).teu = d.teu ∧
    (d.modDbg f).rfe = d.rfe ∧ (d.modDbg f).cbe = d.cbe ∧ (d.modDbg f).spk = d.spk ∧ (d.modDbg f).stu = d.stu ∧
    (d.modDbg f).codec = d.codec ∧ (d.modDbg f).lse = d.lse ∧ (d.modDbg f).recd = d.recd ∧ (d.modDbg f).ntu = d.ntu ∧
    (d.modDbg f).tw = d.tw ∧ (d.modDbg f).sco = d.sco ∧ (d.modDbg f).hub = d.hub ∧ (d.modDbg f).pwr = d.pwr ∧
    (d.modDbg f).eng = d.eng ∧ (d.modDbg f).oms = d.oms ∧ (d.modDbg f).mem = d.mem ∧ (d.modDbg f).regs = d.regs ∧
    (d.modDbg f).ctrs = d.ctrs ∧ (d.modDbg f).out = d.out ∧ (d.modDbg f).free = d.free ∧
    (d.modDbg f).hostRead = d.hostRead :=
  ⟨rfl, rfl, rfl, rfl, rfl, rfl, rfl, rfl, rfl, rfl, rfl, rfl, rfl, rfl, rfl, rfl, rfl, rfl, rfl, rfl, rfl, rfl, rfl, rfl⟩

@[simp] theorem Dev.modPulse_frame (r : CmdRef) (f : Pulses → Pulses) :
    (d.modPulse r f).boot = d.boot ∧ (d.modPulse r f).hif = d.hif ∧ (d.modPulse r f).sni = d.sni ∧
    (d.modPulse r f).rfe = d.rfe ∧ (d.modPulse r f).cbe = d.cbe ∧ (d.modPulse r f).spk = d.spk ∧
    (d.modPulse r f).stu = d.stu ∧ (d.modPulse r f).codec = d.codec ∧ (d.modPulse r f).lse = d.lse ∧
    (d.modPulse r f).recd = d.recd ∧ (d.modPulse r f).ntu = d.ntu ∧ (d.modPulse r f).tw = d.tw ∧
    (d.modPulse r f).sco = d.sco ∧ (d.modPulse r f).hub = d.hub ∧ (d.modPulse r f).pwr = d.pwr ∧
    (d.modPulse r f).eng = d.eng ∧ (d.modPulse r f).oms = d.oms ∧ (d.modPulse r f).dbg = d.dbg ∧
    (d.modPulse r f).mem = d.mem ∧ (d.modPulse r f).regs = d.regs ∧ (d.modPulse r f).ctrs = d.ctrs ∧
    (d.modPulse r f).out = d.out ∧ (d.modPulse r f).free = d.free ∧ (d.modPulse r f).hostRead = d.hostRead :=
  ⟨rfl, rfl, rfl, rfl, rfl, rfl, rfl, rfl, rfl, rfl, rfl, rfl, rfl, rfl, rfl, rfl, rfl, rfl, rfl, rfl, rfl, rfl, rfl, rfl⟩

/-! ## What is written reads back, and its neighbours stay -/

@[simp] theorem Dev.setQp_qp (q : Nat) (p : QP) : (d.setQp q p).qp q = p := SMap.get_put_same _ _ _ _
theorem Dev.setQp_qp_ne (q : Nat) (p : QP) {z : Nat} (hne : z ≠ q) : (d.setQp q p).qp z = d.qp z :=
  SMap.get_put_ne _ _ _ hne

@[simp] theorem Dev.setRing_ring (n : Nat) (r : Ring) : (d.setRing n r).ring n = r := SMap.get_put_same _ _ _ _
theorem Dev.setRing_ring_ne (n : Nat) (r : Ring) {z : Nat} (hne : z ≠ n) : (d.setRing n r).ring z = d.ring z :=
  SMap.get_put_ne _ _ _ hne

@[simp] theorem Dev.setLock_lock (n : Nat) (v : Lock) : (d.setLock n v).lock n = v := SMap.get_put_same _ _ _ _
theorem Dev.setLock_lock_ne (n : Nat) (v : Lock) {z : Nat} (hne : z ≠ n) : (d.setLock n v).lock z = d.lock z :=
  SMap.get_put_ne _ _ _ hne

@[simp] theorem Dev.setPort_port (p : Nat) (v : Port) : (d.setPort p v).port p = v := SMap.get_put_same _ _ _ _
theorem Dev.setPort_port_ne (p : Nat) (v : Port) {z : Nat} (hne : z ≠ p) : (d.setPort p v).port z = d.port z :=
  SMap.get_put_ne _ _ _ hne

@[simp] theorem Dev.setSpk_spkOf (n : Nat) (v : Spk) : (d.setSpk n v).spkOf n = v := SMap.get_put_same _ _ _ _
theorem Dev.setSpk_spkOf_ne (n : Nat) (v : Spk) {z : Nat} (hne : z ≠ n) : (d.setSpk n v).spkOf z = d.spkOf z :=
  SMap.get_put_ne _ _ _ hne

@[simp] theorem Dev.setCtl_ctl (c : Nat) (v : TwCtl) : (d.setCtl c v).ctl c = v := SMap.get_put_same _ _ _ _
theorem Dev.setCtl_ctl_ne (c : Nat) (v : TwCtl) {z : Nat} (hne : z ≠ c) : (d.setCtl c v).ctl z = d.ctl z :=
  SMap.get_put_ne _ _ _ hne

@[simp] theorem Dev.setRaster_raster (k : Nat) (v : Raster) : (d.setRaster k v).raster k = v := SMap.get_put_same _ _ _ _
theorem Dev.setRaster_raster_ne (k : Nat) (v : Raster) {z : Nat} (hne : z ≠ k) : (d.setRaster k v).raster z = d.raster z :=
  SMap.get_put_ne _ _ _ hne

@[simp] theorem Dev.setSdi_sdiIn (i : Nat) (v : SdiIn) : (d.setSdi i v).sdiIn i = v := SMap.get_put_same _ _ _ _
theorem Dev.setSdi_sdiIn_ne (i : Nat) (v : SdiIn) {z : Nat} (hne : z ≠ i) : (d.setSdi i v).sdiIn z = d.sdiIn z :=
  SMap.get_put_ne _ _ _ hne

@[simp] theorem Dev.setDp_dpTx (j : Nat) (v : DpTx) : (d.setDp j v).dpTx j = v := SMap.get_put_same _ _ _ _
theorem Dev.setDp_dpTx_ne (j : Nat) (v : DpTx) {z : Nat} (hne : z ≠ j) : (d.setDp j v).dpTx z = d.dpTx z :=
  SMap.get_put_ne _ _ _ hne

@[simp] theorem Dev.setDom_dom (k : Nat) (v : Dom) : (d.setDom k v).dom k = v := SMap.get_put_same _ _ _ _
theorem Dev.setDom_dom_ne (k : Nat) (v : Dom) {z : Nat} (hne : z ≠ k) : (d.setDom k v).dom z = d.dom z :=
  SMap.get_put_ne _ _ _ hne

@[simp] theorem Dev.setEth_eth (p : Nat) (v : Eth) : (d.setEth p v).eth p = v := SMap.get_put_same _ _ _ _
theorem Dev.setEth_eth_ne (p : Nat) (v : Eth) {z : Nat} (hne : z ≠ p) : (d.setEth p v).eth z = d.eth z :=
  SMap.get_put_ne _ _ _ hne

@[simp] theorem Dev.setRfe_rfeOpt (n : Nat) (v : RfeSrc) : (d.setRfe n v).rfe? n = v := SMap.get_put_same _ _ _ _
theorem Dev.setRfe_rfeOpt_ne (n : Nat) (v : RfeSrc) {z : Nat} (hne : z ≠ n) : (d.setRfe n v).rfe? z = d.rfe? z :=
  SMap.get_put_ne _ _ _ hne

@[simp] theorem Dev.setLut_lut (u : Nat) (v : LutUnit) : (d.setLut u v).lut u = v := SMap.get_put_same _ _ _ _
theorem Dev.setLut_lut_ne (u : Nat) (v : LutUnit) {z : Nat} (hne : z ≠ u) : (d.setLut u v).lut z = d.lut z :=
  SMap.get_put_ne _ _ _ hne

@[simp] theorem Dev.setUnit_stuUnit (u : Nat) (v : StuUnit) : (d.setUnit u v).stuUnit u = v := SMap.get_put_same _ _ _ _
theorem Dev.setUnit_stuUnit_ne (u : Nat) (v : StuUnit) {z : Nat} (hne : z ≠ u) : (d.setUnit u v).stuUnit z = d.stuUnit z :=
  SMap.get_put_ne _ _ _ hne

@[simp] theorem Dev.setEnc_encOpt (h : Nat) (v : Option EncSession) : (d.setEnc h v).enc? h = v := SMap.get_put_same _ _ _ _
theorem Dev.setEnc_encOpt_ne (h : Nat) (v : Option EncSession) {z : Nat} (hne : z ≠ h) : (d.setEnc h v).enc? z = d.enc? z :=
  SMap.get_put_ne _ _ _ hne

@[simp] theorem Dev.setDec_decOpt (h : Nat) (v : Option DecSession) : (d.setDec h v).dec? h = v := SMap.get_put_same _ _ _ _
theorem Dev.setDec_decOpt_ne (h : Nat) (v : Option DecSession) {z : Nat} (hne : z ≠ h) : (d.setDec h v).dec? z = d.dec? z :=
  SMap.get_put_ne _ _ _ hne

@[simp] theorem Dev.setLse_lseOpt (h : Nat) (v : Option LseSession) : (d.setLse h v).lse? h = v := SMap.get_put_same _ _ _ _
theorem Dev.setLse_lseOpt_ne (h : Nat) (v : Option LseSession) {z : Nat} (hne : z ≠ h) : (d.setLse h v).lse? z = d.lse? z :=
  SMap.get_put_ne _ _ _ hne

@[simp] theorem Dev.setRaw_rawOpt (p : Nat) (v : Option RawSession) : (d.setRaw p v).raw? p = v := SMap.get_put_same _ _ _ _
theorem Dev.setRaw_rawOpt_ne (p : Nat) (v : Option RawSession) {z : Nat} (hne : z ≠ p) : (d.setRaw p v).raw? z = d.raw? z :=
  SMap.get_put_ne _ _ _ hne

@[simp] theorem Dev.setSlot_slot (n : Nat) (v : Slot) : (d.setSlot n v).slot n = v := SMap.get_put_same _ _ _ _
theorem Dev.setSlot_slot_ne (n : Nat) (v : Slot) {z : Nat} (hne : z ≠ n) : (d.setSlot n v).slot z = d.slot z :=
  SMap.get_put_ne _ _ _ hne

@[simp] theorem Dev.setVol_vol (n : Nat) (v : Volume) : (d.setVol n v).vol n = v := SMap.get_put_same _ _ _ _
theorem Dev.setVol_vol_ne (n : Nat) (v : Volume) {z : Nat} (hne : z ≠ n) : (d.setVol n v).vol z = d.vol z :=
  SMap.get_put_ne _ _ _ hne

@[simp] theorem Dev.setArb_arb (k : Nat) (v : Arb) : (d.setArb k v).arb k = v := SMap.get_put_same _ _ _ _
theorem Dev.setArb_arb_ne (k : Nat) (v : Arb) {z : Nat} (hne : z ≠ k) : (d.setArb k v).arb z = d.arb z :=
  SMap.get_put_ne _ _ _ hne

@[simp] theorem Dev.setIsl_isl (i : Nat) (v : Island) : (d.setIsl i v).isl i = v := SMap.get_put_same _ _ _ _
theorem Dev.setIsl_isl_ne (i : Nat) (v : Island) {z : Nat} (hne : z ≠ i) : (d.setIsl i v).isl z = d.isl z :=
  SMap.get_put_ne _ _ _ hne

end Sys2Proof.Machine
end

