-- ==== Sys2Proof/Laws/Ops.lean ====
section
/-! SUPPORT. What the shared operations can do: completions and the host interface (R76, R83, R92 to R94), the running
of a fetched command, and the form of every meaning. -/

namespace Sys2Proof.Machine

open Sys2Proof

/-! ## What a completion touches -/

/-- `e` differs from `d` at most in queue pairs, contexts, queue operations, vectors, and in what has left. -/
def Dev.DoneSame (d e : Dev) : Prop :=
  e = { d with
    hif := { d.hif with
      queues := e.hif.queues, cmds := e.hif.cmds, queueOps := e.hif.queueOps, msix := e.hif.msix }
    out := e.out }

theorem Dev.DoneSame.refl (d : Dev) : d.DoneSame d := rfl

theorem Dev.DoneSame.trans {d e f : Dev} (h : d.DoneSame e) (k : e.DoneSame f) : d.DoneSame f := by
  unfold Dev.DoneSame at *
  rw [k, h]

theorem Dev.emit_same (d : Dev) (o : Out) : d.DoneSame (d.emit o) := rfl
theorem Dev.setQp_same (d : Dev) (q : Nat) (p : QP) : d.DoneSame (d.setQp q p) := rfl
theorem Dev.dropCmd_same (d : Dev) (r : CmdRef) : d.DoneSame (d.dropCmd r) := rfl
theorem Dev.begin_same (d : Dev) (r : CmdRef) : d.DoneSame (d.begin r) := rfl
theorem Dev.dropWait_same (d : Dev) (r : CmdRef) (b : Bool) : d.DoneSame (d.dropWait r b) := rfl

/-- A signal leaves a message, or sets a pending bit (R83). -/
theorem Dev.signal_same (d : Dev) (v : Nat) : d.DoneSame (d.signal v) := by
  unfold Dev.signal
  simp only []
  split <;> rfl

theorem Dev.postCompletion_same (d : Dev) (q cid st res : Nat) : d.DoneSame (d.postCompletion q cid st res) := by
  unfold Dev.postCompletion
  simp only []
  split
  · rfl
  · split
    · exact ((Dev.emit_same _ _).trans (Dev.setQp_same _ _ _)).trans (Dev.signal_same _ _)
    · exact (Dev.emit_same _ _).trans (Dev.setQp_same _ _ _)

theorem Dev.complete_same (d : Dev) (r : CmdRef) (st res : Nat) : d.DoneSame (d.complete r st res) := by
  unfold Dev.complete
  split
  · rfl
  · exact ((Dev.dropCmd_same _ _).trans (Dev.dropWait_same _ _ _)).trans (Dev.postCompletion_same _ _ _ _ _)

theorem DoneSame_foldl {α : Type} (f : Dev → α → Dev) (h : ∀ d a, Dev.DoneSame d (f d a)) (l : List α) (d : Dev) :
    d.DoneSame (l.foldl f d) := by
  induction l generalizing d with
  | nil => rfl
  | cons a t ih => exact (h d a).trans (ih _)

theorem Dev.settleQueueOps_same (d : Dev) : d.DoneSame d.settleQueueOps := by
  unfold Dev.settleQueueOps
  refine Dev.DoneSame.trans (e := { d with hif := { d.hif with
    queueOps := d.hif.queueOps.filter fun o => !o.left.isEmpty } }) rfl ?_
  refine DoneSame_foldl _ (fun d o => ?_) _ _
  simp only []
  split
  · exact (Dev.setQp_same _ _ _).trans (Dev.complete_same _ _ _ _)
  · exact Dev.complete_same _ _ _ _

/-- A completion changes queue pairs, contexts, queue operations, vectors and what has left, and nothing else. -/
theorem Dev.finish_same (d : Dev) (r : CmdRef) (st res : Nat) : d.DoneSame (d.finish r st res) :=
  (Dev.complete_same _ _ _ _).trans (Dev.settleQueueOps_same _)

theorem Dev.finishAll_same (d : Dev) (rs : List CmdRef) (st res : Nat) : d.DoneSame (d.finishAll rs st res) :=
  DoneSame_foldl _ (fun d r => Dev.finish_same d r st res) _ _

/-- What `DoneSame` leaves alone, field by field. -/
theorem Dev.DoneSame.fields {d e : Dev} (h : d.DoneSame e) :
    e.boot = d.boot ∧ e.sni = d.sni ∧ e.teu = d.teu ∧ e.rfe = d.rfe ∧ e.cbe = d.cbe ∧ e.spk = d.spk ∧ e.stu = d.stu ∧
    e.codec = d.codec ∧ e.lse = d.lse ∧ e.recd = d.recd ∧ e.ntu = d.ntu ∧ e.tw = d.tw ∧ e.sco = d.sco ∧
    e.hub = d.hub ∧ e.pwr = d.pwr ∧ e.eng = d.eng ∧ e.oms = d.oms ∧ e.dbg = d.dbg ∧ e.mem = d.mem ∧ e.regs = d.regs ∧
    e.ctrs = d.ctrs ∧ e.free = d.free ∧ e.hostRead = d.hostRead ∧ e.hif.neg = d.hif.neg ∧
    e.hif.reason = d.hif.reason ∧ e.hif.badBit = d.hif.badBit ∧ e.hif.sampled = d.hif.sampled ∧
    e.hif.features = d.hif.features ∧ e.hif.ready = d.hif.ready ∧ e.hif.recovery = d.hif.recovery ∧
    e.hif.cfgErr = d.hif.cfgErr ∧ e.hif.fetchNum = d.hif.fetchNum ∧ e.hif.rrQueue = d.hif.rrQueue ∧
    e.hif.rrTaken = d.hif.rrTaken ∧ e.hif.marks = d.hif.marks ∧ e.hif.rings = d.hif.rings ∧
    e.hif.locks = d.hif.locks ∧ e.hif.tol = d.hif.tol ∧ e.hif.modeChange = d.hif.modeChange := by
  rw [h]
  simp only [and_self]

@[simp] theorem Dev.finish_frame (d : Dev) (r : CmdRef) (st res : Nat) :
    (d.finish r st res).boot = d.boot ∧ (d.finish r st res).sni = d.sni ∧ (d.finish r st res).teu = d.teu ∧
    (d.finish r st res).rfe = d.rfe ∧ (d.finish r st res).cbe = d.cbe ∧ (d.finish r st res).spk = d.spk ∧
    (d.finish r st res).stu = d.stu ∧ (d.finish r st res).codec = d.codec ∧ (d.finish r st res).lse = d.lse ∧
    (d.finish r st res).recd = d.recd ∧ (d.finish r st res).ntu = d.ntu ∧ (d.finish r st res).tw = d.tw ∧
    (d.finish r st res).sco = d.sco ∧ (d.finish r st res).hub = d.hub ∧ (d.finish r st res).pwr = d.pwr ∧
    (d.finish r st res).eng = d.eng ∧ (d.finish r st res).oms = d.oms ∧ (d.finish r st res).dbg = d.dbg ∧
    (d.finish r st res).mem = d.mem ∧ (d.finish r st res).regs = d.regs ∧ (d.finish r st res).ctrs = d.ctrs ∧
    (d.finish r st res).free = d.free ∧ (d.finish r st res).hostRead = d.hostRead ∧
    (d.finish r st res).hif.neg = d.hif.neg ∧ (d.finish r st res).hif.reason = d.hif.reason ∧
    (d.finish r st res).hif.badBit = d.hif.badBit ∧ (d.finish r st res).hif.sampled = d.hif.sampled ∧
    (d.finish r st res).hif.features = d.hif.features ∧ (d.finish r st res).hif.ready = d.hif.ready ∧
    (d.finish r st res).hif.recovery = d.hif.recovery ∧ (d.finish r st res).hif.cfgErr = d.hif.cfgErr ∧
    (d.finish r st res).hif.fetchNum = d.hif.fetchNum ∧ (d.finish r st res).hif.rrQueue = d.hif.rrQueue ∧
    (d.finish r st res).hif.rrTaken = d.hif.rrTaken ∧ (d.finish r st res).hif.marks = d.hif.marks ∧
    (d.finish r st res).hif.rings = d.hif.rings ∧ (d.finish r st res).hif.locks = d.hif.locks ∧
    (d.finish r st res).hif.tol = d.hif.tol ∧ (d.finish r st res).hif.modeChange = d.hif.modeChange :=
  (Dev.finish_same d r st res).fields

@[simp] theorem Dev.signal_frame (d : Dev) (v : Nat) :
    (d.signal v).boot = d.boot ∧ (d.signal v).sni = d.sni ∧ (d.signal v).teu = d.teu ∧ (d.signal v).rfe = d.rfe ∧
    (d.signal v).cbe = d.cbe ∧ (d.signal v).spk = d.spk ∧ (d.signal v).stu = d.stu ∧ (d.signal v).codec = d.codec ∧
    (d.signal v).lse = d.lse ∧ (d.signal v).recd = d.recd ∧ (d.signal v).ntu = d.ntu ∧ (d.signal v).tw = d.tw ∧
    (d.signal v).sco = d.sco ∧ (d.signal v).hub = d.hub ∧ (d.signal v).pwr = d.pwr ∧ (d.signal v).eng = d.eng ∧
    (d.signal v).oms = d.oms ∧ (d.signal v).dbg = d.dbg ∧ (d.signal v).mem = d.mem ∧ (d.signal v).regs = d.regs ∧
    (d.signal v).ctrs = d.ctrs ∧ (d.signal v).free = d.free ∧ (d.signal v).hostRead = d.hostRead ∧
    (d.signal v).hif.neg = d.hif.neg ∧ (d.signal v).hif.reason = d.hif.reason ∧
    (d.signal v).hif.badBit = d.hif.badBit ∧ (d.signal v).hif.sampled = d.hif.sampled ∧
    (d.signal v).hif.features = d.hif.features ∧ (d.signal v).hif.ready = d.hif.ready ∧
    (d.signal v).hif.recovery = d.hif.recovery ∧ (d.signal v).hif.cfgErr = d.hif.cfgErr ∧
    (d.signal v).hif.fetchNum = d.hif.fetchNum ∧ (d.signal v).hif.rrQueue = d.hif.rrQueue ∧
    (d.signal v).hif.rrTaken = d.hif.rrTaken ∧ (d.signal v).hif.marks = d.hif.marks ∧
    (d.signal v).hif.rings = d.hif.rings ∧ (d.signal v).hif.locks = d.hif.locks ∧ (d.signal v).hif.tol = d.hif.tol ∧
    (d.signal v).hif.modeChange = d.hif.modeChange :=
  (Dev.signal_same d v).fields

/-! ## The completion itself -/

/-- While no queue operation waits, completing settles nothing more. -/
theorem Dev.settleQueueOps_nil {d : Dev} (h : d.hif.queueOps = []) : d.settleQueueOps = d := by
  unfold Dev.settleQueueOps
  simp only [h, List.filter_nil, List.foldl_nil]
  rw [← h]

theorem Dev.signal_queueOps (d : Dev) (v : Nat) : (d.signal v).hif.queueOps = d.hif.queueOps := by
  unfold Dev.signal
  simp only []
  split <;> rfl

theorem Dev.postCompletion_queueOps (d : Dev) (q cid st res : Nat) :
    (d.postCompletion q cid st res).hif.queueOps = d.hif.queueOps := by
  unfold Dev.postCompletion
  simp only []
  split
  · rfl
  · split
    · rw [Dev.signal_queueOps]; rfl
    · rfl

theorem Dev.dropCmd_cmd (d : Dev) (r : CmdRef) : (d.dropCmd r).cmd? r = none := by
  unfold Dev.dropCmd Dev.cmd?
  rw [List.find?_eq_none]
  intro c hc
  have := (List.mem_filter.mp hc).2
  intro h
  simp_all

@[simp] theorem Dev.signal_cmd (d : Dev) (v : Nat) (r : CmdRef) : (d.signal v).cmd? r = d.cmd? r := by
  unfold Dev.signal
  simp only []
  split <;> rfl

@[simp] theorem Dev.setQp_cmd (d : Dev) (q : Nat) (p : QP) (r : CmdRef) : (d.setQp q p).cmd? r = d.cmd? r := rfl
@[simp] theorem Dev.emit_cmd (d : Dev) (o : Out) (r : CmdRef) : (d.emit o).cmd? r = d.cmd? r := rfl

@[simp] theorem Dev.postCompletion_cmd (d : Dev) (q cid st res : Nat) (r : CmdRef) :
    (d.postCompletion q cid st res).cmd? r = d.cmd? r := by
  unfold Dev.postCompletion
  simp only []
  split
  · rfl
  · split <;> simp

/-- What has left stays left. -/
theorem Dev.signal_out {d : Dev} {v : Nat} {o : Out} (h : o ∈ d.out) : o ∈ (d.signal v).out := by
  unfold Dev.signal
  simp only []
  split
  · exact h
  · exact List.mem_append_left _ h

/-- The completion entry of a live queue whose completions are not lost (R76, Table 3-24). -/
theorem Dev.postCompletion_out {d : Dev} {q cid st res : Nat} (hl : (d.qp q).live = true)
    (hf : (d.qp q).cqLost = false) :
    Out.completion q (d.qp q).cqTail res (d.qp q).head cid (d.qp q).phase st ∈ (d.postCompletion q cid st res).out := by
  unfold Dev.postCompletion
  simp only [hl, hf, Bool.not_true, Bool.or_false, Bool.false_eq_true, if_false]
  split
  · exact Dev.signal_out (List.mem_append_right _ (List.mem_singleton.mpr rfl))
  · exact List.mem_append_right _ (List.mem_singleton.mpr rfl)

/-- A command that has a context completes: its completion is in its place and its context is gone (R76, R94). -/
theorem Dev.finish_answered {d : Dev} {r : CmdRef} {c : Cmd} (st res : Nat) (hc : d.cmd? r = some c)
    (hf : c.fail = none) (hl : (d.qp r.qid).live = true) (hn : (d.qp r.qid).cqLost = false)
    (ho : d.hif.queueOps = []) : Answered d (d.finish r st res) r st res := by
  have hd : (d.complete r st res).hif.queueOps = [] := by
    unfold Dev.complete
    simp only [hc]
    rw [Dev.postCompletion_queueOps]
    simp [Dev.dropWait, Dev.dropCmd, ho]
  unfold Dev.finish
  rw [Dev.settleQueueOps_nil hd]
  unfold Dev.complete
  simp only [hc, hf, Option.getD_none]
  refine ⟨?_, ?_⟩
  · exact Dev.postCompletion_out (d := (d.dropCmd r).dropWait r _) hl hn
  · rw [Dev.postCompletion_cmd]
    exact Dev.dropCmd_cmd d r

/-- Beginning a command keeps its context, marked begun. -/
theorem Dev.begin_cmd {d : Dev} {r : CmdRef} {c : Cmd} (hc : d.cmd? r = some c) :
    (d.begin r).cmd? r = some { c with begun := true } := by
  unfold Dev.cmd? at *
  unfold Dev.begin
  simp only []
  generalize d.hif.cmds = l at hc
  induction l with
  | nil => simp at hc
  | cons a t ih =>
    by_cases ha : (a.qid == r.qid && a.cid == r.cid) = true
    · simp only [List.find?_cons, ha] at hc
      simp only [updFirst, ha, if_true, List.find?_cons]
      simp only [Option.some.injEq] at hc
      rw [hc]
    · simp only [List.find?_cons, ha] at hc
      simp only [updFirst, ha, Bool.false_eq_true, if_false, List.find?_cons]
      exact ih hc

/-! ## The form of every meaning -/

/-- A change of mode that does not wait needs no settling. -/
theorem Dev.settleMode_none {d : Dev} (h : d.hif.modeChange = none) : d.settleMode = d := by
  unfold Dev.settleMode
  rw [h]

theorem lift_next (f : Dev → Dev) (s : State) :
    lift f s = .next { s with dev := if s.dev.on then (f s.dev).settleMode else s.dev } := rfl

/-- While the part operates and no change of mode waits afterwards, a meaning is its effect. -/
theorem lift_on {f : Dev → Dev} {s : State} (h : s.dev.on = true) (hm : (f s.dev).hif.modeChange = none) :
    lift f s = .next { s with dev := f s.dev } := by
  rw [lift_next, if_pos h, Dev.settleMode_none hm]

/-- Otherwise nothing happens (log entry 2). -/
theorem lift_off {f : Dev → Dev} {s : State} (h : s.dev.on = false) : lift f s = .next s := by
  rw [lift_next, h]
  rfl

/-- What it is for a command to be clear. -/
theorem Dev.clear_iff {d : Dev} {sp : CmdSpec} {r : CmdRef} {c : Cmd} : d.clear sp r c = true ↔
    d.on = true ∧ d.hif.modeChange = none ∧ d.hif.queueOps = [] ∧ d.ready? sp r = some c ∧ sp.verdict d c = none
      ∧ c.fail = none ∧ (d.qp r.qid).live = true ∧ (d.qp r.qid).cqLost = false := by
  simp [Dev.clear, Option.isNone_iff_eq_none, and_assoc]

theorem Dev.ready_cmd {d : Dev} {sp : CmdSpec} {r : CmdRef} {c : Cmd} (h : d.ready? sp r = some c) :
    d.cmd? r = some c := by
  unfold Dev.ready? at h
  split at h
  · exact absurd h (by simp)
  · rename_i k hk
    split at h
    · rw [hk]; exact h
    · exact absurd h (by simp)

/-- A clear command has its effect. -/
theorem runCmd_clear {sp : CmdSpec} {r : CmdRef} {c : Cmd} {d : Dev} (eff : Cmd → Dev → Dev)
    (h : d.clear sp r c = true) : runCmd sp r eff d = eff c d := by
  obtain ⟨-, -, -, hr, hv, -⟩ := Dev.clear_iff.mp h
  unfold runCmd
  simp only [hr, hv]

/-- A clear command whose block in memory has no offending byte has its effect. -/
theorem runBlk_clear {sp : CmdSpec} {addr : Nat} {offs : Dev → Cmd → List Nat} {r : CmdRef} {c : Cmd} {d : Dev}
    (eff : Cmd → Dev → Dev) (h : d.clear sp r c = true) (ho : offs d c = []) :
    runBlk sp addr offs r eff d = eff c d := by
  unfold runBlk
  rw [runCmd_clear _ h, ho]
  rfl

/-- A clear command completes as it finishes on the block as it was but for state outside the host interface. -/
theorem Dev.clear_answered {d e : Dev} {sp : CmdSpec} {r : CmdRef} {c : Cmd} (st res : Nat)
    (h : d.clear sp r c = true) (hh : e.hif = d.hif) : Answered d (e.finish r st res) r st res := by
  obtain ⟨-, -, ho, hr, -, hf, hl, hn⟩ := Dev.clear_iff.mp h
  have hq : e.qp r.qid = d.qp r.qid := by unfold Dev.qp; rw [hh]
  have hc : e.cmd? r = some c := by unfold Dev.cmd?; rw [hh]; exact Dev.ready_cmd hr
  have := Dev.finish_answered (d := e) st res hc hf (by rw [hq]; exact hl) (by rw [hq]; exact hn) (by rw [hh]; exact ho)
  unfold Answered at *
  rwa [hq] at this

theorem Dev.clear_mode {d : Dev} {sp : CmdSpec} {r : CmdRef} {c : Cmd} (h : d.clear sp r c = true) :
    d.hif.modeChange = none := (Dev.clear_iff.mp h).2.1

theorem Dev.clear_on {d : Dev} {sp : CmdSpec} {r : CmdRef} {c : Cmd} (h : d.clear sp r c = true) :
    d.on = true := (Dev.clear_iff.mp h).1

theorem Dev.clear_cmd {d : Dev} {sp : CmdSpec} {r : CmdRef} {c : Cmd} (h : d.clear sp r c = true) :
    d.cmd? r = some c := Dev.ready_cmd (Dev.clear_iff.mp h).2.2.2.1

end Sys2Proof.Machine
end

