-- ==== Sys2Proof/Laws/Frame.lean ====
section
/-! SUPPORT. Frames of the shared operations, and how frames compose. -/

namespace Sys2Proof.Machine

open Sys2Proof

theorem Part.same_refl (d : Dev) (p : Part) : Part.same d d p := by
  cases p <;> simp [Part.same]

theorem Part.same_trans {d e f : Dev} {p : Part} (h : Part.same d e p) (k : Part.same e f p) : Part.same d f p := by
  cases p <;> simp_all [Part.same]

theorem Keeps.refl (b : List Part) (d : Dev) : Keeps b d d := fun p _ => Part.same_refl d p

theorem Keeps.trans {b : List Part} {d e f : Dev} (h : Keeps b d e) (k : Keeps b e f) : Keeps b d f :=
  fun p hp => Part.same_trans (h p hp) (k p hp)

theorem Keeps.mono {a b : List Part} {d e : Dev} (h : Keeps a d e) (hab : a ⊆ b) : Keeps b d e :=
  fun p hp => h p fun ha => hp (hab ha)

theorem Keeps.foldl {α : Type} {b : List Part} (f : Dev → α → Dev) (h : ∀ d a, Keeps b d (f d a)) (l : List α)
    (d : Dev) : Keeps b d (l.foldl f d) := by
  induction l generalizing d with
  | nil => exact Keeps.refl b d
  | cons a t ih => exact (h d a).trans (ih _)

/-- A record update that leaves the other parts alone. -/
theorem Dev.DoneSame.keeps {d e : Dev} (h : d.DoneSame e) : Keeps byDone d e := by
  intro p hp
  have f := h.fields
  cases p <;> simp_all [byDone, Part.same]

theorem Dev.finish_keeps (d : Dev) (r : CmdRef) (st res : Nat) : Keeps byDone d (d.finish r st res) :=
  (Dev.finish_same d r st res).keeps

theorem Dev.finishAll_keeps (d : Dev) (rs : List CmdRef) (st res : Nat) : Keeps byDone d (d.finishAll rs st res) :=
  (Dev.finishAll_same d rs st res).keeps

theorem Dev.signal_keeps (d : Dev) (v : Nat) : Keeps [.msix, .out] d (d.signal v) := by
  intro p hp
  unfold Dev.signal
  simp only []
  split <;> cases p <;> simp_all [Part.same, Dev.emit]

theorem Dev.emit_keeps (d : Dev) (o : Out) : Keeps [.out] d (d.emit o) := by
  intro p hp
  cases p <;> simp_all [Part.same, Dev.emit]

theorem Dev.setRing_keeps (d : Dev) (n : Nat) (r : Ring) : Keeps [.rings] d (d.setRing n r) := by
  intro p hp
  cases p <;> simp_all [Part.same, Dev.setRing]

theorem Dev.count_keeps (d : Dev) (o n : Nat) : Keeps [.ctrs] d (d.count o n) := by
  intro p hp
  cases p <;> simp_all [Part.same, Dev.count]

theorem Dev.setReg_keeps (d : Dev) (o n : Nat) : Keeps [.regs] d (d.setReg o n) := by
  intro p hp
  cases p <;> simp_all [Part.same, Dev.setReg]

theorem Dev.draw_keeps (d : Dev) : Keeps [] d d.draw.2 := by
  intro p hp
  cases p <;> simp [Part.same, Dev.draw]

theorem Dev.rereadHead_keeps (d : Dev) (n : Nat) : Keeps byPost d (d.rereadHead n) := by
  unfold Dev.rereadHead
  simp only []
  split <;> exact ((Dev.draw_keeps d).mono (by simp)).trans ((Dev.setRing_keeps _ _ _).mono (by simp [byPost]))

theorem Dev.dropRecord_keeps (d : Dev) (n : Nat) : Keeps byPost d (d.dropRecord n) :=
  (Dev.setRing_keeps _ _ _).mono (by simp [byPost])

theorem Dev.putRecord_keeps (d : Dev) (n : Nat) (rc : Rec) : Keeps byPost d (d.putRecord n rc) := by
  have e : ∀ (d : Dev) o, Keeps byPost d (d.emit o) := fun d o => (Dev.emit_keeps d o).mono (by simp [byPost])
  have r : ∀ (d : Dev) n o, Keeps byPost d (d.setRing n o) := fun d n o => (Dev.setRing_keeps d n o).mono (by simp [byPost])
  have g : ∀ (d : Dev) n, Keeps byPost d (d.signal n) := fun d n => (Dev.signal_keeps d n).mono (by simp [byPost])
  unfold Dev.putRecord
  simp only []
  split <;> split
  · exact ((e _ _).trans (r _ _ _)).trans (g _ _)
  · exact (e _ _).trans (r _ _ _)
  · exact (((e _ _).trans (e _ _)).trans (r _ _ _)).trans (g _ _)
  · exact ((e _ _).trans (e _ _)).trans (r _ _ _)

theorem Dev.appendLog_keeps (d : Dev) (sev code frame page inst : Nat) (tag : Option Nat) (a b : Nat) :
    Keeps byPost d (d.appendLog sev code frame page inst tag a b).1 := by
  intro p hp
  cases p <;> simp_all [Part.same, Dev.appendLog, byPost, omsRest]

theorem Dev.logEntry_keeps (d : Dev) (sev code frame page inst : Nat) (tag : Option Nat) (a b : Nat) :
    Keeps byPost d (d.logEntry sev code frame page inst tag a b).1 := by
  unfold Dev.logEntry
  split
  · refine Keeps.trans (e := { d with oms := { d.oms with suppressed := d.oms.suppressed + 1 } }) ?_
      ((Dev.count_keeps _ _ _).mono (by simp [byPost]))
    intro p hp
    cases p <;> simp_all [Part.same, byPost, omsRest]
  · exact Dev.appendLog_keeps _ _ _ _ _ _ _ _ _

theorem Dev.postLog_keeps (d : Dev) (e : LogEntry) : Keeps byPost d (d.postLog e) := by
  unfold Dev.postLog
  split
  · exact Keeps.refl _ _
  · split
    · exact Dev.putRecord_keeps _ _ _
    · split
      · exact Dev.dropRecord_keeps _ _
      · simp only []
        split
        · exact (Dev.rereadHead_keeps _ _).trans (Dev.putRecord_keeps _ _ _)
        · split
          · split
            · exact (((Dev.rereadHead_keeps _ _).trans (Dev.logEntry_keeps _ _ _ _ _ _ _ _ _)).trans
                (Dev.dropRecord_keeps _ _)).trans (Dev.dropRecord_keeps _ _)
            · exact ((Dev.rereadHead_keeps _ _).trans (Dev.logEntry_keeps _ _ _ _ _ _ _ _ _)).trans
                (Dev.dropRecord_keeps _ _)
          · exact (Dev.rereadHead_keeps _ _).trans (Dev.dropRecord_keeps _ _)

/-- A log entry touches the log and what posting its record touches. -/
theorem Dev.log_keeps (d : Dev) (sev code a b page inst frame : Nat) (tag : Option Nat) :
    Keeps byPost d (d.log sev code a b page inst frame tag) := by
  unfold Dev.log
  simp only []
  split
  · exact Dev.logEntry_keeps _ _ _ _ _ _ _ _ _
  · exact (Dev.logEntry_keeps _ _ _ _ _ _ _ _ _).trans (Dev.postLog_keeps _ _)

theorem Dev.dmaFault_keeps (d : Dev) (n access err addr : Nat) : Keeps byPost d (d.dmaFault n access err addr) := by
  unfold Dev.dmaFault
  simp only []
  split
  · exact Dev.log_keeps _ _ _ _ _ _ _ _ _
  · exact ((Dev.emit_keeps d _).mono (by simp [byPost])).trans (Dev.log_keeps _ _ _ _ _ _ _ _ _)

theorem Dev.toRing_keeps (d : Dev) (n : Nat) (rc : Rec) : Keeps byPost d (d.toRing n rc) := by
  unfold Dev.toRing
  split
  · exact Dev.putRecord_keeps _ _ _
  · split
    · exact Dev.dropRecord_keeps _ _
    · simp only []
      split
      · exact (Dev.rereadHead_keeps _ _).trans (Dev.putRecord_keeps _ _ _)
      · split
        · exact ((Dev.rereadHead_keeps _ _).trans (Dev.dropRecord_keeps _ _)).trans (Dev.dmaFault_keeps _ _ _ _ _)
        · exact (Dev.rereadHead_keeps _ _).trans (Dev.dropRecord_keeps _ _)

/-- Posting a record touches its ring, its vector, what leaves, and the log where HEAD is a doorbell fault. -/
theorem Dev.post_keeps (d : Dev) (type slots frame page inst : Nat) (body : List Fld) (time : Nat) :
    Keeps byPost d (d.post type slots frame page inst body time) := by
  unfold Dev.post
  split
  · exact Keeps.refl _ _
  · exact Dev.toRing_keeps _ _ _

/-! ## Every meaning -/

/-- What the settling of a change of mode may touch. -/
def byMode : List Part := [.link, .fetch, .msix, .out]

theorem Dev.settleMode_keeps (d : Dev) : Keeps byMode d d.settleMode := by
  unfold Dev.settleMode
  split
  · exact Keeps.refl _ _
  · split
    · refine Keeps.trans (e := { d with hif := { d.hif with modeChange := none } }) ?_
        ((Dev.finish_keeps _ _ _ _).mono (by simp [byDone, byMode]))
      intro p hp
      cases p <;> simp_all [Part.same, byMode]
    · exact Keeps.refl _ _

/-- While the part operates a meaning goes on; beyond its own effect only a change of mode settles. -/
theorem lift_keeps {f : Dev → Dev} {s : State} (h : s.dev.on = true) :
    ∃ t, lift f s = .next t ∧ t.pending = s.pending ∧ Keeps byMode (f s.dev) t.dev := by
  rw [lift_next, if_pos h]
  exact ⟨_, rfl, rfl, Dev.settleMode_keeps _⟩

/-- While it operates and no change of mode waits, an event that leaves it so has its effect and no other. -/
theorem lift_idle {f : Dev → Dev} {s : State} (h : s.dev.idleMode = true)
    (hf : (f s.dev).hif.modeChange = s.dev.hif.modeChange) : lift f s = .next { s with dev := f s.dev } := by
  simp only [Dev.idleMode, Bool.and_eq_true, Option.isNone_iff_eq_none] at h
  exact lift_on h.1 (hf.trans h.2)

/-- A command that is clear and whose effect leaves the mode alone. -/
theorem lift_clear {sp : CmdSpec} {r : CmdRef} {c : Cmd} {s : State} {eff : Cmd → Dev → Dev}
    (h : s.dev.clear sp r c = true) (hf : (eff c s.dev).hif.modeChange = s.dev.hif.modeChange) :
    lift (runCmd sp r eff) s = .next { s with dev := eff c s.dev } := by
  have := lift_on (f := runCmd sp r eff) (s := s) (Dev.clear_on h)
    (by rw [runCmd_clear _ h, hf]; exact Dev.clear_mode h)
  rwa [runCmd_clear _ h] at this

theorem lift_clear_blk {sp : CmdSpec} {addr : Nat} {offs : Dev → Cmd → List Nat} {r : CmdRef} {c : Cmd} {s : State}
    {eff : Cmd → Dev → Dev} (h : s.dev.clear sp r c = true) (ho : offs s.dev c = [])
    (hf : (eff c s.dev).hif.modeChange = s.dev.hif.modeChange) :
    lift (runBlk sp addr offs r eff) s = .next { s with dev := eff c s.dev } := by
  have := lift_on (f := runBlk sp addr offs r eff) (s := s) (Dev.clear_on h)
    (by rw [runBlk_clear _ h ho, hf]; exact Dev.clear_mode h)
  rwa [runBlk_clear _ h ho] at this

/-- The checks that a clear command passes. -/
theorem CmdSpec.verdict_none {sp : CmdSpec} {d : Dev} {c : Cmd} (h : sp.verdict d c = none) :
    sp.feat d c = true ∧ sp.handle d c = true ∧ sp.offs d c = [] := by
  unfold CmdSpec.verdict at h
  split at h
  · exact absurd h (by simp)
  · split at h
    · exact absurd h (by simp)
    · rename_i hf hh
      refine ⟨by simpa using hf, by simpa using hh, ?_⟩
      rw [Option.map_eq_none_iff] at h
      generalize sp.offs d c = l at h
      cases l with
      | nil => rfl
      | cons a t =>
        exfalso
        simp only [minOff] at h
        split at h
        · exact absurd h (by simp)
        · split at h <;> exact absurd h (by simp)

theorem Dev.clear_offs {d : Dev} {sp : CmdSpec} {r : CmdRef} {c : Cmd} (h : d.clear sp r c = true) :
    sp.feat d c = true ∧ sp.handle d c = true ∧ sp.offs d c = [] :=
  CmdSpec.verdict_none (Dev.clear_iff.mp h).2.2.2.2.1

/-- The entry that a row names carries the row's names. -/
theorem Dev.cmd_ids {d : Dev} {r : CmdRef} {c : Cmd} (h : d.cmd? r = some c) : c.qid = r.qid ∧ c.cid = r.cid := by
  have := List.find?_some h
  simpa using this

/-- Another queue pair than the one that completes is as it was. -/
theorem Dev.finish_qp_ne {d : Dev} {r : CmdRef} {q : Nat} (st res : Nat) (hq : q ≠ r.qid)
    (ho : d.hif.queueOps = []) : (d.finish r st res).qp q = d.qp q := by
  have hc : ∀ (e : Dev) (x : Nat) (p : QP), q ≠ x → (e.setQp x p).qp q = e.qp q := fun e x p h => by
    simp [Dev.qp, Dev.setQp, SMap.get_put_ne _ _ _ h]
  have hs : ∀ (e : Dev) (v : Nat), (e.signal v).qp q = e.qp q := fun e v => by
    unfold Dev.signal; simp only []; split <;> rfl
  have hp : ∀ (e : Dev) cid a b, (e.postCompletion r.qid cid a b).qp q = e.qp q := fun e cid a b => by
    unfold Dev.postCompletion
    simp only []
    split
    · rfl
    · split
      · rw [hs, hc _ _ _ hq]; rfl
      · rw [hc _ _ _ hq]; rfl
  unfold Dev.finish
  unfold Dev.complete
  split
  · rw [Dev.settleQueueOps_nil ho]
  · simp only []
    rw [Dev.settleQueueOps_nil, hp]
    · rfl
    · rw [Dev.postCompletion_queueOps]
      simp [Dev.dropWait, Dev.dropCmd, ho]

end Sys2Proof.Machine
end

