-- ==== Sys2Proof/Laws/Form.lean ====
section
/-! SUPPORT. The form of every meaning: an effect on the block while it operates (but for power and RESET_N). -/

namespace Sys2Proof.Machine

open Sys2Proof

/-- Every command but the three of power and RESET_N is an effect on the block that takes place while it operates. -/
theorem exec_lifts (i : Instr) (h1 : ∀ st, i ≠ .coldReset st) (h2 : ∀ st, i ≠ .resetNRise st)
    (h3 : i ≠ .pwrGoodFall) : ∃ f, ∀ s, exec i s = lift f s := by
  cases i with
  | coldReset _st => exact absurd rfl (h1 _)
  | pwrGoodFall => exact absurd rfl h3
  | warmReset lowNs => exact ⟨_, fun s => by rw [exec, execWarmReset]⟩
  | resetNRise _st => exact absurd rfl (h2 _)
  | referenceDetection ref => exact ⟨_, fun s => by rw [exec, execReferenceDetection]⟩
  | romBoot => exact ⟨_, fun s => by rw [exec, execRomBoot]⟩
  | freewheelEntry bt => exact ⟨_, fun s => by rw [exec, execFreewheelEntry]⟩
  | functionReset kind => exact ⟨_, fun s => by rw [exec, execFunctionReset]⟩
  | perstNDeassert => exact ⟨_, fun s => by rw [exec, execPerstNDeassert]⟩
  | omsOnlyReset => exact ⟨_, fun s => by rw [exec, execOmsOnlyReset]⟩
  | watchdogExpiry => exact ⟨_, fun s => by rw [exec, execWatchdogExpiry]⟩
  | trialTimerExpiry => exact ⟨_, fun s => by rw [exec, execTrialTimerExpiry]⟩
  | commandFetch qid entry => exact ⟨_, fun s => by rw [exec, execCommandFetch]⟩
  | kick qid slot => exact ⟨_, fun s => by rw [exec, execKick]⟩
  | doorbellPoll qid slot => exact ⟨_, fun s => by rw [exec, execDoorbellPoll]⟩
  | watchClear qid slot => exact ⟨_, fun s => by rw [exec, execWatchClear]⟩
  | coalesceTimeout ring n => exact ⟨_, fun s => by rw [exec, execCoalesceTimeout]⟩
  | dmaErrorResponse acc ans addr => exact ⟨_, fun s => by rw [exec, execDmaErrorResponse]⟩
  | dmaCompletionTimeout acc addr => exact ⟨_, fun s => by rw [exec, execDmaCompletionTimeout]⟩
  | registerWrite off v => exact ⟨_, fun s => by rw [exec, execRegisterWrite]⟩
  | bar0BadAccess off size => exact ⟨_, fun s => by rw [exec, execBar0BadAccess]⟩
  | readWithClear off => exact ⟨_, fun s => by rw [exec, execReadWithClear]⟩
  | commit => exact ⟨_, fun s => by rw [exec, execCommit]⟩
  | hifCtlEnable v => exact ⟨_, fun s => by rw [exec, execHifCtlEnable]⟩
  | mclkEnable k v => exact ⟨_, fun s => by rw [exec, execMclkEnable]⟩
  | mclkDisable k v => exact ⟨_, fun s => by rw [exec, execMclkDisable]⟩
  | mclkFreqWrite k v => exact ⟨_, fun s => by rw [exec, execMclkFreqWrite]⟩
  | portEnSet v => exact ⟨_, fun s => by rw [exec, execPortEnSet]⟩
  | portEnClear v => exact ⟨_, fun s => by rw [exec, execPortEnClear]⟩
  | createQp r => exact ⟨_, fun s => by rw [exec, execCreateQp]⟩
  | deleteQp r => exact ⟨_, fun s => by rw [exec, execDeleteQp]⟩
  | resetQp r slot unfetched => exact ⟨_, fun s => by rw [exec, execResetQp]⟩
  | createRing r => exact ⟨_, fun s => by rw [exec, execCreateRing]⟩
  | deleteRing r => exact ⟨_, fun s => by rw [exec, execDeleteRing]⟩
  | abort r unfetched => exact ⟨_, fun s => by rw [exec, execAbort]⟩
  | semAcquire r => exact ⟨_, fun s => by rw [exec, execSemAcquire]⟩
  | semRelease r => exact ⟨_, fun s => by rw [exec, execSemRelease]⟩
  | setLatency r => exact ⟨_, fun s => by rw [exec, execSetLatency]⟩
  | setMode r => exact ⟨_, fun s => by rw [exec, execSetMode]⟩
  | startPort r => exact ⟨_, fun s => by rw [exec, execStartPort]⟩
  | stopPort r => exact ⟨_, fun s => by rw [exec, execStopPort]⟩
  | submitProgram r list => exact ⟨_, fun s => by rw [exec, execSubmitProgram]⟩
  | mpFrame r => exact ⟨_, fun s => by rw [exec, execMpFrame]⟩
  | laneLockAcquired p lane => exact ⟨_, fun s => by rw [exec, execLaneLockAcquired]⟩
  | laneLockLost p lane => exact ⟨_, fun s => by rw [exec, execLaneLockLost]⟩
  | boundaryFifoOverrun u => exact ⟨_, fun s => by rw [exec, execBoundaryFifoOverrun]⟩
  | frameStart p code copies => exact ⟨_, fun s => by rw [exec, execFrameStart]⟩
  | gangSkewTimeout p => exact ⟨_, fun s => by rw [exec, execGangSkewTimeout]⟩
  | lineReceived p line => exact ⟨_, fun s => by rw [exec, execLineReceived]⟩
  | frameEnd x => exact ⟨_, fun s => by rw [exec, execFrameEnd]⟩
  | frameTimeout p => exact ⟨_, fun s => by rw [exec, execFrameTimeout]⟩
  | exposureTrigger p => exact ⟨_, fun s => by rw [exec, execExposureTrigger]⟩
  | latchWindowOpen p target => exact ⟨_, fun s => by rw [exec, execLatchWindowOpen]⟩
  | latestIssueStart p target => exact ⟨_, fun s => by rw [exec, execLatestIssueStart]⟩
  | evInputEdge pin rising stableNs => exact ⟨_, fun s => by rw [exec, execEvInputEdge]⟩
  | scheduledPulseStart r => exact ⟨_, fun s => by rw [exec, execScheduledPulseStart]⟩
  | scheduledPulseEnd r => exact ⟨_, fun s => by rw [exec, execScheduledPulseEnd]⟩
  | routeAt r => exact ⟨_, fun s => by rw [exec, execRouteAt]⟩
  | pinEnable r => exact ⟨_, fun s => by rw [exec, execPinEnable]⟩
  | pinDisable r => exact ⟨_, fun s => by rw [exec, execPinDisable]⟩
  | setRoute r => exact ⟨_, fun s => by rw [exec, execSetRoute]⟩
  | scheduleEdge r => exact ⟨_, fun s => by rw [exec, execScheduleEdge]⟩
  | spokeToken spoke => exact ⟨_, fun s => by rw [exec, execSpokeToken]⟩
  | cbeToken spoke => exact ⟨_, fun s => by rw [exec, execCbeToken]⟩
  | stuRowProcessed src => exact ⟨_, fun s => by rw [exec, execStuRowProcessed]⟩
  | rfeSetParams r blk => exact ⟨_, fun s => by rw [exec, execRfeSetParams]⟩
  | rfeLoadTable r tbl => exact ⟨_, fun s => by rw [exec, execRfeLoadTable]⟩
  | cbeLoadCfa r blk => exact ⟨_, fun s => by rw [exec, execCbeLoadCfa]⟩
  | cbeLoadBank r blk => exact ⟨_, fun s => by rw [exec, execCbeLoadBank]⟩
  | cbeSetColour r blk => exact ⟨_, fun s => by rw [exec, execCbeSetColour]⟩
  | cbeLoadLut3d r blk => exact ⟨_, fun s => by rw [exec, execCbeLoadLut3d]⟩
  | cbeReadBank r => exact ⟨_, fun s => by rw [exec, execCbeReadBank]⟩
  | spkStart r => exact ⟨_, fun s => by rw [exec, execSpkStart]⟩
  | spkStop r => exact ⟨_, fun s => by rw [exec, execSpkStop]⟩
  | spkRestart r blk => exact ⟨_, fun s => by rw [exec, execSpkRestart]⟩
  | spkSetPath r blk => exact ⟨_, fun s => by rw [exec, execSpkSetPath]⟩
  | spkLoadLut r blk => exact ⟨_, fun s => by rw [exec, execSpkLoadLut]⟩
  | spkBuffer r => exact ⟨_, fun s => by rw [exec, execSpkBuffer]⟩
  | spkSubmitFrame r => exact ⟨_, fun s => by rw [exec, execSpkSubmitFrame]⟩
  | spkFrameStart n => exact ⟨_, fun s => by rw [exec, execSpkFrameStart]⟩
  | patternFrameTick n => exact ⟨_, fun s => by rw [exec, execPatternFrameTick]⟩
  | spkToken n accepted outrun => exact ⟨_, fun s => by rw [exec, execSpkToken]⟩
  | hubSetPort r => exact ⟨_, fun s => by rw [exec, execHubSetPort]⟩
  | stuUnitStart r => exact ⟨_, fun s => by rw [exec, execStuUnitStart]⟩
  | stuUnitStop r => exact ⟨_, fun s => by rw [exec, execStuUnitStop]⟩
  | stuBuffer r => exact ⟨_, fun s => by rw [exec, execStuBuffer]⟩
  | encOpen r blk => exact ⟨_, fun s => by rw [exec, execEncOpen]⟩
  | encClose r => exact ⟨_, fun s => by rw [exec, execEncClose]⟩
  | encPicture r headerBits => exact ⟨_, fun s => by rw [exec, execEncPicture]⟩
  | encSetRc r blk => exact ⟨_, fun s => by rw [exec, execEncSetRc]⟩
  | encoderFrameArrival handle index => exact ⟨_, fun s => by rw [exec, execEncoderFrameArrival]⟩
  | pxeRowStart handle => exact ⟨_, fun s => by rw [exec, execPxeRowStart]⟩
  | eneRowCommit handle row => exact ⟨_, fun s => by rw [exec, execEneRowCommit]⟩
  | decOpen r blk => exact ⟨_, fun s => by rw [exec, execDecOpen]⟩
  | decClose r => exact ⟨_, fun s => by rw [exec, execDecClose]⟩
  | decDecode r au => exact ⟨_, fun s => by rw [exec, execDecDecode]⟩
  | decOutput r => exact ⟨_, fun s => by rw [exec, execDecOutput]⟩
  | decPictureOutput handle => exact ⟨_, fun s => by rw [exec, execDecPictureOutput]⟩
  | decFlush r => exact ⟨_, fun s => by rw [exec, execDecFlush]⟩
  | lseOpen r => exact ⟨_, fun s => by rw [exec, execLseOpen]⟩
  | lseClose r => exact ⟨_, fun s => by rw [exec, execLseClose]⟩
  | lseBlock r run => exact ⟨_, fun s => by rw [exec, execLseBlock]⟩
  | lseRawOpen r => exact ⟨_, fun s => by rw [exec, execLseRawOpen]⟩
  | lseRawBuffer r => exact ⟨_, fun s => by rw [exec, execLseRawBuffer]⟩
  | lseRawDecode r record => exact ⟨_, fun s => by rw [exec, execLseRawDecode]⟩
  | rawBandStart port lane => exact ⟨_, fun s => by rw [exec, execRawBandStart]⟩
  | rawBandDone lane bytes => exact ⟨_, fun s => by rw [exec, execRawBandDone]⟩
  | volCreate r list => exact ⟨_, fun s => by rw [exec, execVolCreate]⟩
  | volDelete r => exact ⟨_, fun s => by rw [exec, execVolDelete]⟩
  | volClearRecovery r => exact ⟨_, fun s => by rw [exec, execVolClearRecovery]⟩
  | recRead x => exact ⟨_, fun s => by rw [exec, execRecRead]⟩
  | recWrite x => exact ⟨_, fun s => by rw [exec, execRecWrite]⟩
  | recDeallocate r => exact ⟨_, fun s => by rw [exec, execRecDeallocate]⟩
  | driveLog r out => exact ⟨_, fun s => by rw [exec, execDriveLog]⟩
  | driveEject r => exact ⟨_, fun s => by rw [exec, execDriveEject]⟩
  | recEvent r => exact ⟨_, fun s => by rw [exec, execRecEvent]⟩
  | driveCommandCompletion r piece out => exact ⟨_, fun s => by rw [exec, execDriveCommandCompletion]⟩
  | driveCommandTimeout r piece => exact ⟨_, fun s => by rw [exec, execDriveCommandTimeout]⟩
  | driveRemoval slot => exact ⟨_, fun s => by rw [exec, execDriveRemoval]⟩
  | driveInsertion slot => exact ⟨_, fun s => by rw [exec, execDriveInsertion]⟩
  | slotReady slot facts => exact ⟨_, fun s => by rw [exec, execSlotReady]⟩
  | scoStart r => exact ⟨_, fun s => by rw [exec, execScoStart]⟩
  | scoStop r => exact ⟨_, fun s => by rw [exec, execScoStop]⟩
  | scoRestart r blk => exact ⟨_, fun s => by rw [exec, execScoRestart]⟩
  | sdiInStart r => exact ⟨_, fun s => by rw [exec, execSdiInStart]⟩
  | sdiInStop r => exact ⟨_, fun s => by rw [exec, execSdiInStop]⟩
  | dpAux r reply => exact ⟨_, fun s => by rw [exec, execDpAux]⟩
  | rasterReaderBind k => exact ⟨_, fun s => by rw [exec, execRasterReaderBind]⟩
  | rasterLine k badPixel eccCorr => exact ⟨_, fun s => by rw [exec, execRasterLine]⟩
  | frameOut k pins => exact ⟨_, fun s => by rw [exec, execFrameOut]⟩
  | lockSourceLost k => exact ⟨_, fun s => by rw [exec, execLockSourceLost]⟩
  | lockSourceRegained k errLines => exact ⟨_, fun s => by rw [exec, execLockSourceRegained]⟩
  | hpdAssert j sink => exact ⟨_, fun s => by rw [exec, execHpdAssert]⟩
  | hpdDeassert j => exact ⟨_, fun s => by rw [exec, execHpdDeassert]⟩
  | hpdIrq j lockLost sink => exact ⟨_, fun s => by rw [exec, execHpdIrq]⟩
  | sdiInputLock k f => exact ⟨_, fun s => by rw [exec, execSdiInputLock]⟩
  | sdiInputLost x => exact ⟨_, fun s => by rw [exec, execSdiInputLost]⟩
  | sdiInputFrame k f => exact ⟨_, fun s => by rw [exec, execSdiInputFrame]⟩
  | ethUp r => exact ⟨_, fun s => by rw [exec, execEthUp]⟩
  | ethDown r => exact ⟨_, fun s => by rw [exec, execEthDown]⟩
  | ethLinkUp p speed => exact ⟨_, fun s => by rw [exec, execEthLinkUp]⟩
  | speedAlternate p => exact ⟨_, fun s => by rw [exec, execSpeedAlternate]⟩
  | ethLinkDown p => exact ⟨_, fun s => by rw [exec, execEthLinkDown]⟩
  | ntuDomStart r => exact ⟨_, fun s => by rw [exec, execNtuDomStart]⟩
  | ntuDomStop r => exact ⟨_, fun s => by rw [exec, execNtuDomStop]⟩
  | ntuDomRole r => exact ⟨_, fun s => by rw [exec, execNtuDomRole]⟩
  | ntuSetIncr r => exact ⟨_, fun s => by rw [exec, execNtuSetIncr]⟩
  | ntuAdjPhase r => exact ⟨_, fun s => by rw [exec, execNtuAdjPhase]⟩
  | ntuSetTemplate r blk => exact ⟨_, fun s => by rw [exec, execNtuSetTemplate]⟩
  | ntuSelect r => exact ⟨_, fun s => by rw [exec, execNtuSelect]⟩
  | ntuReadTime r => exact ⟨_, fun s => by rw [exec, execNtuReadTime]⟩
  | slewEnd => exact ⟨_, fun s => by rw [exec, execSlewEnd]⟩
  | syncReceived p m => exact ⟨_, fun s => by rw [exec, execSyncReceived]⟩
  | followUpReceived p m => exact ⟨_, fun s => by rw [exec, execFollowUpReceived]⟩
  | delayRespReceived p m => exact ⟨_, fun s => by rw [exec, execDelayRespReceived]⟩
  | delayReqReceived p m => exact ⟨_, fun s => by rw [exec, execDelayReqReceived]⟩
  | ptpMsg p m body => exact ⟨_, fun s => by rw [exec, execPtpMsg]⟩
  | announceSend d => exact ⟨_, fun s => by rw [exec, execAnnounceSend]⟩
  | syncSend d => exact ⟨_, fun s => by rw [exec, execSyncSend]⟩
  | delayReqSend d => exact ⟨_, fun s => by rw [exec, execDelayReqSend]⟩
  | metadataSend d => exact ⟨_, fun s => by rw [exec, execMetadataSend]⟩
  | frameForward p f => exact ⟨_, fun s => by rw [exec, execFrameForward]⟩
  | tcSyncTrackExpiry p srcId seq => exact ⟨_, fun s => by rw [exec, execTcSyncTrackExpiry]⟩
  | arpRequest p ip => exact ⟨_, fun s => by rw [exec, execArpRequest]⟩
  | igmpQuery p => exact ⟨_, fun s => by rw [exec, execIgmpQuery]⟩
  | pelJoin r => exact ⟨_, fun s => by rw [exec, execPelJoin]⟩
  | pelLeave r => exact ⟨_, fun s => by rw [exec, execPelLeave]⟩
  | pelSchedule r body => exact ⟨_, fun s => by rw [exec, execPelSchedule]⟩
  | scheduleReceived p m => exact ⟨_, fun s => by rw [exec, execScheduleReceived]⟩
  | statusReceived p m => exact ⟨_, fun s => by rw [exec, execStatusReceived]⟩
  | scheduleSend => exact ⟨_, fun s => by rw [exec, execScheduleSend]⟩
  | statusSend => exact ⟨_, fun s => by rw [exec, execStatusSend]⟩
  | leaderLost => exact ⟨_, fun s => by rw [exec, execLeaderLost]⟩
  | twEnable r sdaHighAfter => exact ⟨_, fun s => by rw [exec, execTwEnable]⟩
  | twDisable r => exact ⟨_, fun s => by rw [exec, execTwDisable]⟩
  | twXfer r data => exact ⟨_, fun s => by rw [exec, execTwXfer]⟩
  | twTransactionStart c => exact ⟨_, fun s => by rw [exec, execTwTransactionStart]⟩
  | twTransactionEnd c e => exact ⟨_, fun s => by rw [exec, execTwTransactionEnd]⟩
  | arbitrationLoss c byte bit => exact ⟨_, fun s => by rw [exec, execArbitrationLoss]⟩
  | busNack c byte acked => exact ⟨_, fun s => by rw [exec, execBusNack]⟩
  | wakeDelayExpiry c => exact ⟨_, fun s => by rw [exec, execWakeDelayExpiry]⟩
  | stretchTimeout c acked => exact ⟨_, fun s => by rw [exec, execStretchTimeout]⟩
  | stretchViolation c acked => exact ⟨_, fun s => by rw [exec, execStretchViolation]⟩
  | busFreeTimeout c => exact ⟨_, fun s => by rw [exec, execBusFreeTimeout]⟩
  | transferRequest port dest addr len write => exact ⟨_, fun s => by rw [exec, execTransferRequest]⟩
  | arbiterDecision dest => exact ⟨_, fun s => by rw [exec, execArbiterDecision]⟩
  | dataPhaseEnd dest eccCorr linkCorr uncorr => exact ⟨_, fun s => by rw [exec, execDataPhaseEnd]⟩
  | starveTimerExpiry port => exact ⟨_, fun s => by rw [exec, execStarveTimerExpiry]⟩
  | hkRound diode speedK rails => exact ⟨_, fun s => by rw [exec, execHkRound]⟩
  | extraDiodeConversion diode => exact ⟨_, fun s => by rw [exec, execExtraDiodeConversion]⟩
  | derailleurDecision speedK tline => exact ⟨_, fun s => by rw [exec, execDerailleurDecision]⟩
  | islandLowPowerEntry k off => exact ⟨_, fun s => by rw [exec, execIslandLowPowerEntry]⟩
  | islandWake k => exact ⟨_, fun s => by rw [exec, execIslandWake]⟩
  | pwrIslandDisable r => exact ⟨_, fun s => by rw [exec, execPwrIslandDisable]⟩
  | pwrIslandEnable r => exact ⟨_, fun s => by rw [exec, execPwrIslandEnable]⟩
  | pwrPinGear r => exact ⟨_, fun s => by rw [exec, execPwrPinGear]⟩
  | pwrSetCfg r => exact ⟨_, fun s => by rw [exec, execPwrSetCfg]⟩
  | engineReset r dropped => exact ⟨_, fun s => by rw [exec, execEngineReset]⟩
  | engineResetDone code sdaHighAfter => exact ⟨_, fun s => by rw [exec, execEngineResetDone]⟩
  | mgmtUpdateStage r c writeOk => exact ⟨_, fun s => by rw [exec, execMgmtUpdateStage]⟩
  | mgmtUpdateActivate r => exact ⟨_, fun s => by rw [exec, execMgmtUpdateActivate]⟩
  | mgmtUpdateConfirm r fuseOk => exact ⟨_, fun s => by rw [exec, execMgmtUpdateConfirm]⟩
  | mgmtEngineLoad r digestOk => exact ⟨_, fun s => by rw [exec, execMgmtEngineLoad]⟩
  | mgmtLogRead r => exact ⟨_, fun s => by rw [exec, execMgmtLogRead]⟩
  | mgmtAttest r => exact ⟨_, fun s => by rw [exec, execMgmtAttest]⟩
  | mgmtUnlockChallenge r => exact ⟨_, fun s => by rw [exec, execMgmtUnlockChallenge]⟩
  | mgmtUnlockAnswer r passes => exact ⟨_, fun s => by rw [exec, execMgmtUnlockAnswer]⟩
  | mgmtLifecycleAdvance r blk fuseOk => exact ⟨_, fun s => by rw [exec, execMgmtLifecycleAdvance]⟩
  | logPeriod => exact ⟨_, fun s => by rw [exec, execLogPeriod]⟩
  | extest => exact ⟨_, fun s => by rw [exec, execExtest]⟩
  | idcode => exact ⟨_, fun s => by rw [exec, execIdcode]⟩
  | samplePreload => exact ⟨_, fun s => by rw [exec, execSamplePreload]⟩
  | bypass => exact ⟨_, fun s => by rw [exec, execBypass]⟩
  | dmAccess addr data op => exact ⟨_, fun s => by rw [exec, execDmAccess]⟩
  | halt => exact ⟨_, fun s => by rw [exec, execHalt]⟩
  | resume => exact ⟨_, fun s => by rw [exec, execResume]⟩
  | step => exact ⟨_, fun s => by rw [exec, execStep]⟩
  | breakpointHit k => exact ⟨_, fun s => by rw [exec, execBreakpointHit]⟩
  | watchpointHit k => exact ⟨_, fun s => by rw [exec, execWatchpointHit]⟩
  | memData write v => exact ⟨_, fun s => by rw [exec, execMemData]⟩
  | freeze v => exact ⟨_, fun s => by rw [exec, execFreeze]⟩
  | release n => exact ⟨_, fun s => by rw [exec, execRelease]⟩
  | challenge => exact ⟨_, fun s => by rw [exec, execChallenge]⟩
  | check passes => exact ⟨_, fun s => by rw [exec, execCheck]⟩
  | startOrStopSeen c start => exact ⟨_, fun s => by rw [exec, execStartOrStopSeen]⟩
  | sclReleased c => exact ⟨_, fun s => by rw [exec, execSclReleased]⟩
  | shutdownComplete slot ms ok => exact ⟨_, fun s => by rw [exec, execShutdownComplete]⟩
  | exposureTriggerEnd p => exact ⟨_, fun s => by rw [exec, execExposureTriggerEnd]⟩
  | msixUnmask acc => exact ⟨_, fun s => by rw [exec, execMsixUnmask]⟩
  | rxFcsErr p => exact ⟨_, fun s => by rw [exec, execRxFcsErr]⟩

end Sys2Proof.Machine
end

