-- ==== Sys2Proof/Laws/Blocks.lean ====
section
/-! SUPPORT. Frames of the operations that belong to one block. -/

namespace Sys2Proof.Machine

open Sys2Proof

/-! ## Setters -/

theorem Dev.setPort_keeps (d : Dev) (n : Nat) (v : Port) : Keeps [.sni] d (d.setPort n v) := by
  intro p hp; cases p <;> simp_all [Part.same, Dev.setPort]

theorem Dev.modPort_keeps (d : Dev) (n : Nat) (f : Port → Port) : Keeps [.sni] d (d.modPort n f) :=
  Dev.setPort_keeps _ _ _

theorem Dev.setDp_keeps (d : Dev) (j : Nat) (v : DpTx) : Keeps [.sco] d (d.setDp j v) := by
  intro p hp; cases p <;> simp_all [Part.same, Dev.setDp]

theorem Dev.setRaster_keeps (d : Dev) (k : Nat) (v : Raster) : Keeps [.sco] d (d.setRaster k v) := by
  intro p hp; cases p <;> simp_all [Part.same, Dev.setRaster]

theorem Dev.setPel_keeps (d : Dev) (v : Pel) : Keeps [.ntu] d (d.setPel v) := by
  intro p hp; cases p <;> simp_all [Part.same, Dev.setPel]

theorem Dev.setDom_keeps (d : Dev) (k : Nat) (v : Dom) : Keeps [.ntu] d (d.setDom k v) := by
  intro p hp; cases p <;> simp_all [Part.same, Dev.setDom]

theorem Dev.setEth_keeps (d : Dev) (k : Nat) (v : Eth) : Keeps [.ntu] d (d.setEth k v) := by
  intro p hp; cases p <;> simp_all [Part.same, Dev.setEth]

/-! ## TEU -/

/-- Driving the output pins touches TEU, the counter of lost edges, and what an EDGE record touches. -/
theorem Dev.teuUpdate_keeps (d : Dev) : Keeps (.teu :: byPost) d d.teuUpdate := by
  have hc : ∀ (e : Dev) o n, Keeps (.teu :: byPost) e (e.count o n) := fun e o n =>
    (Dev.count_keeps e o n).mono (by simp [byPost])
  have ht : ∀ (e : Dev) (v : TeuB), Keeps (.teu :: byPost) e { e with teu := v } := by
    intro e v p hp; cases p <;> simp_all [Part.same]
  have hs : ∀ (e : Dev) n a b, Keeps (.teu :: byPost) e (e.stamp n a b) := by
    intro e n a b
    unfold Dev.stamp
    repeat' split
    all_goals first
      | exact hc _ _ _
      | exact ((Dev.draw_keeps _).mono (by simp [byPost])).trans (ht _ _)
      | exact Keeps.refl _ _
  have hg : ∀ (e : Dev) n a b c, Keeps (.teu :: byPost) e (e.stampEdge n a b c) := by
    intro e n a b c
    unfold Dev.stampEdge
    simp only []
    split
    · exact (ht _ _).trans (hc _ _ _)
    · exact (ht _ _).trans (hs _ _ _ _)
  unfold Dev.teuUpdate Dev.driveOuts
  refine Keeps.foldl _ (fun e n => ?_) _ _
  split
  · exact ((ht _ _).trans ((Dev.emit_keeps _ _).mono (by simp [byPost]))).trans (hg _ _ _ _ _)
  · exact Keeps.refl _ _

/-! ## DisplayPort and the standby rasters -/

theorem Dev.dpTrain_keeps (d : Dev) (j : Nat) : Keeps (.sco :: byPost) d (d.dpTrain j) := by
  have he : ∀ (e : Dev) j k, Keeps (.sco :: byPost) e (e.dpEvent j k) := by
    intro e j k
    unfold Dev.dpEvent
    exact (Dev.post_keeps _ _ _ _ _ _ _ _).mono (by simp)
  unfold Dev.dpTrain
  simp only []
  split
  · exact Keeps.refl _ _
  · split
    · exact Keeps.refl _ _
    · split <;> exact (((Dev.setDp_keeps _ _ _).mono (by simp)).trans
        ((Dev.emit_keeps _ _).mono (by simp [byPost]))).trans (he _ _ _)

theorem Dev.ksRegs_keeps (d : Dev) : Keeps [.regs] d d.ksRegs :=
  Keeps.foldl _ (fun _ _ => Keeps.foldl _ (fun e _ => Dev.setReg_keeps e _ _) _ _) _ _

/-! ## Time -/

/-- The time events touch records only. -/
theorem Dev.ltsEvent_keeps (d : Dev) (ev : Nat) (x : Int) : Keeps byPost d (d.ltsEvent ev x) := by
  unfold Dev.ltsEvent
  exact Dev.post_keeps _ _ _ _ _ _ _ _

theorem Dev.pelEvent_keeps (d : Dev) (a b c e : Nat) : Keeps byPost d (d.pelEvent a b c e) := by
  unfold Dev.pelEvent
  exact Dev.post_keeps _ _ _ _ _ _ _ _

theorem Dev.fsTick_keeps (d : Dev) : Keeps (.sni :: .teu :: byPost) d d.fsTick := by
  unfold Dev.fsTick
  simp only []
  split
  · refine Keeps.trans (Keeps.foldl _ (fun e _ => ?_) _ _) ((Dev.teuUpdate_keeps _).mono (by simp))
    split
    · exact (Dev.modPort_keeps _ _ _).mono (by simp)
    · exact Keeps.refl _ _
  · exact Keeps.refl _ _

theorem Dev.pelTick_keeps (d : Dev) : Keeps (.ntu :: byPost) d d.pelTick := by
  unfold Dev.pelTick Dev.pelApply
  split
  · split
    · simp only []
      split
      · exact Keeps.refl _ _
      · exact ((Dev.setPel_keeps _ _).mono (by simp)).trans ((Dev.pelEvent_keeps _ _ _ _ _).mono (by simp))
    · exact Keeps.refl _ _
  · exact Keeps.refl _ _

/-! ## Resets -/

@[simp] theorem Dev.cleared_boot (d : Dev) (b : BootB) : (d.cleared b).boot = b := by unfold Dev.cleared; rfl
@[simp] theorem Dev.cleared_hif (d : Dev) (b : BootB) : (d.cleared b).hif = {} := by unfold Dev.cleared; rfl
@[simp] theorem Dev.cleared_regs (d : Dev) (b : BootB) : (d.cleared b).regs = [] := by unfold Dev.cleared; rfl
@[simp] theorem Dev.cleared_oms (d : Dev) (b : BootB) : (d.cleared b).oms = omsKept d.quiet.oms := by
  unfold Dev.cleared; rfl
@[simp] theorem Dev.cleared_mem (d : Dev) (b : BootB) : (d.cleared b).mem = { mram := d.quiet.mem.mram } := by
  unfold Dev.cleared; rfl

theorem Dev.setMclk_keeps (d : Dev) (k : Nat) (v : Mclk) : Keeps [.sni, .out] d (d.setMclk k v) := by
  unfold Dev.setMclk
  split
  · exact Keeps.refl _ _
  · intro p hp; cases p <;> simp_all [Part.same, Dev.emit]

theorem Dev.quiet_keeps (d : Dev) : Keeps [.sni, .out] d d.quiet := by
  unfold Dev.quiet
  refine Keeps.trans (Keeps.foldl _ (fun e _ => Dev.setMclk_keeps _ _ _) _ _) (Keeps.foldl _ (fun e _ => ?_) _ _)
  split
  · exact (Dev.emit_keeps _ _).mono (by simp)
  · exact Keeps.refl _ _

/-- Without rings nothing is posted (R85). -/
theorem Dev.post_none {d : Dev} (h : d.hif.rings = []) (a b c e f : Nat) (g : List Fld) (i : Nat) :
    d.post a b c e f g i = d := by
  unfold Dev.post Dev.ringOf; rw [h]; rfl

end Sys2Proof.Machine
end

