-- ==== Sys2Proof/WellFormed.lean ====
section
/-! DEFINITION. Well-formed commands: every operand in the range that the row gives it. The machine runs any command;
an operand out of range is one that no host, wire or tool can present. -/

namespace Sys2Proof

/-- A number of `w` bits. -/
def fits (w v : Nat) : Bool := decide (v < 2 ^ w)

/-- A queue pair number (R69). -/
def qidOk (q : Nat) : Bool := decide (q < 4096)

/-- Clocks of a bus clear: at most nine, or SDA stays low (R401). -/
def clocksOk (k : Option Nat) : Bool := k.all fun n => decide (n ≤ 9)

/-- An island number (Table 17-1). -/
def islOk (x : Nat × Nat) : Bool := decide (x.1 < 56)

/-- Queue pair and command ID (R69, R75). -/
def CmdRef.wf (r : CmdRef) : Bool := qidOk r.qid && fits 16 r.cid

/-- A row of Table 3-24. -/
def DmaAccess.wf : DmaAccess → Bool
  | .data r => r.wf
  | .sqFetch q | .cqWrite q | .dbSlot q => qidOk q
  | .ringWrite n | .ringHead n => decide (n < 64)

/-- A line of raw codes: 16 bits at most (R110). -/
def LineIn.wf : LineIn → Bool
  | .memory => true
  | .slvs ps => ps.all fun l =>
    fits 16 l.sol && fits 16 l.eol && l.stray.all (fits 16) && decide (l.lanes.length ≤ 20) && l.lanes.all (·.all (fits 16))
  | .csi ps => ps.all fun q => q.all fun k =>
    decide (k.link < 4) && fits 4 k.vc && fits 6 k.dt && k.words.all (fits 16)

/-- A sync word has the width of a raw word at most, a virtual channel 4 bits (R110, R111). -/
def CodeIn.wf : CodeIn → Bool
  | .memory => true
  | .sync w => fits 16 w
  | .packet vc _ => fits 4 vc

/-- What a board table can name: a readout that is not empty, BAR0 offsets, at most 128 half-GiB (R46, R409). -/
def BoardTable.wf (b : BoardTable) : Bool :=
  decide (0 < b.width) && decide (0 < b.height) && fits 28 b.mclkHz && decide (b.installedX2 ≤ 128)
    && b.entries.all (fun e => fits 20 e.1) && b.mac.all (fun e => fits 20 e.1) && b.settings.all (fun e => fits 20 e.1)
    && (b.params.isEmpty || b.params.length == 256) && (b.colour.isEmpty || b.colour.length == 128)
    && b.tables.all fun e => decide (e.1 < 4)

/-- A slice of PXE or ENE, a lane group of LSE (Table 19-1). -/
def codecCode (c : Option Nat) : Bool := c.all fun k => decide (0x28 ≤ k) && decide (k < 0x2E)
def lseCode (c : Option Nat) : Bool := c.all fun k => decide (0x30 ≤ k) && decide (k < 0x34)

/-- Header fields of a container (Table 18-3). -/
def Container.wf (c : Container) : Bool :=
  fits 8 c.signer && fits 8 c.kind && fits 32 c.version && fits 8 c.components && c.engineCode.all fun e => decide (e.1 < 5)

/-- The operands of a command are in range. -/
def Instr.wf : Instr → Bool
  | .coldReset _ => true
  | .pwrGoodFall => true
  | .warmReset _ => true
  | .resetNRise _ => true
  | .referenceDetection _ => true
  | .romBoot => true
  | .freewheelEntry bt => bt.wf
  | .functionReset _ => true
  | .perstNDeassert => true
  | .omsOnlyReset => true
  | .watchdogExpiry => true
  | .trialTimerExpiry => true
  | .commandFetch qid entry => qidOk qid && entry.length == 16
  | .kick qid _ => qidOk qid
  | .doorbellPoll qid _ => qidOk qid
  | .watchClear qid _ => qidOk qid
  | .coalesceTimeout ring n => decide (n < if ring then 64 else 4096)
  | .dmaErrorResponse acc _ addr => acc.wf && fits 64 addr
  | .dmaCompletionTimeout acc addr => acc.wf && fits 64 addr
  | .registerWrite off _ => fits 20 off
  | .bar0BadAccess off _ => fits 20 off
  | .readWithClear off => fits 20 off
  | .commit => true
  | .hifCtlEnable _ => true
  | .mclkEnable _ _ => true
  | .mclkDisable _ _ => true
  | .mclkFreqWrite _ _ => true
  | .portEnSet _ => true
  | .portEnClear _ => true
  | .createQp r => r.wf
  | .deleteQp r => r.wf
  | .resetQp r _ _ => r.wf
  | .createRing r => r.wf
  | .deleteRing r => r.wf
  | .abort r _ => r.wf
  | .semAcquire r => r.wf
  | .semRelease r => r.wf
  | .setLatency r => r.wf
  | .setMode r => r.wf
  | .startPort r => r.wf
  | .stopPort r => r.wf
  | .submitProgram r _ => r.wf
  | .mpFrame r => r.wf
  | .laneLockAcquired _ _ => true
  | .laneLockLost _ _ => true
  | .boundaryFifoOverrun _ => true
  | .frameStart _ code _ => code.wf
  | .gangSkewTimeout _ => true
  | .lineReceived _ line => line.wf
  | .frameEnd x => x.code.wf
  | .frameTimeout _ => true
  | .exposureTrigger _ => true
  | .latchWindowOpen _ _ => true
  | .latestIssueStart _ _ => true
  | .evInputEdge _ _ _ => true
  | .scheduledPulseStart r => r.wf
  | .scheduledPulseEnd r => r.wf
  | .routeAt r => r.wf
  | .pinEnable r => r.wf
  | .pinDisable r => r.wf
  | .setRoute r => r.wf
  | .scheduleEdge r => r.wf
  | .spokeToken _ => true
  | .cbeToken _ => true
  | .stuRowProcessed _ => true
  | .rfeSetParams r _ => r.wf
  | .rfeLoadTable r _ => r.wf
  | .cbeLoadCfa r _ => r.wf
  | .cbeLoadBank r _ => r.wf
  | .cbeSetColour r _ => r.wf
  | .cbeLoadLut3d r _ => r.wf
  | .cbeReadBank r => r.wf
  | .spkStart r => r.wf
  | .spkStop r => r.wf
  | .spkRestart r _ => r.wf
  | .spkSetPath r _ => r.wf
  | .spkLoadLut r _ => r.wf
  | .spkBuffer r => r.wf
  | .spkSubmitFrame r => r.wf
  | .spkFrameStart _ => true
  | .patternFrameTick _ => true
  | .spkToken _ _ _ => true
  | .hubSetPort r => r.wf
  | .stuUnitStart r => r.wf
  | .stuUnitStop r => r.wf
  | .stuBuffer r => r.wf
  | .encOpen r _ => r.wf
  | .encClose r => r.wf
  | .encPicture r _ => r.wf
  | .encSetRc r _ => r.wf
  | .encoderFrameArrival handle index => fits 20 handle && fits 64 index
  | .pxeRowStart handle => fits 20 handle
  | .eneRowCommit handle row => fits 20 handle && codecCode row.internal
  | .decOpen r _ => r.wf
  | .decClose r => r.wf
  | .decDecode r au => r.wf && codecCode au.internal
  | .decOutput r => r.wf
  | .decPictureOutput handle => fits 20 handle
  | .decFlush r => r.wf
  | .lseOpen r => r.wf
  | .lseClose r => r.wf
  | .lseBlock r run => r.wf && decide (run.pending = 0 || !run.fault) && lseCode run.internal
  | .lseRawOpen r => r.wf
  | .lseRawBuffer r => r.wf
  | .lseRawDecode r _ => r.wf
  | .rawBandStart _ _ => true
  | .rawBandDone _ _ => true
  | .volCreate r _ => r.wf
  | .volDelete r => r.wf
  | .volClearRecovery r => r.wf
  | .recRead x => x.ref.wf && decide (x.list.length ≤ 524288)
  | .recWrite x => x.ref.wf && decide (x.list.length ≤ 524288)
  | .recDeallocate r => r.wf
  | .driveLog r _ => r.wf
  | .driveEject r => r.wf
  | .recEvent r => r.wf
  | .driveCommandCompletion r _ _ => r.wf
  | .driveCommandTimeout r _ => r.wf
  | .driveRemoval _ => true
  | .driveInsertion _ => true
  | .slotReady _ _ => true
  | .scoStart r => r.wf
  | .scoStop r => r.wf
  | .scoRestart r _ => r.wf
  | .sdiInStart r => r.wf
  | .sdiInStop r => r.wf
  | .dpAux r _ => r.wf
  | .rasterReaderBind _ => true
  | .rasterLine _ _ _ => true
  | .frameOut _ _ => true
  | .lockSourceLost _ => true
  | .lockSourceRegained _ _ => true
  | .hpdAssert _ _ => true
  | .hpdDeassert _ => true
  | .hpdIrq _ _ _ => true
  | .sdiInputLock _ _ => true
  | .sdiInputLost _ => true
  | .sdiInputFrame _ _ => true
  | .ethUp r => r.wf
  | .ethDown r => r.wf
  | .ethLinkUp _ speed => fits 2 speed
  | .speedAlternate _ => true
  | .ethLinkDown _ => true
  | .ntuDomStart r => r.wf
  | .ntuDomStop r => r.wf
  | .ntuDomRole r => r.wf
  | .ntuSetIncr r => r.wf
  | .ntuAdjPhase r => r.wf
  | .ntuSetTemplate r _ => r.wf
  | .ntuSelect r => r.wf
  | .ntuReadTime r => r.wf
  | .slewEnd => true
  | .syncReceived _ _ => true
  | .followUpReceived _ _ => true
  | .delayRespReceived _ _ => true
  | .delayReqReceived _ _ => true
  | .ptpMsg _ _ _ => true
  | .announceSend _ => true
  | .syncSend _ => true
  | .delayReqSend _ => true
  | .metadataSend _ => true
  | .frameForward _ _ => true
  | .tcSyncTrackExpiry _ _ _ => true
  | .arpRequest _ ip => fits 32 ip
  | .igmpQuery _ => true
  | .pelJoin r => r.wf
  | .pelLeave r => r.wf
  | .pelSchedule r _ => r.wf
  | .scheduleReceived _ _ => true
  | .statusReceived _ _ => true
  | .scheduleSend => true
  | .statusSend => true
  | .leaderLost => true
  | .twEnable r sdaHighAfter => r.wf && clocksOk sdaHighAfter
  | .twDisable r => r.wf
  | .twXfer r _ => r.wf
  | .twTransactionStart _ => true
  | .twTransactionEnd _ _ => true
  | .arbitrationLoss _ _ _ => true
  | .busNack _ _ _ => true
  | .wakeDelayExpiry _ => true
  | .stretchTimeout _ _ => true
  | .stretchViolation _ _ => true
  | .busFreeTimeout _ => true
  | .transferRequest _ _ _ len _ => decide (0 < len)
  | .arbiterDecision _ => true
  | .dataPhaseEnd _ _ _ _ => true
  | .starveTimerExpiry _ => true
  | .hkRound _ speedK rails => speedK.all islOk && rails.all (fun x => decide (x.1 < 24))
  | .extraDiodeConversion _ => true
  | .derailleurDecision speedK tline => speedK.all islOk && tline.all (fun x => decide (x.1 < 5))
  | .islandLowPowerEntry _ _ => true
  | .islandWake _ => true
  | .pwrIslandDisable r => r.wf
  | .pwrIslandEnable r => r.wf
  | .pwrPinGear r => r.wf
  | .pwrSetCfg r => r.wf
  | .engineReset r dropped => r.wf && fits 16 dropped
  | .engineResetDone code sdaHighAfter => fits 8 code && clocksOk sdaHighAfter
  | .mgmtUpdateStage r c _ => r.wf && c.wf
  | .mgmtUpdateActivate r => r.wf
  | .mgmtUpdateConfirm r _ => r.wf
  | .mgmtEngineLoad r _ => r.wf
  | .mgmtLogRead r => r.wf
  | .mgmtAttest r => r.wf
  | .mgmtUnlockChallenge r => r.wf
  | .mgmtUnlockAnswer r _ => r.wf
  | .mgmtLifecycleAdvance r blk _ => r.wf && blk.length == 128
  | .logPeriod => true
  | .extest => true
  | .idcode => true
  | .samplePreload => true
  | .bypass => true
  | .dmAccess _ _ _ => true
  | .halt => true
  | .resume => true
  | .step => true
  | .breakpointHit _ => true
  | .watchpointHit _ => true
  | .memData _ _ => true
  | .freeze _ => true
  | .release n => fits 16 n
  | .challenge => true
  | .check _ => true
  | .startOrStopSeen _ _ => true
  | .sclReleased _ => true
  | .shutdownComplete _ _ _ => true
  | .exposureTriggerEnd _ => true
  | .msixUnmask a => fits 16 a.off && a.write.all (fits (8 * a.size))
  | .rxFcsErr _ => true

end Sys2Proof
end

