-- ==== Sys2Proof/Tests/Slice0.lean ====
section
/-! SUPPORT. Tests: ill-formed commands are refused; for every statement, states and operands that meet the hypotheses of
each of its clauses, with what the command then answers. -/

namespace Sys2Proof.Tests

set_option Elab.async false

open Sys2Proof Sys2Proof.Machine Host

/-! ## Helpers -/

/-- Dwords of an entry: the sum of the parts listed for each. -/
def dword (l : List (Nat × Nat)) (i : Nat) : Word := BitVec.ofNat 32 ((l.filter (·.1 == i)).foldl (fun a e => a + e.2) 0)

/-- A fetched command with CID 1 on queue `q`: class, opcode, handle. -/
def on (q cls opc handle : Nat) (l : List (Nat × Nat)) : Cmd := {
  qid := q, cid := 1, num := 1, begun := false, since := 0
  dw := (rangeFrom 0 16).map fun i =>
    if i = 0 then BitVec.ofNat 32 (cls + opc * 256 + 65536) else if i = 1 then BitVec.ofNat 32 handle else dword l i }

/-- The same on queue 1. -/
def cm (cls opc : Nat) (l : List (Nat × Nat)) : Cmd := on 1 cls opc 0 l

/-- The same on the administration queue. -/
def adm (opc : Nat) (l : List (Nat × Nat)) : Cmd := on 0 0 opc 0 l

abbrev r0 : CmdRef := ⟨0, 1⟩
abbrev r1 : CmdRef := ⟨1, 1⟩

/-- A part under a driver in Capture, every feature negotiated, memory trained, two queues live, engines with code. -/
def drv : Dev := {
  boot := { mode := .capture, stage := .driver, rom := false, firmware := true, refDone := true }
  hif := {
    ready := true, neg := 2, features := 1048575
    queues := [(0, { live := true, depth := 16 }), (1, { live := true, depth := 16 })] }
  hub := { trained := true, installed := 32 }
  oms := { code := (rangeFrom 0 5).map fun e => (e, { src := 0, digest := e + 1 }) } }

/-- A state with one fetched command. -/
def st (d : Dev) (c : Cmd) : State := { dev := { d with hif := { d.hif with cmds := [c] } }, pending := [] }

/-- A state without one. -/
def ev (d : Dev) : State := { dev := d, pending := [] }

/-- The block after a command. -/
def after (i : Instr) (s : State) : Dev :=
  match exec i s with
  | .next t => t.dev
  | _ => s.dev

/-- The completions that a command posts: status and RESULT. -/
def posted (i : Instr) (s : State) : List (Nat × Nat) := (after i s).out.filterMap fun o =>
  match o with
  | .completion _ _ res _ _ _ x => some (x, res)
  | _ => none

/-- Types of the records that a command posts. -/
def recs (i : Instr) (s : State) : List Nat := (after i s).out.filterMap fun o =>
  match o with
  | .record _ _ x => some x.type
  | _ => none

/-- A block in memory from its fields: offset, length, value. -/
def blk (n : Nat) (l : List (Nat × Nat × Nat)) : List Byte := fieldBytes n (l.map fun e => ⟨e.1, e.2.1, e.2.2⟩)

/-- Set registers. -/
def regs (d : Dev) (l : List (Nat × Nat)) : Dev := l.foldl (fun (d : Dev) e => d.setReg e.1 e.2) d

/-! ## Queue, power, boot and resets -/

theorem test_step_front : step { ev drv with pending := [.commit, .halt] } = exec .commit { ev drv with pending := [.halt] } := rfl

/-- `OffIgnores`: a part that is off. -/
def unpowered : State := ev { drv with boot := { powered := false } }
theorem test_off : unpowered.dev.on = false ∧ (match step unpowered with
    | .next t => t == unpowered
    | _ => false) = true := by decide +kernel

/-- `ModeChangeEnds`: a SET_MODE waits for a port that still runs. -/
def waiting : Dev := { drv with
  hif := { drv.hif with modeChange := some { ref := r0, old := 3, new := 6, firstTag := 0, ports := [0] } }
  sni := { ports := [(0, { state := .running })] } }
theorem test_mode_inv : waiting.on = true ∧ waiting.hif.modeChange.all (fun m => !waiting.modeSettled m) = true := by
  decide +kernel

/-- `TickAdvances`: the counters and the LTS move by 4 ns. -/
theorem test_tick : drv.on = true ∧ drv.ltsFollows = none
    ∧ (match step (ev drv) with
      | .next t => (t.dev.dom 1).counter == 0x400000000 && t.dev.ntu.lts == 0x400000000
      | _ => false) = true := by decide +kernel

/-- `PowerAndReset`: cold reset and power fall with a written MRAM; pulses at the edges of the filter. -/
def written : Dev := { drv with mem := { lpddr := [(7, 1)], mram := [(8, 2)] } }
theorem test_cold : (after (.coldReset ⟨3, true, false⟩) (ev written)).mem = { mram := [(8, 2)] }
    ∧ (after (.coldReset ⟨3, true, false⟩) (ev written)).boot.stage = .booting := by decide +kernel
theorem test_power_fall : written.boot.powered = true ∧ (after .pwrGoodFall (ev written)).on = false
    ∧ (after .pwrGoodFall (ev written)).mem.lpddr = [] := by decide +kernel
theorem test_warm : drv.idleMode = true ∧ after (.warmReset 999) (ev drv) = drv
    ∧ (after (.warmReset 10000) (ev written)).boot.inReset = true ∧ (after (.warmReset 10000) (ev written)).boot.cause = 1 := by
  decide +kernel
theorem test_rise : (after (.resetNRise ⟨0, false, true⟩) (ev { drv with boot := { inReset := true } })).boot.straps.sel = true
    ∧ (after (.resetNRise ⟨0, false, true⟩) (ev { drv with boot := { inReset := true } })).on = true := by decide +kernel
theorem test_perst : ({ drv with boot := { drv.boot with perst := true, hostLink := false } } : Dev).idleMode = true
    ∧ (after .perstNDeassert (ev { drv with boot := { drv.boot with perst := true, hostLink := false } })).boot.hostLink = true
  := by decide +kernel

/-- `BootSequence`: reference detection with a 24 Hz reference, ROM with SEL high, with a good image, the board table. -/
def image : Container := {
  magicOk := true, layoutOk := true, signer := 0, kind := 1, version := 3, bindOk := true, sigOk := true
  digestsOk := true, components := 31, engineCode := [(0, 1), (1, 2), (2, 3), (3, 4), (4, 5)] }
def sel : Dev := { boot := { straps := ⟨0, false, true⟩ } }
def flashed : Dev := { oms := { slotA := .image image } }
def entering : Dev := { boot := { rom := false, entering := true }, oms := { running := some image } }
def board : BoardTable := {
  mramBad := false, pilotPort := 0, width := 1920, height := 1080, mpixS := 100, twCtrl := 1, mclkHz := 24000000
  installedX2 := 32, chFail := 0, entries := [], mac := [], codeBad := 0 }
theorem test_reference : sel.idleMode = true ∧ sel.boot.refDone = false
    ∧ (after (.referenceDetection none) (ev sel)).boot.refDone = true
    ∧ (after (.referenceDetection none) (ev sel)).boot.refLocked = false := by decide +kernel
theorem test_reference_fits : (some ({ num := 25, den := 1 } : RefSignal)).any sel.refFits = true
    ∧ ((after (.referenceDetection (some { num := 25, den := 1 })) (ev sel)).raster 3).locked = true
    ∧ ((after (.referenceDetection (some { num := 25, den := 1, line := 7 })) (ev sel)).raster 3).line = 7 := by decide +kernel
theorem test_rom_hold : sel.idleMode = true ∧ sel.boot.rom = true ∧ sel.hif.neg = 0
    ∧ (after .romBoot (ev sel)).boot.stage = .kickstandHold ∧ (after .romBoot (ev sel)).boot.fwSts = 4 := by decide +kernel
theorem test_rom_image : flashed.slot? flashed.oms.active = .image image ∧ flashed.checkFirmware image = 0
    ∧ flashed.oms.trial = 0 ∧ flashed.oms.flash = true ∧ (after .romBoot (ev flashed)).boot.entering = true := by decide +kernel
theorem test_freewheel : entering.idleMode = true ∧ entering.boot.stage = .booting
    ∧ (after (.freewheelEntry board) (ev entering)).boot.mode = .freewheel
    ∧ (after (.freewheelEntry board) (ev entering)).boot.fwSts = 0 := by decide +kernel

/-- `FunctionAndOmsResets`. -/
theorem test_function_reset : (after (.functionReset .perstN) (ev drv)).boot.mode = .freewheel
    ∧ (after (.functionReset .perstN) (ev drv)).boot.hostLink = false
    ∧ (after (.functionReset .flr) (ev { drv with boot := { drv.boot with firmware := false } })).boot.mode = .kickstand := by
  decide +kernel
theorem test_oms_reset : (after .omsOnlyReset (ev drv)).boot.rom = true
    ∧ (after .watchdogExpiry (ev drv)).oms.latch = 2
    ∧ (after .trialTimerExpiry (ev { drv with oms := { drv.oms with timer := some 60 } })).oms.latch = 1 := by decide +kernel

/-! ## Host interface -/

/-- `FetchTakesAnEntry`: one entry waits in queue 1; it is a SET_LATENCY in the wrong queue, or a NTU_SET_INCR. -/
def kicked : Dev := { drv with hif := { drv.hif with
  queues := [(0, { live := true, depth := 16 }), (1, { live := true, depth := 16, tail := 1 })] } }
def incr : Cmd := cm 9 0x13 [(4, 256), (5, 0x12345), (6, 4)]
theorem test_fetch : kicked.idleMode = true ∧ kicked.fetchTurn = some 1 ∧ kicked.entryVerdict (kicked.fetched 1 incr.dw) = none
    ∧ (after (.commandFetch 1 incr.dw) (ev kicked)).hif.cmds.length = 1
    ∧ after (.commandFetch 0 incr.dw) (ev kicked) = kicked := by decide +kernel
theorem test_fetch_bad : kicked.entryVerdict (kicked.fetched 1 (cm 0 0x20 []).dw) = some (stInvalidField, 0)
    ∧ posted (.commandFetch 1 (cm 0 0x20 []).dw) (ev kicked) = [(stInvalidField, 0)] := by decide +kernel
theorem test_fetch_dup : (({ kicked with hif := { kicked.hif with cmds := [incr] } } : Dev).cmd?
      (kicked.fetched 1 incr.dw).ref).isSome = true := by decide +kernel
theorem test_admin_first : ({ drv with hif := { drv.hif with
      queues := [(0, { live := true, depth := 16, tail := 1 }), (1, { live := true, depth := 16, tail := 1 })] } } : Dev).mayFetch 0
      = true := by decide +kernel

/-- `CompletionEntry`, `ClassThreeSignalsAtOnce`: at the last slot and before it, coalesced or not, masked or not. -/
def coal (tail : Nat) (masked : Bool) : Dev := { drv with hif := { drv.hif with
  queues := [(1, { live := true, depth := 16, cqTail := tail, aggCount := 4, aggTime := 9, vector := 2 })]
  msix := [(2, { addr := 64, data := 5, masked := masked })] } }
theorem test_completion_slot : (((coal 14 false).postCompletion 1 7 0 0).qp 1).cqTail = 15
    ∧ (((coal 15 false).postCompletion 1 7 0 0).qp 1).cqTail = 0
    ∧ (((coal 15 false).postCompletion 1 7 0 0).qp 1).phase = false
    ∧ (((coal 14 false).postCompletion 1 7 0x2FFF 0).qp 1).unsig = 1 := by decide +kernel
theorem test_completion_signal : Out.msix 2 64 5 ∈ ((coal 3 false).postCompletion 1 7 0x3000 0).out
    ∧ (SMap.get {} ((coal 3 true).postCompletion 1 7 0x4FFF 0).hif.msix 2).pending = true := by decide +kernel
theorem test_completion_dead : drv.postCompletion 5 7 0 0 = drv := by decide +kernel

/-- `EnableMakesQpZeroLive`, `EnableChecks`. -/
def setUp (l : List (Nat × Nat)) : Dev := regs { drv with hif := { neg := 2 } } l
def good : List (Nat × Nat) := [(0x50, 0x100000), (0x58, 0x110000), (0x60, 0x200000), (0x48, 63), (0x4C, 14 + 10 * 256),
  (0x68, 0x10000000)]
theorem test_enable : (setUp good).enableErr = 0 ∧ (setUp good).idleMode = true
    ∧ ((after (.hifCtlEnable 1) (ev (setUp good))).qp 0).depth = 64 := by decide +kernel
theorem test_enable_errors : (setUp [(0x50, 0x100000), (0x58, 0x110000), (0x60, 0x200000), (0x48, 0), (0x68, 0x10000000)]).enableErr
      = 6
    ∧ ({ setUp good with hif := {} } : Dev).enableErr = 1
    ∧ (after (.hifCtlEnable 1) (ev { setUp good with hif := {} })).hif.cfgErr = 1
    ∧ drv.hif.ready = true ∧ ((after (.hifCtlEnable 0) (ev drv)).reg 0x38).testBit 0 = true := by decide +kernel

/-- `Negotiation`: accepted, rejected by bit and by dependency, deferred, and after ACCEPTED. -/
def asks (stage : Stage) (neg bits : Nat) : Dev := regs { drv with
  boot := { drv.boot with stage := stage }, hif := { neg := neg } } [(0x20, bits)]
theorem test_commit : ((asks .freewheel 0 128).requested, (asks .freewheel 0 128).offered.testBit 7) = (128, true)
    ∧ (after .commit (ev (asks .freewheel 0 128))).hif.neg = 2 := by decide +kernel
theorem test_commit_reject : (after .commit (ev (asks .freewheel 3 0x80000000))).hif.badBit = 31
    ∧ (asks .freewheel 3 0x80000000).offered.testBit 31 = false
    ∧ (after .commit (ev (asks .booting 0 128))).hif.neg = 1 ∧ after .commit (ev (asks .freewheel 1 128)) = asks .freewheel 1 128
    ∧ (after .commit (ev (asks .freewheel 2 128))).fld 0x38 0 0 = 1 := by decide +kernel

/-- `Doorbells`. -/
def watched : Dev := { drv with hif := { drv.hif with
  queues := [(1, { live := true, depth := 16, watch := true })] } }
theorem test_kick : ((after (.kick 1 ⟨15, 0⟩) (ev drv)).qp 1).tail = 15
    ∧ ((after (.kick 1 ⟨15, 0⟩) (ev drv)).qp 1).watch = true
    ∧ ((after (.kick 1 ⟨16, 0⟩) (ev drv)).qp 1).faulted = true ∧ after (.kick 9 ⟨1, 0⟩) (ev drv) = drv := by decide +kernel
theorem test_poll : ((after (.doorbellPoll 1 ⟨0, 15⟩) (ev watched)).qp 1).cqHead = 15
    ∧ ((after (.doorbellPoll 1 ⟨0, 16⟩) (ev watched)).qp 1).faulted = true ∧ after (.doorbellPoll 1 ⟨1, 0⟩) (ev drv) = drv := by
  decide +kernel
theorem test_watch_clear : watched.idleQp 1 = true ∧ ((after (.watchClear 1 ⟨0, 0⟩) (ev watched)).qp 1).watch = false
    ∧ ((after (.watchClear 1 ⟨2, 0⟩) (ev watched)).qp 1).watch = true := by decide +kernel

/-- `InterruptTimers`. -/
def unsig (t : Nat) : Dev := { drv with hif := { drv.hif with
  queues := [(1, { live := true, depth := 16, aggCount := 4, aggTime := t, unsig := 1, vector := 2 })]
  rings := [(3, { live := true, aggTime := t, unsig := 1, vector := 2 })]
  msix := [(2, { addr := 64, data := 5, masked := false }), (3, { pending := true })] } }
theorem test_coalesce : ((after (.coalesceTimeout false 1) (ev (unsig 1))).qp 1).unsig = 0
    ∧ ((after (.coalesceTimeout true 3) (ev (unsig 1))).ring 3).unsig = 0
    ∧ (after (.coalesceTimeout true 3) (ev (unsig 1))).out = [.msix 2 64 5]
    ∧ after (.coalesceTimeout false 1) (ev (unsig 0)) = unsig 0 ∧ after (.coalesceTimeout true 3) (ev (unsig 0)) = unsig 0 := by
  decide +kernel
theorem test_unmask : (after (.msixUnmask ⟨0x103C, 4, some 0⟩) (ev (unsig 1))).out.length = 1
    ∧ (after (.msixUnmask ⟨0x102C, 4, some 0⟩) (ev (unsig 1))).out = []
    ∧ (SMap.get {} (after (.msixUnmask ⟨0x102C, 4, some 1⟩) (ev (unsig 1))).hif.msix 2).masked = true
    ∧ (after (.msixUnmask ⟨0x1001, 2, some 1⟩) (ev (unsig 1))).hif.msix = (unsig 1).hif.msix := by decide +kernel

/-- `HostMemoryFaults`. -/
theorem test_dma : ((after (.dmaErrorResponse (.cqWrite 1) .poisoned 64) (ev drv)).qp 1).faulted = true
    ∧ after (.dmaCompletionTimeout (.sqFetch 9) 64) (ev drv) = drv
    ∧ ((after (.dmaCompletionTimeout (.ringHead 3) 64) (ev (unsig 1))).ring 3).gap = true
    ∧ searched incr = none ∧ drv.ringOf 3 = none
    ∧ posted (.dmaErrorResponse (.data r1) .completerAbort 4096) (st drv incr) = [(stHostDma, 4096)] := by decide +kernel

/-- `RegisterAccess`: a set-up register, a counter, a plain read, a bad and a good access. -/
theorem test_register : (regAt 0x54).isSome = true ∧ (after (.registerWrite 0x54 5) (ev (setUp good))).reg 0x54 = 5
    ∧ (regAt 0xD0200).isSome = true ∧ (after (.registerWrite 0xD0200 7) (ev drv)).reg 0xD0200 = 255
    ∧ ((after (.registerWrite 0xD0200 7) (ev drv)).reg 0x38).testBit 0 = true := by decide +kernel
theorem test_read : isCtr 0xA0034 = true ∧ (after (.readWithClear 0xA0034) (ev (drv.count 0xA0034 3))).hostRead = 3
    ∧ (after (.readWithClear 0xA0034) (ev (drv.count 0xA0034 3))).ctrs = []
    ∧ isCtr 0 = false ∧ (after (.readWithClear 0) (ev drv)).hostRead = 0x16800100 := by decide +kernel
theorem test_bad_access : goodAccess 0x20004 2 = false ∧ goodAccess 0x20004 4 = true
    ∧ (after (.bar0BadAccess 0x20004 2) (ev drv)).fld 0x38 19 16 = 2
    ∧ after (.bar0BadAccess 0x20004 4) (ev drv) = drv := by decide +kernel

/-- `ClockAndPortWrites`. -/
theorem test_mclk : ((after (.mclkEnable 3 1) (ev drv)).mclk 3).running = true
    ∧ ((after (.mclkFreqWrite 3 37125000) (ev (after (.mclkEnable 3 1) (ev drv)))).mclk 3).freq = 37125000
    ∧ ((after (.mclkDisable 3 0) (ev (after (.mclkEnable 3 1) (ev drv)))).mclk 3).running = false
    ∧ drv.portStopped 3 = true := by decide +kernel
def drives : Dev := { drv with recd := { slots := [(1, { present := true })] } }
def driveReady : Dev := regs { drv with recd := { slots := [(1, { present := true, state := .ready })] } } [(0x80000, 0x11)]
theorem test_port_en : drives.fld 0x80000 3 0 = 0 ∧ ((after (.portEnSet 0x11) (ev drives)).slot 1).state = .training
    ∧ ((after (.portEnClear 0) (ev driveReady)).slot 1).portOff = true := by decide +kernel

/-! ## Queue pairs, rings, locks, SET_MODE -/

/-- `QueuePairsAndRings`. -/
def cQp : Cmd := adm 1 [(4, 4095 + 65536 + 5 * 2 ^ 24), (5, 4095), (7, 0x40000000), (9, 0x40400000)]
def cRing : Cmd := adm 4 [(4, 63 + 5 * 256 + 0x20000), (5, 63), (7, 0x1000000)]
def cDelRing : Cmd := adm 5 [(4, 63)]
def ringed : Dev := { drv with hif := { drv.hif with rings := [(63, { live := true })] } }
theorem test_create_qp : (st drv cQp).dev.clear specCreateQp r0 cQp = true
    ∧ posted (.createQp r0) (st drv cQp) = [(0, 4095)] ∧ ((after (.createQp r0) (st drv cQp)).qp 4095).depth = 4096 := by decide +kernel
theorem test_rings : (st drv cRing).dev.clear specCreateRing r0 cRing = true
    ∧ ((after (.createRing r0) (st drv cRing)).ring 63).kinds = 2
    ∧ (st ringed cDelRing).dev.clear specDeleteRing r0 cDelRing = true
    ∧ ((after (.deleteRing r0) (st ringed cDelRing)).ring 63).live = false := by decide +kernel

/-- `LocksAreTaken`, `ReleaseOfALockNotHeld`: free, broken, held by another, held out of order, waited for. -/
def cAcq : Cmd := cm 0 0x10 [(4, 71)]
def cRel : Cmd := cm 0 0x11 [(4, 71)]
def lockOf (l : Lock) : Dev := { drv with hif := { drv.hif with locks := [(71, l)] } }
def mine : Dev := lockOf { owner := .queue 1, waiters := [(⟨0, 9⟩, 0)] }
theorem test_acquire : (st drv cAcq).dev.clear specSemAcquire r1 cAcq = true ∧ (st drv cAcq).dev.semHeld cAcq = false
    ∧ (st drv cAcq).dev.holdsFrom 1 71 = false ∧ posted (.semAcquire r1) (st drv cAcq) = [(0, 71)]
    ∧ posted (.semAcquire r1) (st (lockOf { broken := some 3 }) cAcq) = [(stLockBroken, 71 + 768)]
    ∧ ((after (.semAcquire r1) (st (lockOf { owner := .firmware }) cAcq)).lock 71).waiters = [(r1, 0)]
    ∧ (st mine cAcq).dev.holdsFrom 1 71 = true ∧ posted (.semAcquire r1) (st mine cAcq) = [(stOrderViolation, 0)]
    ∧ (st (lockOf { owner := .queue 0, waiters := [(⟨1, 9⟩, 0)] }) cAcq).dev.waitsFrom 1 71 = true
    ∧ posted (.semAcquire r1) (st (lockOf { owner := .queue 0, waiters := [(⟨1, 9⟩, 0)] }) cAcq) = [(stOrderViolation, 0)] := by decide +kernel
theorem test_release : (st mine cRel).dev.clear specSemRelease r1 cRel = true ∧ (st mine cRel).dev.semHeld cRel = false
    ∧ ((after (.semRelease r1) (st mine cRel)).lock 71).owner = .queue 0
    ∧ ((after (.semRelease r1) (st (lockOf { owner := .queue 1 }) cRel)).lock 71).owner = .free
    ∧ posted (.semRelease r1) (st drv cRel) = [(stLockNotHeld, 0)] := by decide +kernel

/-- `AbortAndLatency`. -/
def cAbort : Cmd := adm 8 [(4, 1 + 65536)]
def cLat : Cmd := adm 0x20 [(4, 7 + 60 * 65536)]
def two : State := { dev := { drv with hif := { drv.hif with cmds := [cAbort, incr] } }, pending := [] }
theorem test_abort : (st drv cAbort).dev.clear specAbort r0 cAbort = true ∧ (st drv cAbort).dev.cmd? ⟨1, 1⟩ = none
    ∧ posted (.abort r0 []) (st drv cAbort) = [(stNotPending, 65537)]
    ∧ (after (.abort r0 [1]) (st drv cAbort)).hif.marks = [⟨1, 1⟩]
    ∧ two.dev.clear specAbort r0 cAbort = true ∧ two.dev.cmd? ⟨1, 1⟩ = some incr
    ∧ posted (.abort r0 []) two = [(stAborted, 0), (0, 65537 + 2 ^ 32)] := by decide +kernel
theorem test_latency : (st drv cLat).dev.clear specSetLatency r0 cLat = true
    ∧ posted (.setLatency r0) (st drv cLat) = [(0, 2)]
    ∧ posted (.setLatency r0) (st drv (adm 0x20 [(4, 59 * 65536)])) = [(0, 1)]
    ∧ posted (.setLatency r0) (st drv (adm 0x20 [(4, 2 * 65536)])) = [(0, 0)] := by decide +kernel

/-- `QueuePairsEnd`: an empty queue; two unfetched entries. -/
def cDel : Cmd := adm 2 [(4, 1)]
def cReset : Cmd := adm 3 [(4, 1)]
theorem test_delete_qp : (st drv cDel).dev.clear specDeleteQp r0 cDel = true ∧ (st drv cDel).dev.fetchedOf 1 = []
    ∧ posted (.deleteQp r0) (st drv cDel) = [(0, 0)] ∧ ((after (.deleteQp r0) (st drv cDel)).qp 1).live = false := by decide +kernel
theorem test_reset_qp : (st drv cReset).dev.clear specResetQp r0 cReset = true
    ∧ posted (.resetQp r0 ⟨2, 0⟩ [7, 8]) (st drv cReset) = [(stQueueDeleted, 0), (stQueueDeleted, 0), (0, 2)]
    ∧ ((after (.resetQp r0 ⟨2, 0⟩ [7, 8]) (st drv cReset)).qp 1).head = 2 := by decide +kernel

/-- `SetModeChangesTheMode`: the takeover, and later. -/
def cMode : Cmd := adm 0x30 [(4, 7 * 256)]
def wheel : Dev := { drv with boot := { drv.boot with stage := .freewheel, mode := .freewheel } }
theorem test_set_mode : (st wheel cMode).dev.clear specSetMode r0 cMode = true ∧ wheel.boot.pilot = none
    ∧ posted (.setMode r0) (st wheel cMode) = [(0, 2 * 2 ^ 32 + 7 * 2 ^ 36)]
    ∧ (after (.setMode r0) (st wheel cMode)).boot.mode = .service
    ∧ (st drv cMode).dev.clear specSetMode r0 cMode = true ∧ drv.sni = {} ∧ drv.spk = {} ∧ drv.stu = {} ∧ drv.sco.sdi = []
    ∧ posted (.setMode r0) (st drv cMode) = [(0, 3 * 2 ^ 32 + 7 * 2 ^ 36)] := by decide +kernel

/-! ## Sensor ports and timing pins -/

/-- Port 0 set up: 32 by 32 sites on one lane, one spoke; its two-wire controller is enabled. -/
def port0 : Dev := regs { drv with tw := { ctl := [(1, { state := .enabled })] } } [(0x20000, 1 + 4 + 1000 * 65536),
  (0x20004, 31 * 65536 + 31), (0x20008, 1000), (0x20010, 8192), (0x20020, 0xFFFF0001), (0x20024, 0xFFFF0002),
  (0x20028, 0xFFFF0003), (0x2002C, 0xFFFF0004), (0x30000, 0xFFFFFFF0), (0x30104, 31 * 65536 + 31)]
/-- Port 0 as it runs, and with an open frame. -/
def runs (f : Port → Port) : Dev := { port0 with sni := { port0.sni with
  ports := [(0, f { state := .running, latched := port0.latch 0, gang := 1, laneLock := 1, nextIndex := 7 })] } }
def frame7 : Frame := { index := 7, prog := {}, start := 0, expStart := 0, sched := false }
def framed : Dev := runs fun v => { v with frame := some frame7 }
def full : Dev := runs fun v => { v with frame := some { frame7 with lines := 32 } }

/-- `PortsStartAndStop`. -/
def cStart : Cmd := cm 1 1 []
def cStop : Cmd := cm 1 2 []
def cMp : Cmd := cm 1 0x20 [(5, 31 * 65537), (6, 64), (7, 0x1000)]
theorem test_start_port : (st port0 cStart).dev.clear specStartPort r1 cStart = true
    ∧ (st port0 cStart).dev.engDown 0x40 47 = false ∧ (st port0 cStart).dev.startErr 0 none 0 = 0
    ∧ posted (.startPort r1) (st port0 cStart) = [(0, 0)]
    ∧ ((after (.startPort r1) (st port0 cStart)).port 0).state = .locking := by decide +kernel
theorem test_start_port_errors : (st drv cStart).dev.startErr 0 none 0 ≠ 0
    ∧ posted (.startPort r1) (st drv cStart) = [(stInvalidField, 4)]
    ∧ (st { port0 with pwr := { disabled := [47] } } cStart).dev.engOff 0x40 47 = true
    ∧ posted (.startPort r1) (st { port0 with pwr := { disabled := [47] } } cStart) = [(stEngineDown, 0)] := by decide +kernel
theorem test_stop_port : (st framed cStop).dev.clear specStopPort r1 cStop = true
    ∧ ((after (.stopPort r1) (st framed cStop)).port 0).stopRef = some r1 ∧ cStop.b 4 2 = false
    ∧ (st (runs id) cStop).dev.clear specStopPort r1 cStop = true
    ∧ posted (.stopPort r1) (st (runs id) cStop) = [(0, ones64)]
    ∧ ((after (.stopPort r1) (st (runs id) cStop)).port 0).state = .stopped := by decide +kernel
def mpReady : Dev := regs { drv with } [(0x30000, 0xFFFFFFF4), (0x30204, 31 * 65536 + 31)]
theorem test_mp_frame : (st mpReady cMp).dev.clear specMpFrame r1 cMp = true ∧ (st mpReady cMp).dev.mpErr cMp = false
    ∧ ((after (.mpFrame r1) (st mpReady cMp)).port 4).mpRun = some r1
    ∧ (st drv cMp).dev.mpErr cMp = true ∧ posted (.mpFrame r1) (st drv cMp) = [(stInvalidField, 4)] := by decide +kernel

/-- `LanesLock`: the last lane locks; a lane is lost; a gang of two; overruns. -/
def locking : Dev := runs fun v => { v with state := .locking, laneLock := 0 }
def gang2 : Dev := regs { framed with sni := { framed.sni with
  ports := [(0, { (framed.port 0) with gang := 2 }), (1, { state := .gangSecondary, latched := port0.latch 0 })] } }
  [(0x20400, 1)]
theorem test_lanes : locking.gangOf 0 = (0, 1) ∧ locking.activeLanes 0 = [0]
    ∧ ((after (.laneLockAcquired 0 0) (ev locking)).port 0).state = .running
    ∧ ((after (.laneLockLost 0 0) (ev (runs id))).port 0).state = .locking
    ∧ after (.laneLockAcquired 1 0) (ev locking) = locking := by decide +kernel
theorem test_gang : gang2.gangOf 0 = (0, (gang2.port 0).gang) ∧ 1 < (gang2.port 0).gang
    ∧ ((after (.gangSkewTimeout 0) (ev gang2)).port 0).frame = none
    ∧ ((after (.boundaryFifoOverrun (.sensor 1)) (ev gang2)).port 0).blind = true := by decide +kernel
def linked : Dev := { drv with ntu := { ports := [(1, { up := true, link := true, speed := 1 })] } }
theorem test_overrun : after (.boundaryFifoOverrun (.sensor 0)) (ev (runs id)) = runs id
    ∧ (after (.boundaryFifoOverrun (.eth 1)) (ev linked)).ctrs = [(0xA0078, 1)]
    ∧ after (.boundaryFifoOverrun (.eth 0)) (ev linked) = linked
    ∧ after (.boundaryFifoOverrun (.sdiIn 1 none)) (ev drv) = drv := by decide +kernel

/-- `FramesAtIngest`. -/
def row (n : Nat) : LineIn := .slvs [{ sol := 2, eol := 3, lanes := [List.replicate n 500] }]
def skipping : Dev := runs fun v => { v with frame := some { frame7 with skipped := some 1 } }
def nsAt (n : Nat) (d : Dev) : Dev := { d with ntu := { d.ntu with lts := n * tNs } }
def mp : Dev := { drv with sni := { ports := [(4, { state := .running, mpRun := some r1 })] } }
def mpOn (f : Frame) : Dev := { mpReady with
  hif := { mpReady.hif with cmds := [cMp] }
  sni := { ports := [(4, { state := .running, latched := mpReady.latch 4, mpRun := some r1, frame := some f })] } }
/-- Port 0 on one CSI-2 link: virtual channel 1, data type 0x2B. -/
def csi : Dev := regs port0 [(0x20000, 6), (0x2000C, 0x2B0001)]
def csiRuns (f : Option Frame) : Dev := { csi with sni := { csi.sni with
  ports := [(0, { state := .running, latched := csi.latch 0, gang := 1, laneLock := 1, nextIndex := 7, frame := f })] } }
def pkt (vc : Nat) (h : Header) : CsiPacket := { link := 0, vc := vc, dt := 0x2B, header := h, crcError := true, words := List.replicate 32 9 }
theorem test_frame_start : (runs id).laneMode 0 = 1 ∧ (runs id).syncIs 0 0 1 = true ∧ (runs id).syncIs 0 0 2 = false
    ∧ ((after (.frameStart 0 (.sync 1) ⟨64, false⟩) (ev (runs id))).port 0).frame.map (·.index) = some 7
    ∧ ((after (.frameStart 0 (.sync 1) ⟨65, false⟩) (ev (runs id))).port 0).blind = true
    ∧ ((after (.frameStart 0 (.sync 1) ⟨0, true⟩) (ev (runs id))).port 0).blind = true
    ∧ (after (.frameStart 0 (.sync 2) ⟨0, false⟩) (ev (runs id))).ctrs.length = 1
    ∧ ((after (.frameStart 4 .memory ⟨0, false⟩) (ev mp)).port 4).frame.isSome = true
    ∧ after (.frameStart 4 .memory ⟨0, false⟩) (ev drv) = drv ∧ after (.frameStart 0 (.sync 1) ⟨0, false⟩) (ev drv) = drv := by decide +kernel
theorem test_csi : (csiRuns none).laneMode 0 = 2 ∧ (csiRuns none).linkVc 0 0 = 1
    ∧ ((after (.frameStart 0 (.packet 1 .corrected) ⟨0, false⟩) (ev (csiRuns none))).port 0).frame.map (·.index) = some 7
    ∧ ((after (.frameStart 0 (.packet 2 .good) ⟨0, false⟩) (ev (csiRuns none))).port 0).frame = none
    ∧ ((csiRuns (some frame7)).assemble 0 (.csi [[pkt 2 .good, pkt 1 .good]])).samples = List.replicate 32 9
    ∧ ((csiRuns (some frame7)).assemble 0 (.csi [[pkt 2 .good, pkt 1 .good]])).discarded = 1
    ∧ ((after (.lineReceived 0 (.csi [[pkt 1 .good]])) (ev (csiRuns (some frame7)))).port 0).frame.map (·.crcErrs) = some 1
    ∧ ((after (.frameEnd ⟨0, .packet 1 .good⟩) (ev (csiRuns (some frame7)))).port 0).lastClosed = some 7 := by decide +kernel
theorem test_lines : framed.srcHeight 0 = 32 ∧ framed.srcWidth 0 = 32 ∧ (framed.assemble 0 (row 32)).got = true
    ∧ (framed.stripes 0).all (fun e => decide (framed.backlog 0 e < ingestLines e.2.2 (framed.srcDual 0))) = true
    ∧ ((after (.lineReceived 0 (row 32)) (ev framed)).port 0).frame.map (·.lines) = some 1
    ∧ ((after (.lineReceived 0 (row 31)) (ev skipping)).port 0).frame.map (·.rows.map List.length) = some [32]
    ∧ ((after (.lineReceived 0 (row 32)) (ev full)).port 0).frame.map (·.discarded) = some 1
    ∧ (after (.lineReceived 0 (row 32)) (ev (runs id))).sni = (runs id).sni := by decide +kernel
theorem test_mp_lines : (mpOn frame7).mpCmd = some cMp ∧ (mpOn frame7).srcHeight 4 = 32
    ∧ ((after (.lineReceived 4 .memory) (ev (mpOn frame7))).port 4).frame.map (·.lines) = some 1
    ∧ ((after (.frameEnd ⟨4, .memory⟩) (ev (mpOn { frame7 with lines := 32 }))).port 4).lastClosed = some 7 := by decide +kernel
theorem test_frame_end : framed.syncIs 0 3 4 = true ∧ ((after (.frameEnd ⟨0, .sync 4⟩) (ev framed)).port 0).lastClosed = some 7
    ∧ framed.overdue 0 frame7 = false ∧ after (.frameTimeout 0) (ev framed) = framed
    ∧ (nsAt 2000000 framed).overdue 0 frame7 = true
    ∧ ((after (.frameTimeout 0) (ev (nsAt 2000000 framed))).port 0).lastClosed = some 7
    ∧ ((after (.frameTimeout 0) (ev (nsAt 2000000 framed))).port 0).frame = none := by decide +kernel

/-- `ExposureTriggers`. -/
def scheduled (e : Nat) : Dev := runs fun v => { v with scheduled := true, rateNum := 25, rateDen := 1, epoch := e }
def high (e : Nat) : Dev := runs fun v => { v with trigHigh := true, trigEnd := e }
theorem test_triggers : ((after (.exposureTrigger 0) (ev (scheduled 0))).port 0).triggers = [⟨0, 0⟩]
    ∧ ((after (.exposureTrigger 0) (ev (scheduled 0))).port 0).trigHigh = true
    ∧ after (.exposureTrigger 0) (ev (scheduled 1)) = scheduled 1
    ∧ ((after (.exposureTriggerEnd 0) (ev (high 0))).port 0).trigHigh = false
    ∧ after (.exposureTriggerEnd 0) (ev (high 1)) = high 1
    ∧ after (.exposureTrigger 0) (ev (runs id)) = runs id ∧ after (.exposureTriggerEnd 0) (ev (runs id)) = runs id := by
  decide +kernel

/-- `ExposurePrograms`: without writes in and out of reach; with one write; the window; the latest issue start. -/
def cProg (n target : Nat) : Cmd := cm 1 0x10 [(4, n * 256), (5, 9), (6, target), (8, 64 * n)]
def target0 : Dev := regs (runs id) [(0xC1100, 0x4009A), (0xC1108, 0x3000000), (0xC110C, 100000)]
def write1 : List Byte := blk 16 [(0, 1, 0), (1, 1, 2), (4, 2, 0x605)]
def pend : Dev := runs fun v => { v with programs := [newProg (cProg 0 9) []] }
theorem test_program : (st (runs id) (cProg 0 7)).dev.clear specSubmitProgram r1 (cProg 0 7) = true
    ∧ (runs id).allProgs = [] ∧ (st (runs id) (cProg 0 7)).dev.canReach (newProg (cProg 0 7) []) 7 = true
    ∧ posted (.submitProgram r1 []) (st (runs id) (cProg 0 7)) = [(0, 7)]
    ∧ (st (runs id) (cProg 0 6)).dev.canReach (newProg (cProg 0 6) []) 6 = false
    ∧ posted (.submitProgram r1 []) (st (runs id) (cProg 0 6)) = [(stLate, 7)] := by decide +kernel
theorem test_program_writes : (st target0 (cProg 1 20)).dev.clear specSubmitProgram r1 (cProg 1 20) = true
    ∧ (st target0 (cProg 1 20)).dev.listBad (cProg 1 20) write1 = []
    ∧ (st target0 (cProg 1 20)).dev.canReach (newProg (cProg 1 20) write1) 20 = true
    ∧ ((after (.submitProgram r1 write1) (st target0 (cProg 1 20))).port 0).programs.map (·.target) = [20] := by decide +kernel
theorem test_latest : (st pend (cProg 0 9)).dev.twFree 0 = false ∧ posted (.latestIssueStart 0 9) (st pend (cProg 0 9)) = [(stLate, 10)]
    ∧ ((after (.latchWindowOpen 0 9) (ev { pend with tw := {} })).port 0).windows = [9]
    ∧ (st port0 (cProg 1 20)).dev.clear specSubmitProgram r1 (cProg 1 20) = true
    ∧ (regs port0 [(0xC1100, 0x4009A), (0xC1108, 0x3000000), (0xC110C, 100000)]).listBad (cProg 1 20) write1 = []
    ∧ (((after (.submitProgram r1 write1) (st (regs port0 [(0xC1100, 0x4009A), (0xC1108, 0x3000000), (0xC110C, 100000)])
        (cProg 1 20))).port 0).programs.map (·.target)) = [20]
    ∧ after (.latestIssueStart 0 9) (ev port0) = port0 := by decide +kernel

/-- `TimingPins`. -/
def cPin (o : Nat) (l : List (Nat × Nat)) : Cmd := cm 10 o l
def pins : Dev := regs { drv with teu := { enabled := 0x8001 } } [(0xB003C, 2), (0xB0000, 1)]
def train (high : Bool) (n : Nat) : Pulses := { ref := r1, pin := 15, start := 0, width := 10, period := 20, count := 2, driven := n, high := high }
def pulsing (high : Bool) (n : Nat) : Dev := { pins with teu := { pins.teu with pulses := [train high n] } }
def routing : Dev := { pins with teu := { pins.teu with routes := [⟨r1, 15, 3, 0⟩] } }
def edge : Cmd := cPin 16 [(4, 15 + 65536), (6, 1), (8, 10), (9, 20)]
theorem test_pin_enable : (st drv (cPin 1 [(4, 0xFFFF)])).dev.clear specPinEnable r1 (cPin 1 [(4, 0xFFFF)]) = true
    ∧ posted (.pinEnable r1) (st drv (cPin 1 [(4, 0xFFFF)])) = [(0, 0xFFFF)]
    ∧ (st pins (cPin 2 [(4, 1)])).dev.clear specPinDisable r1 (cPin 2 [(4, 1)]) = true
    ∧ posted (.pinDisable r1) (st pins (cPin 2 [(4, 1)])) = [(0, 0x8000)] := by decide +kernel
theorem test_route : (st pins (cPin 3 [(4, 15 + 3 * 65536)])).dev.clear specSetRoute r1 (cPin 3 [(4, 15 + 3 * 65536)]) = true
    ∧ (after (.setRoute r1) (st pins (cPin 3 [(4, 15 + 3 * 65536)]))).ev 15 31 16 = 3
    ∧ (after (.setRoute r1) (st pins (cPin 3 [(4, 15 + 3 * 65536), (6, 1)]))).teu.routes.length = 1
    ∧ (after (.routeAt r1) (st routing (cPin 3 [(4, 15)]))).ev 15 31 16 = 3
    ∧ posted (.routeAt r1) (st routing (cPin 3 [(4, 15)])) = [(0, 0)]
    ∧ (after (.routeAt r1) (st { pins with teu := { pins.teu with routes := [⟨r1, 15, 3, 1⟩] } } (cPin 3 [(4, 15)]))).teu.routes.length = 1 := by decide +kernel
theorem test_edge : (st pins edge).dev.clear specScheduleEdge r1 edge = true
    ∧ (after (.scheduleEdge r1) (st pins edge)).teu.pulses.map (·.count) = [2]
    ∧ posted (.scheduleEdge r1) (st { pins with teu := {} } edge) = [(stEngineDown, 0)] := by decide +kernel
theorem test_pulses : (after (.scheduledPulseStart r1) (st (nsAt 20 (pulsing false 1)) edge)).teu.pulses = [train true 2]
    ∧ (after (.scheduledPulseStart r1) (st (nsAt 19 (pulsing false 1)) edge)).teu.pulses = [train false 1]
    ∧ (after (.scheduledPulseEnd r1) (st (nsAt 10 (pulsing true 1)) edge)).teu.pulses = [train false 1]
    ∧ (after (.scheduledPulseEnd r1) (st (nsAt 29 (pulsing true 2)) edge)).teu.pulses = [train true 2]
    ∧ posted (.scheduledPulseEnd r1) (st (nsAt 30 (pulsing true 2)) edge) = [(0, 2)] := by decide +kernel
theorem test_input_edge : pins.evIn 0 = true ∧ pins.evIn 15 = false ∧ (after (.evInputEdge 0 true 4) (ev pins)).teu.levels = 1
    ∧ after (.evInputEdge 15 true 4) (ev pins) = pins := by decide +kernel

/-! ## Picture pipeline -/

/-- `PipelineBlocksWait`: source 0 with 32 by 32 sites; full queues; a block with an offending byte; an engine off. -/
def cPar : Cmd := cm 2 1 []
def goodPar : List Byte := blk 256 [(44, 4, 65536), (52, 4, 0), (56, 4, 4095), (74, 1, 1)]
def pendingOf (n t : Nat) : List PendBlk := List.replicate n { ref := r0, table := t }
def source (v : RfeSrc) : Dev := { port0 with rfe := { src := [(0, v)] } }
def without (l : List Nat) (d : Dev) : Dev := { d with pwr := { d.pwr with disabled := l } }
theorem test_params : (st port0 cPar).dev.clear specRfeSetParams r1 cPar = true
    ∧ (st port0 cPar).dev.paramsBad 0 ((st port0 cPar).dev.blockOf false 0 256 goodPar) = []
    ∧ (st port0 cPar).dev.engOff 0x10 16 = false
    ∧ ((after (.rfeSetParams r1 goodPar) (st port0 cPar)).rfe? 0).blocks.length = 1
    ∧ after (.rfeSetParams r1 goodPar) (st (source { blocks := pendingOf 8 0 }) cPar) = (st (source { blocks := pendingOf 8 0 }) cPar).dev
    ∧ ((after (.rfeSetParams r1 goodPar) (st (source { blocks := pendingOf 7 0 }) cPar)).rfe? 0).blocks.length = 8 := by
  decide +kernel
theorem test_params_bad : (st port0 cPar).dev.paramsBad 0 ((st port0 cPar).dev.blockOf false 0 256 []) ≠ []
    ∧ (posted (.rfeSetParams r1 []) (st port0 cPar)).map (·.1) = [stInvalidField]
    ∧ (st (without [16] port0) cPar).dev.engOff 0x10 16 = true
    ∧ posted (.rfeSetParams r1 goodPar) (st (without [16] port0) cPar) = [(stEngineDown, 0)] := by decide +kernel
def cTab : Cmd := cm 2 2 [(4, 2 * 16 + 512), (5, 1), (8, 9)]
theorem test_table : (st port0 cTab).dev.clear specRfeLoadTable r1 cTab = true
    ∧ tableBad 2 ((st port0 cTab).dev.tableOf cTab [5, 0, 3, 0]) = []
    ∧ ((after (.rfeLoadTable r1 [5, 0, 3, 0]) (st port0 cTab)).rfe? 0).loads.map (·.at?) = [some 9]
    ∧ after (.rfeLoadTable r1 []) (st (source { loads := pendingOf 2 2 }) cTab) = (st (source { loads := pendingOf 2 2 }) cTab).dev
    ∧ ((after (.rfeLoadTable r1 []) (st (source { loads := pendingOf 2 1 }) cTab)).rfe? 0).loads.length = 3 := by decide +kernel
def cCol : Cmd := cm 2 0x12 []
def cols (n : Nat) : Dev := { port0 with cbe := { blocks := [(0, pendingOf n 0)] } }
theorem test_colour : (st port0 cCol).dev.clear specCbeSetColour r1 cCol = true
    ∧ (st port0 cCol).dev.colourBad 0 ((st port0 cCol).dev.blockOf false 0 128 []) = [] ∧ (st port0 cCol).dev.cbeOff = false
    ∧ (SMap.get [] (after (.cbeSetColour r1 []) (st port0 cCol)).cbe.blocks 0).length = 1
    ∧ after (.cbeSetColour r1 []) (st (cols 8) cCol) = (st (cols 8) cCol).dev := by decide +kernel

/-- The record of a shared 3D LUT whose shapers are power laws and whose nodes are 0. -/
def cLut : Cmd := cm 2 0x13 []
def lutBlock (n : Nat) : List Byte := (List.range n).map fun i => if i = 0 ∨ i = 16400 ∨ i = 32800 then 1 else 0
def lutInUse : Dev := { runs id with cbe := { colour := [(0, blk 128 [(3, 1, 1)])] } }
theorem lutBlock_b8 (n k : Nat) (hn : 32800 < n) :
    b8 (lutBlock n) k = if k = 0 ∨ k = 16400 ∨ k = 32800 then 1 else 0 := by
  simp only [b8, lutBlock, List.getD_eq_getElem?_getD, List.getElem?_map]
  by_cases h : k < n
  · rw [List.getElem?_range h]; simp only [Option.map_some, Option.getD_some]; split <;> rfl
  · rw [List.getElem?_eq_none (by simpa using h)]; simp; omega
theorem lut_nodes (n m : Nat) (hn : 32800 < n) : lut3Bad (lutBlock n) m = [] := by
  simp only [lut3Bad, lut1Bad, bad, lutBlock_b8 n _ hn, List.append_eq_nil_iff, List.flatMap_eq_nil_iff]
  refine ⟨⟨⟨?_, ?_⟩, ?_⟩, ?_⟩ <;> first
    | (intro k _; simp only [ite_eq_right_iff]; split <;> simp <;> omega)
    | (refine ⟨⟨⟨⟨⟨?_, ?_⟩, ?_⟩, ?_⟩, ?_⟩, ?_⟩ <;> first
      | (intro k _; split <;> simp_all <;> omega)
      | simp)
theorem lut_whole (d : Dev) (n : Nat) : d.blockOf false 0 n (lutBlock n) = lutBlock n := by
  simp [Dev.blockOf, lutBlock, List.take_of_length_le]
theorem test_lut_block (d : Dev) : lut3Bad (d.blockOf false 0 3344700 (lutBlock 3344700)) 274625 = [] := by
  rw [lut_whole]; exact lut_nodes 3344700 274625 (by decide)
theorem test_lut : (st port0 cLut).dev.clear specCbeLoadLut3d r1 cLut = true ∧ (st port0 cLut).dev.cbeOff = false
    ∧ (st port0 cLut).dev.lut 0 = {} ∧ cLut.b 4 8 = false
    ∧ (rangeFrom 0 5).any ((st port0 cLut).dev.usesLut · 0) = false
    ∧ (st lutInUse cLut).dev.clear specCbeLoadLut3d r1 cLut = true ∧ (st lutInUse cLut).dev.usesLut 0 0 = true := by
  decide +kernel

/-- `BanksAndDescriptions`: a 1 by 1 pattern and its bank. -/
def cCfa : Cmd := cm 2 0x10 [(4, 8)]
def cBank : Cmd := cm 2 0x11 [(4, 15)]
def cRead (x : Nat) : Cmd := cm 2 0x14 [(4, 15 + x)]
def cfa1 : List Byte := [1, 1, 1, 0, 0xF1] ++ List.replicate 31 0xFF
def bank1 : List Byte := [1, 1, 1, 0, 1, 0, 0, 0]
def banked : Dev := { port0 with cbe := { banks := [(15, [1, 2, 3])] } }
theorem test_cfa : (st port0 cCfa).dev.clear specCbeLoadCfa r1 cCfa = true
    ∧ cfaBad ((st port0 cCfa).dev.blockOf false 0 36 cfa1) = []
    ∧ posted (.cbeLoadCfa r1 cfa1) (st port0 cCfa) = [(0, 0)]
    ∧ ((after (.cbeLoadCfa r1 cfa1) (st port0 cCfa)).cfaSlot 8).map (·.codes) = some [1] := by decide +kernel
theorem test_bank : (st port0 cBank).dev.clear specCbeLoadBank r1 cBank = true
    ∧ bankBad ((st port0 cBank).dev.bankBlock cBank bank1) = []
    ∧ ((after (.cbeLoadBank r1 bank1) (st port0 cBank)).bankBytes 15).length = 1636 := by decide +kernel
theorem test_bank_read : (st banked (cRead 0)).dev.clear specCbeReadBank r1 (cRead 0) = true
    ∧ (after (.cbeReadBank r1) (st banked (cRead 0))).out.length = 2
    ∧ (st banked (cRead 256)).dev.clear specCbeReadBank r1 (cRead 256) = true
    ∧ (after (.cbeReadBank r1) (st banked (cRead 256))).mem.lpddr = [(0, 1), (1, 2), (2, 3)] := by decide +kernel

/-- `PixelTokens`: one frame of 32 by 32 sites on spoke 0: two rows of tokens less one, a row too far. -/
def pf : PipeFrame := {
  src := 0, index := 7, prog := {}, expStart := 0, lines := 58, width := 32, height := 32, depth := 10
  latched := [(0x30000, 0xFFFFFFF0), (0x30004, 0xFFFFFFFF), (0x30104, 31 * 65536 + 31), (0x50000, 1)] }
def piped (f : PipeFrame) : Dev := { port0 with rfe := { frames := [f] } }
def frozenAt (n : Nat) : Dev := { piped pf with dbg := { frozen := true, point := n } }
theorem test_spoke_token : (fspokes pf).idxOf 0 = 0 ∧ 0 ∈ fspokes pf ∧ (tokenSites pf (fstripe pf 0) 0).isSome = true
    ∧ rowsReady pf 0 = true ∧ (piped pf).engDown 0 0 = false ∧ (piped pf).engDown 0x10 16 = false
    ∧ (after (.spokeToken 0) (ev (piped pf))).rfe.frames.map (·.tok) = [[(0, 1)]]
    ∧ rowsReady pf 2 = false ∧ tokenSites pf (fstripe pf 0) 8 = some (2, rangeFrom 0 8)
    ∧ after (.spokeToken 0) (ev (piped { pf with tok := [(0, 8)] })) = piped { pf with tok := [(0, 8)] } := by decide +kernel
theorem test_spoke_frozen : (after (.spokeToken 0) (ev (frozenAt 0))).dbg.waits = true
    ∧ (after (.spokeToken 0) (ev (frozenAt 7))).dbg.waits = true ∧ (frozenAt 7).dbg.credits = 0
    ∧ (after (.spokeToken 0) (ev (frozenAt 8))).dbg.waits = false := by decide +kernel
def heldBack (f : PipeFrame) : Dev := (piped f).setSpk 2 { state := .running, latched := [(0, 1)], held := true }
def mosaicked : PipeFrame := { pf with rfeDone := true, mos := [(0, 100)], tok := [(0, 128)] }
theorem test_cbe_token : mosReady mosaicked 0 = true ∧ mosReady pf 0 = false ∧ (piped pf).engDown 0x11 17 = false
    ∧ after (.cbeToken 0) (ev (piped pf)) = piped pf
    ∧ (after (.cbeToken 0) (ev (piped mosaicked))).rfe.frames.map (·.cbeTok) = [[(0, 1)]]
    ∧ (heldBack pf).cbeHeld 0 = true ∧ (piped pf).cbeHeld 0 = false ∧ after (.spokeToken 0) (ev (heldBack pf)) = heldBack pf
    ∧ after (.cbeToken 0) (ev (heldBack mosaicked)) = heldBack mosaicked := by decide +kernel
def measured : PipeFrame := { pf with closed := true, lines := 0, rfeDone := true }
def statRing : Dev := { piped measured with hif := { drv.hif with rings := [(2, { live := true, slots := 16, kinds := 2 })] } }
theorem test_stu_row : cbeRow pf 0 = false ∧ after (.stuRowProcessed 0) (ev (piped pf)) = piped pf
    ∧ cbeRow { pf with cbeTok := [(0, 4)] } 0 = true
    ∧ (after (.stuRowProcessed 0) (ev (piped { pf with cbeTok := [(0, 4)] }))).rfe.frames.map (·.stuRow) = [1] := by decide +kernel
theorem test_stu_final : rowsGot measured ≤ measured.stuRow ∧ statRing.ringOf 1 = some 2 ∧ statRing.fits 2 2 = true
    ∧ recs (.stuRowProcessed 0) (ev statRing) = [0x1001] := by decide +kernel

/-! ## Sprockets -/

/-- Sprocket 1 set to 8 by 2 pixels of a pattern, one frame each second, to device memory; `x` more bits of SOURCE. -/
def spkSet (x : Nat) (fmt : Nat) : Dev := regs drv [(0x41100, 3 + x), (0x41104, 65536 + 7), (0x41108, fmt), (0x4110C, 257),
  (0x41110, 128), (0x41114, 1), (0x41118, 1), (0x41120, 0xE0000000), (0x4112C, 96)]
def rgb16 : Nat := 16 * 16 + 512
def cSpk (o : Nat) (l : List (Nat × Nat)) : Cmd := cm 2 o ((4, 1) :: l)
/-- The same sprocket as it runs. -/
def spun (x : Nat) (f : Spk → Spk) : Dev := let d := spkSet x rgb16
  d.setSpk 1 (f { state := .running, latched := d.spkLatch 1 })

/-- `SprocketsStartAndStop`. -/
def toEth : Nat := 4 * 256 + 4096
theorem test_spk_start : (st (spkSet 0 rgb16) (cSpk 0x20 [])).dev.clear specSpkStart r1 (cSpk 0x20 []) = true
    ∧ (st (spkSet 0 rgb16) (cSpk 0x20 [])).dev.engDown 0x19 20 = false
    ∧ (spkSet 0 rgb16).spkErr 1 ((spkSet 0 rgb16).spkRegs 1) 0 = 0 ∧ ((spkSet 0 rgb16).spkRegs 1).dest = 0
    ∧ posted (.spkStart r1) (st (spkSet 0 rgb16) (cSpk 0x20 [])) = [(0, 0)]
    ∧ ((after (.spkStart r1) (st (spkSet 0 rgb16) (cSpk 0x20 []))).spkOf 1).state = .running := by decide +kernel
theorem test_spk_start_errors : (st drv (cSpk 0x20 [])).dev.spkErr 1 (drv.spkRegs 1) 0 = 1
    ∧ posted (.spkStart r1) (st drv (cSpk 0x20 [])) = [(stInvalidField, 4)]
    ∧ (st (without [20] drv) (cSpk 0x20 [])).dev.engOff 0x19 20 = true
    ∧ posted (.spkStart r1) (st (without [20] drv) (cSpk 0x20 [])) = [(stEngineDown, 0)]
    ∧ ((spkSet toEth (2 + 8 * 16 + 512)).spkRegs 1).dest = 4 ∧ (spkSet toEth (2 + 8 * 16 + 512)).ethLink 1 = false
    ∧ posted (.spkStart r1) (st (spkSet toEth (2 + 8 * 16 + 1024)) (cSpk 0x20 [])) = [(stLinkDown, 0)] := by decide +kernel
def pic (f : SpkFrame → SpkFrame) : SpkFrame := f {
  index := 5, input := .pattern, expStart := 0, latched := (spkSet 0 rgb16).spkLatch 1, path := [] }
def inHand (f : SpkFrame → SpkFrame) : Dev := spun 0 fun v => { v with cur := some (pic f) }
theorem test_spk_stop : (st (spun 0 id) (cSpk 0x21 [])).dev.clear specSpkStop r1 (cSpk 0x21 []) = true
    ∧ (spun 0 id).spkOf 1 = { state := .running, latched := (spkSet 0 rgb16).spkLatch 1 }
    ∧ posted (.spkStop r1) (st (spun 0 id) (cSpk 0x21 [])) = [(0, ones64)]
    ∧ (st (inHand id) (cSpk 0x21 [])).dev.clear specSpkStop r1 (cSpk 0x21 []) = true ∧ (cSpk 0x21 []).b 4 8 = false
    ∧ ((inHand id).spkOf 1).cur.isSome = true
    ∧ ((after (.spkStop r1) (st (inHand id) (cSpk 0x21 []))).spkOf 1).stopRef = some r1 := by decide +kernel

/-- `SprocketQueues`. -/
def spkBlock : List Byte := blk 64 [(0, 4, 3), (4, 4, 65536 + 7), (8, 4, rgb16), (12, 4, 257), (16, 4, 128), (20, 4, 1), (24, 4, 1)]
def pathBlock : List Byte := blk 256 [(4, 2, 7), (6, 2, 1)]
def phase1 : List Byte := [0, 16, 0, 0, 0, 0, 0, 0, 0, 0, 0, 0]
def phases : List Byte := (List.replicate 64 phase1).flatten
def bufOf (r : CmdRef) : Buf := { ref := r, a0 := 4096, dev := true }
def memSource : Dev := let d := regs (spkSet 0 rgb16) [(0x41100, 2)]; d.setSpk 1 { state := .running, latched := d.spkLatch 1 }
def sub4 : Dev := memSource.modSpk 1 fun v => { v with submits := List.replicate 4 ⟨r0, 0, 16, true, 0, 64, 8, 2, none, none, none⟩ }
theorem test_spk_restart : (st (spun 0 id) (cSpk 0x22 [])).dev.clear specSpkRestart r1 (cSpk 0x22 []) = true
    ∧ (spun 0 id).restartBad 1 spkBlock = []
    ∧ ((after (.spkRestart r1 spkBlock) (st (spun 0 id) (cSpk 0x22 []))).spkOf 1).restarts.length = 1 := by decide +kernel
theorem test_spk_path : (st (spun 0 id) (cSpk 0x23 [])).dev.clear specSpkSetPath r1 (cSpk 0x23 []) = true
    ∧ (spun 0 id).engOff 0x19 20 = false ∧ (spun 0 id).pathBad 1 none pathBlock = []
    ∧ ((after (.spkSetPath r1 pathBlock) (st (spun 0 id) (cSpk 0x23 []))).spkOf 1).paths.length = 1
    ∧ ((after (.spkSetPath r1 pathBlock) (st (spun 0 fun v => { v with paths := pendingOf 8 0 }) (cSpk 0x23 []))).spkOf 1).paths.length = 8
  := by decide +kernel
def cPhase : Cmd := cSpk 0x24 [(4, 5 * 16)]
theorem phases_drop (k p : Nat) : (List.replicate (k + p) phase1).flatten.drop (12 * p) = (List.replicate k phase1).flatten := by
  induction p with
  | zero => simp
  | succ p ih =>
    rw [← Nat.add_assoc, List.replicate_succ, List.flatten_cons, ← ih, show 12 * (p + 1) = phase1.length + 12 * p by simp [phase1]; omega,
      ← List.drop_drop, List.drop_left]
theorem phases_bn (p i : Nat) (h : p < 64) : bn phases (2 * (6 * p + i)) 2 = bn (phase1 ++ (List.replicate (63 - p) phase1).flatten) (2 * i) 2 := by
  have e : phases = (List.replicate (63 - p + 1 + p) phase1).flatten := by rw [phases, show 63 - p + 1 + p = 64 by omega]
  rw [bn, bn, show 2 * (6 * p + i) = 12 * p + 2 * i by omega, ← List.drop_drop, e, phases_drop, List.replicate_succ, List.flatten_cons]
theorem range_lt (n a p : Nat) (h : p ∈ rangeFrom a n) : p < a + n := by
  induction n generalizing a with
  | zero => simp [rangeFrom] at h
  | succ n ih =>
    rcases List.mem_cons.1 h with rfl | h
    · omega
    · have := ih (a + 1) h; omega
theorem phases_taps (p : Nat) (h : p < 64) :
    ((rangeFrom 0 6).map fun i => toSigned 16 (bn phases (2 * (6 * p + i)) 2)) = [4096, 0, 0, 0, 0, 0] := by
  simp only [phases_bn p _ h]; rfl
theorem test_spk_lut : (st drv cPhase).dev.clear specSpkLoadLut r1 cPhase = true ∧ spkTableBad 5 phases = [] := by
  refine ⟨by decide +kernel, List.flatMap_eq_nil_iff.2 fun p hp => ?_⟩
  have e := phases_taps p (by have := range_lt 64 0 p hp; omega)
  simp only [bad, ite_eq_right_iff]
  intro x; exact absurd e (by intro e; simp [e] at x)
theorem test_spk_buffer : (st (spun 0 id) (cSpk 0x25 [])).dev.clear specSpkBuffer r1 (cSpk 0x25 []) = true
    ∧ ((after (.spkBuffer r1) (st (spun 0 id) (cSpk 0x25 []))).spkOf 1).bufs.map (·.dev) = [true]
    ∧ ((after (.spkBuffer r1) (st (spun 0 fun v => { v with bufs := List.replicate 16 (bufOf r0) }) (cSpk 0x25 []))).spkOf 1).bufs.length = 16
  := by decide +kernel
def cSub : Cmd := cSpk 0x26 [(4, 16 * 65536), (7, 64), (8, 65536 + 7), (9, 0xFFFFFFFF), (10, 0xFFFFFFFF)]
theorem test_spk_submit : (st memSource cSub).dev.clear specSpkSubmitFrame r1 cSub = true
    ∧ ((after (.spkSubmitFrame r1) (st memSource cSub)).spkOf 1).submits.map (·.index) = [none]
    ∧ ((after (.spkSubmitFrame r1) (st sub4 cSub)).spkOf 1).submits.length = 4 := by decide +kernel

/-- `SprocketFrames`: frame 5 of a pattern with all kept, with every second kept, shed, down, without a buffer or a link. -/
def arrived (x : Nat) (f : Spk → Spk) : Dev := spun x fun v => f { v with arrivals := [pic fun p => { p with latched := [] }] }
def every2 : Dev := arrived 0 fun v => { v with latched := SMap.put 0 v.latched 12 258 }
def sdiArrived (f : Spk → Spk) : Dev := spun 1 fun v => f { v with
  arrivals := [pic fun p => { p with input := .sdi 0 10 false [], latched := [] }] }
theorem test_spk_frame : ((arrived 0 id).spkTake 1).map (·.1.index) = some 5 ∧ keptFrame ((arrived 0 id).skc 1) 5 = true
    ∧ (arrived 0 id).spkDown 1 = false ∧ ((arrived 0 id).skc 1).dest < 2 ∧ ((arrived toEth id).skc 1).dest = 4
    ∧ (after (.spkFrameStart 1) (ev (arrived 0 id))).ctrs = [(0x4116C, 1)]
    ∧ (after (.spkFrameStart 1) (ev (arrived 0 fun v => { v with shed := true }))).ctrs = [(0x41164, 1)]
    ∧ after (.spkFrameStart 1) (ev (without [20] (arrived 0 id))) = without [20] (arrived 0 id)
    ∧ (without [20] (sdiArrived id)).spkDown 1 = true
    ∧ (after (.spkFrameStart 1) (ev (without [20] (sdiArrived id)))).ctrs = [(0x41168, 1)]
    ∧ (after (.spkFrameStart 1) (ev (arrived toEth id))).ctrs = [(0x41170, 1)]
    ∧ ((after (.spkFrameStart 1) (ev (arrived 0 fun v => { v with bufs := [bufOf r1] }))).spkOf 1).cur.map (·.buf) = some (some (bufOf r1))
  := by decide +kernel
theorem test_spk_memory : (sub4.skc 1).kind = 2 ∧ (sub4.spkOf 1).bufs = [] ∧ sub4.spkTake 1 = none
    ∧ after (.spkFrameStart 1) (ev sub4) = sub4
    ∧ ((after (.spkFrameStart 1) (ev (sub4.modSpk 1 fun v => { v with bufs := [bufOf r1] }))).spkOf 1).cur.map (·.index) = some 0 := by
  decide +kernel
theorem test_spk_decimate : keptFrame (every2.skc 1) 5 = false ∧ (every2.spkTake 1).isSome = true
    ∧ ((after (.spkFrameStart 1) (ev every2)).spkOf 1).arrivals = [] ∧ (after (.spkFrameStart 1) (ev every2)).ctrs = [] := by
  decide +kernel
theorem test_pattern : ((spun 0 id).skc 1).kind = 3 ∧ ((spun 0 id).skc 1).pace = false
    ∧ ((after (.patternFrameTick 1) (ev (spun 0 id))).spkOf 1).arrivals.map (·.index) = [0] := by decide +kernel
def handed (t : Nat) : Dev := { inHand (fun p => { p with tok := t, buf := some (bufOf r1) }) with
  hif := { drv.hif with cmds := [{ cSpk 0x25 [] with begun := true }] } }
def prot : Dev := inHand fun p => { p with input := .live 0, latched := SMap.put 0 p.latched 0 65537 }
def shedding : Dev := { handed 0 with spk := (inHand fun p => { p with input := .live 0, buf := some (bufOf r1) }).spk }
theorem test_spk_token : ceilDiv 8 8 * 2 = 2 ∧ (frameSkc (pic id)).out.w = 8 ∧ (frameSkc (pic id)).out.h = 2
    ∧ (handed 0).spkReady (pic id) (frameSkc (pic id)).out 0 = true
    ∧ ((after (.spkToken 1 true 0) (ev (handed 0))).spkOf 1).cur.map (·.tok) = some 1
    ∧ posted (.spkToken 1 true 0) (ev (handed 1)) = [(0, 5)] ∧ (after (.spkToken 1 true 0) (ev (handed 1))).ctrs = [(0x41160, 1)] := by
  decide +kernel
theorem test_spk_held : (frameSkc (pic fun p => { p with latched := SMap.put 0 p.latched 0 65539 })).prot = true
    ∧ ((after (.spkToken 1 false 3) (ev prot)).spkOf 1).held = true ∧ (after (.spkToken 1 false 3) (ev prot)).ctrs = []
    ∧ ((after (.spkToken 1 false 3) (ev shedding)).spkOf 1).bufs = [bufOf r1]
    ∧ (after (.spkToken 1 false 3) (ev shedding)).ctrs = [(0x41168, 1)]
    ∧ ((after (.spkToken 1 false 3) (ev (handed 0))).spkOf 1).cur = ((handed 0).spkOf 1).cur := by decide +kernel
def inScope : Dev := (inHand id).setUnit 0 { running := true, latched := 16, cur := some 5 }
theorem test_scope_stall : inScope.scopesOf 0 1 = [0] ∧ ((after (.spkToken 1 true 1) (ev inScope)).stuUnit 0).cur = none
    ∧ ((after (.spkToken 1 true 1) (ev inScope)).stuUnit 0).lastTerm = some 5
    ∧ ((after (.spkToken 1 true 1) (ev inScope)).spkOf 1).cur.map (·.tok) = some 1
    ∧ ((after (.spkToken 1 true 2) (ev inScope)).stuUnit 0).cur = some 5 := by decide +kernel

/-! ## Statistics and the memory hub -/

/-- `StatisticsUnitsAndBuffers`. -/
def cUnit (o u : Nat) : Cmd := cm 3 o [(4, u)]
def unitWith (v : StuUnit) : Dev := drv.setUnit 2 v
def scopeOff : Dev := regs drv [(0x50400, 0x300)]
def held2 : Option Nat → Dev := fun i => unitWith { running := true, cur := i }
theorem test_unit_start : (st drv (cUnit 1 2)).dev.clear specUnitStart r1 (cUnit 1 2) = true ∧ drv.engDown 0x20 27 = false
    ∧ posted (.stuUnitStart r1) (st drv (cUnit 1 2)) = [(0, ones64)]
    ∧ ((after (.stuUnitStart r1) (st drv (cUnit 1 2))).stuUnit 2).running = true
    ∧ (st scopeOff (cUnit 1 0)).dev.clear specUnitStart r1 (cUnit 1 0) = true ∧ scopeOff.scopeBad 0 = true
    ∧ posted (.stuUnitStart r1) (st scopeOff (cUnit 1 0)) = [(stInvalidField, 4)] ∧ drv.scopeBad 1 = false
    ∧ posted (.stuUnitStart r1) (st drv (cUnit 1 1)) = [(0, ones64)]
    ∧ posted (.stuUnitStart r1) (st (without [27] drv) (cUnit 1 2)) = [(stEngineDown, 0)] := by decide +kernel
theorem test_unit_stop : (st (held2 none) (cUnit 2 2)).dev.clear specUnitStop r1 (cUnit 2 2) = true
    ∧ posted (.stuUnitStop r1) (st (held2 none) (cUnit 2 2)) = [(0, ones64)]
    ∧ (st (held2 (some 9)) (cUnit 2 2)).dev.clear specUnitStop r1 (cUnit 2 2) = true
    ∧ ((after (.stuUnitStop r1) (st (held2 (some 9)) (cUnit 2 2))).stuUnit 2).stopRef = some r1
    ∧ (st (held2 (some 9)) (cUnit 2 258)).dev.clear specUnitStop r1 (cUnit 2 258) = true
    ∧ posted (.stuUnitStop r1) (st (held2 (some 9)) (cUnit 2 258)) = [(0, 9)] := by decide +kernel
def cStu : Cmd := cm 3 3 [(4, 4), (7, 145472)]
def stuBufs (n : Nat) : Dev := { drv with stu := { bufs := [(4, List.replicate n (bufOf r0))] } }
theorem test_stu_buffer : (st (stuBufs 15) cStu).dev.clear specStuBuffer r1 cStu = true
    ∧ (SMap.get [] (after (.stuBuffer r1) (st (stuBufs 15) cStu)).stu.bufs 4).length = 16
    ∧ after (.stuBuffer r1) (st (stuBufs 16) cStu) = (st (stuBufs 16) cStu).dev := by decide +kernel

/-- `HubArbitration`: the last credits, a page and its end; two requests of a level; an owner and the next. -/
def reqOf (p : Nat) (w : Bool) : HubReq := { port := p, addr := 0, len := 4096, write := w, starve := 5 }
def arbs (v : Arb) : Dev := { drv with hub := { drv.hub with arbs := [(0, v)] } }
theorem test_request : (arbs { credits := 448 }).hubBusy 37 = false ∧ (arbs { credits := 448 }).transferOk 37 0 0 4096 = true
    ∧ (after (.transferRequest 37 0 0 4096 true) (ev (arbs { credits := 448 }))).arb 0
      = { credits := 512, reqs := [{ port := 37, addr := 0, len := 4096, write := true, starve := drv.fld (0x10100 + 148) 31 16 }] }
    ∧ drv.transferOk 37 0 64 4096 = false ∧ after (.transferRequest 37 0 64 4096 true) (ev drv) = drv
    ∧ (arbs { next := some (reqOf 37 true) }).hubBusy 37 = true := by decide +kernel
theorem test_decision : drv.masked { reqs := [reqOf 3 true, reqOf 2 true] } 2 = false
    ∧ ((after (.arbiterDecision 0) (ev (arbs { reqs := [reqOf 3 true, reqOf 2 true] }))).arb 0).owner = some (reqOf 2 true)
    ∧ ((after (.arbiterDecision 0) (ev (arbs { reqs := [reqOf 2 true], owner := some (reqOf 5 true) }))).arb 0).next = some (reqOf 2 true)
    ∧ after (.arbiterDecision 11) (ev drv) = drv := by decide +kernel
theorem test_phase_end : ((after (.dataPhaseEnd 0 0 0 none) (ev (arbs { owner := some (reqOf 2 true), credits := 64 }))).arb 0) = {}
    ∧ (after (.dataPhaseEnd 0 1 1 none) (ev (arbs { owner := some (reqOf 2 false), next := some (reqOf 3 true) }))).out
      = [.hubGrant 0 3]
    ∧ (after (.dataPhaseEnd 0 0 0 (some 77)) (ev (arbs { owner := some (reqOf 2 false) }))).hub.lastAddr = 77 := by
  decide +kernel
theorem test_starve : (after (.starveTimerExpiry 37) (ev (arbs { reqs := [reqOf 37 true] }))).reg 0x10024 = 32
    ∧ after (.starveTimerExpiry 36) (ev (arbs { reqs := [reqOf 37 true] })) = arbs { reqs := [reqOf 37 true] } := by decide +kernel
def cHub : Cmd := cm 2 0x30 [(4, 37 + 3 * 256 + 9 * 65536), (5, 2)]
theorem test_set_port : (st drv cHub).dev.clear specHubSetPort r1 cHub = true
    ∧ (after (.hubSetPort r1) (st drv cHub)).hubPort 37 31 16 = 9 ∧ (after (.hubSetPort r1) (st drv cHub)).hubPort 37 15 8 = 3 := by
  decide +kernel

/-! ## Codecs -/

/-- A session block: HEVC, intra only, 128 by 128 pixels 4:2:2 of 10 bits at 60 a second, constant QP. -/
def encBlock (x : List (Nat × Nat × Nat)) : List Byte := blk 256 ([(0, 1, 0), (1, 1, 3), (2, 1, 186), (3, 1, 1), (4, 1, 2), (5, 1, 10),
  (7, 1, 1), (8, 2, 127), (10, 2, 127), (12, 2, 127), (14, 2, 127), (19, 1, 3), (20, 4, 60), (24, 4, 1), (29, 1, 8), (34, 1, 1),
  (35, 1, 1), (36, 1, 1), (65, 1, 30), (66, 1, 30), (69, 1, 16)] ++ x)
def rcBlock : List Byte := blk 64 [(1, 1, 30), (2, 1, 30), (5, 1, 16)]
def cEnc (o : Nat) (l : List (Nat × Nat)) : Cmd := on 1 4 o 20 l
def cOpen : Cmd := cEnc 1 [(7, 0x100000), (9, 4096)]
def cPic : Cmd := cEnc 3 [(5, 0x2000000), (7, 65536), (10, 0x40000000), (12, 256)]
def enc1 : EncSession := newEnc cOpen (encBlock [])
/-- Sessions of the tests have no workspace: its bytes are unknown once it is used. -/
def coding (f : EncSession → EncSession) : Dev := { drv with codec := { enc := [(20, some (f { enc1 with workLen := 0, made := 0 }))] } }

/-- `EncodeSessions`. -/
theorem test_enc_open : (st drv cOpen).dev.clear (specEncOpenOf (encBlock [])) r1 cOpen = true
    ∧ (st drv cOpen).dev.feat 0 = true ∧ (st drv cOpen).dev.encOffs cOpen ((st drv cOpen).dev.blockOf false 0 256 (encBlock [])) = []
    ∧ (st drv cOpen).dev.codecOff = false ∧ posted (.encOpen r1 (encBlock [])) (st drv cOpen) = [(0, 0)]
    ∧ ((after (.encOpen r1 (encBlock [])) (st drv cOpen)).enc? 20).isSome = true := by decide +kernel
theorem test_enc_open_errors : (st drv cOpen).dev.encOffs cOpen ((st drv cOpen).dev.blockOf false 0 256 []) ≠ []
    ∧ (posted (.encOpen r1 []) (st drv cOpen)).map (·.1) = [stInvalidField] ∧ (st (without [33] drv) cOpen).dev.codecOff = true
    ∧ posted (.encOpen r1 (encBlock [])) (st (without [33] drv) cOpen) = [(stEngineDown, 0)] := by decide +kernel
def gone : Dev := without [32, 33] (coding id)
def ahead : State := { dev := { coding id with hif := { drv.hif with cmds := [{ cPic with cid := 2, num := 0 }, cPic] } }, pending := [] }
theorem test_enc_picture : (st (coding id) cPic).dev.clear specEncPicture r1 cPic = true ∧ (st (coding id) cPic).dev.codecGone = false
    ∧ (st (coding id) cPic).dev.jobAhead cPic = false
    ∧ ((after (.encPicture r1 7) (st (coding id) cPic)).enc? 20).map (fun e => e.jobs.length) = some 1
    ∧ posted (.encPicture r1 7) (st gone cPic) = [(stEngineDown, 0)]
    ∧ ahead.dev.clear specEncPicture r1 cPic = true ∧ ahead.dev.jobAhead cPic = true
    ∧ after (.encPicture r1 7) ahead = ahead.dev := by decide +kernel
theorem test_enc_rc : (st (coding id) (cEnc 4 [])).dev.clear specEncSetRc r1 (cEnc 4 []) = true
    ∧ rcBad enc1 ((st (coding id) (cEnc 4 [])).dev.blockOf false 0 64 rcBlock) = []
    ∧ posted (.encSetRc r1 rcBlock) (st (coding id) (cEnc 4 [])) = [(0, 0)] := by decide +kernel
def bound : EncBind := { index := 5, expStart := 6, progId := 7 }
def pic1 (b c : Nat) : EncPic := {
  ref := r1, bind := bound, poc := 0, idr := true, forced := false, sweep := none, target := 0
  cap := some 20000, bits := 10, begun := b, committed := c }
def onPic (p : EncPic) : Dev := coding fun e => { e with cur := some p }
theorem test_enc_close : (st (coding id) (cEnc 2 [])).dev.clear specEncClose r1 (cEnc 2 []) = true
    ∧ posted (.encClose r1) (st (coding id) (cEnc 2 [])) = [(0, 4294967295)]
    ∧ (st (onPic (pic1 1 0)) (cEnc 2 [])).dev.clear specEncClose r1 (cEnc 2 []) = true
    ∧ ((after (.encClose r1) (st (onPic (pic1 1 0)) (cEnc 2 []))).enc? 20).map (·.closing) = some (some r1) := by decide +kernel
def arriving (js : List EncJob) : Dev :=
  let d := coding fun e => { e with src := true, jobs := js }
  let d := d.setSpk 3 { handle := 20, encOut := [(20, bound)] }
  { d with hif := { d.hif with fetchNum := 2 } }
theorem test_enc_arrival : (after (.encoderFrameArrival 20 5) (ev (arriving []))).ctrs = [(0x60040, 1)]
    ∧ ((after (.encoderFrameArrival 20 5) (ev (arriving [{ ref := r0, num := 1 }]))).enc? 20).map (·.frames)
      = some [{ bind := bound, num := 2 }]
    ∧ (after (.encoderFrameArrival 20 5) (ev (arriving [{ ref := r1, num := 2 }]))).ctrs = [(0x60040, 1)] := by decide +kernel

/-- `EncodeRows`: two rows of CTUs. -/
def job1 : EncJob := { ref := r1, num := 1, headerBits := 100 }
def short : Cmd := cEnc 3 [(7, 96)]
def opening (c : Cmd) : Dev := { coding (fun e => { e with jobs := [job1] }) with hif := { drv.hif with cmds := [{ c with begun := true }] } }
theorem test_pxe_row : encRows enc1 = 2 ∧ (onPic (pic1 1 0)).pxeUp = true ∧ 1 ≤ 0 + (onPic (pic1 1 0)).fld 0x60000 2 0
    ∧ (((after (.pxeRowStart 20) (ev (onPic (pic1 1 0)))).enc? 20).bind (·.cur)).map (·.begun) = some 2
    ∧ after (.pxeRowStart 20) (ev (onPic (pic1 2 0))) = onPic (pic1 2 0) := by decide +kernel
theorem test_pxe_begin : (encKind (takeRc enc1) cPic).1 = true ∧ capEff (takeRc enc1) (cPic.w 7) (cPic.w 13) = some 524032
    ∧ capHost (takeRc enc1) (cPic.w 7) (cPic.w 13) = 524032
    ∧ reserveFrom (takeRc enc1) true none 0 ≤ 524032 - 100 ∧ eosBits cPic = 0
    ∧ (((after (.pxeRowStart 20) (ev (opening cPic))).enc? 20).bind (·.cur)).map (·.begun) = some 1
    ∧ capHost (takeRc enc1) (short.w 7) (short.w 13) = 512 ∧ 512 < 100 + reserveFrom (takeRc enc1) true none 0
    ∧ (posted (.pxeRowStart 20) (ev (opening short))).map (·.1) = [stInvalidField] := by decide +kernel
def rows (n c : Nat) : Dev := { onPic (pic1 n c) with hif := { drv.hif with cmds := [{ cPic with begun := true }] } }
/-- CTUs of an IDR row: as chosen, and in floor mode. -/
def ctu : CtuChoice := { form := .chosen, intra := true, qp := 30, reads := [], merge0 := [], temporal := false, sao := false, alf := false }
def flat : CtuChoice := { ctu with form := .dc [0, 1], qp := 51 }
def two2 (n : Nat) (c : CtuChoice) (k : Option Nat) : RowBits := { bits := n, ctus := [c, c], filler := 0, internal := k }
def floored : Dev := { onPic { pic1 2 0 with floorFrom := some 0 } with hif := { drv.hif with cmds := [{ cPic with begun := true }] } }
theorem test_ene_row : ((rows 2 0).eneFor cPic.num none).isSome = true ∧ rowRight enc1 (pic1 2 0) false 0 [ctu, ctu] = true
    ∧ rowRight enc1 (pic1 2 0) false 0 [ctu, flat] = false ∧ after (.eneRowCommit 20 (two2 9 flat none)) (ev (rows 2 0)) = rows 2 0
    ∧ reserveFrom enc1 true none 1 + 10 + 100 ≤ 20000 ∧ reserveFrom enc1 true none 2 = 0
    ∧ (((after (.eneRowCommit 20 (two2 100 ctu none)) (ev (rows 2 0))).enc? 20).bind (·.cur)).map (fun p => (p.bits, p.committed)) = some (110, 1)
    ∧ (((after (.eneRowCommit 20 (two2 19990 ctu none)) (ev (rows 2 0))).enc? 20).bind (·.cur)).map (·.floorFrom) = some (some 0)
    ∧ fillerOk enc1 (pic1 2 1) 20000 0 = true ∧ (posted (.eneRowCommit 20 (two2 19990 ctu none)) (ev (rows 2 1))).map (·.1) = [0]
    ∧ ((after (.eneRowCommit 20 (two2 19990 ctu none)) (ev (rows 2 1))).enc? 20).map (fun e => (e.picNum, e.lastPic)) = some (1, some 0) := by
  decide +kernel
theorem test_ene_floor : rowReserve enc1 true none 0 = 704 ∧ rowRight enc1 (pic1 2 0) true 0 [flat, flat] = true
    ∧ rowRight enc1 (pic1 2 0) true 0 [ctu, ctu] = false
    ∧ (((after (.eneRowCommit 20 (two2 704 flat none)) (ev floored)).enc? 20).bind (·.cur)).map (·.committed) = some 1
    ∧ after (.eneRowCommit 20 (two2 705 flat none)) (ev floored) = floored := by decide +kernel

theorem test_row_fault : (rows 2 0).sliceServes 0x2B = true
    ∧ posted (.eneRowCommit 20 (two2 100 ctu (some 0x2B))) (ev (rows 2 0)) = [(stInternal, 0)]
    ∧ (after (.eneRowCommit 20 (two2 100 ctu (some 0x2B))) (ev (rows 2 0))).eng.resets.map (fun x => (x.code, x.auto)) = [(0x2B, true)]
    ∧ ((after (.eneRowCommit 20 (two2 100 ctu (some 0x2B))) (ev (rows 2 0))).enc? 20).map (·.forceIdr) = some true
    ∧ (after (.eneRowCommit 20 (two2 100 ctu (some 0x2B))) (ev (rows 2 0))).ctrs = [(0xD0090, 1)] := by decide +kernel

/-- A sweep picture of low-delay P with vertical areas: its CTUs in turn clean, refresh and dirty, and what they may read
of the picture before it (R257, R258, hand calculation). -/
def gdr : EncSession := { newEnc cOpen (encBlock [(6, 1, 1), (12, 2, 128), (28, 1, 1), (29, 1, 2)]) with
  refs := [{ poc := 8, sweep := some 0, made := 0 }] }
def gdrPic : EncPic := { pic1 2 0 with poc := 9, idr := false, sweep := some 1 }
def reads (r : Option Nat) (x : Int) : PredRead := { ref := r, x0 := 0, y0 := 0, x1 := x, y1 := 0, dx := 0, dy := 0 }
theorem test_sweep : ctuArea gdr gdrPic 0 0 = .clean ∧ safeEnd gdr gdrPic { poc := 8, sweep := some 0, made := 0 } = 55
    ∧ readOk gdr gdrPic .clean (reads (some 0) 55) = true ∧ readOk gdr gdrPic .clean (reads (some 0) 56) = false
    ∧ readOk gdr gdrPic .dirty (reads (some 0) 99) = true ∧ safeEnd gdr gdrPic { poc := 7, sweep := some 0, made := 0 } = -1 := by
  decide +kernel

/-- A decode session: HEVC, 3840 by 2160, 4 pictures. -/
def decBlock : List Byte := blk 64 [(1, 1, 153), (3, 1, 1), (4, 1, 10), (5, 1, 4), (6, 1, 255), (8, 2, 3839), (10, 2, 2159), (12, 4, 50),
  (16, 4, 1), (20, 4, 200000)]
def cDec (o : Nat) (l : List (Nat × Nat)) : Cmd := on 1 5 o 20 l
def cDecOpen : Cmd := cDec 1 [(7, 0x1000000), (9, 31999)]
def dec1 : DecSession := { block := decBlock }
def decoding (f : DecSession → DecSession) : Dev := { drv with codec := { dec := [(20, some (f dec1))] } }
def dpic (poc : Int) (ref : Bool) : DpbPic := { poc := poc, tainted := false, output := true, isRef := ref, w := 64, h := 64, depth := 10 }

/-- `DecodeSessions`. -/
def decOffs (d : Dev) (c : Cmd) : List Offence := blkOffs 5 (d.decBad decBlock) ++ d.workOffs c (decWork decBlock (d.fld 0x60000 2 0))
theorem test_dec_open : (st drv cDecOpen).dev.clear (specDecOpenOf decBlock) r1 cDecOpen = true
    ∧ (st drv cDecOpen).dev.blockOf false 0 64 decBlock = decBlock ∧ drv.feat 1 = true ∧ decOffs drv cDecOpen = []
    ∧ posted (.decOpen r1 decBlock) (st drv cDecOpen) = [(0, 0)]
    ∧ ((after (.decOpen r1 decBlock) (st drv cDecOpen)).dec? 20).map (·.workLen) = some 31999
    ∧ posted (.decOpen r1 decBlock) (st (without [28] drv) cDecOpen) = [(stEngineDown, 0)] := by decide +kernel
def cOut : Cmd := cDec 4 [(5, 0x2000), (7, 128), (8, 100000)]
theorem test_dec_output : (st (decoding id) cOut).dev.clear specDecOutput r1 cOut = true
    ∧ ((after (.decOutput r1) (st (decoding id) cOut)).dec? 20).map (fun e => e.bufs.map (·.a1)) = some [128] := by decide +kernel
def waits1 : Dev := decoding fun e => { e with dpb := [dpic 0 true] }
theorem test_dec_flush : (st (decoding id) (cDec 5 [])).dev.clear specDecFlush r1 (cDec 5 []) = true
    ∧ posted (.decFlush r1) (st (decoding id) (cDec 5 [])) = [(0, 0)]
    ∧ ((after (.decFlush r1) (st waits1 (cDec 5 []))).dec? 20).map (·.flushing) = some (some r1) := by decide +kernel
theorem test_dec_close : (st (decoding id) (cDec 2 [])).dev.clear specDecClose r1 (cDec 2 []) = true
    ∧ posted (.decClose r1) (st (decoding id) (cDec 2 [])) = [(0, 0)]
    ∧ posted (.decClose r1) (st (decoding id) (cDec 2 [(4, 1)])) = [(0, 0)] := by decide +kernel

/-- `DecodeJobs`. -/
def au (poc : Int) (irap : Bool) (err : Nat) (refs : List Int) : AccessUnit := {
  errCode := err, moreUnits := false, poc := poc, nut := if irap then 19 else 1, irap := irap, gdr := false, recovery := none
  exactMatch := false, refs := refs, keep := [], outputFlag := true, list0 := none, lost := [], ctb := 64, codedW := 64, codedH := 64
  x0 := 0, y0 := 0, data := [], firstBadCtu := 9, ctusDecoded := 10, bits := 10, picInfo := 0
  w := 64, h := 64, chroma := 1, depth := 10, full := false, newSeq := irap, noPrior := false, reorder := 0, latency := 0, size := 2, eos := false }
def cJob : Cmd := cDec 3 [(5, 0x9000), (7, 1000)]
theorem test_dec_decode : (st (decoding id) cJob).dev.clear specDecDecode r1 cJob = true ∧ discardCode dec1 (au 0 true 1 []) ≠ 0
    ∧ (posted (.decDecode r1 (au 0 true 1 [])) (st (decoding id) cJob)).map (·.1) = [stBitstream]
    ∧ discardCode dec1 (au 0 true 0 []) = 0 ∧ auOver dec1 (au 0 true 0 []) = false ∧ (refSet dec1 (au 0 true 0 [])).length < min 4 (max 1 2)
    ∧ posted (.decDecode r1 (au 0 true 0 [])) (st (decoding id) cJob) = [(0, 16777215 * 4294967296)]
    ∧ posted (.decDecode r1 (au 0 true 5 [])) (st (decoding id) cJob) = [(stBitstream, 9 * 4294967296 + 5 * 2 ^ 56)]
    ∧ ((after (.decDecode r1 (au 0 true 5 [])) (st (decoding id) cJob)).dec? 20).map (fun e => e.dpb.map (·.tainted)) = some [true] := by
  decide +kernel
theorem test_dec_fault : (decoding id).sliceServes 0x2C = true
    ∧ posted (.decDecode r1 { au 0 true 0 [] with internal := some 0x2C }) (st (decoding id) cJob) = [(stInternal, 0)]
    ∧ (after (.decDecode r1 { au 0 true 0 [] with internal := some 0x2C }) (st (decoding id) cJob)).eng.resets.map
      (fun x => (x.code, x.auto)) = [(0x2C, true)] := by decide +kernel
def crowded : Dev := decoding fun e => { e with dpb := [dpic 0 false, dpic 1 true] }
theorem test_dec_waits : ((after (.decDecode r1 (au 2 false 0 [1])) (st crowded cJob)).dec? 20).map (·.need) = some (some 1)
    ∧ (refSet { dec1 with dpb := [dpic 0 false, dpic 1 true] } (au 2 false 0 [1])).length = 2
    ∧ posted (.decDecode r1 (au 2 false 0 [1])) (st crowded cJob) = [] := by decide +kernel
def due : DecSession → DecSession := fun e => { e with dpb := [dpic 0 false], need := some 1, bufs := [{ ref := r1, a0 := 64, a1 := 128, len := 12288 }] }
def outgoing : Dev := { decoding due with hif := { drv.hif with cmds := [{ cOut with begun := true }] } }
theorem test_dec_out : firstOut (due dec1) = some (dpic 0 false) ∧ outDue (due dec1) false (outgoing.decNeeds (due dec1)) = true
    ∧ fmtRow (decFmt (dpic 0 false)) 64 = 128 ∧ decRows (dpic 0 false) = 96 ∧ outgoing.outSpk (due dec1) = none
    ∧ posted (.decPictureOutput 20) (ev outgoing) = [(0, 0)]
    ∧ after (.decPictureOutput 20) (ev waits1) = waits1 := by decide +kernel

/-! ## Lossless engine -/

/-- `RecordIsLossless`: 4 by 5 sites, dual gain, a 2 by 2 pattern, three bands, 16 bits. -/
def staged (bands : Nat) (rows : List (List Nat)) : StagedFrame := {
  index := 7, flags := 0, lines := 0, progId := 0, expStart := 0, pedestal := 0, rows := rows, slot := 0
  width := 4, height := 5, depth := 16, planes := 2, px := 2, py := 2, started := bands }
def codes : List (List Nat) := [[0, 65535, 1, 2, 65535, 0, 9, 9], [5, 6, 7, 8, 9, 10, 11, 12], [65535, 65535, 0, 0, 1, 1, 32768, 32767],
  [3, 1, 4, 1, 5, 9, 2, 6], [100, 200, 300, 400, 500, 600, 700, 800]]
def record : RawRecord := { fault := false, frameIndex := 7, depth := 16, px := 2, py := 2, planes := 2, width := 4, height := 5
                            row0 := [0, 2, 4], bands := (rangeFrom 0 3).map (bandWords (staged 0 codes) 3) }
theorem test_record : (rangeFrom 0 3).map (· * bandRows 5 3 2) = [0, 2, 4] ∧ (3 - 1) * bandRows 5 3 2 < 5
    ∧ codes.all (fun row => row.length == 8 && row.all (· < 65536)) = true ∧ recordOk record = true ∧ recordRows record = codes := by
  decide +kernel

/-- `LosslessSessions`. -/
def cLse (o : Nat) (l : List (Nat × Nat)) : Cmd := on 1 6 o 20 l
def cLseOpen : Cmd := cLse 1 [(4, 6 * 16 + 20 * 256), (5, 0x800000), (7, 1616)]
def lanesOff : Dev := without [34, 35, 36, 37] drv
def lse1 (v : LseSession) : Dev := { drv with lse := { sessions := [(20, some v)] } }
theorem test_lse_open : (st drv cLseOpen).dev.clear specLseOpen r1 cLseOpen = true ∧ drv.lseGone = false
    ∧ posted (.lseOpen r1) (st drv cLseOpen) = [(0, 0)]
    ∧ ((after (.lseOpen r1) (st drv cLseOpen)).lse? 20).map (fun e => (e.level, e.wlog)) = some (6, 20)
    ∧ lanesOff.lseGone = true ∧ posted (.lseOpen r1) (st lanesOff cLseOpen) = [(stEngineDown, 0)] := by decide +kernel
def cRaw : Cmd := cLse 0x10 [(4, 1 + 6 * 16 + 3 * 256 + 17 * 4096), (5, 0x1000), (7, 2)]
def rawSes (f : RawSession → RawSession) : RawSession := f {
  handle := 20, level := 6, bands := 3, wlog := 17, checksum := false, stage := 0x1000, slots := 2, width := 4, height := 5, depth := 16
  planes := 2, px := 2, py := 2 }
def rawDev (f : RawSession → RawSession) : Dev := { drv with lse := { raw := [(1, some (rawSes f))] } }
def cRawBuf : Cmd := cLse 0x11 [(5, 0x9000), (7, 0x1000000)]
theorem test_raw_open : (st drv cRaw).dev.clear specLseRawOpen r1 cRaw = true ∧ posted (.lseRawOpen r1) (st drv cRaw) = [(0, 0)]
    ∧ ((after (.lseRawOpen r1) (st drv cRaw)).raw? 1).map (fun e => (e.bands, e.slots)) = some (3, 2) := by decide +kernel
def bufs16 : RawSession → RawSession := fun e => { e with bufs := List.replicate 16 (bufOf r0) }
theorem test_raw_buffer : (rawDev id).rawPort 20 = some 1 ∧ (st (rawDev id) cRawBuf).dev.clear specLseRawBuffer r1 cRawBuf = true
    ∧ ((after (.lseRawBuffer r1) (st (rawDev id) cRawBuf)).raw? 1).map (fun e => e.bufs.length) = some 1
    ∧ (st (rawDev bufs16) cRawBuf).dev.clear specLseRawBuffer r1 cRawBuf = true
    ∧ after (.lseRawBuffer r1) (st (rawDev bufs16) cRawBuf) = (st (rawDev bufs16) cRawBuf).dev := by decide +kernel
theorem test_lse_close : (st (lse1 {}) (cLse 2 [])).dev.clear specLseClose r1 (cLse 2 []) = true ∧ (lse1 {}).rawPort 20 = none
    ∧ posted (.lseClose r1) (st (lse1 {}) (cLse 2 [])) = [(0, 0)] ∧ (after (.lseClose r1) (st (lse1 {}) (cLse 2 []))).lse? 20 = none
    ∧ (st (rawDev id) (cLse 2 [])).dev.clear specLseClose r1 (cLse 2 []) = true
    ∧ posted (.lseClose r1) (st (rawDev id) (cLse 2 [])) = [(0, 0)] := by decide +kernel

/-- `LosslessJobs`. -/
def cBlk (f : Nat) : Cmd := cLse 3 [(4, f), (5, 0x1000), (7, 8), (8, 0x2000), (10, 4)]
def decomp : Dev := lse1 { decomp := true }
def run (a b c : Nat) (f : Bool) (k : Option Nat) : LseRun := { consumed := a, produced := b, pending := c, fault := f, internal := k }
theorem test_lse_block : (st decomp (cBlk 1)).dev.clear specLseBlock r1 (cBlk 1) = true
    ∧ (st decomp (cBlk 1)).dev.laneTurn (cBlk 1) = true ∧ (st (regs decomp [(0x70000, 0)]) (cBlk 1)).dev.laneTurn (cBlk 1) = false
    ∧ (st decomp (cBlk 0x200)).dev.clear specLseBlock r1 (cBlk 0x200) = true ∧ (cBlk 0x200).b 4 9 = true
    ∧ (st decomp (cBlk 1)).dev.lseAhead (cBlk 1) = false
    ∧ (runOk { decomp := true } (cBlk 1) (run 8 3 0 false none) && runOk { decomp := true } (cBlk 1) (run 8 4 9 false none)
      && runOk { decomp := true } (cBlk 1) (run 2 1 0 true none)) = true
    ∧ posted (.lseBlock r1 (run 8 3 0 false none)) (st decomp (cBlk 1)) = [(0, 8 + 3 * 4294967296)]
    ∧ posted (.lseBlock r1 (run 8 4 9 false none)) (st decomp (cBlk 1)) = [(stOutOfSpace, 8 + 4 * 4294967296)]
    ∧ posted (.lseBlock r1 (run 2 1 0 true none)) (st decomp (cBlk 1)) = [(stBitstream, 2 + 4294967296)]
    ∧ (st decomp (cBlk 2)).dev.clear specLseBlock r1 (cBlk 2) = true
    ∧ posted (.lseBlock r1 (run 8 3 0 false none)) (st decomp (cBlk 2)) = [(stInvalidField, 260)] := by decide +kernel
def twice : Dev := { decomp with eng := { autos := [(0x31, 0), (0x31, 0)] } }
theorem test_lse_fault : decomp.groupServes 0x31 = true ∧ (st decomp (cBlk 1)).dev.noWork = true
    ∧ posted (.lseBlock r1 (run 8 3 0 false (some 0x31))) (st decomp (cBlk 1)) = [(stInternal, 0)]
    ∧ (after (.lseBlock r1 (run 8 3 0 false (some 0x31))) (st decomp (cBlk 1))).eng
      = { resets := [{ code := 0x31, ref := none, auto := true }], autos := [(0x31, 0)] }
    ∧ (after (.lseBlock r1 (run 8 3 0 false (some 0x31))) (st decomp (cBlk 1))).pwr.disabled = []
    ∧ (after (.lseBlock r1 (run 8 3 0 false (some 0x31))) (st twice (cBlk 1))).pwr.disabled = [35] := by decide +kernel
def cRec : Cmd := cLse 0x12 [(5, 0x1000), (7, 100), (8, 0x4000), (10, 64)]
theorem test_raw_decode : (st decomp cRec).dev.clear specLseRawDecode r1 cRec = true ∧ (st decomp cRec).dev.lseAhead cRec = false
    ∧ posted (.lseRawDecode r1 record) (st decomp cRec) = [(0, 7)]
    ∧ codes.all (fun row => (mpRowBytes false 16 row).length ≤ 64) = true ∧ drv.devBad 0x4000 320 = false
    ∧ Mem.rdN (after (.lseRawDecode r1 record) (st decomp cRec)).mem.lpddr 0x4100 4 = [100, 0, 200, 0]
    ∧ recordOk { record with fault := true } = false
    ∧ posted (.lseRawDecode r1 { record with fault := true }) (st decomp cRec) = [(stBitstream, 0)] := by decide +kernel
def big : Buf := { ref := r1, a0 := 0x9000, dev := true, len := 4096 }
def queued : Dev := rawDev fun e => { e with ring := [staged 0 codes], bufs := [big] }
theorem test_band_start : (nextBand (rawSes fun e => { e with ring := [staged 0 codes], bufs := [big] })).isSome = true
    ∧ queued.lseLaneUp 11 = true ∧ queued.laneIdle 11 = true
    ∧ SMap.get .idle (after (.rawBandStart 1 11) (ev queued)).lse.lanes 11 = .band 1 7 0
    ∧ ((after (.rawBandStart 1 11) (ev queued)).raw? 1).map (fun e => (e.bufs, e.ring.map (·.buf))) = some ([], [some big])
    ∧ (let e := rawDev fun e => { e with ring := [{ staged 1 codes with lanes := [11], buf := some big }] }
      after (.rawBandStart 1 11) (ev e) = e)
    ∧ (without [37] queued).lseLaneUp 11 = false ∧ after (.rawBandStart 1 11) (ev (without [37] queued)) = without [37] queued := by
  decide +kernel
def banding (done : SMap Nat) : Dev := let d := rawDev fun e => { e with ring := [{ staged 3 codes with buf := some big, done := done }] }
  { d with lse := { d.lse with lanes := [(0, .band 1 7 2)] }, hif := { drv.hif with cmds := [{ cRawBuf with begun := true }] } }
theorem test_band_done : recordLen { staged 3 codes with done := SMap.ins [(0, 9), (1, 9)] 2 13 } 3 = 127
    ∧ fcsFlags (rawSes id) (bandBytes (staged 3 codes) 3 2).length 13 = [2] ∧ fcsFlags (rawSes id) (bandBytes (staged 3 codes) 3 2).length 12 = []
    ∧ ((after (.rawBandDone 0 13) (ev (banding [(0, 9)]))).raw? 1).map (fun e => e.ring.map (·.done)) = some [[(0, 9), (2, 13)]]
    ∧ posted (.rawBandDone 0 13) (ev (banding [(0, 9), (1, 9)])) = [(0, 7 + 127 * 4294967296)] := by decide +kernel

/-- The header and trailer of formats, from the published examples: zlib level 6, gzip, and the checksums of "123456789" and
of nothing (R293). -/
def nine : List Byte := [0x31, 0x32, 0x33, 0x34, 0x35, 0x36, 0x37, 0x38, 0x39]
theorem test_formats : zlibHead 6 = [0x78, 0x9C] ∧ crc32 nine = 0xCBF43926 ∧ adler32 nine = 0x091E01DE
    ∧ xxh64 [] = 0xEF46DB3751D8E999 := by decide +kernel

/-! ## Recorder -/

def up (drive : Nat) : Slot := { state := .ready, drive := drive, blocks := 100000, dlfeat := true, mdts := 256, present := true }
def vol2 (k : Nat) : Volume := { state := k, recovery := true, members := [⟨0, 256⟩, ⟨2, 256⟩], units := 10 }
/-- Drives in slots 0 and 2, and volume 0 on them in state `k`. -/
def disks (k : Nat) (f : RecB → RecB) : Dev := { regs drv [(0x80000, 3 + 2 * 2 ^ 24 + 5000 * 256)] with
  recd := f { slots := [(0, up 77), (2, up 78)], vols := if k = 0 then [] else [(0, vol2 k)], markers := [⟨77, 3⟩] } }
def cRecd (o h : Nat) (l : List (Nat × Nat)) : Cmd := on 1 7 o h l
def members : List Byte := blk 72 [(0, 1, 2), (4, 4, 10), (8, 1, 0), (12, 4, 256), (16, 1, 2), (20, 4, 256)]

/-- `RecorderVolumesAndDrives`. -/
theorem test_vol_create : (st (disks 0 id) (cRecd 1 0 [])).dev.clear specVolCreate r1 (cRecd 1 0 []) = true
    ∧ (disks 0 id).membersBad ((disks 0 id).blockOf false 0 72 members) = [] ∧ (disks 0 id).recDown = false
    ∧ posted (.volCreate r1 members) (st (disks 0 id) (cRecd 1 0 [])) = [(0, 5120 + 2 ^ 48)]
    ∧ (after (.volCreate r1 members) (st (disks 0 id) (cRecd 1 0 []))).vol 0 = vol2 1 := by decide +kernel
theorem test_vol_delete : (st (disks 1 id) (cRecd 2 1 [])).dev.clear specVolDelete r1 (cRecd 2 1 []) = true
    ∧ posted (.volDelete r1) (st (disks 1 id) (cRecd 2 1 [])) = [(0, 0)]
    ∧ (after (.volDelete r1) (st (disks 1 id) (cRecd 2 1 []))).recd.markers = [] := by decide +kernel
theorem test_vol_recovery : (st (disks 1 id) (cRecd 3 1 [])).dev.clear specVolClearRecovery r1 (cRecd 3 1 []) = true
    ∧ ((after (.volClearRecovery r1) (st (disks 1 id) (cRecd 3 1 []))).vol 0).recovery = false
    ∧ (st (disks 2 id) (cRecd 3 1 [])).dev.clear specVolClearRecovery r1 (cRecd 3 1 []) = true
    ∧ posted (.volClearRecovery r1) (st (disks 2 id) (cRecd 3 1 [])) = [(stMediaAbsent, 0)] := by decide +kernel
def noted : Dev := disks 0 fun e => { e with events := [⟨true, 3, 1, 2, 4⟩] }
def waiters (n : Nat) : Dev := disks 0 fun e => { e with waiting := List.replicate n r0 }
theorem test_rec_event : (st noted (cRecd 0x22 0 [])).dev.clear specRecEvent r1 (cRecd 0x22 0 []) = true
    ∧ posted (.recEvent r1) (st noted (cRecd 0x22 0 [])) = [(0, 3 + 16 + 512 + 16384 + 4 * 65536)]
    ∧ (after (.recEvent r1) (st (waiters 3) (cRecd 0x22 0 []))).recd.waiting.length = 4
    ∧ after (.recEvent r1) (st (waiters 4) (cRecd 0x22 0 [])) = (st (waiters 4) (cRecd 0x22 0 [])).dev := by decide +kernel
def cLog (page : Nat) : Cmd := cRecd 0x20 0 [(4, 2 + page * 256), (7, 4096)]
theorem test_drive_log : (st (disks 0 id) (cLog 3)).dev.clear specDriveLog r1 (cLog 3) = true
    ∧ (st (disks 0 id) (cLog 2)).dev.clear specDriveLog r1 (cLog 2) = true
    ∧ posted (.driveLog r1 .ok) (st (disks 0 id) (cLog 2)) = [(0, 512)]
    ∧ posted (.driveLog r1 .mediaError) (st (disks 0 id) (cLog 3)) = [(stMediaError, 0)]
    ∧ posted (.driveLog r1 .timeout) (st (disks 0 id) (cLog 0)) = [(stMediaTimeout, 0)] := by decide +kernel
def ejecting : Dev := let d := disks 0 fun e => { e with slots := [(2, { up 78 with ejecting := some r1 })] }
  { d with hif := { drv.hif with cmds := [{ cRecd 0x21 0 [(4, 2)] with begun := true }] } }
theorem test_eject : (st (disks 0 id) (cRecd 0x21 0 [(4, 2)])).dev.clear specDriveEject r1 (cRecd 0x21 0 [(4, 2)]) = true
    ∧ (after (.driveEject r1) (st (disks 0 id) (cRecd 0x21 0 [(4, 2)]))).out = [.driveShutdown 2]
    ∧ posted (.shutdownComplete 2 50 true) (ev ejecting) = [(0, 50)]
    ∧ posted (.shutdownComplete 2 50 false) (ev ejecting) = [(stMediaTimeout, 0)]
    ∧ ((after (.shutdownComplete 2 50 false) (ev ejecting)).slot 2).state = .ejected := by decide +kernel
def facts (ok : Bool) : DriveFacts := { driveId := 5, speed := 3, width := 2, nsActive := true, lbaFormatOk := ok, rdyInTime := true
                                        blocks := 9, unsafeShutdowns := 0, dlfeatZero := true, mdts := 256 }
def training : Dev := disks 0 fun e => { e with slots := [(2, { state := .training, present := true })] }
theorem test_drives : (disks 1 id).volOf 2 = some 0 ∧ ((after (.driveRemoval 2) (ev (disks 1 id))).vol 0).state = 2
    ∧ (after (.driveRemoval 2) (ev (disks 1 id))).ctrs = [(0x80310, 1)]
    ∧ (disks 0 fun _ => {}).slotOn 2 = true ∧ ((after (.driveInsertion 2) (ev (disks 0 fun _ => {}))).slot 2).state = .training
    ∧ ((after (.slotReady 2 (facts true)) (ev training)).slot 2).state = .ready
    ∧ ((after (.slotReady 2 (facts false)) (ev training)).slot 2).state = .unsuitable := by decide +kernel

/-- `RecorderData`: blocks 200 to 299, of both members; the last block; a broken volume. -/
def cIo (o a n : Nat) : Cmd := cRecd o 1 [(5, a), (7, n - 1), (8, 0x100000)]
def cDeal : Cmd := cRecd 0x12 1 [(5, 5119), (7, 0)]
def pieces : List Piece := (disks 1 id).cutUnits (vol2 1) 258 0 200 100
theorem test_rec_io : (st (disks 1 id) (cIo 0x11 200 100)).dev.clear specRecWrite r1 (cIo 0x11 200 100) = true
    ∧ (st (disks 1 id) (cIo 0x10 200 100)).dev.clear specRecRead r1 (cIo 0x10 200 100) = true
    ∧ (st (disks 1 id) cDeal).dev.clear specRecDeallocate r1 cDeal = true
    ∧ (st (disks 1 id) (cIo 0x11 200 100)).dev.vol (volN (cIo 0x11 200 100)) = vol2 1
    ∧ pieces = [{ off := 0, unit := 0, slot := 0, lba := 456, blocks := 56 }, { off := 56, unit := 56, slot := 2, lba := 256, blocks := 44 }]
    ∧ (after (.recWrite ⟨r1, []⟩) (st (disks 1 id) (cIo 0x11 200 100))).out = [.drive 0 1 456 56, .drive 2 1 256 44]
    ∧ (after (.recDeallocate r1) (st (disks 1 id) cDeal)).out = [.drive 2 9 2815 1]
    ∧ posted (.recRead ⟨r1, []⟩) (st (disks 2 id) (cIo 0x10 200 100)) = [(stMediaAbsent, 255 * 2 ^ 32)] := by decide +kernel
def cScatter (o : Nat) : Cmd := cRecd o 1 [(4, 512), (5, 0), (7, 1), (8, 0x100000)]
def badList : List Byte := blk 16 [(0, 8, 0x7000), (8, 8, 0x7001)]
theorem test_rec_list : (st (disks 1 id) (cScatter 0x10)).dev.clear specRecRead r1 (cScatter 0x10) = true
    ∧ (st (disks 1 id) (cScatter 0x11)).dev.clear specRecWrite r1 (cScatter 0x11) = true ∧ hostListBad (cScatter 0x10) badList = [8]
    ∧ posted (.recRead ⟨r1, badList⟩) (st (disks 1 id) (cScatter 0x10)) = [(stInvalidField, 8 + 8192 + 8 * 2 ^ 32)]
    ∧ posted (.recWrite ⟨r1, badList⟩) (st (disks 1 id) (cScatter 0x11)) = [(stInvalidField, 8 + 8192 + 8 * 2 ^ 32)] := by decide +kernel
def apart : Prop := pieces.Pairwise (fun p q => p.off ≠ q.off ∧ (p.slot = q.slot →
  overlaps (p.lba, p.blocks) (q.lba, q.blocks) = false ∧ overlaps (q.lba, q.blocks) (p.lba, p.blocks) = false))
theorem test_rec_apart : apart := by simp only [apart]; decide +kernel
def piece (tries : Nat) (ab : Bool) : Piece := { off := 0, unit := 0, slot := 2, lba := 256, blocks := 44, issued := true, tries := tries
                                                 aborting := ab }
def writing (p : Piece) : Dev := let d := disks 1 fun e => { e with
    cmds := [{ ref := r1, num := 1, vol := 0, kind := 1, cut := false, begun := true, pieces := [p] }] }
  { d with hif := { drv.hif with cmds := [{ cIo 0x11 256 44 with begun := true }] } }
theorem test_drive_end : posted (.driveCommandCompletion r1 0 .ok) (ev (writing (piece 0 false))) = [(0, 44 + 255 * 2 ^ 32)]
    ∧ (disks 1 id).fld 0x80000 27 24 = 2
    ∧ (after (.driveCommandCompletion r1 0 .retryable) (ev (writing (piece 1 false)))).out = [.drive 2 1 256 44]
    ∧ posted (.driveCommandCompletion r1 0 .retryable) (ev (writing (piece 2 false))) = [(stMediaError, 2 * 2 ^ 32)]
    ∧ posted (.driveCommandCompletion r1 0 .mediaError) (ev (writing (piece 0 false))) = [(stMediaError, 2 * 2 ^ 32)] := by
  decide +kernel
theorem test_drive_timeout : (after (.driveCommandTimeout r1 0) (ev (writing (piece 0 false)))).out = [.driveAdmin 2 8]
    ∧ posted (.driveCommandTimeout r1 0) (ev (writing (piece 0 true))) = [(stMediaTimeout, 2 * 2 ^ 32)] := by decide +kernel

/-! ## Scan-out -/

/-- Raster 1 set to 64 by 64 pixels, RGB of 10 bits; `x` more bits of its first register. -/
def rasterRegs (x : Nat) : List (Nat × Nat) := [(0x90100, 10 * 4096 + 2 * 256 + x), (0x90104, 1099 * 65536 + 63),
  (0x90108, 3 * 65536 + 8), (0x9010C, 374 * 65536 + 63), (0x90110, 2 * 65536 + 2), (0x90114, 25000000), (0x9011C, 300)]
def dark (k : Nat) : Raster := { run := false, ks := false, cfgErr := k }
def scan (x : Nat) : Dev := { regs drv (rasterRegs x) with sco := { rasters := [(0, dark 0), (1, dark 0), (2, dark 0), (3, dark 0)] } }
/-- The same as it runs. -/
def scans (x : Nat) (f : Raster → Raster) : Dev := let d := scan x
  d.setRaster 1 (f { run := true, ks := false, latched := d.scoLatch 1, locked := true })
def cSco (o x : Nat) : Cmd := cm 8 o [(4, 1 + x)]

/-- `RastersRun`. -/
theorem test_sco_start : (st (scan 0) (cSco 1 0)).dev.clear specScoStart r1 (cSco 1 0) = true
    ∧ (scan 0).scoErr 1 (rasterCfg fun o => (scan 0).reg (0x90100 + o)) = 0
    ∧ (posted (.scoStart r1) (st (scan 0) (cSco 1 0))).map (·.1) = [0]
    ∧ ((after (.scoStart r1) (st (scan 0) (cSco 1 0))).raster 1).run = true
    ∧ (scan (2 ^ 28)).scoErr 1 (rasterCfg fun o => (scan (2 ^ 28)).reg (0x90100 + o)) ≠ 0
    ∧ posted (.scoStart r1) (st (scan (2 ^ 28)) (cSco 1 0)) = [(stInvalidField, 4)] := by decide +kernel
theorem test_sco_stop : (st (scans 0 fun v => { v with count := 9, began := true }) (cSco 2 0)).dev.clear specScoStop r1 (cSco 2 0) = true
    ∧ posted (.scoStop r1) (st (scans 0 fun v => { v with count := 9, began := true }) (cSco 2 0)) = [(0, 8)]
    ∧ posted (.scoStop r1) (st (scans 0 fun v => { v with count := 9, began := true, active := true }) (cSco 2 256)) = [(0, 8)]
    ∧ ((after (.scoStop r1) (st (scans 0 fun v => { v with active := true }) (cSco 2 0))).raster 1).stopRef = some r1 := by
  decide +kernel
def scoBlock : List Byte := blk 64 ((rasterRegs 1).map fun e => (e.1 - 0x90100, 4, e.2))
theorem test_sco_restart : (st (scans 0 id) (cSco 3 0)).dev.clear specScoRestart r1 (cSco 3 0) = true
    ∧ (scans 0 id).scoBlkBad 1 scoBlock = []
    ∧ ((after (.scoRestart r1 scoBlock) (st (scans 0 id) (cSco 3 0))).raster 1).restarts.length = 1 := by decide +kernel
def slot5 : Writer := { serial := 3, index := 5, slot := 2 }
theorem test_bind : (scans 1 id).rcfg 1 = rasterCfg (fun o => (scan 1).reg (0x90100 + o)) ∧ ((scans 1 id).rcfg 1).content = 1
    ∧ ((after (.rasterReaderBind 1) (ev (scans 1 id))).raster 1).shows = .black
    ∧ ((after (.rasterReaderBind 1) (ev (scans 2 id))).raster 1).shows = .bars
    ∧ ((after (.rasterReaderBind 1) (ev (scans 0 fun v => { v with pub := some slot5 }))).raster 1).shows = .slot 2 3 5
    ∧ ((after (.rasterReaderBind 1) (ev (scans 0 fun v => { v with bound := some slot5 }))).raster 1).repeated = true
    ∧ ((scans 0 id).rcfg 1).chase = false
    ∧ after (.rasterReaderBind 1) (ev (scans 0 fun v => { v with active := true })) = scans 0 fun v => { v with active := true } := by
  decide +kernel
def showing (n : Nat) : Dev := scans (1 + 2 ^ 29) fun v => { v with active := true, line := n, shows := .black, count := 1 }
theorem test_line : ((after (.rasterLine 1 none 0) (ev (showing 62))).raster 1).line = 63 ∧ ((showing 62).rcfg 1).vact = 64
    ∧ (after (.rasterLine 1 none 0) (ev (showing 62))).out = [.rasterLine 1 62 (List.replicate 64 (blackOf 10 false true))]
    ∧ ((after (.rasterLine 1 none 0) (ev (showing 63))).raster 1).active = false
    ∧ ((after (.rasterLine 1 none 0) (ev (showing 63))).raster 1).reports.map (fun f => (f.out, f.report)) = [(0, true)]
    ∧ after (.rasterLine 1 none 0) (ev (scans 0 id)) = scans 0 id := by decide +kernel
def rep (report : Bool) (sdi : Nat) : FrameRep := {
  out := 0, index := 5, time := 6, report := report, flags := 0, slot := 0, crash := false
  under := 0, lead := 0, sdi := sdi, dp := 0, dpUp := 0, crcSdi := [1, 2, 3], crcDp := [] }
def reports (b : Bool) (sdi : Nat) : Dev := { (scans 0 fun v => { v with reports := [rep b sdi] }) with
  hif := { drv.hif with rings := [(2, { live := true, slots := 16, kinds := 4 })] } }
theorem test_frame_out : mismatchOf (rep false 0) [] = 0 ∧ mismatchOf (rep false 2) [⟨1, some (1, 2, 4)⟩] ≠ 0
    ∧ (after (.frameOut 1 []) (ev (reports false 0))).ctrs = []
    ∧ (after (.frameOut 1 [⟨1, some (1, 2, 4)⟩]) (ev (reports false 2))).ctrs = [(0x90170, 1)]
    ∧ (reports true 0).ringOf 2 = some 2 ∧ (reports true 0).fits 2 2 = true
    ∧ recs (.frameOut 1 []) (ev (reports true 0)) = [0x2001] ∧ after (.frameOut 1 []) (ev (scans 0 id)) = scans 0 id := by decide +kernel
def slaved (f : Raster → Raster) : Dev := scans (2 ^ 30) f
theorem test_lock : ((slaved id).rcfg 1).lock = 1 ∧ ((after (.lockSourceLost 1) (ev (slaved id))).raster 1).locked = false
    ∧ ((after (.lockSourceRegained 1 2) (ev (slaved fun v => { v with locked := false }))).raster 1).crash = true
    ∧ ((after (.lockSourceRegained 1 1) (ev (slaved fun v => { v with locked := false }))).raster 1).crash = false
    ∧ ((after (.lockSourceRegained 1 1) (ev (slaved fun v => { v with locked := false }))).raster 1).locked = true := by decide +kernel

/-- `DisplayPortAndSdi`. -/
def sink : SinkFacts := ⟨2, 6, [(0, 0)]⟩
def noSink : SinkFacts := ⟨0, 0, [(0, 0)]⟩
def withDp (d : Dev) (v : DpTx) : Dev := { d with sco := { d.sco with dp := [(1, v)] } }
def driven : Dev := scans (2 ^ 25) id
theorem test_hpd : (scan 0).dpRaster 1 = none ∧ ((after (.hpdAssert 1 sink) (ev (scan 0))).dpTx 1).hpd = true
    ∧ driven.dpRaster 1 = some 1 ∧ ((after (.hpdAssert 1 sink) (ev driven)).dpTx 1).trained = true
    ∧ (after (.hpdDeassert 1) (ev (withDp driven { hpd := true, trained := true }))).out = [.dpLink 1 0 0]
    ∧ after (.hpdAssert 1 sink) (ev (withDp driven { hpd := true })) = withDp driven { hpd := true }
    ∧ after (.hpdDeassert 1) (ev driven) = driven ∧ after (.hpdIrq 1 true sink) (ev driven) = driven := by decide +kernel
theorem test_hpd_irq : ((dpSettings (driven.rcfg 1) (driven.dpBpp 1) 0 0).filter fun x => !noSink.failing.contains x) = []
    ∧ ((after (.hpdIrq 1 true noSink) (ev (withDp driven { hpd := true, trained := true }))).dpTx 1).trained = false := by decide +kernel
def cAux (x : Nat) : Cmd := cm 8 0x20 [(4, 1 + x + 15 * 256), (6, 64)]
theorem test_aux : (st (scan 0) (cAux 0)).dev.clear specDpAux r1 (cAux 0) = true
    ∧ posted (.dpAux r1 none) (st (scan 0) (cAux 0)) = [(stLinkDown, 0)]
    ∧ posted (.dpAux r1 none) (st (withDp (scan 0) { hpd := true }) (cAux 0)) = [(stBusNack, 0)]
    ∧ posted (.dpAux r1 (some 16)) (st (withDp (scan 0) { hpd := true }) (cAux 0)) = [(0, 16)]
    ∧ (cAux 0).f 4 2 2 = 0 ∧ (after (.dpAux r1 (some 16)) (st (withDp (scan 0) { hpd := true }) (cAux 0))).out[1]? = some (.hostUndef 64 16)
  := by decide +kernel
def sdi (v : SdiIn) : Dev := { scan 0 with sco := { (scan 0).sco with sdi := [(1, v)] } }
def cSdi (o : Nat) : Cmd := cm 8 o [(4, 1)]
def sdiSet : Dev := regs (scan 0) [(0x90C40, 2 * 65536 + 12 * 16)]
def any3 : SdiFormat := ⟨0, 10, 2, 0⟩
theorem test_sdi_commands : (st (regs (scan 0) [(0x90C40, 1)]) (cSdi 0x10)).dev.clear specSdiInStart r1 (cSdi 0x10) = true
    ∧ posted (.sdiInStart r1) (st (regs (scan 0) [(0x90C40, 1)]) (cSdi 0x10)) = [(0, 0)]
    ∧ (regs (scan 0) [(0x90C40, 1)]).sdiCfgBad 1 = false ∧ (regs (scan 0) [(0x90C40, 0)]).sdiCfgBad 1 = true
    ∧ posted (.sdiInStart r1) (st (regs (scan 0) [(0x90C40, 0)]) (cSdi 0x10)) = [(stInvalidField, 4)]
    ∧ posted (.sdiInStart r1) (st (without [55] (scan 0)) (cSdi 0x10)) = [(stEngineDown, 0)]
    ∧ (st (sdi { run := true, lastIndex := some 4 }) (cSdi 0x11)).dev.clear specSdiInStop r1 (cSdi 0x11) = true
    ∧ posted (.sdiInStop r1) (st (sdi { run := true, lastIndex := some 4 }) (cSdi 0x11)) = [(0, 4)] := by decide +kernel
def frameOf (f : SdiFormat) : SdiFrame := { format := f, lines := 1, yCrc := 0, cCrc := 0, lnErr := 0, trsErr := 0, ancErr := 0
                                            firstErr := 0, lastErr := 0, pixels := [] }
def locked : SdiIn := { run := true, locked := true, format := any3, want := any3, nextIndex := 4 }
def fed : Dev := (sdi locked).setSpk 2 { state := .running, latched := [(0, 4 + 16)] }
theorem test_sdi_input : ((after (.sdiInputLock 1 any3) (ev (sdi { run := true, auto := true }))).sdiIn 1).want = any3
    ∧ ((after (.sdiInputLost ⟨1, some (frameOf any3)⟩) (ev (sdi locked))).sdiIn 1).nextIndex = 5
    ∧ ((after (.sdiInputLost ⟨1, none⟩) (ev (sdi locked))).sdiIn 1).nextIndex = 4
    ∧ fed.spkRunning 2 = true ∧ (fed.skc 2).kind = 4 ∧ (fed.skc 2).id = 1
    ∧ ((after (.sdiInputFrame 1 (frameOf any3)) (ev fed)).spkOf 2).arrivals.map (·.index) = [4]
    ∧ (after (.sdiInputFrame 1 (frameOf ⟨0, 12, 2, 0⟩)) (ev fed)).ctrs = [(0x90C54, 1)]
    ∧ after (.sdiInputLock 1 any3) (ev (sdi {})) = sdi {} ∧ after (.sdiInputLost ⟨1, none⟩) (ev (sdi {})) = sdi {}
    ∧ after (.sdiInputFrame 1 (frameOf any3)) (ev (sdi {})) = sdi {} := by decide +kernel

/-! ## Two-wire controllers -/

/-- Controller 2 with entry 5 a plain target of a 16-bit pointer, and entry 6 a class M target. -/
def bus (v : TwCtl) : Dev := { regs drv [(0xC2000, 1 + 3 * 4096 + 35 * 2 ^ 24), (0xC2150, 0xB6 + 2 ^ 14 + 8 * 65536),
  (0xC2160, 0xB7 + 4096)] with tw := { ctl := [(2, v)] } }
def cTw (o : Nat) (l : List (Nat × Nat)) : Cmd := cm 11 o ((4, 2) :: l)
def cXfer : Cmd := cTw 16 [(4, 5 * 256), (5, 0x3012), (6, 2), (7, 4096)]
def xfer1 : Xfer := newXfer cXfer [5, 0x5A] drv

/-- `TwoWireCommands`. -/
theorem test_tw_enable : (st (bus {}) (cTw 1 [])).dev.clear specTwEnable r1 (cTw 1 []) = true ∧ (bus {}).twInReset 2 = false
    ∧ (bus {}).fld (twReg 2 0) 1 0 = 1 ∧ posted (.twEnable r1 (some 9)) (st (bus {}) (cTw 1 [])) = [(0, 9)]
    ∧ posted (.twEnable r1 none) (st (bus {}) (cTw 1 [])) = [(stStuckLow, 9)]
    ∧ ((after (.twEnable r1 none) (st (bus {}) (cTw 1 []))).ctl 2).state = .stuck
    ∧ (regs (bus {}) [(0xC2000, 3)]).fld (twReg 2 0) 1 0 = 3
    ∧ posted (.twEnable r1 (some 0)) (st (regs (bus {}) [(0xC2000, 3)]) (cTw 1 [])) = [(stInvalidField, 4)] := by decide +kernel
theorem test_tw_disable : (st (bus { state := .enabled }) (cTw 2 [])).dev.clear specTwDisable r1 (cTw 2 []) = true
    ∧ (bus {}).allProgs = [] ∧ posted (.twDisable r1) (st (bus { state := .enabled }) (cTw 2 [])) = [(0, 0)]
    ∧ ((after (.twDisable r1) (st (bus { state := .enabled }) (cTw 2 []))).ctl 2).state = .disabled := by decide +kernel
theorem test_tw_xfer : (st (bus { state := .enabled }) cXfer).dev.clear specTwXfer r1 cXfer = true
    ∧ ((after (.twXfer r1 [5, 0x5A]) (st (bus { state := .enabled }) cXfer)).ctl 2).xfers = [xfer1]
    ∧ (st (bus { state := .stuck }) cXfer).dev.clear specTwXfer r1 cXfer = true
    ∧ posted (.twXfer r1 []) (st (bus { state := .stuck }) cXfer) = [(stEngineDown, 0)] := by decide +kernel

/-- `TwoWireTransfers` and `TwoWireBusState`. -/
def ready2 (f : TwCtl → TwCtl) : Dev := bus (f { state := .enabled, xfers := [xfer1] })
def onBus (f : TwCtl → TwCtl) : Dev := { ready2 fun v => f { v with cur := some (.xfer r1), lastEntry := 5 } with
  hif := { drv.hif with cmds := [{ cXfer with begun := true }] } }
def txEnd : TxEnd := { written := 2, read := [], pecOk := true, nack := none, blockCount := 0 }
theorem test_tw_start : (ready2 id).twFree 2 = true ∧ (ready2 id).lockLets 2 1 = true ∧ (ready2 id).allProgs = []
    ∧ (after (.twTransactionStart 2) (ev (ready2 id))).out = [.twStart 2 [0x6C, 0x30, 0x12, 5, 0x5A]]
    ∧ ((after (.twTransactionStart 2) (ev (ready2 id))).ctl 2).cur = some (.xfer r1) := by decide +kernel
theorem test_tw_end : (onBus id).tgtSmbus 2 5 = false ∧ xfer1.op = 0 ∧ xfer1.rlen = 0 ∧ xfer1.wlen = 2 ∧ (onBus id).chunk 2 xfer1 = 2
    ∧ posted (.twTransactionEnd 2 txEnd) (ev (onBus id)) = [(0, 2 + 4096 * 2 ^ 32)]
    ∧ (posted (.busNack 2 1 0) (ev (onBus id))).map (·.1) = [stBusNack] := by decide +kernel
theorem test_tw_loss : (posted (.arbitrationLoss 2 4 4) (ev (onBus id))).map (·.1) = [stArbLost]
    ∧ ((after (.arbitrationLoss 2 4 4) (ev (onBus fun v => { v with arbLeft := 1 }))).ctl 2).hold = .lost := by decide +kernel
theorem test_tw_stretch : (onBus id).stretchOn 2 = true ∧ (posted (.stretchTimeout 2 1) (ev (onBus id))).map (·.1) = [stStretchTimeout]
    ∧ ((after (.stretchTimeout 2 1) (ev (onBus id))).ctl 2).sclHeld = true
    ∧ (onBus fun v => { v with lastEntry := 6 }).tgt 2 6 0 12 12 = 1
    ∧ (posted (.stretchViolation 2 1) (ev (onBus fun v => { v with lastEntry := 6 }))).map (·.1) = [stStretchViolation] := by
  decide +kernel
def sleeping (b : Bool) : Dev := ready2 fun v => { v with cur := some (.xfer r1), hold := .waking, busBusy := b }
theorem test_tw_wake : (sleeping true).twFree 2 = false ∧ ((after (.wakeDelayExpiry 2) (ev (sleeping true))).ctl 2).hold = .lost
    ∧ after (.wakeDelayExpiry 2) (ev (onBus id)) = onBus id := by decide +kernel
theorem test_tw_bus : ((after (.busFreeTimeout 2) (ev (bus { busBusy := true }))).ctl 2).busBusy = false
    ∧ ((after (.startOrStopSeen 2 true) (ev (bus {}))).ctl 2).busBusy = true
    ∧ (after (.sclReleased 2) (ev (bus { sclHeld := true }))).out = [.twStop 2]
    ∧ after (.sclReleased 2) (ev (bus {})) = bus {} := by decide +kernel

/-! ## Network, time and Peloton -/

/-- Port 1 as `v` says, domain 1 on it as `w` says, the ring 4 for PTP and ring 5 for the Peloton. -/
def net (v : Eth) (w : Dom) (f : NtuB → NtuB) : Dev := { regs drv [(0xA004C, 0xC0A80001), (0xA0044, 0x11223344), (0xA0048, 0x5566),
    (0xA0240, 1 + 0xD0000 + 24 * 2 ^ 24)] with
  ntu := f { ports := [(1, v)], doms := [(1, w)] }
  hif := { drv.hif with rings := [(4, { live := true, slots := 16, kinds := 16 }), (5, { live := true, slots := 16, kinds := 32 })] } }
def isUp : Eth := { up := true, link := true, speed := 1 }
def cNtu (o : Nat) (l : List (Nat × Nat)) : Cmd := cm 9 o l

/-- `EthernetPorts`. -/
def idle1 : Dev := net {} {} id
def linked1 : Dev := net isUp {} id
def trying : Dev := net { up := true } {} id
theorem test_eth_up : (st idle1 (cNtu 1 [(4, 1)])).dev.clear specEthUp r1 (cNtu 1 [(4, 1)]) = true ∧ idle1.noCode 3 = false
    ∧ idle1.ethBad 1 = false ∧ posted (.ethUp r1) (st idle1 (cNtu 1 [(4, 1)])) = [(0, 0)]
    ∧ posted (.ethUp r1) (st linked1 (cNtu 1 [(4, 1)])) = [(0, 1)] ∧ drv.ethBad 1 = true
    ∧ posted (.ethUp r1) (st drv (cNtu 1 [(4, 1)])) = [(stInvalidField, 4)]
    ∧ posted (.ethUp r1) (st { idle1 with oms := {} } (cNtu 1 [(4, 1)])) = [(stEngineDown, 0)] := by decide +kernel
theorem test_eth_down : (st linked1 (cNtu 2 [(4, 1)])).dev.clear specEthDown r1 (cNtu 2 [(4, 1)]) = true
    ∧ posted (.ethDown r1) (st linked1 (cNtu 2 [(4, 1)])) = [(0, 0)]
    ∧ (after (.ethDown r1) (st linked1 (cNtu 2 [(4, 1)]))).eth 1 = {} := by decide +kernel
theorem test_eth_link : ((after (.ethLinkUp 1 1) (ev trying)).eth 1).link = true
    ∧ (after (.ethLinkUp 1 1) (ev trying)).out.head? = some (.net 1 none (.igmpReport 0xE0000181))
    ∧ ((after (.speedAlternate 1) (ev trying)).eth 1).trial = 2 ∧ trying.fld 0xA0040 1 0 = 0
    ∧ ((after (.ethLinkDown 1) (ev linked1)).eth 1).link = false ∧ after (.ethLinkUp 1 1) (ev linked1) = linked1
    ∧ after (.speedAlternate 1) (ev idle1) = idle1 ∧ after (.ethLinkDown 1) (ev idle1) = idle1 := by decide +kernel
theorem test_eth_answers : linked1.reg (0xA000C + 0x40 * 1) = 0xC0A80001
    ∧ (after (.arpRequest 1 0xC0A80001) (ev linked1)).out = [.net 1 none (.arpReply 0xC0A80001 0x556611223344)]
    ∧ after (.arpRequest 1 5) (ev linked1) = linked1 ∧ (after (.igmpQuery 1) (ev linked1)).out.length = 1
    ∧ (after (.rxFcsErr 1) (ev linked1)).ctrs = [(0xA0074, 1)] ∧ after (.rxFcsErr 1) (ev idle1) = idle1 := by decide +kernel
def bridge (l : List TcTrack) : Dev := { regs linked1 [(0xA0100, 1)] with ntu := { ports := [(0, isUp), (1, isUp)], tc := l } }
def fwd (ptp : Nat) (full : Bool) (len : Nat) : BridgeFrame := { dstIsPort := false, multicast := false, bufferFull := full, ptp := ptp
                                                                 seq := 9, srcId := 8, corr := 100, residence := 23, len := len }
def track : TcTrack := { port := 1, srcId := 8, seq := 9, residence := 23 }
theorem test_bridge : (bridge []).bridging = true ∧ (after (.frameForward 1 (fwd 1 false 9216)) (ev (bridge []))).out
      = [.net 0 none (.forwarded (fwd 1 false 9216) 123)]
    ∧ (after (.frameForward 1 (fwd 0 true 64)) (ev (bridge []))).ctrs = [(0xA0070, 1)]
    ∧ (after (.frameForward 1 (fwd 2 false 64)) (ev (bridge []))).ntu.tc = [track]
    ∧ (after (.frameForward 1 (fwd 3 false 64)) (ev (bridge [track]))).out = [.net 0 none (.forwarded (fwd 3 false 64) 123)]
    ∧ (after (.frameForward 1 (fwd 3 false 64)) (ev (bridge []))).ctrs = [(0xA007C, 1)]
    ∧ after (.frameForward 1 (fwd 0 false 9217)) (ev (bridge [])) = bridge []
    ∧ (after (.frameForward 1 (fwd 2 false 64)) (ev (bridge (List.replicate 16 track)))).ntu.tc.length = 16
    ∧ (after (.tcSyncTrackExpiry 1 8 9) (ev (bridge [track]))).ntu.tc = [] := by decide +kernel

/-- `PtpDomains`. -/
def dom (f : Dom → Dom) : Dev := net isUp (f { role := 1, counter := 5 * 2 ^ 32 }) id
def cDom (o : Nat) (l : List (Nat × Nat)) : Cmd := cNtu o ((4, 1) :: l)
theorem test_dom_start : (st idle1 (cDom 0x10 [])).dev.clear specDomStart r1 (cDom 0x10 []) = true ∧ idle1.domBad 1 = false
    ∧ posted (.ntuDomStart r1) (st idle1 (cDom 0x10 [])) = [(0, 0)]
    ∧ ((after (.ntuDomStart r1) (st idle1 (cDom 0x10 []))).dom 1).role = 1
    ∧ posted (.ntuDomStart r1) (st (dom id) (cDom 0x10 [])) = [(0, 0)]
    ∧ (regs idle1 [(0xA0240, 0x80000000)]).domBad 1 = true
    ∧ posted (.ntuDomStart r1) (st (regs idle1 [(0xA0240, 0x80000000)]) (cDom 0x10 [])) = [(stInvalidField, 4)] := by decide +kernel
theorem test_dom_stop : (st (dom id) (cDom 0x11 [])).dev.clear specDomStop r1 (cDom 0x11 []) = true
    ∧ ((after (.ntuDomStop r1) (st (dom id) (cDom 0x11 []))).dom 1).role = 0 := by decide +kernel
def unlinked : Dev := net { up := true } { role := 1 } id
theorem test_dom_role : (st (dom id) (cDom 0x12 [(4, 32), (5, 7), (7, 1)])).dev.clear specDomRole r1 (cDom 0x12 [(4, 32), (5, 7), (7, 1)]) = true
    ∧ ((after (.ntuDomRole r1) (st (dom id) (cDom 0x12 [(4, 32), (5, 7), (7, 1)]))).dom 1).masterId = 7
    ∧ posted (.ntuDomRole r1) (st unlinked (cDom 0x12 [(4, 32)])) = [(stLinkDown, 0)]
    ∧ posted (.ntuDomRole r1) (st unlinked (cDom 0x12 [(4, 16)])) = [(0, 0)] := by decide +kernel
def cIncr : Cmd := cDom 0x13 [(4, 256), (5, 0x000FFFFF), (6, 4)]
def cPhase64 : Cmd := cDom 0x14 [(5, 0xFFFFFFFF), (6, 0xFFFFFFFF)]
theorem test_dom_incr : (st (dom id) cIncr).dev.clear specSetIncr r1 cIncr = true
    ∧ ((after (.ntuSetIncr r1) (st (dom id) cIncr)).dom 1).incr = 0x4000FFFFF
    ∧ ((after (.ntuSetIncr r1) (st (dom id) cIncr)).dom 1).locked = true := by decide +kernel
theorem test_dom_phase : (st (dom id) cPhase64).dev.clear specAdjPhase r1 cPhase64 = true
    ∧ ((after (.ntuAdjPhase r1) (st (dom id) cPhase64)).dom 1).counter = 5 * 2 ^ 32 - 65536 := by decide +kernel
def cTmpl (m len : Nat) : Cmd := cDom 0x15 [(4, m * 16 + len * 256)]
theorem test_template : (st (dom id) (cTmpl 0 64)).dev.clear specSetTemplate r1 (cTmpl 0 64) = true
    ∧ ((after (.ntuSetTemplate r1 (List.replicate 64 3)) (st (dom id) (cTmpl 0 64))).dom 1).announce = some (List.replicate 64 3)
    ∧ (st (dom id) (cTmpl 1 0)).dev.clear specSetTemplate r1 (cTmpl 1 0) = true
    ∧ ((after (.ntuSetTemplate r1 []) (st (dom fun v => { v with metadata := some [1] }) (cTmpl 1 0))).dom 1).metadata = none := by
  decide +kernel
def cSel (x : Nat) : Cmd := cDom 0x20 [(4, x)]
theorem test_select : (st (dom id) (cSel 256)).dev.clear specSelect r1 (cSel 256) = true
    ∧ (after (.ntuSelect r1) (st (dom id) (cSel 256))).ntu.lts = 5 * 2 ^ 32
    ∧ posted (.ntuSelect r1) (st (dom id) (cSel 0)) = [(0, 1)] ∧ (after (.ntuSelect r1) (st (dom id) (cSel 0))).ntu.lts = 0 := by
  decide +kernel
theorem test_read_time : (st (dom id) (cNtu 0x21 [(5, 64)])).dev.clear specReadTime r1 (cNtu 0x21 [(5, 64)]) = true
    ∧ posted (.ntuReadTime r1) (st (dom id) (cNtu 0x21 [(5, 64)])) = [(0, 0)] := by decide +kernel
def slewing (c : Nat) : Dev := net isUp { role := 1, counter := c } fun v => { v with sel := 1, slewing := true }
theorem test_slew_end : (slewing 3).ltsFollows = some 1 ∧ (slewing 3).ltsDiff.natAbs < (slewing 3).slewAdj ((slewing 3).dom 1).incr
    ∧ (after .slewEnd (ev (slewing 3))).ntu.lts = 3 ∧ (after .slewEnd (ev (slewing 3))).ntu.slewing = false
    ∧ after .slewEnd (ev (dom id)) = dom id := by decide +kernel
def msg (two : Bool) (src : Nat) : PtpMsg := {
  domain := 24, seq := 3, srcId := src, srcPort := 1, twoStep := two, time := 77, corr := 5, reqOwn := true }
def y3 : PendSync := { seq := 3, srcId := 8, srcPort := 1, t2 := 4, corr := 6 }
theorem test_sync : (dom id).domHears 1 1 24 = true ∧ ((dom id).dom 0).role = 0 ∧ (dom id).domTakes 1 (msg true 8) = true
    ∧ ((after (.syncReceived 1 (msg true 8)) (ev (dom id))).dom 1).pend = some { y3 with t2 := 5 * 2 ^ 32, corr := 5 }
    ∧ (dom id).ringOf 4 = some 4 ∧ (dom id).fits 4 2 = true ∧ recs (.syncReceived 1 (msg false 8)) (ev (dom id)) = [0x4100]
    ∧ recs (.followUpReceived 1 (msg true 8)) (ev (dom fun v => { v with pend := some y3 })) = [0x4100]
    ∧ (dom fun v => { v with role := 3 }).domTakes 1 (msg true 8) = false
    ∧ after (.syncReceived 1 (msg true 8)) (ev (dom fun v => { v with role := 3 })) = dom fun v => { v with role := 3 } := by
  decide +kernel
theorem test_delay : ((after (.delayRespReceived 1 (msg true 8)) (ev (dom fun v => { v with asked := some (3, 70) }))).dom 1).exch
      = some { seq := 3, t3 := 70, t4 := 77, corr := 5 }
    ∧ (after (.delayReqReceived 1 (msg true 8)) (ev (dom fun v => { v with role := 3 }))).out
      = [.net 1 none (.delayResp 24 3 8 1 (5 * 2 ^ 32) 5)]
    ∧ after (.delayReqReceived 1 (msg true 8)) (ev (dom id)) = dom id
    ∧ recs (.ptpMsg 1 (msg true 8) (List.replicate 192 1)) (ev (dom id)) = [0x4101] := by decide +kernel
def master : Dev := dom fun v => { v with role := 3, announce := some [1], metadata := some [2], annSeq := 65535 }
theorem test_sends : master.domSends 1 3 = true ∧ ((after (.announceSend 1) (ev master)).dom 1).annSeq = 0
    ∧ ((after (.syncSend 1) (ev master)).dom 1).syncSeq = 1 ∧ ((after (.metadataSend 1) (ev master)).dom 1).metaSeq = 1
    ∧ (dom fun v => { v with role := 2 }).domSends 1 2 = true
    ∧ ((after (.delayReqSend 1) (ev (dom fun v => { v with role := 2 }))).dom 1).asked = some (0, 5 * 2 ^ 32)
    ∧ after (.announceSend 1) (ev (dom id)) = dom id ∧ after (.delayReqSend 1) (ev master) = master := by decide +kernel

/-- `PelotonMessages`. -/
def cJoin : Cmd := cNtu 0x30 [(4, 5 + 65536 + 16777216), (5, 7), (6, 0xE0010101), (7, 10), (8, 100)]
def member (leader : Bool) : PelMember := { id := 5, leader := leader, port := 1, group := 7, udp := 0, ip := 0xE0010101, schedMs := 10
                                            statusMs := 100, holdMs := 100 }
def pel (leader : Bool) (f : Pel → Pel) : Dev := net isUp { role := 2, gm := 40 } fun v => { v with
  sel := 1, pel := f { member := some (member leader), seq := 4294967295 } }
theorem test_pel_join : (st linked1 cJoin).dev.clear specPelJoin r1 cJoin = true ∧ posted (.pelJoin r1) (st linked1 cJoin) = [(0, 0)]
    ∧ ((after (.pelJoin r1) (st linked1 cJoin)).ntu.pel.member.map (·.ip)) = some 0xE0010101
    ∧ posted (.pelJoin r1) (st idle1 cJoin) = [(stLinkDown, 0)] := by decide +kernel
theorem test_pel_leave : (st (pel false id) (cNtu 0x31 [])).dev.clear specPelLeave r1 (cNtu 0x31 []) = true
    ∧ (after (.pelLeave r1) (st (pel false id) (cNtu 0x31 []))).ntu.pel = { seq := 4294967295 } := by decide +kernel
def schedBlock : List Byte := blk 76 [(0, 4, 25), (4, 4, 1)]
def leaderDown : Dev := net { up := true } {} fun v => { v with pel := { member := some (member true) } }
theorem test_pel_schedule : (st (pel true id) (cNtu 0x32 [])).dev.clear specPelSchedule r1 (cNtu 0x32 []) = true
    ∧ schedBlock.length = 76 ∧ blkOffs 5 ((pel true id).schedBlk (cNtu 0x32 []) schedBlock) = []
    ∧ posted (.pelSchedule r1 schedBlock) (st (pel true id) (cNtu 0x32 [])) = [(0, 4294967295)]
    ∧ (after (.pelSchedule r1 schedBlock) (st (pel true id) (cNtu 0x32 []))).ntu.pel.seq = 0
    ∧ posted (.pelSchedule r1 schedBlock) (st leaderDown (cNtu 0x32 [])) = [(stLinkDown, 0)] := by decide +kernel
def sch : Sched := { num := 25, den := 1, epoch := 0, offNs := 0 }
def schMsg (g : Nat) : SchedMsg := { group := g, sender := 9, leader := true, seq := 1, cur := sch, change := none, gm := 40, ptpDomain := 24 }
theorem test_schedule_in : (pel false id).myGm = some 40 ∧ schedOk sch = true ∧ seqLater 4294967295 1 = true
    ∧ (after (.scheduleReceived 1 (schMsg 7)) (ev (pel false id))).ntu.pel.cur = some sch
    ∧ (after (.scheduleReceived 1 (schMsg 7)) (ev (pel true id))).ntu.pel.cur = none
    ∧ after (.scheduleReceived 1 (schMsg 8)) (ev (pel false id)) = pel false id := by decide +kernel
def statMsg : StatusMsg := { group := 7, sender := 9, leader := false, seq := 1, lastIndex := 3, schedSeq := 2, state := 1, slewRemain := 0 }
theorem test_status_in : (pel true id).ringOf 5 = some 5 ∧ (pel true id).fits 5 1 = true
    ∧ recs (.statusReceived 1 statMsg) (ev (pel true id)) = [0x5001] ∧ after (.statusReceived 1 statMsg) (ev (pel false id)) = pel false id := by
  decide +kernel
def leading : Dev := pel true fun v => { v with cur := some sch }
theorem test_pel_sends : (after .scheduleSend (ev leading)).ntu.pel.last = some (5, 4294967295) ∧ (after .scheduleSend (ev leading)).out.length = 1
    ∧ (after .statusSend (ev leading)).ntu.pel.seq = 0 ∧ (after .statusSend (ev leading)).out.length = 1
    ∧ after .scheduleSend (ev (pel false id)) = pel false id ∧ after .statusSend (ev leaderDown) = leaderDown
    ∧ (after .leaderLost (ev (pel false id))).ntu.pel.lost = true ∧ after .leaderLost (ev leading) = leading := by decide +kernel

/-! ## Power, temperature and engines -/

/-- Islands as listed. -/
def powered (l : List (Nat × Island)) (f : PwrB → PwrB) : Dev := { drv with pwr := f { isl := l } }
def geared (g below pin : Nat) : Dev := powered [(28, { st := 0, gear := g, below := below, pin := pin })] id
def decided (d : Dev) : Nat × Nat := let v := (after (.derailleurDecision [] []) (ev d)).isl 28
  (v.gear, v.below)

/-- `PowerAndEngines`. -/
theorem test_island : (powered [(28, { st := 0, gear := 4 })] id).islandDepth 28 = 2
    ∧ (after (.islandLowPowerEntry 28 true) (ev (powered [(28, { st := 0, gear := 4 })] id))).isl 28 = { st := 3 }
    ∧ after (.islandLowPowerEntry 28 true) (ev drv) = drv ∧ after (.islandWake 28) (ev (geared 4 0 0)) = geared 4 0 0
    ∧ ((after (.islandWake 55) (ev drv)).isl 55).gear = 0 ∧ (drv.isl 55).st ≠ 0
    ∧ after (.islandWake 28) (ev (without [28] drv)) = without [28] drv := by decide +kernel
theorem test_derailleur : (geared 4 2 0).candidate 28 = 1 ∧ (geared 4 2 0).ceiling 28 = 8 ∧ (geared 4 2 0).awake 28 = true
    ∧ decided (geared 4 2 0) = (4, 3) ∧ decided (geared 4 3 0) = (3, 0) ∧ decided (geared 1 2 0) = (1, 0)
    ∧ decided (geared 4 2 6) = (6, 2) ∧ decided (regs (geared 7 2 0) [(0xD0000, 65536 + 4096 + 5 * 256)]) = (5, 2) := by decide +kernel
def batching : Dev := powered [(38, { st := 0, gear := 1 })] id
theorem test_derailleur_up : batching.candidate 38 = 4 ∧ ((after (.derailleurDecision [] []) (ev batching)).isl 38).gear = 4 := by
  decide +kernel
def warm (warn cap : Bool) : Dev := powered [(28, { st := 0, gear := 5 })] fun v => { v with warn := warn, cap := cap }
theorem test_temperature : (after (.hkRound 1680 [] []) (ev (warm false false))).pwr.warn = true
    ∧ (after (.hkRound 1680 [] []) (ev (warm false false))).pwr.cap = true
    ∧ (after (.hkRound 1680 [] []) (ev (warm false false))).thermCeil 28 = 5
    ∧ (after (.extraDiodeConversion 1631) (ev (warm true true))).pwr.cap = false
    ∧ (after (.extraDiodeConversion 1551) (ev (warm true true))).pwr.warn = false
    ∧ (after (.extraDiodeConversion 1552) (ev (warm true true))).pwr.warn = true := by decide +kernel
theorem test_trip : (after (.hkRound 1888 [] []) (ev (warm false false))).boot.tripped = true
    ∧ (after (.extraDiodeConversion 1888) (ev (warm true true))).teu.enabled = 0
    ∧ (SMap.get 0 (after (.hkRound 300 [] [(9, 65537, true)]) (ev drv)).pwr.hk 9) = 1
    ∧ ((after (.hkRound 300 [] [(9, 65537, true)]) (ev drv)).reg 0xD0424).testBit 31 = true := by decide +kernel
def cPwr (o : Nat) (l : List (Nat × Nat)) : Cmd := cm 12 o l
def cPinG (g : Nat) : Cmd := cPwr 3 [(4, 28 + g * 256)]
def capped : Dev := powered [(28, { st := 0, gear := 5 })] fun v => { v with ceil := [(28, 5)] }
theorem test_pin_gear : (st capped (cPinG 5)).dev.clear specPinGear r1 (cPinG 5) = true ∧ capped.ceiling 28 = 5
    ∧ posted (.pwrPinGear r1) (st capped (cPinG 5)) = [(0, 5)] ∧ posted (.pwrPinGear r1) (st capped (cPinG 0)) = [(0, 5)]
    ∧ posted (.pwrPinGear r1) (st capped (cPinG 6)) = [(stThermal, 0)] := by decide +kernel
def cCfg : Cmd := cPwr 4 [(4, 10 * 65536 + 4 * 4096 + 8 * 256 + 100)]
theorem test_set_cfg : (st drv cCfg).dev.clear specSetCfg r1 cCfg = true
    ∧ (after (.pwrSetCfg r1) (st drv cCfg)).reg 0xD0000 = 10 * 65536 + 4 * 4096 + 8 * 256 + 100 := by decide +kernel
def cDis (x : Nat) : Cmd := cPwr 1 [(4, 28 + x)]
theorem test_disable : (st drv (cDis 0)).dev.clear specIslandDisable r1 (cDis 0) = true ∧ drv.noWork = true ∧ drv.islandWork 28 = false
    ∧ posted (.pwrIslandDisable r1) (st drv (cDis 0)) = [(0, 0)] ∧ (after (.pwrIslandDisable r1) (st drv (cDis 0))).pwr.disabled = [28]
    ∧ posted (.pwrIslandDisable r1) (st (without [28] drv) (cDis 0)) = [(0, 0)]
    ∧ (onPic (pic1 1 0)).islandWork 28 = true ∧ posted (.pwrIslandDisable r1) (st (onPic (pic1 1 0)) (cDis 0)) = [(stEngineBusy, 0)]
    ∧ (cDis 256).b 4 8 = true := by decide +kernel
theorem test_island_enable : (st (without [28] drv) (cPwr 2 [(4, 28)])).dev.clear specIslandEnable r1 (cPwr 2 [(4, 28)]) = true
    ∧ (after (.pwrIslandEnable r1) (st (without [28] drv) (cPwr 2 [(4, 28)]))).pwr.disabled = [] := by decide +kernel
def cRst (e : Nat) : Cmd := cPwr 16 [(4, e)]
def resetting (e : Nat) : Dev := { drv with eng := { resets := [{ code := e, ref := some r1, ended := 2, kept := 3, dropped := 4 }] } }
def live28 : Dev := { coding id with pwr := { isl := [(28, { st := 0, gear := 4 })] } }
theorem test_engine_reset : (st live28 (cRst 0x28)).dev.clear specEngineReset r1 (cRst 0x28) = true
    ∧ live28.engAsleep 0x28 = false ∧ live28.noWork = true
    ∧ (after (.engineReset r1 7) (st live28 (cRst 0x28))).eng.resets = [{ code := 0x28, ref := some r1, dropped := 7 }]
    ∧ posted (.engineReset r1 0) (st (without [28] drv) (cRst 0x28)) = [(stEngineDown, 0)]
    ∧ drv.engAsleep 0x28 = true ∧ posted (.engineReset r1 0) (st drv (cRst 0x28)) = [(0, 0)]
    ∧ ((after (.engineReset r1 0) (st (resetting 0x28) (cRst 0x28))).eng.resets.map (·.also)) = [[r1]]
    ∧ (after (.engineReset r1 0) (st (bus { state := .enabled }) (cRst 0x4A))).eng.resets.map (·.was) = [true]
    ∧ (bus { state := .enabled }).engAsleep 0x4A = false ∧ (bus { state := .enabled }).noWork = true := by decide +kernel
theorem test_port_reset : (runs id).gangOf 0 = (0, 1) ∧ (runs id).engAsleep 0x40 = false ∧ (runs id).noWork = true
    ∧ ((runs id).port 0).programs = [] ∧ ((runs id).port 0).waiting = []
    ∧ ((after (.engineReset r1 0) (st (runs id) (cRst 0x40))).port 0).state = .stopped := by decide +kernel
theorem test_reset_done : (after (.engineResetDone 0x28 none) (st (resetting 0x28) { cRst 0x28 with begun := true })).eng.resets = []
    ∧ posted (.engineResetDone 0x28 none) (st (resetting 0x28) { cRst 0x28 with begun := true }) = [(0, 2 + 3 * 65536 + 4 * 2 ^ 32)]
    ∧ after (.engineResetDone 0x28 none) (ev drv) = drv := by decide +kernel

/-! ## Management -/

/-- Firmware of version 5 runs from slot A, slot B holds version 6, COUNTER is 3. -/
def managed (f : OmsB → OmsB) : Dev := { drv with oms := f { drv.oms with
  flash := true, counter := 3, running := some { image with version := 5 }, slotA := .image { image with version := 5 }
  slotB := .image { image with version := 6 } } }
def cMgmt (o : Nat) (l : List (Nat × Nat)) : Cmd := cm 13 o l
def cStage (x : Nat) : Cmd := cMgmt 1 [(4, x), (5, 4096), (7, 65536)]
theorem test_stage : (st (managed id) (cStage 1)).dev.clear specStage r1 (cStage 1) = true ∧ (st (managed id) (cStage 1)).dev.served (cStage 1) = true
    ∧ (managed id).stageSlot 1 = some true ∧ kindFits image (some true) = true ∧ (managed id).containerOk image = true
    ∧ posted (.mgmtUpdateStage r1 image true) (st (managed id) (cStage 1)) = [(0, 3 + 31 * 256)]
    ∧ posted (.mgmtUpdateStage r1 image false) (st (managed id) (cStage 1)) = [(stMediaError, 0)]
    ∧ posted (.mgmtUpdateStage r1 { image with kind := 2 } true) (st (managed id) (cStage 1)) = [(stInvalidField, 4)]
    ∧ posted (.mgmtUpdateStage r1 { image with sigOk := false } true) (st (managed id) (cStage 1)) = [(stAuthFailed, 0)]
    ∧ posted (.mgmtUpdateStage r1 { image with version := 2 } true) (st (managed id) (cStage 1)) = [(stRollback, 0)] := by decide +kernel
def cAct (x : Nat) : Cmd := cMgmt 2 [(4, x), (5, if x % 4 < 2 then 0 else 60)]
def brokenB : Dev := managed fun o => { o with slotB := .image { image with version := 2 } }
theorem test_activate : (st (managed id) (cAct 1)).dev.clear specActivate r1 (cAct 1) = true ∧ ((managed id).verifySlot true).1 = 0
    ∧ posted (.mgmtUpdateActivate r1) (st (managed id) (cAct 1)) = [(0, 1)]
    ∧ (after (.mgmtUpdateActivate r1) (st (managed id) (cAct 1))).oms.active = true
    ∧ (after (.mgmtUpdateActivate r1) (st (managed id) (cAct 3))).oms.trial = 1
    ∧ (after (.mgmtUpdateActivate r1) (st (managed id) (cAct 7))).boot.rom = true
    ∧ (brokenB.verifySlot true).1 = 3 ∧ posted (.mgmtUpdateActivate r1) (st brokenB (cAct 1)) = [(stRollback, 0)] := by decide +kernel
def cConf (x : Nat) : Cmd := cMgmt 3 [(4, x)]
def trying2 : Dev := let d := managed fun o => { o with trial := 2, timer := some 60 }
  { d with boot := { d.boot with slotB := true } }
theorem test_confirm : (st (managed id) (cConf 1)).dev.clear specConfirm r1 (cConf 1) = true ∧ (managed id).runVersion = 5
    ∧ posted (.mgmtUpdateConfirm r1 true) (st (managed id) (cConf 1)) = [(0, 5)]
    ∧ (posted (.mgmtUpdateConfirm r1 false) (st (managed id) (cConf 1))).map (·.1) = [stInternal]
    ∧ posted (.mgmtUpdateConfirm r1 true) (st (managed id) (cConf 0)) = [(0, 3)]
    ∧ (after (.mgmtUpdateConfirm r1 true) (st trying2 (cConf 0))).oms.active = true
    ∧ (after (.mgmtUpdateConfirm r1 true) (st trying2 (cConf 2))).oms.active = false
    ∧ (after (.mgmtUpdateConfirm r1 true) (st trying2 (cConf 2))).oms.timer = none := by decide +kernel
def cLoad (e x : Nat) : Cmd := cMgmt 4 [(4, e + x)]
def staleCode : Dev := managed fun o => { o with code := [(2, {})] }
theorem test_engine_load : (st (managed id) (cLoad 2 0)).dev.clear specEngineLoad r1 (cLoad 2 0) = true
    ∧ (managed id).loadOff 2 = false ∧ (without [38] (managed id)).loadOff 2 = true ∧ (managed id).codeCurrent 2 = true
    ∧ posted (.mgmtEngineLoad r1 true) (st (managed id) (cLoad 2 0)) = [(0, 0)]
    ∧ posted (.mgmtEngineLoad r1 true) (st (without [38] (managed id)) (cLoad 2 0)) = [(stEngineDown, 0)]
    ∧ staleCode.pendingCtx 2 = false ∧ staleCode.codeCurrent 2 = false ∧ staleCode.runCode 2 = some 3
    ∧ posted (.mgmtEngineLoad r1 true) (st staleCode (cLoad 2 0)) = [(0, 1)]
    ∧ (posted (.mgmtEngineLoad r1 false) (st staleCode (cLoad 2 0))).map (·.1) = [stInternal]
    ∧ (coding id).pendingCtx 0 = true ∧ posted (.mgmtEngineLoad r1 true) (st (coding id) (cLoad 0 0)) = [(stEngineBusy, 0)] := by
  decide +kernel
def entry (n : Nat) : LogEntry := { seq := n, boot := 1, sev := 0, code := 1, frame := 0, time := 0, page := 0, inst := 0, tag := none
                                    arg0 := 0, arg1 := 0 }
def logged : Dev := managed fun o => { o with log := [entry 7, entry 8, entry 9], logSeq := 10 }
def cLogRead : Cmd := cMgmt 16 [(4, 8), (5, 4096), (6, 4096)]
theorem test_log_read : (st logged cLogRead).dev.clear specLogRead r1 cLogRead = true ∧ logged.logFrom 8 = [entry 8, entry 9]
    ∧ posted (.mgmtLogRead r1) (st logged cLogRead) = [(0, 2 + 8 * 2 ^ 32)] := by decide +kernel
def cAtt : Cmd := cMgmt 32 [(12, 4096), (14, 25504)]
def cChal : Cmd := cMgmt 48 [(5, 4096)]
theorem test_attest : (st (managed id) cAtt).dev.clear specAttest r1 cAtt = true ∧ (st (managed id) cChal).dev.clear specChallenge r1 cChal = true
    ∧ posted (.mgmtAttest r1) (st (managed id) cAtt) = [(0, 25504)] ∧ posted (.mgmtUnlockChallenge r1) (st (managed id) cChal) = [(0, 0)] := by
  decide +kernel
def closed (fails : Nat) (nonce : Option Nat) : Dev := managed fun o => { o with lifecycle := 2, authFails := fails, nonce := nonce, pwdHash := 5 }
def cAns (m len : Nat) : Cmd := cMgmt 49 [(4, m), (5, 4096), (7, len)]
theorem test_answer : (st (closed 7 (some 1)) (cAns 0 7856)).dev.clear specAnswer r1 (cAns 0 7856) = true
    ∧ (st (closed 7 none) (cAns 1 16)).dev.clear specAnswer r1 (cAns 1 16) = true
    ∧ posted (.mgmtUnlockAnswer r1 true) (st (managed id) (cAns 0 7856)) = [(0, 2)]
    ∧ posted (.mgmtUnlockAnswer r1 true) (st (closed 7 (some 1)) (cAns 0 7856)) = [(0, 2)]
    ∧ posted (.mgmtUnlockAnswer r1 true) (st (closed 7 none) (cAns 1 16)) = [(0, 1)]
    ∧ posted (.mgmtUnlockAnswer r1 true) (st (closed 8 (some 1)) (cAns 0 7856)) = [(stAuthFailed, 0)]
    ∧ (after (.mgmtUnlockAnswer r1 false) (st (closed 7 (some 1)) (cAns 0 7856))).oms.authFails = 8
    ∧ (after (.mgmtUnlockAnswer r1 true) (st (closed 7 none) (cAns 0 7856))).oms.authFails = 7 := by decide +kernel
def service (l : Nat) : Dev := let d := managed fun o => { o with lifecycle := l }
  { d with boot := { d.boot with mode := .service } }
def cLife : Cmd := cMgmt 64 [(5, 4096)]
theorem test_lifecycle : (st (service 0) cLife).dev.clear specLifecycle r1 cLife = true
    ∧ (service 0).lifeBad (blk 128 [(0, 1, 1), (32, 1, 9)]) = [] ∧ (service 1).lifeBad (blk 128 [(0, 1, 2), (1, 1, 1), (64, 1, 9)]) = []
    ∧ posted (.mgmtLifecycleAdvance r1 (blk 128 [(0, 1, 1), (32, 1, 9)]) true) (st (service 0) cLife) = [(0, 1)]
    ∧ (after (.mgmtLifecycleAdvance r1 (blk 128 [(0, 1, 2), (1, 1, 1), (64, 1, 9)]) true) (st (service 1) cLife)).oms.pwdHash = 9
    ∧ (posted (.mgmtLifecycleAdvance r1 (blk 128 [(0, 1, 1), (32, 1, 9)]) false) (st (service 0) cLife)).map (·.1) = [stInternal] := by
  decide +kernel
theorem test_log_period : (after .logPeriod (ev { drv with oms := { drv.oms with suppressed := 3, period := 1000 } })).oms.log.map
      (fun e => (e.code, e.arg0)) = [(0x060, 3)]
    ∧ (after .logPeriod (ev { drv with oms := { drv.oms with period := 1000 } })).oms.period = 0 := by decide +kernel

/-! ## Debug port -/

/-- `DebugPort`: open (lifecycle 0), closed. -/
def debug (f : DbgB → DbgB) : Dev := { drv with dbg := f {} }
def shut : Dev := closed 0 none
theorem test_tap : (after .idcode (ev drv)).out = [.tdo 32 Config.idcode.toNat] ∧ (after .bypass (ev drv)).dbg.ir = 0x1F
    ∧ (after .extest (ev drv)).dbg.ir = 0 ∧ (after .samplePreload (ev drv)).dbg.ir = 2 := by decide +kernel
theorem test_dm : dmNeeds 1 false = none ∧ dmNeeds 5 false = some 2 ∧ shut.dmClass = 0 ∧ drv.dmClass = 2
    ∧ (after (.dmAccess 1 0 1) (ev drv)).dbg.status = 12 ∧ (after (.dmAccess 5 0 1) (ev shut)).dbg.status = 8
    ∧ (after (.dmAccess 5 0 1) (ev (debug fun b => { b with halted := true, cause := 3, index := 7 }))).dbg.data = 1 + 48 + 1792
    ∧ (after (.dmAccess 6 9 2) (ev (debug fun b => { b with halted := true }))).dbg.pc = 9
    ∧ (after (.dmAccess 0 0 0) (ev drv)).dbg.status = 0 := by decide +kernel
theorem test_core : (after .halt (ev drv)).dbg.halted = true ∧ (after .halt (ev shut)).dbg.status = 8
    ∧ (after .resume (ev (debug fun b => { b with halted := true }))).dbg.halted = false
    ∧ (after .step (ev (debug fun b => { b with halted := true }))).dbg.cause = 2 ∧ (after .step (ev drv)).dbg.halted = false := by
  decide +kernel
theorem test_hits : (after (.breakpointHit 7) (ev (debug fun b => { b with bp := [(7, 65)] }))).dbg.pc = 64
    ∧ (after (.watchpointHit 3) (ev (debug fun b => { b with wpCtl := [(3, 2)] }))).dbg.cause = 4
    ∧ after (.breakpointHit 7) (ev drv) = drv ∧ after (.watchpointHit 3) (ev drv) = drv := by decide +kernel
def space (n a : Nat) : Dev := debug fun b => { b with memSpace := n, memAddr := a }
theorem test_mem_data : (space 2 33554428).spaceSize = some 33554432 ∧ (space 2 33554428).dmAddr + 4 ≤ 33554432
    ∧ (after (.memData true 0x04030201) (ev (space 2 33554428))).mem.sram = [(33554428, 1), (33554429, 2), (33554430, 3), (33554431, 4)]
    ∧ (after (.memData false 0) (ev (space 0 0))).dbg.memAddr = 4 ∧ (after (.memData false 0) (ev (space 1 0))).dbg.status = 0
    ∧ (after (.memData false 0) (ev (space 2 33554432))).dbg.status = 12 ∧ (space 5 0).spaceSize = none
    ∧ (after (.memData true 0) (ev (space 5 0))).dbg.status = 12 := by decide +kernel
theorem test_mem_back : let d := after (.memData true 0x04030201) (ev (space 2 8))
    let e : Dev := { d with dbg := { d.dbg with memAddr := 8 } }
    e.wroteAt 8 4 = true ∧ (after (.memData false 0) (ev e)).dbg.data = 0x04030201 ∧ e.wroteAt 9 4 = false := by decide +kernel
theorem test_freeze : pointOk 0x81 = true ∧ pointOk 0x82 = false
    ∧ (after (.freeze (0x181 + 5 * 65536)) (ev drv)).dbg.credits = 5 ∧ (after (.freeze 0x182) (ev drv)).dbg.status = 12
    ∧ (after (.freeze (0x181 + 5 * 65536)) (ev (debug fun b => { b with frozen := true, point := 0x81, credits := 2 }))).dbg.credits = 7
    ∧ (after (.release 9) (ev (debug fun b => { b with frozen := true, point := 0x81 }))).dbg.credits = 9
    ∧ after (.release 9) (ev drv) = drv := by decide +kernel
def asked (how n fails : Nat) : Dev := { closed fails (some 1) with dbg := { how := how, inBytes := List.replicate n 1 } }
theorem test_check : (after .challenge (ev drv)).dbg.inBytes = [] ∧ (after (.check true) (ev drv)).dbg.sts = 2
    ∧ (after (.check true) (ev (asked 0 7856 7))).oms.unlock = 2 ∧ (after (.check true) (ev (asked 3 16 7))).oms.unlock = 1
    ∧ (after (.check false) (ev (asked 0 7856 7))).dbg.sts = 3 ∧ (after (.check true) (ev (asked 0 7856 8))).dbg.sts = 4 := by
  decide +kernel

/-- SHA-256 of "abc" (FIPS 180-4). -/
theorem test_sha256 : (sha256 [0x61, 0x62, 0x63]).take 8 = [0xBA, 0x78, 0x16, 0xBF, 0x8F, 0x01, 0xCF, 0xEA] := by decide +kernel

/-! ## Well-formedness

For each check of WellFormed.lean, terms that it refuses; for each, the same term in range, which it lets through. -/

/-- An access unit of which no check asks anything. -/
def unit0 : AccessUnit := {
  errCode := 0, moreUnits := false, poc := 0, nut := 0, irap := true, gdr := false, recovery := none, exactMatch := false
  refs := [], keep := [], outputFlag := true, list0 := none, firstBadCtu := 0, ctusDecoded := 0, lost := [], ctb := 64
  bits := 0, picInfo := 0, w := 64, h := 64, codedW := 64, codedH := 64, x0 := 0, y0 := 0, data := []
  chroma := 1, depth := 8, full := false, newSeq := false, noPrior := false
  reorder := 0, latency := 0, size := 1, eos := false }

/-- A stream job that does nothing. -/
def run0 : LseRun := { consumed := 0, produced := 0, pending := 0, fault := false }

/-- A CTU row without a bit. -/
def bits0 : RowBits := { bits := 0, ctus := [], filler := 0 }

/-- A raw record of which no check asks anything. -/
def raw0 : RawRecord := {
  fault := false, frameIndex := 0, depth := 8, px := 1, py := 1, planes := 1, width := 0, height := 0, row0 := [], bands := [] }

/-- A container in range. -/
def cont0 : Container := {
  magicOk := true, layoutOk := true, signer := 0, kind := 0, version := 0, bindOk := true, sigOk := true, digestsOk := true
  components := 1, engineCode := [(4, 1)] }

/-- A board table in range. -/
def table0 : BoardTable := {
  mramBad := false, pilotPort := 0, width := 64, height := 64, mpixS := 1, twCtrl := 0, mclkHz := 268435455
  installedX2 := 128, chFail := 0, entries := [(1048575, 0)], mac := [], codeBad := 0 }

/-- Rows that name a fetched command, part 1. -/
def refRows1 (r : CmdRef) : List Instr := [
  .createQp r,
  .deleteQp r,
  .resetQp r ⟨0, 0⟩ [],
  .createRing r,
  .deleteRing r,
  .abort r [],
  .semAcquire r,
  .semRelease r,
  .setLatency r,
  .setMode r,
  .startPort r,
  .stopPort r,
  .submitProgram r [],
  .mpFrame r,
  .scheduledPulseStart r,
  .scheduledPulseEnd r,
  .routeAt r,
  .pinEnable r,
  .pinDisable r,
  .setRoute r,
  .scheduleEdge r,
  .rfeSetParams r [],
  .rfeLoadTable r [],
  .cbeLoadCfa r [],
  .cbeLoadBank r [],
  .cbeSetColour r [],
  .cbeLoadLut3d r [],
  .cbeReadBank r,
  .spkStart r,
  .spkStop r,
  .spkRestart r [],
  .spkSetPath r [],
  .spkLoadLut r [],
  .spkBuffer r,
  .spkSubmitFrame r,
  .hubSetPort r,
  .stuUnitStart r,
  .stuUnitStop r,
  .stuBuffer r,
  .encOpen r []]

/-- Rows that name a fetched command, part 2. -/
def refRows2 (r : CmdRef) : List Instr := [
  .encClose r,
  .encPicture r 0,
  .encSetRc r [],
  .decOpen r [],
  .decClose r,
  .decDecode r unit0,
  .decOutput r,
  .decFlush r,
  .lseOpen r,
  .lseClose r,
  .lseBlock r run0,
  .lseRawOpen r,
  .lseRawBuffer r,
  .lseRawDecode r raw0,
  .volCreate r [],
  .volDelete r,
  .volClearRecovery r,
  .recDeallocate r,
  .driveLog r .ok,
  .driveEject r,
  .recEvent r,
  .driveCommandCompletion r 0 .ok,
  .driveCommandTimeout r 0,
  .scoStart r,
  .scoStop r,
  .scoRestart r [],
  .sdiInStart r,
  .sdiInStop r,
  .dpAux r none,
  .ethUp r,
  .ethDown r,
  .ntuDomStart r,
  .ntuDomStop r,
  .ntuDomRole r,
  .ntuSetIncr r,
  .ntuAdjPhase r,
  .ntuSetTemplate r [],
  .ntuSelect r,
  .ntuReadTime r,
  .pelJoin r]

/-- Rows that name a fetched command, part 3. -/
def refRows3 (r : CmdRef) : List Instr := [
  .pelLeave r,
  .pelSchedule r [],
  .twEnable r none,
  .twDisable r,
  .twXfer r [],
  .pwrIslandDisable r,
  .pwrIslandEnable r,
  .pwrPinGear r,
  .pwrSetCfg r,
  .engineReset r 0,
  .mgmtUpdateStage r cont0 true,
  .mgmtUpdateActivate r,
  .mgmtUpdateConfirm r true,
  .mgmtEngineLoad r true,
  .mgmtLogRead r,
  .mgmtAttest r,
  .mgmtUnlockChallenge r,
  .mgmtUnlockAnswer r true,
  .mgmtLifecycleAdvance r (List.replicate 128 0) true,
  .recRead ⟨r, []⟩,
  .recWrite ⟨r, []⟩]

/-- Every row that names a fetched command. -/
def refRows (r : CmdRef) : List Instr := refRows1 r ++ refRows2 r ++ refRows3 r

/-- A fetched command is named by a queue of 4096 and a CID of 16 bits (R69, R75). -/
theorem test_wf_refs :
    (refRows ⟨4095, 65535⟩).all Instr.wf = true ∧ (refRows ⟨4096, 0⟩).all (fun i => !i.wf) = true ∧
    (refRows ⟨0, 65536⟩).all (fun i => !i.wf) = true := by decide +kernel

/-- Terms out of range, of the host interface. -/
def illHost : List Instr := [
  .commandFetch 4096 (List.replicate 16 0), .commandFetch 0 (List.replicate 15 0), .kick 4096 ⟨0, 0⟩,
  .doorbellPoll 4096 ⟨0, 0⟩, .watchClear 4096 ⟨0, 0⟩, .coalesceTimeout true 64, .coalesceTimeout false 4096,
  .dmaErrorResponse (.data ⟨4096, 0⟩) .poisoned 0, .dmaErrorResponse (.sqFetch 4096) .poisoned 0,
  .dmaErrorResponse (.cqWrite 4096) .poisoned 0, .dmaErrorResponse (.dbSlot 4096) .poisoned 0,
  .dmaErrorResponse (.ringWrite 64) .poisoned 0, .dmaErrorResponse (.ringHead 64) .poisoned 0,
  .dmaErrorResponse (.sqFetch 0) .poisoned (2 ^ 64), .dmaCompletionTimeout (.ringWrite 64) 0,
  .dmaCompletionTimeout (.sqFetch 0) (2 ^ 64), .registerWrite (2 ^ 20) 0, .bar0BadAccess (2 ^ 20) 4, .readWithClear (2 ^ 20),
  .resetQp ⟨4096, 0⟩ ⟨0, 0⟩ [0], .abort ⟨4096, 0⟩ [65536]]

/-- The same terms at the ends of their ranges. -/
def wellHost : List Instr := [
  .commandFetch 4095 (List.replicate 16 0), .kick 4095 ⟨0, 0⟩, .doorbellPoll 4095 ⟨0, 0⟩, .watchClear 4095 ⟨0, 0⟩,
  .coalesceTimeout true 63, .coalesceTimeout false 4095, .dmaErrorResponse (.data ⟨4095, 65535⟩) .poisoned (2 ^ 64 - 1),
  .dmaErrorResponse (.ringHead 63) .poisoned 0, .dmaCompletionTimeout (.dbSlot 4095) (2 ^ 64 - 1),
  .registerWrite (2 ^ 20 - 1) 0, .bar0BadAccess (2 ^ 20 - 1) 4, .readWithClear (2 ^ 20 - 1), .resetQp r1 ⟨0, 0⟩ [0],
  .abort r1 [65535]]

theorem test_wf_host : illHost.all (fun i => !i.wf) = true ∧ wellHost.all Instr.wf = true := by decide +kernel

/-- Terms out of range, of the board, the sensors, the codecs and the wires. -/
def illBlocks : List Instr := [
  .freewheelEntry { table0 with width := 0 }, .freewheelEntry { table0 with height := 0 },
  .freewheelEntry { table0 with mclkHz := 2 ^ 28 }, .freewheelEntry { table0 with installedX2 := 129 },
  .freewheelEntry { table0 with entries := [(2 ^ 20, 0)] }, .freewheelEntry { table0 with mac := [(2 ^ 20, 0)] },
  .lineReceived 0 (.slvs [⟨0, 0, [], [[0, 65536]]⟩]), .lineReceived 0 (.slvs [⟨65536, 0, [], []⟩]),
  .lineReceived 0 (.slvs [⟨0, 65536, [], []⟩]), .lineReceived 0 (.slvs [⟨0, 0, [65536], []⟩]),
  .lineReceived 0 (.slvs [⟨0, 0, [], List.replicate 21 []⟩]), .lineReceived 0 (.csi [[⟨4, 0, 0, .good, false, []⟩]]),
  .lineReceived 0 (.csi [[⟨0, 16, 0, .good, false, []⟩]]), .lineReceived 0 (.csi [[⟨0, 0, 64, .good, false, []⟩]]),
  .lineReceived 0 (.csi [[⟨0, 0, 0, .good, false, [65536]⟩]]), .frameStart 0 (.sync 65536) ⟨0, false⟩, .frameStart 0 (.packet 16 .good) ⟨0, false⟩,
  .frameEnd ⟨0, .sync 65536⟩, .frameEnd ⟨0, .packet 16 .good⟩,
  .freewheelEntry { table0 with settings := [(2 ^ 20, 0)] }, .freewheelEntry { table0 with params := [1] },
  .freewheelEntry { table0 with colour := [1] }, .freewheelEntry { table0 with tables := [(4, [])] },
  .msixUnmask ⟨2 ^ 16, 4, none⟩,
  .msixUnmask ⟨0, 4, some (2 ^ 32)⟩, .encoderFrameArrival (2 ^ 20) 0, .encoderFrameArrival 0 (2 ^ 64),
  .pxeRowStart (2 ^ 20), .eneRowCommit (2 ^ 20) bits0, .decPictureOutput (2 ^ 20), .lseBlock r1 { run0 with pending := 1, fault := true },
  .lseBlock r1 { run0 with internal := some 0x2F }, .lseBlock r1 { run0 with internal := some 0x34 }, .eneRowCommit 0 { bits0 with internal := some 0x27 },
  .eneRowCommit 0 { bits0 with internal := some 0x2E }, .decDecode r1 { unit0 with internal := some 0x2E },
  .ethLinkUp 0 4, .arpRequest 0 (2 ^ 32), .twEnable r1 (some 10), .engineResetDone 256 none, .engineResetDone 0 (some 10),
  .transferRequest 0 0 0 0 false, .hkRound 0 [(56, 0)] [], .hkRound 0 [] [(24, 0, true)], .derailleurDecision [(56, 0)] [],
  .derailleurDecision [] [(5, 0)], .engineReset r1 65536, .mgmtUpdateStage r1 { cont0 with signer := 256 } true,
  .mgmtUpdateStage r1 { cont0 with kind := 256 } true, .mgmtUpdateStage r1 { cont0 with version := 2 ^ 32 } true,
  .mgmtUpdateStage r1 { cont0 with components := 256 } true, .mgmtUpdateStage r1 { cont0 with engineCode := [(5, 1)] } true,
  .mgmtLifecycleAdvance r1 [] true, .release 65536]

/-- The same terms at the ends of their ranges. -/
def wellBlocks : List Instr := [
  .freewheelEntry table0, .lineReceived 0 (.slvs [⟨65535, 65535, [65535], List.replicate 20 [65535]⟩]), .lineReceived 0 .memory,
  .lineReceived 0 (.csi [[⟨3, 15, 63, .bad, true, [65535]⟩]]), .frameStart 0 (.sync 65535) ⟨9, true⟩, .frameStart 0 (.packet 15 .bad) ⟨0, false⟩,
  .frameStart 4 .memory ⟨0, false⟩, .frameEnd ⟨0, .sync 65535⟩, .frameEnd ⟨0, .packet 15 .good⟩, .frameEnd ⟨4, .memory⟩,
  .freewheelEntry { table0 with settings := [(2 ^ 20 - 1, 0)], params := List.replicate 256 0, colour := List.replicate 128 0, tables := [(3, [])] },
  .recRead ⟨r1, [1]⟩, .recWrite ⟨r1, [1]⟩, .msixUnmask ⟨2 ^ 16 - 1, 4, none⟩, .msixUnmask ⟨0, 4, some (2 ^ 32 - 1)⟩, .encoderFrameArrival (2 ^ 20 - 1) (2 ^ 64 - 1),
  .pxeRowStart (2 ^ 20 - 1), .eneRowCommit (2 ^ 20 - 1) bits0, .decPictureOutput (2 ^ 20 - 1), .lseBlock r1 { run0 with pending := 1, internal := some 0x33 }, .eneRowCommit 0 { bits0 with internal := some 0x28 },
  .lseBlock r1 { run0 with fault := true }, .ethLinkUp 0 3, .arpRequest 0 (2 ^ 32 - 1), .twEnable r1 (some 9), .engineResetDone 255 (some 9),
  .transferRequest 0 0 0 1 false, .hkRound 0 [(55, 0)] [(23, 0, true)], .derailleurDecision [(55, 0)] [(4, 0)],
  .engineReset r1 65535, .mgmtUpdateStage r1 cont0 true, .mgmtLifecycleAdvance r1 (List.replicate 128 0) true, .release 65535]

theorem test_wf_blocks : illBlocks.all (fun i => !i.wf) = true ∧ wellBlocks.all Instr.wf = true := by decide +kernel

/-- A list of buffers has at most 65,536 entries of 8 bytes (R338, Table 12-5). -/
theorem test_wf_lists (l : List Byte) (h : 524288 < l.length) : (Instr.recRead ⟨r1, l⟩).wf = false ∧ (Instr.recWrite ⟨r1, l⟩).wf = false := by
  simp [Instr.wf, h]

end Sys2Proof.Tests
end

section
/-! SUPPORT. Rules of the set-up registers and of the frames of events, and the host's accesses to BAR0 (O19). -/

namespace Sys2Proof.Machine

open Sys2Proof

/-! ## Events with a frame -/

theorem Keeps.modeChange {b : List Part} {d e : Dev} (h : Keeps b d e) (hb : .link ∉ b) :
    e.hif.modeChange = d.hif.modeChange := by
  obtain ⟨-, -, -, -, -, -, -, -, -, -, hm⟩ := h .link hb
  exact hm

/-- While the part operates, an event whose effect has a frame without the mode change has that effect and no other. -/
theorem event_effect {i : Instr} {f : Dev → Dev} {s : State} {e : Dev} {b : List Part} (hx : exec i s = lift f s)
    (hi : s.dev.idleMode = true) (he : f s.dev = e) (hk : Keeps b s.dev e) (hb : .link ∉ b) :
    exec i s = .next { s with dev := e } := by
  subst he
  exact hx.trans (lift_idle hi (hk.modeChange hb))

/-- An event that changes nothing in this state. -/
theorem event_none {i : Instr} {f : Dev → Dev} {s : State} (hx : exec i s = lift f s) (hi : s.dev.idleMode = true)
    (he : f s.dev = s.dev) : exec i s = .next s :=
  event_effect hx hi he (Keeps.refl [] _) (by decide)

/-! ## Set-up registers: a register is stored as its difference from its reset value -/

theorem regsOf_reset_lt : ∀ p, ∀ r ∈ regsOf p, r.reset < 4294967296 := by
  have named : ∀ p < 14, ∀ r ∈ regsOf p, r.reset < 4294967296 := by decide +kernel
  intro p
  obtain hp | hp := Nat.lt_or_ge p 14
  · exact named p hp
  · obtain ⟨k, rfl⟩ := Nat.exists_eq_add_of_le' hp
    exact named 13 (by decide)

theorem regReset_lt (off : Nat) : regReset off < 4294967296 := by
  unfold regReset
  cases h : regAt off with
  | none => simp
  | some r => exact regsOf_reset_lt _ r (List.mem_of_find?_eq_some h)

/-- A register holds the low 32 bits of what is written to it. -/
@[simp] theorem Dev.setReg_reg (d : Dev) (off v : Nat) : (d.setReg off v).reg off = v % 4294967296 := by
  have hr := Nat.mod_eq_of_lt (regReset_lt off)
  have hx : (v ^^^ regReset off) % 2 ^ 32 = v % 2 ^ 32 ^^^ regReset off % 2 ^ 32 := Nat.xor_mod_two_pow
  simp only [Dev.reg, Dev.setReg, SMap.get_put_same, BitVec.toNat_ofNat]
  rw [hx, Nat.xor_assoc, show (2 : Nat) ^ 32 = 4294967296 from rfl, hr, Nat.xor_self, Nat.xor_zero]

theorem Dev.setReg_reg_ne (d : Dev) {off o : Nat} (v : Nat) (h : o ≠ off) : (d.setReg off v).reg o = d.reg o := by
  simp only [Dev.reg, Dev.setReg, SMap.get_put_ne _ _ _ h]

/-! ## SETUP_FLAGS (Table 2-17) -/

theorem Dev.setupFlag_keeps (d : Dev) (bit off : Nat) : Keeps [.regs] d (d.setupFlag bit off) :=
  Dev.setReg_keeps _ _ _

theorem Dev.setupFlag_reg_ne (d : Dev) (bit off : Nat) {o : Nat} (h : o ≠ 0x38) :
    (d.setupFlag bit off).reg o = d.reg o := Dev.setReg_reg_ne _ _ h

/-- The register after a flag is set: its four flags in the low bits, the page of the access above. -/
theorem Dev.setupFlag_reg (d : Dev) {bit : Nat} (off : Nat) (hb : bit < 4) :
    (d.setupFlag bit off).reg 0x38 = off / 65536 % 16 * 65536 + (d.reg 0x38 % 16 ||| 2 ^ bit) := by
  have hf : d.reg 0x38 % 16 ||| 2 ^ bit < 2 ^ 4 :=
    Nat.or_lt_two_pow (Nat.mod_lt _ (by decide)) (Nat.pow_lt_pow_right (by decide) hb)
  unfold Dev.setupFlag
  rw [Dev.setReg_reg, Nat.mod_eq_of_lt (by omega), Nat.add_comm]

theorem Dev.setupFlag_flag (d : Dev) {bit : Nat} (off : Nat) (hb : bit < 4) :
    ((d.setupFlag bit off).reg 0x38).testBit bit = true := by
  have hf : d.reg 0x38 % 16 ||| 2 ^ bit < 2 ^ 16 :=
    Nat.or_lt_two_pow (by omega) (Nat.pow_lt_pow_right (by decide) (by omega))
  rw [Dev.setupFlag_reg d off hb, Nat.mul_comm, show 65536 = 2 ^ 16 from rfl, Nat.testBit_two_pow_mul_add _ hf,
    if_pos (by omega), Nat.testBit_or, Nat.testBit_two_pow_self, Bool.or_true]

theorem Dev.setupFlag_page (d : Dev) {bit : Nat} (off : Nat) (hb : bit < 4) :
    (d.setupFlag bit off).fld 0x38 19 16 = off / 65536 % 16 := by
  have hf : d.reg 0x38 % 16 ||| 2 ^ bit < 2 ^ 4 :=
    Nat.or_lt_two_pow (Nat.mod_lt _ (by decide)) (Nat.pow_lt_pow_right (by decide) hb)
  unfold Dev.fld bitsOf
  rw [Dev.setupFlag_reg d off hb]
  omega

/-! ## Accesses of the host -/

theorem Dev.hostSeen_keeps (d : Dev) : Keeps [.boot] d d.hostSeen := by
  intro p hp
  unfold Dev.hostSeen
  split <;> cases p <;> simp_all [Part.same]

theorem Dev.hostSeen_regs (d : Dev) : d.hostSeen.regs = d.regs := d.hostSeen_keeps .regs (by decide)
theorem Dev.hostSeen_ctrs (d : Dev) : d.hostSeen.ctrs = d.ctrs := d.hostSeen_keeps .ctrs (by decide)
theorem Dev.hostSeen_pwr (d : Dev) : d.hostSeen.pwr = d.pwr := d.hostSeen_keeps .pwr (by decide)

theorem Dev.hostSeen_reg (d : Dev) (o : Nat) : d.hostSeen.reg o = d.reg o := by
  unfold Dev.reg
  rw [d.hostSeen_regs]

theorem exec_registerWrite (off : Nat) (v : Word) (s : State) :
    exec (.registerWrite off v) s = lift (fun d => d.hostSeen.barWrite off v.toNat) s := rfl

theorem exec_readWithClear (off : Nat) (s : State) :
    exec (.readWithClear off) s = lift (fun d => d.hostSeen.barRead off) s := rfl

theorem exec_bar0BadAccess (off size : Nat) (s : State) : exec (.bar0BadAccess off size) s =
    lift (fun d => if goodAccess off size then d else { d.setupFlag 1 off with hostRead := 0 }) s := rfl

/-- What a write leaves in a register without a behaviour of its own (Table 0-3): the SW bits in set-up and the RW bits
are taken, the W1C bits written 1 are cleared. -/
def Dev.written (d : Dev) (off v : Nat) (row : RegRow) : Nat :=
  ((d.reg off &&& (0xFFFFFFFF ^^^ (d.swMask off v row.sw ||| row.rw))) ||| (v &&& (d.swMask off v row.sw ||| row.rw)))
    &&& (0xFFFFFFFF ^^^ (v &&& row.w1c))

/-- A write to a register outside the pages TW and DBG sets that register, and SW_IGNORED where SW bits written
otherwise are not in set-up (R35). -/
theorem Dev.writeReg_row (d : Dev) {off : Nat} (v : Nat) {row : RegRow} (h15 : off / 65536 ≠ 15)
    (h12 : off / 65536 ≠ 12) (hr : regAt off = some row) :
    d.writeReg off v = d.setReg off (d.written off v row)
      ∨ d.writeReg off v = (d.setReg off (d.written off v row)).setupFlag 0 off := by
  unfold Dev.writeReg Dev.written
  simp only [h15, h12, hr, if_false, false_and, false_or]
  split
  · exact .inr rfl
  · exact .inl rfl

/-- Of the registers, a write changes its own and SETUP_FLAGS only. -/
theorem Dev.writeReg_spec (d : Dev) {off : Nat} (v : Nat) {row : RegRow} (h38 : off ≠ 0x38) (h15 : off / 65536 ≠ 15)
    (h12 : off / 65536 ≠ 12) (hr : regAt off = some row) :
    (d.writeReg off v).reg off = d.written off v row % 4294967296
      ∧ (∀ o, o ≠ off → o ≠ 0x38 → (d.writeReg off v).reg o = d.reg o) ∧ Keeps [.regs] d (d.writeReg off v) := by
  obtain h | h := d.writeReg_row v h15 h12 hr <;> rw [h]
  · exact ⟨Dev.setReg_reg _ _ _, fun o ho _ => Dev.setReg_reg_ne _ _ ho, Dev.setReg_keeps _ _ _⟩
  · refine ⟨?_, fun o ho h0 => ?_, (Dev.setReg_keeps _ _ _).trans (Dev.setupFlag_keeps _ _ _)⟩
    · rw [Dev.setupFlag_reg_ne _ _ _ h38, Dev.setReg_reg]
    · rw [Dev.setupFlag_reg_ne _ _ _ h0, Dev.setReg_reg_ne _ _ ho]

theorem Dev.barWrite_plain (d : Dev) {off : Nat} (v : Nat) (h4 : off % 4 = 0) (h30 : off ≠ 0x30) (h40 : off ≠ 0x40)
    (hm : ¬ (0x20800 ≤ off ∧ off < 0x20820)) (h80 : off ≠ 0x80000) : d.barWrite off v = d.writeReg off v := by
  simp only [Dev.barWrite, h4, h30, h40, hm, h80, ne_eq, not_true_eq_false, if_false]

/-- A read of a counter takes its value and clears it (R8, R9). -/
theorem Dev.barRead_ctr (d : Dev) {off : Nat} (h4 : off % 4 = 0) (hc : isCtr off = true) :
    d.barRead off = { d with hostRead := SMap.get 0 d.ctrs off, ctrs := SMap.put 0 d.ctrs off 0 } := by
  simp only [Dev.barRead, h4, hc, ne_eq, not_true_eq_false, if_false, if_true]

theorem Dev.barRead_plain (d : Dev) {off : Nat} (h4 : off % 4 = 0) (hc : isCtr off = false) (ht : off ≠ 0xD000C) :
    d.barRead off = { d with hostRead := d.readReg off } := by
  simp only [Dev.barRead, h4, hc, ht, ne_eq, not_true_eq_false, Bool.false_eq_true, if_false]

/-- A read of PWR_TMAX takes the maximum and clears it (Table 17-10). -/
theorem Dev.barRead_tmax (d : Dev) :
    d.barRead 0xD000C = { d with hostRead := fromSigned 16 (d.pwr.tmax.getD 0), pwr := { d.pwr with tmax := none } } := by
  have hc : isCtr 0xD000C = false := by decide
  simp [Dev.barRead, hc]

theorem Dev.hostRead_keeps (d : Dev) (v : Nat) : Keeps [] d { d with hostRead := v } := by
  intro p _
  cases p <;> simp [Part.same]

theorem Dev.ctrs_keeps (d : Dev) (v : Nat) (m : SMap Nat) : Keeps [.ctrs] d { d with hostRead := v, ctrs := m } := by
  intro p hp
  cases p <;> simp_all [Part.same]

theorem Dev.pwr_keeps (d : Dev) (v : Nat) (m : PwrB) : Keeps [.pwr] d { d with hostRead := v, pwr := m } := by
  intro p hp
  cases p <;> simp_all [Part.same]

/-! ## The clauses of O19 -/

theorem registerWrite_plain {s : State} {off : Nat} {v : Word} {row : RegRow} (hi : s.dev.idleMode = true)
    (hw : s.dev.hostSeen.barWrite off v.toNat = s.dev.hostSeen.writeReg off v.toNat) (h38 : off ≠ 0x38)
    (h15 : off / 65536 ≠ 15) (h12 : off / 65536 ≠ 12) (hr : regAt off = some row) :
    ∃ t, exec (.registerWrite off v) s = .next t
      ∧ t.dev.reg off = s.dev.hostSeen.written off v.toNat row % 4294967296
      ∧ (∀ o, o ≠ off → o ≠ 0x38 → t.dev.reg o = s.dev.reg o) ∧ Keeps [.regs, .boot] s.dev t.dev := by
  obtain ⟨hreg, hne, hk⟩ := s.dev.hostSeen.writeReg_spec v.toNat h38 h15 h12 hr
  have hkeeps := (s.dev.hostSeen_keeps.mono (b := [.regs, .boot]) (by simp)).trans (hk.mono (by simp))
  refine ⟨_, event_effect (exec_registerWrite _ _ _) hi hw hkeeps (by decide), hreg, fun o ho h0 => ?_, hkeeps⟩
  exact (hne o ho h0).trans (s.dev.hostSeen_reg o)

theorem readWithClear_ctr {s : State} {off : Nat} (hi : s.dev.idleMode = true) (h4 : off % 4 = 0)
    (hc : isCtr off = true) :
    ∃ t, exec (.readWithClear off) s = .next t ∧ t.dev.hostRead = SMap.get 0 s.dev.ctrs off
      ∧ SMap.get 0 t.dev.ctrs off = 0 ∧ (∀ o, o ≠ off → SMap.get 0 t.dev.ctrs o = SMap.get 0 s.dev.ctrs o)
      ∧ Keeps [.ctrs, .boot] s.dev t.dev := by
  have hk : Keeps [.ctrs, .boot] s.dev { s.dev.hostSeen with
      hostRead := SMap.get 0 s.dev.hostSeen.ctrs off, ctrs := SMap.put 0 s.dev.hostSeen.ctrs off 0 } :=
    (s.dev.hostSeen_keeps.mono (by simp)).trans ((Dev.ctrs_keeps _ _ _).mono (by simp))
  refine ⟨_, event_effect (exec_readWithClear _ _) hi (s.dev.hostSeen.barRead_ctr h4 hc) hk (by decide), ?_, ?_,
    fun o ho => ?_, hk⟩
  · rw [Dev.hostSeen_ctrs]
  · simp only [SMap.get_put_same]
  · simp only [Dev.hostSeen_ctrs, SMap.get_put_ne _ _ _ ho]

theorem readWithClear_plain {s : State} {off : Nat} (hi : s.dev.idleMode = true) (h4 : off % 4 = 0)
    (hc : isCtr off = false) (ht : off ≠ 0xD000C) :
    ∃ t, exec (.readWithClear off) s = .next t ∧ t.dev.hostRead = s.dev.hostSeen.readReg off
      ∧ Keeps [.boot] s.dev t.dev := by
  have hk : Keeps [.boot] s.dev { s.dev.hostSeen with hostRead := s.dev.hostSeen.readReg off } :=
    s.dev.hostSeen_keeps.trans ((Dev.hostRead_keeps _ _).mono (by simp))
  exact ⟨_, event_effect (exec_readWithClear _ _) hi (s.dev.hostSeen.barRead_plain h4 hc ht) hk (by decide), rfl, hk⟩

theorem readWithClear_tmax {s : State} (hi : s.dev.idleMode = true) :
    ∃ t, exec (.readWithClear 0xD000C) s = .next t ∧ t.dev.hostRead = fromSigned 16 (s.dev.pwr.tmax.getD 0)
      ∧ t.dev.pwr = { s.dev.pwr with tmax := none } ∧ Keeps [.boot, .pwr] s.dev t.dev := by
  have hk : Keeps [.boot, .pwr] s.dev { s.dev.hostSeen with
      hostRead := fromSigned 16 (s.dev.hostSeen.pwr.tmax.getD 0), pwr := { s.dev.hostSeen.pwr with tmax := none } } :=
    (s.dev.hostSeen_keeps.mono (by simp)).trans ((Dev.pwr_keeps _ _ _).mono (by simp))
  refine ⟨_, event_effect (exec_readWithClear _ _) hi s.dev.hostSeen.barRead_tmax hk (by decide), ?_, ?_, hk⟩ <;>
    rw [Dev.hostSeen_pwr]

theorem bar0BadAccess_bad {s : State} {off size : Nat} (hi : s.dev.idleMode = true)
    (hb : goodAccess off size = false) :
    ∃ t, exec (.bar0BadAccess off size) s = .next t ∧ t.dev.hostRead = 0 ∧ Keeps [.regs] s.dev t.dev
      ∧ (t.dev.reg 0x38).testBit 1 = true ∧ t.dev.fld 0x38 19 16 = off / 65536 % 16
      ∧ ∀ o, o ≠ 0x38 → t.dev.reg o = s.dev.reg o := by
  have hk : Keeps [.regs] s.dev { s.dev.setupFlag 1 off with hostRead := 0 } :=
    (s.dev.setupFlag_keeps 1 off).trans ((Dev.hostRead_keeps _ 0).mono (by simp))
  exact ⟨_, event_effect (exec_bar0BadAccess _ _ _) hi (if_neg (by simp [hb])) hk (by decide), rfl, hk,
    s.dev.setupFlag_flag off (by decide), s.dev.setupFlag_page off (by decide),
    fun o ho => s.dev.setupFlag_reg_ne 1 off ho⟩

theorem bar0BadAccess_good {s : State} {off size : Nat} (hi : s.dev.idleMode = true)
    (hg : goodAccess off size = true) : exec (.bar0BadAccess off size) s = .next s :=
  event_none (exec_bar0BadAccess _ _ _) hi (if_pos hg)

/-- Settles O19: one lemma for each kind of access, giving what it changes and its frame. -/
theorem registerAccess : Obligations.RegisterAccess := by
  unfold Obligations.RegisterAccess
  refine ⟨?_, fun s off hi h4 hc => readWithClear_ctr hi h4 hc,
    fun s off hi h4 hc ht => readWithClear_plain hi h4 hc ht, fun s hi => readWithClear_tmax hi,
    fun s off size hi hb => bar0BadAccess_bad hi hb, fun s off size hi hg => bar0BadAccess_good hi hg⟩
  intro s off v row hi h4 h30 h38 h40 hm h80 h15 h12 hr
  exact registerWrite_plain hi (Dev.barWrite_plain _ _ h4 h30 h40 hm h80) h38 h15 h12 hr

end Sys2Proof.Machine
end

section
/-! SUPPORT. Rules of commands that complete, of posted records, of slewing and of the domains. -/

namespace Sys2Proof.Machine

open Sys2Proof

/-! ## Completions -/

theorem Dev.finish_of_no_queueOps {d : Dev} (r : CmdRef) (st res : Nat) (ho : d.hif.queueOps = []) :
    d.finish r st res = d.complete r st res := by
  refine Dev.settleQueueOps_nil ?_
  unfold Dev.complete
  split
  · exact ho
  · rw [Dev.postCompletion_queueOps]
    simp [Dev.dropWait, Dev.dropCmd, ho]

theorem Dev.postCompletion_out_mono {d : Dev} {o : Out} (q cid st res : Nat) (h : o ∈ d.out) :
    o ∈ (d.postCompletion q cid st res).out := by
  unfold Dev.postCompletion
  simp only []
  split
  · exact h
  · split
    · exact Dev.signal_out (List.mem_append_left _ h)
    · exact List.mem_append_left _ h

/-- What has left stays left when a command completes. -/
theorem Dev.finish_out_mono {d : Dev} {o : Out} (r : CmdRef) (st res : Nat) (ho : d.hif.queueOps = [])
    (h : o ∈ d.out) : o ∈ (d.finish r st res).out := by
  rw [Dev.finish_of_no_queueOps r st res ho]
  unfold Dev.complete
  split
  · exact h
  · exact Dev.postCompletion_out_mono _ _ _ _ h

@[simp] theorem Dev.finish_dom (d : Dev) (r : CmdRef) (st res k : Nat) : (d.finish r st res).dom k = d.dom k := by
  simp [Dev.dom]

/-- A clear command completes on any state whose queues and contexts are those it found. -/
theorem Dev.clear_answered_keeps {d e : Dev} {sp : CmdSpec} {r : CmdRef} {c : Cmd} {b : List Part} (st res : Nat)
    (h : d.clear sp r c = true) (hk : Keeps b d e) (hb : .fetch ∉ b) : Answered d (e.finish r st res) r st res := by
  obtain ⟨-, -, ho, hr, -, hf, hl, hn⟩ := Dev.clear_iff.mp h
  obtain ⟨hqueues, hcmds, hops, -⟩ := hk .fetch hb
  have hq : e.qp r.qid = d.qp r.qid := by unfold Dev.qp; rw [hqueues]
  have hc : e.cmd? r = some c := by unfold Dev.cmd?; rw [hcmds]; exact Dev.ready_cmd hr
  have := Dev.finish_answered (d := e) st res hc hf (by rw [hq]; exact hl) (by rw [hq]; exact hn) (by rw [hops]; exact ho)
  unfold Answered at *
  rwa [hq] at this

/-- With NTU in service, a command of class 0x09 that is clear and completes on a state with a frame has this effect,
answers, and keeps that frame but for what a completion touches. -/
theorem ntuCmd_completes {i : Instr} {sp : CmdSpec} {r : CmdRef} {c : Cmd} {s : State} {eff : Cmd → Dev → Dev} {e : Dev}
    {st res : Nat} {b p : List Part} (hx : exec i s = lift (ntuCmd sp r eff) s) (hc : s.dev.clear sp r c = true)
    (hn : s.dev.noCode 3 = false) (he : eff c s.dev = e.finish r st res) (hk : Keeps b s.dev e)
    (hf : .fetch ∉ b) (hl : .link ∉ b) (hb : b ⊆ p) (hp : byDone ⊆ p) :
    exec i s = .next { s with dev := e.finish r st res } ∧ Answered s.dev (e.finish r st res) r st res
      ∧ Keeps p s.dev (e.finish r st res) := by
  have hr : (if s.dev.noCode 3 then s.dev.finish r stEngineDown 0 else eff c s.dev) = e.finish r st res := by
    rw [hn, he]; rfl
  have hm : (e.finish r st res).hif.modeChange = s.dev.hif.modeChange :=
    ((Dev.finish_keeps e r st res).modeChange (by decide)).trans (hk.modeChange hl)
  refine ⟨?_, Dev.clear_answered_keeps st res hc hk hf, (hk.mono hb).trans ((Dev.finish_keeps _ _ _ _).mono hp)⟩
  rw [hx, ← hr]
  exact lift_clear hc (eff := fun c d => if d.noCode 3 then d.finish r stEngineDown 0 else eff c d)
    (by simp only [hr]; exact hm)

/-! ## Records -/

/-- The record itself, with the state of its ring filled in. -/
theorem Dev.putRecord_out (d : Dev) (n : Nat) (rc : Rec) :
    ∃ slot g p q, Out.record n slot { rc with gap := g, phase := p, seq := q } ∈ (d.putRecord n rc).out := by
  unfold Dev.putRecord
  simp only []
  generalize (if (d.ring n).tail + rc.slots ≤ (d.ring n).slots then (d, d.ring n) else _) = x
  refine ⟨x.2.tail, x.2.gap, x.2.phase, x.2.seq, ?_⟩
  split
  · exact Dev.signal_out (List.mem_append_right _ (List.mem_singleton.mpr rfl))
  · exact List.mem_append_right _ (List.mem_singleton.mpr rfl)

/-- A record that a ring takes and has room for is posted there (R85, R88). -/
theorem Dev.post_record {d : Dev} {n : Nat} (type slots frame page inst : Nat) (body : List Fld) (time : Nat)
    (hn : d.ringOf (type / 4096) = some n) (hf : d.fits n slots = true) :
    ∃ slot rc, Out.record n slot rc ∈ (d.post type slots frame page inst body time).out ∧ rc.type = type
      ∧ rc.slots = slots ∧ rc.inst = inst ∧ rc.body = body := by
  unfold Dev.post Dev.toRing
  simp only [hn, hf, if_true]
  obtain ⟨slot, g, p, q, h⟩ := d.putRecord_out n {
    type := type, slots := slots, gap := false, phase := false, seq := 0, frame := frame, time := ltsForm time
    page := page, inst := inst, body := body }
  exact ⟨slot, _, h, rfl, rfl, rfl, rfl⟩

/-! ## Slewing (R376, R377): it posts LTS_EVENT and sets or clears a flag, and leaves the times alone -/

/-- `e` differs from `d` at most in whether the LTS slews or is held, and in what a posted record touches. -/
def Dev.SlewSame (d e : Dev) : Prop :=
  e.ntu = { d.ntu with slewing := e.ntu.slewing, held := e.ntu.held } ∧ Keeps (.ntu :: byPost) d e

theorem Dev.SlewSame.refl (d : Dev) : d.SlewSame d := ⟨rfl, Keeps.refl _ _⟩

theorem Dev.SlewSame.trans {d e f : Dev} (h : d.SlewSame e) (k : e.SlewSame f) : d.SlewSame f := by
  refine ⟨?_, h.2.trans k.2⟩
  rw [k.1, h.1]

theorem Dev.SlewSame.doms {d e : Dev} (h : d.SlewSame e) : e.ntu.doms = d.ntu.doms := by rw [h.1]
theorem Dev.SlewSame.lts {d e : Dev} (h : d.SlewSame e) : e.ntu.lts = d.ntu.lts := by rw [h.1]
theorem Dev.SlewSame.sel {d e : Dev} (h : d.SlewSame e) : e.ntu.sel = d.ntu.sel := by rw [h.1]
theorem Dev.SlewSame.dom {d e : Dev} (h : d.SlewSame e) (k : Nat) : e.dom k = d.dom k := by
  unfold Dev.dom
  rw [h.doms]

theorem Dev.ntu_keeps (d : Dev) (n : NtuB) : Keeps [.ntu] d { d with ntu := n } := by
  intro p hp
  cases p <;> simp_all [Part.same]

theorem Dev.slewing_same (d : Dev) (b : Bool) : d.SlewSame { d with ntu := { d.ntu with slewing := b } } :=
  ⟨rfl, (d.ntu_keeps _).mono (by simp)⟩

theorem Dev.unhold_same (d : Dev) : d.SlewSame { d with ntu := { d.ntu with held := false } } :=
  ⟨rfl, (d.ntu_keeps _).mono (by simp)⟩

theorem Dev.ltsEvent_ntu (d : Dev) (ev : Nat) (x : Int) : (d.ltsEvent ev x).ntu = d.ntu :=
  d.ltsEvent_keeps ev x .ntu (by decide)

theorem Dev.ltsEvent_same (d : Dev) (ev : Nat) (x : Int) : d.SlewSame (d.ltsEvent ev x) :=
  ⟨by rw [Dev.ltsEvent_ntu], (d.ltsEvent_keeps ev x).mono (by simp)⟩

theorem Dev.ltsEval_same (d : Dev) : d.SlewSame d.ltsEval := by
  unfold Dev.ltsEval
  split
  · exact (d.slewing_same true).trans (Dev.ltsEvent_same _ _ _)
  · exact Dev.SlewSame.refl d

theorem Dev.slewStop_same (d : Dev) (x : Int) : d.SlewSame (d.slewStop x) := by
  unfold Dev.slewStop
  split
  · exact (d.slewing_same false).trans (Dev.ltsEvent_same _ _ _)
  · exact Dev.SlewSame.refl d

theorem Dev.slewStop_slewing (d : Dev) (x : Int) : (d.slewStop x).ntu.slewing = false := by
  unfold Dev.slewStop
  split
  · rw [Dev.ltsEvent_ntu]
  · simpa using ‹¬ d.ntu.slewing = true›

theorem Dev.holdover_same (d : Dev) (followed : Bool) (x : Int) : d.SlewSame (d.holdover followed x) := by
  unfold Dev.holdover
  split
  · exact (d.slewStop_same x).trans (Dev.ltsEvent_same _ _ _)
  · exact Dev.SlewSame.refl d

/-- A change of selection selects, and beyond that only a slew may begin or end (R376). -/
theorem Dev.select_same (d : Dev) (k : Nat) :
    Dev.SlewSame { d with ntu := { d.ntu with sel := k } } (d.select k) := by
  have hsel := Dev.unhold_same { d with ntu := { d.ntu with sel := k } }
  unfold Dev.select
  split
  · rename_i h
    subst h
    exact hsel.trans (Dev.ltsEval_same _)
  · simp only []
    split
    · exact (hsel.trans (Dev.ltsEvent_same _ _ _)).trans (Dev.holdover_same _ _ _)
    · exact hsel.trans (Dev.ltsEvent_same _ _ _)

/-- The LTS steps by its difference from the selected domain, and no slew is left (R378). -/
theorem Dev.ltsStep_same (d : Dev) :
    Dev.SlewSame { d with ntu := { d.ntu with lts := ((d.ntu.lts : Int) + d.ltsDiff).toNat } } d.ltsStep
      ∧ d.ltsStep.ntu.slewing = false := by
  unfold Dev.ltsStep
  exact ⟨(Dev.ltsEvent_same _ _ _).trans (Dev.slewStop_same _ _), Dev.slewStop_slewing _ _⟩

theorem Dev.lts_add_ltsDiff {d : Dev} (h : d.ntu.sel < 2) :
    ((d.ntu.lts : Int) + d.ltsDiff).toNat = (d.dom d.ntu.sel).counter := by
  unfold Dev.ltsDiff
  rw [if_pos h]
  omega

/-! ## Domains -/

/-- `e` is `d` with the domain `k` as `v` says, but for what belongs to slewing. -/
theorem Dev.setDom_slewSame {d e : Dev} {k : Nat} {v : Dom} (h : (d.setDom k v).SlewSame e) :
    e.dom k = v ∧ (∀ j, j ≠ k → e.dom j = d.dom j) ∧ e.ntu.lts = d.ntu.lts ∧ Keeps (.ntu :: byPost) d e :=
  ⟨by rw [h.dom, Dev.setDom_dom], fun j hj => by rw [h.dom, Dev.setDom_dom_ne _ _ _ hj], h.lts,
    ((Dev.setDom_keeps _ _ _).mono (by simp)).trans h.2⟩

end Sys2Proof.Machine
end

section
/-! SUPPORT. The commands of class 0x09 on domains and the LTS (O56). -/

namespace Sys2Proof.Machine

open Sys2Proof

section Commands

variable {s : State} {r : CmdRef} {c : Cmd}

/-- A command of class 0x09 that only answers. -/
theorem ntuCmd_answers_only {i : Instr} {sp : CmdSpec} {eff : Cmd → Dev → Dev} {st res : Nat}
    (hx : exec i s = lift (ntuCmd sp r eff) s) (hc : s.dev.clear sp r c = true) (hn : s.dev.noCode 3 = false)
    (he : eff c s.dev = s.dev.finish r st res) :
    ∃ t, exec i s = .next t ∧ Answered s.dev t.dev r st res ∧ Keeps byDone s.dev t.dev := by
  obtain ⟨hx, ha, hk⟩ := ntuCmd_completes hx hc hn he (Keeps.refl [] s.dev) (by decide) (by decide) (by decide)
    (List.Subset.refl byDone)
  exact ⟨_, hx, ha, hk⟩

/-- A command of class 0x09 that sets its domain and answers. -/
theorem ntuCmd_sets_dom {i : Instr} {sp : CmdSpec} {eff : Cmd → Dev → Dev} {k : Nat} {v : Dom}
    (hx : exec i s = lift (ntuCmd sp r eff) s) (hc : s.dev.clear sp r c = true) (hn : s.dev.noCode 3 = false)
    (he : eff c s.dev = (s.dev.setDom k v).finish r stSuccess 0) :
    ∃ t, exec i s = .next t ∧ t.pending = s.pending ∧ Answered s.dev t.dev r stSuccess 0 ∧ t.dev.dom k = v
      ∧ (∀ j, j ≠ k → t.dev.dom j = s.dev.dom j) ∧ Keeps (.ntu :: byDone) s.dev t.dev := by
  obtain ⟨hx, ha, hk⟩ := ntuCmd_completes (p := .ntu :: byDone) hx hc hn he (Dev.setDom_keeps _ _ _) (by decide)
    (by decide) (by decide) (by decide)
  exact ⟨_, hx, rfl, ha, by simp, fun j hj => by simp [Dev.setDom_dom_ne _ _ _ hj], hk⟩

/-- A command of class 0x09 that sets its domain, lets the LTS follow, and answers. -/
theorem ntuCmd_moves_dom {i : Instr} {sp : CmdSpec} {eff : Cmd → Dev → Dev} {k : Nat} {v : Dom} {e : Dev}
    (hx : exec i s = lift (ntuCmd sp r eff) s) (hc : s.dev.clear sp r c = true) (hn : s.dev.noCode 3 = false)
    (he : eff c s.dev = e.finish r stSuccess 0) (hs : (s.dev.setDom k v).SlewSame e) :
    ∃ t, exec i s = .next t ∧ t.pending = s.pending ∧ Answered s.dev t.dev r stSuccess 0 ∧ t.dev.dom k = v
      ∧ (∀ j, j ≠ k → t.dev.dom j = s.dev.dom j) ∧ t.dev.ntu.lts = s.dev.ntu.lts
      ∧ Keeps (.ntu :: .fetch :: byPost) s.dev t.dev := by
  obtain ⟨hdom, hne, hlts, hk⟩ := Dev.setDom_slewSame hs
  obtain ⟨hx, ha, hkeeps⟩ := ntuCmd_completes (p := .ntu :: .fetch :: byPost) hx hc hn he hk (by decide) (by decide)
    (by decide) (by decide)
  exact ⟨_, hx, rfl, ha, by simp [hdom], fun j hj => by simp [hne j hj], by simp [hlts], hkeeps⟩

theorem ntuDomStart_started (hc : s.dev.clear specDomStart r c = true) (hn : s.dev.noCode 3 = false)
    (hr : (s.dev.dom (c.f 4 0 0)).role ≠ 0) :
    ∃ t, exec (.ntuDomStart r) s = .next t ∧ Answered s.dev t.dev r stSuccess 0 ∧ Keeps byDone s.dev t.dev :=
  ntuCmd_answers_only rfl hc hn (by simp only [hr, ne_eq, not_false_eq_true, if_true])

theorem ntuDomStart_bad (hc : s.dev.clear specDomStart r c = true) (hn : s.dev.noCode 3 = false)
    (hr : (s.dev.dom (c.f 4 0 0)).role = 0) (hb : s.dev.domBad (c.f 4 0 0) = true) :
    ∃ t, exec (.ntuDomStart r) s = .next t ∧ Answered s.dev t.dev r stInvalidField 4 ∧ Keeps byDone s.dev t.dev :=
  ntuCmd_answers_only rfl hc hn (by simp only [hr, hb, ne_eq, not_true_eq_false, if_true, if_false]; rfl)

/-- Starting the selected domain ends the holding of the LTS, and a slew may begin (R376, R377). -/
theorem Dev.follow_started_same (d : Dev) (k : Nat) :
    d.SlewSame (if d.ntu.sel = k then { d with ntu := { d.ntu with held := false } } else d).ltsEval := by
  split
  · exact d.unhold_same.trans (Dev.ltsEval_same _)
  · exact d.ltsEval_same

theorem ntuDomStart_good (hc : s.dev.clear specDomStart r c = true) (hn : s.dev.noCode 3 = false)
    (hr : (s.dev.dom (c.f 4 0 0)).role = 0) (hb : s.dev.domBad (c.f 4 0 0) = false) :
    ∃ t, exec (.ntuDomStart r) s = .next t ∧ t.pending = s.pending ∧ Answered s.dev t.dev r stSuccess 0
      ∧ t.dev.dom (c.f 4 0 0)
          = { s.dev.dom (c.f 4 0 0) with role := 1, pend := none, asked := none, exch := none, fresh := false }
      ∧ (∀ j, j ≠ c.f 4 0 0 → t.dev.dom j = s.dev.dom j) ∧ t.dev.ntu.lts = s.dev.ntu.lts
      ∧ Keeps (.ntu :: .fetch :: byPost) s.dev t.dev :=
  ntuCmd_moves_dom rfl hc hn (by simp only [hr, hb, ne_eq, not_true_eq_false, Bool.false_eq_true, if_false]; rfl)
    (Dev.follow_started_same _ _)

theorem Dev.domStop_same (d : Dev) (k : Nat) :
    (d.setDom k { d.dom k with role := 0, pend := none, asked := none }).SlewSame (d.domStop k) :=
  Dev.holdover_same _ _ _

theorem ntuDomStop_good (hc : s.dev.clear specDomStop r c = true) (hn : s.dev.noCode 3 = false) :
    ∃ t, exec (.ntuDomStop r) s = .next t ∧ t.pending = s.pending ∧ Answered s.dev t.dev r stSuccess 0
      ∧ (t.dev.dom (c.f 4 0 0)).role = 0 ∧ (t.dev.dom (c.f 4 0 0)).counter = (s.dev.dom (c.f 4 0 0)).counter
      ∧ (t.dev.dom (c.f 4 0 0)).incr = (s.dev.dom (c.f 4 0 0)).incr
      ∧ (∀ j, j ≠ c.f 4 0 0 → t.dev.dom j = s.dev.dom j) ∧ t.dev.ntu.lts = s.dev.ntu.lts
      ∧ Keeps (.ntu :: .fetch :: byPost) s.dev t.dev := by
  by_cases hr : (s.dev.dom (c.f 4 0 0)).role = 0
  · obtain ⟨hx, ha, hk⟩ := ntuCmd_completes (i := .ntuDomStop r) (p := .ntu :: .fetch :: byPost) rfl hc hn
      (by simp only [hr, if_true]; rfl) (Keeps.refl [] s.dev) (by decide) (by decide) (by decide) (by decide)
    exact ⟨_, hx, rfl, ha, by simp [hr], by simp, by simp, by simp, by simp, hk⟩
  · obtain ⟨t, hx, hp, ha, hdom, hrest⟩ := ntuCmd_moves_dom (i := .ntuDomStop r) rfl hc hn
      (by simp only [hr, if_false]) (s.dev.domStop_same (c.f 4 0 0))
    exact ⟨t, hx, hp, ha, by rw [hdom], by rw [hdom], by rw [hdom], hrest⟩

theorem ntuDomRole_linkDown (hc : s.dev.clear specDomRole r c = true) (hn : s.dev.noCode 3 = false)
    (hr : c.f 4 5 4 ≠ 1) (hl : s.dev.ethLink (s.dev.domCfg (c.f 4 0 0) 0 0) = false) :
    ∃ t, exec (.ntuDomRole r) s = .next t ∧ Answered s.dev t.dev r stLinkDown 0 ∧ Keeps byDone s.dev t.dev :=
  ntuCmd_answers_only rfl hc hn (if_pos ⟨hr, by simp [hl]⟩)

theorem ntuDomRole_good (hc : s.dev.clear specDomRole r c = true) (hn : s.dev.noCode 3 = false)
    (hr : c.f 4 5 4 = 1 ∨ s.dev.ethLink (s.dev.domCfg (c.f 4 0 0) 0 0) = true) :
    ∃ t, exec (.ntuDomRole r) s = .next t ∧ t.pending = s.pending ∧ Answered s.dev t.dev r stSuccess 0
      ∧ t.dev.dom (c.f 4 0 0) = { s.dev.dom (c.f 4 0 0) with
          role := c.f 4 5 4, masterId := c.q 5, masterPort := c.f 7 15 0, gm := c.q 8, pend := none, asked := none
          exch := none, fresh := false }
      ∧ (∀ j, j ≠ c.f 4 0 0 → t.dev.dom j = s.dev.dom j) ∧ Keeps (.ntu :: byDone) s.dev t.dev :=
  ntuCmd_sets_dom rfl hc hn (if_neg fun ⟨h1, hl⟩ => hr.elim h1 fun h => by simp [h] at hl)

theorem ntuSetIncr_good (hc : s.dev.clear specSetIncr r c = true) (hn : s.dev.noCode 3 = false) :
    ∃ t, exec (.ntuSetIncr r) s = .next t ∧ t.pending = s.pending ∧ Answered s.dev t.dev r stSuccess 0
      ∧ t.dev.dom (c.f 4 0 0) = { s.dev.dom (c.f 4 0 0) with incr := c.q 5, locked := c.b 4 8 }
      ∧ (∀ j, j ≠ c.f 4 0 0 → t.dev.dom j = s.dev.dom j) ∧ Keeps (.ntu :: byDone) s.dev t.dev :=
  ntuCmd_sets_dom rfl hc hn rfl

theorem ntuAdjPhase_good (hc : s.dev.clear specAdjPhase r c = true) (hn : s.dev.noCode 3 = false) :
    ∃ t, exec (.ntuAdjPhase r) s = .next t ∧ t.pending = s.pending ∧ Answered s.dev t.dev r stSuccess 0
      ∧ t.dev.dom (c.f 4 0 0) = { s.dev.dom (c.f 4 0 0) with
          counter := (((s.dev.dom (c.f 4 0 0)).counter + toSigned 64 (c.q 5) * 65536) % (timeMod : Int)).toNat }
      ∧ (∀ j, j ≠ c.f 4 0 0 → t.dev.dom j = s.dev.dom j) ∧ t.dev.ntu.lts = s.dev.ntu.lts
      ∧ Keeps (.ntu :: .fetch :: byPost) s.dev t.dev :=
  ntuCmd_moves_dom rfl hc hn rfl (Dev.ltsEval_same _)

theorem ntuSetTemplate_good {blk : List Byte} (hc : s.dev.clear specSetTemplate r c = true)
    (hn : s.dev.noCode 3 = false) (hlen : blk.length = c.f 4 15 8) :
    ∃ t, exec (.ntuSetTemplate r blk) s = .next t ∧ t.pending = s.pending ∧ Answered s.dev t.dev r stSuccess 0
      ∧ (c.b 4 4 = false → t.dev.dom (c.f 4 0 0) = { s.dev.dom (c.f 4 0 0) with announce := some blk })
      ∧ (c.b 4 4 = true → t.dev.dom (c.f 4 0 0)
          = { s.dev.dom (c.f 4 0 0) with metadata := if blk.isEmpty then none else some blk })
      ∧ (∀ j, j ≠ c.f 4 0 0 → t.dev.dom j = s.dev.dom j) ∧ Keeps (.ntu :: byDone) s.dev t.dev := by
  have htake : (blk ++ List.replicate 128 0).take (c.f 4 15 8) = blk := by rw [← hlen, List.take_left]
  cases hmeta : c.b 4 4 with
  | false =>
    obtain ⟨t, hx, hp, ha, hdom, hrest⟩ := ntuCmd_sets_dom (i := .ntuSetTemplate r blk) rfl hc hn
      (by simp only [htake, hmeta, Bool.false_eq_true, if_false]; rfl)
    exact ⟨t, hx, hp, ha, fun _ => hdom, by simp, hrest⟩
  | true =>
    obtain ⟨t, hx, hp, ha, hdom, hrest⟩ := ntuCmd_sets_dom (i := .ntuSetTemplate r blk) rfl hc hn
      (by simp only [htake, hmeta, if_true]; rfl)
    exact ⟨t, hx, hp, ha, by simp, fun _ => hdom, hrest⟩

theorem ntuReadTime_good (hc : s.dev.clear specReadTime r c = true) (hn : s.dev.noCode 3 = false) :
    ∃ t, exec (.ntuReadTime r) s = .next t ∧ t.pending = s.pending ∧ Answered s.dev t.dev r stSuccess 0
      ∧ Out.hostFields (c.q 5) 36 [⟨0, 12, ltsForm s.dev.ntu.lts⟩, ⟨12, 12, ltsForm (s.dev.dom 0).counter⟩,
          ⟨24, 12, ltsForm (if s.dev.feat 9 then (s.dev.dom 1).counter else 0)⟩] ∈ t.dev.out
      ∧ Keeps byDone s.dev t.dev := by
  obtain ⟨-, -, ho, -⟩ := Dev.clear_iff.mp hc
  obtain ⟨hx, ha, hk⟩ := ntuCmd_completes (i := .ntuReadTime r) (p := byDone) rfl hc hn rfl (Dev.emit_keeps _ _)
    (by decide) (by decide) (by decide) (by decide)
  exact ⟨_, hx, rfl, ha, Dev.finish_out_mono _ _ _ ho (List.mem_append_right _ (List.mem_singleton.mpr rfl)), hk⟩

/-- The state in which NTU_SELECT completes: the selection, then the step or the slew to the domain's time. -/
def Dev.selected (d : Dev) (k : Nat) (step : Bool) : Dev :=
  if step then (d.select k).ltsStep else (d.select k).ltsEval

theorem Dev.select_keeps (d : Dev) (k : Nat) : Keeps (.ntu :: byPost) d (d.select k) :=
  ((d.ntu_keeps _).mono (by simp)).trans (d.select_same k).2

theorem Dev.selected_slew (d : Dev) (k : Nat) : (d.select k).SlewSame (d.selected k false) :=
  (d.select k).ltsEval_same

theorem Dev.selected_spec (d : Dev) (k : Nat) (step : Bool) :
    (d.selected k step).ntu.sel = k ∧ (d.selected k step).ntu.doms = d.ntu.doms
      ∧ (step = true → k < 2 →
          (d.selected k step).ntu.lts = (d.dom k).counter ∧ (d.selected k step).ntu.slewing = false)
      ∧ (step = false → (d.selected k step).ntu.lts = d.ntu.lts) ∧ Keeps (.ntu :: byPost) d (d.selected k step) := by
  have hsel := d.select_same k
  cases step with
  | false =>
    have h := hsel.trans (d.selected_slew k)
    exact ⟨h.sel, h.doms, by simp, fun _ => h.lts, (d.select_keeps k).trans (d.selected_slew k).2⟩
  | true =>
    obtain ⟨h, hslew⟩ := (d.select k).ltsStep_same
    refine ⟨h.sel.trans hsel.sel, h.doms.trans hsel.doms, fun _ hk => ⟨?_, hslew⟩, by simp, ?_⟩
    · have hs : (d.select k).ntu.sel = k := hsel.sel
      have hd : (d.select k).dom k = d.dom k := hsel.dom k
      refine h.lts.trans ?_
      rw [← hd]
      simpa only [hs] using Dev.lts_add_ltsDiff (d := d.select k) (by rw [hs]; exact hk)
    · exact ((d.select_keeps k).trans (((d.select k).ntu_keeps _).mono (by simp))).trans h.2

theorem ntuSelect_good (hc : s.dev.clear specSelect r c = true) (hn : s.dev.noCode 3 = false) :
    ∃ t, exec (.ntuSelect r) s = .next t ∧ t.pending = s.pending
      ∧ Answered s.dev t.dev r stSuccess (if t.dev.ntu.slewing then 1 else 0) ∧ t.dev.ntu.sel = c.f 4 1 0
      ∧ (c.b 4 8 = true → c.f 4 1 0 < 2 →
          t.dev.ntu.lts = (s.dev.dom (c.f 4 1 0)).counter ∧ t.dev.ntu.slewing = false)
      ∧ (c.b 4 8 = false → t.dev.ntu.lts = s.dev.ntu.lts) ∧ t.dev.ntu.doms = s.dev.ntu.doms
      ∧ Keeps (.ntu :: .fetch :: byPost) s.dev t.dev := by
  obtain ⟨hsel, hdoms, hstep, hslew, hk⟩ := s.dev.selected_spec (c.f 4 1 0) (c.b 4 8)
  obtain ⟨hx, ha, hkeeps⟩ := ntuCmd_completes (i := .ntuSelect r) (p := .ntu :: .fetch :: byPost)
    (e := s.dev.selected (c.f 4 1 0) (c.b 4 8)) (res := (s.dev.selected (c.f 4 1 0) (c.b 4 8)).ntu.slewing.toNat)
    rfl hc hn rfl hk (by decide) (by decide) (by decide) (by decide)
  refine ⟨_, hx, rfl, ?_, ?_⟩
  · simpa only [Dev.finish_frame, Bool.toNat, Bool.cond_eq_ite] using ha
  · simp only [Dev.finish_frame]
    exact ⟨hsel, hstep, hslew, hdoms, hkeeps⟩

end Commands
end Sys2Proof.Machine
end

section
/-! SUPPORT. The end of a slew, and PTP messages at the domain instances (O56). -/

namespace Sys2Proof.Machine

open Sys2Proof

/-! ## The end of a slew (R377) -/

section SlewEnd

variable {s : State}

theorem slewEnd_none (hi : s.dev.idleMode = true) (h : s.dev.ltsFollows = none ∨ s.dev.ntu.slewing = false) :
    exec .slewEnd s = .next s := by
  have hclose : s.dev.ntu.slewing = false → s.dev.slewClose = s.dev := fun hs => by simp [Dev.slewClose, hs]
  refine event_none (i := .slewEnd) (by rw [exec, execSlewEnd]) hi ?_
  split
  · rename_i k hk
    obtain hn | hs := h
    · simp [hk] at hn
    · rw [hclose hs, ite_self]
  · rfl

theorem slewEnd_closes {k : Nat} (hi : s.dev.idleMode = true) (hk : s.dev.ltsFollows = some k)
    (hs : s.dev.ntu.slewing = true) (hd : s.dev.ltsDiff.natAbs < s.dev.slewAdj (s.dev.dom k).incr) :
    ∃ t, exec .slewEnd s = .next t ∧ t.dev.ntu.slewing = false
      ∧ t.dev.ntu.lts = ((s.dev.ntu.lts : Int) + s.dev.ltsDiff).toNat % timeMod ∧ t.dev.ntu.doms = s.dev.ntu.doms
      ∧ Keeps (.ntu :: byPost) s.dev t.dev := by
  have hstop := Dev.slewStop_same
    { s.dev with ntu := { s.dev.ntu with lts := ((s.dev.ntu.lts : Int) + s.dev.ltsDiff).toNat % timeMod } } 0
  have hkeeps := ((s.dev.ntu_keeps _).mono (by simp)).trans hstop.2
  refine ⟨_, event_effect (i := .slewEnd) (by rw [exec, execSlewEnd]) hi ?_ hkeeps (by decide),
    Dev.slewStop_slewing _ _, hstop.lts, hstop.doms, hkeeps⟩
  simp only [hk, hd, if_true, Dev.slewClose, hs]

end SlewEnd

/-! ## Messages reach the domains that hear them -/

/-- The other of the two domains. -/
theorem other_ne (k : Fin 2) : 1 - k.val ≠ k.val := by omega

/-- What acts on started domains alone acts, while the other domain is stopped, on this one. -/
theorem Dev.eachDom_alone {f : Dev → Nat → Dev} {d e : Dev} (k : Fin 2)
    (hf : ∀ x : Dev, (x.dom (1 - k.val)).role = 0 → f x (1 - k.val) = x) (ho : (d.dom (1 - k.val)).role = 0)
    (he : f d k.val = e) (hr : e.dom (1 - k.val) = d.dom (1 - k.val)) : d.eachDom f = e := by
  have hother := hf e (by rw [hr]; exact ho)
  unfold Dev.eachDom
  match k with
  | 0 => exact (congrArg (f · 1) he).trans hother
  | 1 => exact (congrArg (f · 1) (hf d ho)).trans he

theorem Dev.domHears_stopped {d : Dev} {k : Nat} (h : (d.dom k).role = 0) (p n : Nat) : d.domHears k p n = false := by
  simp [Dev.domHears, h]

theorem Dev.setDom_other (d : Dev) (k : Fin 2) (v : Dom) : (d.setDom k.val v).dom (1 - k.val) = d.dom (1 - k.val) :=
  Dev.setDom_dom_ne _ _ _ (other_ne k)

/-! ## PTP_SAMPLE (Table 14-5) -/

theorem Dev.ringOf_congr {d e : Dev} (h : e.hif.rings = d.hif.rings) (kind : Nat) : e.ringOf kind = d.ringOf kind := by
  unfold Dev.ringOf
  rw [h]

theorem Dev.fits_congr {d e : Dev} (h : e.hif.rings = d.hif.rings) (n slots : Nat) :
    e.fits n slots = d.fits n slots := by
  unfold Dev.fits Dev.ring
  rw [h]

/-- A sample is a posted record with the fields of its Sync, whatever the free values of an exchange not made are; then
the exchange is no longer fresh. -/
theorem Dev.ptpSample_form (d : Dev) (k : Nat) (two : Bool) (seq srcId srcPort t1 t2 : Nat) (corr : Int) :
    ∃ (e : Dev) (body : List Fld), Keeps [] d e ∧ ⟨34, 2, seq⟩ ∈ body ∧ ⟨52, 12, ltsForm t2⟩ ∈ body
      ∧ ⟨88, 8, fromSigned 64 corr⟩ ∈ body
      ∧ d.ptpSample k two seq srcId srcPort t1 t2 corr = (e.post 0x4100 2 ones64 0xA k body e.now).setDom k
          { (e.post 0x4100 2 ones64 0xA k body e.now).dom k with fresh := false } := by
  unfold Dev.ptpSample
  simp only []
  cases (d.dom k).exch with
  | some x => refine ⟨d, _, Keeps.refl _ _, ?_, ?_, ?_, rfl⟩ <;> simp [ltsFld]
  | none =>
    refine ⟨d.draw.2.draw.2.draw.2.draw.2, _, (((Dev.draw_keeps _).trans (Dev.draw_keeps _)).trans
      (Dev.draw_keeps _)).trans (Dev.draw_keeps _), ?_, ?_, ?_, rfl⟩ <;> simp [ltsFld]

/-- A sample leaves its domain with a stale exchange, every other domain alone, and touches what a record does. -/
theorem Dev.ptpSample_frame (d : Dev) (k : Nat) (two : Bool) (seq srcId srcPort t1 t2 : Nat) (corr : Int) :
    (d.ptpSample k two seq srcId srcPort t1 t2 corr).dom k = { d.dom k with fresh := false }
      ∧ (∀ j, j ≠ k → (d.ptpSample k two seq srcId srcPort t1 t2 corr).dom j = d.dom j)
      ∧ Keeps (.ntu :: byPost) d (d.ptpSample k two seq srcId srcPort t1 t2 corr) := by
  obtain ⟨e, body, hk, -, -, -, h⟩ := d.ptpSample_form k two seq srcId srcPort t1 t2 corr
  have hpost := (hk.mono (b := byPost) (by simp)).trans (e.post_keeps 0x4100 2 ones64 0xA k body e.now)
  have hdom : ∀ j, (e.post 0x4100 2 ones64 0xA k body e.now).dom j = d.dom j := fun j => by
    unfold Dev.dom
    rw [show (e.post 0x4100 2 ones64 0xA k body e.now).ntu = d.ntu from hpost .ntu (by decide)]
  rw [h]
  refine ⟨by rw [Dev.setDom_dom, hdom], fun j hj => by rw [Dev.setDom_dom_ne _ _ _ hj, hdom], ?_⟩
  exact (hpost.mono (by simp)).trans ((Dev.setDom_keeps _ _ _).mono (by simp))

/-- Where a ring takes it and has room, a sample leaves with the fields of its Sync. -/
theorem Dev.ptpSample_record {d : Dev} {n : Nat} (k : Nat) (two : Bool) (seq srcId srcPort t1 t2 : Nat) (corr : Int)
    (hn : d.ringOf 4 = some n) (hf : d.fits n 2 = true) :
    ∃ slot rc, Out.record n slot rc ∈ (d.ptpSample k two seq srcId srcPort t1 t2 corr).out ∧ rc.type = 0x4100
      ∧ rc.inst = k ∧ ⟨34, 2, seq⟩ ∈ rc.body ∧ ⟨52, 12, ltsForm t2⟩ ∈ rc.body
      ∧ ⟨88, 8, fromSigned 64 corr⟩ ∈ rc.body := by
  obtain ⟨e, body, hk, hseq, ht2, hcorr, h⟩ := d.ptpSample_form k two seq srcId srcPort t1 t2 corr
  have hrings : e.hif.rings = d.hif.rings := hk .rings (by simp)
  obtain ⟨slot, rc, hout, htype, -, hinst, hbody⟩ := e.post_record 0x4100 2 ones64 0xA k body e.now
    ((Dev.ringOf_congr hrings 4).trans hn) ((Dev.fits_congr hrings n 2).trans hf)
  rw [h]
  subst hbody
  exact ⟨slot, rc, hout, htype, hinst, hseq, ht2, hcorr⟩

/-! ## Reception (R373, R374) -/

section Reception

variable {d : Dev} {p : Nat} {k : Fin 2} {m : PtpMsg}

theorem Dev.sync_not_taken (ho : (d.dom (1 - k.val)).role = 0) (ht : d.domTakes k.val m = false) :
    d.sync p m = d :=
  Dev.eachDom_alone k (fun x hx => by simp [Dev.domHears_stopped hx]) ho (by simp [ht]) rfl

theorem Dev.followUp_not_taken (ho : (d.dom (1 - k.val)).role = 0) (ht : d.domTakes k.val m = false) :
    d.followUp p m = d :=
  Dev.eachDom_alone k (fun x hx => by simp [Dev.domHears_stopped hx]) ho (by simp [ht]) rfl

theorem Dev.delayResp_not_taken (ho : (d.dom (1 - k.val)).role = 0) (ht : d.domTakes k.val m = false) :
    d.delayResp p m = d :=
  Dev.eachDom_alone k (fun x hx => by simp [Dev.domHears_stopped hx]) ho (by simp [ht]) rfl

theorem Dev.sync_twoStep (hh : d.domHears k.val p m.domain = true) (ho : (d.dom (1 - k.val)).role = 0)
    (ht : d.domTakes k.val m = true) (h2 : m.twoStep = true) :
    d.sync p m = d.setDom k.val { d.dom k.val with pend := some {
      seq := m.seq, srcId := m.srcId, srcPort := m.srcPort, t2 := (d.dom k.val).counter, corr := m.corr } } :=
  Dev.eachDom_alone k (fun x hx => by simp [Dev.domHears_stopped hx]) ho (by simp [hh, ht, h2]) (Dev.setDom_other _ _ _)

/-- Other domains than the one of a sample are as before. -/
theorem Dev.setDom_ptpSample_other (v : Dom) (two : Bool) (seq srcId srcPort t1 t2 : Nat) (corr : Int) :
    ((d.setDom k.val v).ptpSample k.val two seq srcId srcPort t1 t2 corr).dom (1 - k.val) = d.dom (1 - k.val) :=
  ((Dev.ptpSample_frame _ _ _ _ _ _ _ _ _).2.1 _ (other_ne k)).trans (Dev.setDom_other _ _ _)

theorem Dev.sync_oneStep (hh : d.domHears k.val p m.domain = true) (ho : (d.dom (1 - k.val)).role = 0)
    (ht : d.domTakes k.val m = true) (h2 : m.twoStep = false) :
    d.sync p m = (d.setDom k.val { d.dom k.val with pend := none }).ptpSample k.val false m.seq m.srcId m.srcPort m.time
      (d.dom k.val).counter m.corr :=
  Dev.eachDom_alone k (fun x hx => by simp [Dev.domHears_stopped hx]) ho (by simp [hh, ht, h2])
    (Dev.setDom_ptpSample_other _ _ _ _ _ _ _ _)

theorem Dev.followUp_matched {y : PendSync} (hh : d.domHears k.val p m.domain = true)
    (ho : (d.dom (1 - k.val)).role = 0) (ht : d.domTakes k.val m = true) (hy : (d.dom k.val).pend = some y)
    (hseq : y.seq = m.seq) (hid : y.srcId = m.srcId) (hport : y.srcPort = m.srcPort) :
    d.followUp p m = (d.setDom k.val { d.dom k.val with pend := none }).ptpSample k.val true y.seq y.srcId y.srcPort
      m.time y.t2 (y.corr + m.corr) :=
  Dev.eachDom_alone k (fun x hx => by simp [Dev.domHears_stopped hx]) ho (by simp [hh, ht, hy, hseq, hid, hport])
    (Dev.setDom_ptpSample_other _ _ _ _ _ _ _ _)

theorem Dev.delayResp_own {t3 : Nat} (hh : d.domHears k.val p m.domain = true) (ho : (d.dom (1 - k.val)).role = 0)
    (ht : d.domTakes k.val m = true) (hown : m.reqOwn = true) (ha : (d.dom k.val).asked = some (m.seq, t3)) :
    d.delayResp p m = d.setDom k.val { d.dom k.val with
      asked := none, fresh := true, exch := some { seq := m.seq, t3 := t3, t4 := m.time, corr := m.corr } } :=
  Dev.eachDom_alone k (fun x hx => by simp [Dev.domHears_stopped hx]) ho (by simp [hh, ht, hown, ha])
    (Dev.setDom_other _ _ _)

end Reception

theorem Dev.netOut_keeps (d : Dev) (p : Nat) (m : NetMsg) : Keeps [.out] d (d.netOut p m) := Dev.emit_keeps _ _

section ReceptionEvents

variable {s : State} {p k : Fin 2} {m : PtpMsg}

theorem exec_syncReceived : exec (.syncReceived p m) s = lift (fun d => d.sync p.val m) s := rfl
theorem exec_followUpReceived : exec (.followUpReceived p m) s = lift (fun d => d.followUp p.val m) s := rfl
theorem exec_delayRespReceived : exec (.delayRespReceived p m) s = lift (fun d => d.delayResp p.val m) s := rfl

/-- An event that sets a domain and does nothing else. -/
theorem event_sets_dom {i : Instr} {f : Dev → Dev} {j : Nat} {v : Dom} (hx : exec i s = lift f s)
    (hi : s.dev.idleMode = true) (he : f s.dev = s.dev.setDom j v) :
    ∃ t, exec i s = .next t ∧ t.dev.dom j = v ∧ Keeps [.ntu] s.dev t.dev :=
  ⟨_, event_effect hx hi he (Dev.setDom_keeps _ _ _) (by decide), Dev.setDom_dom _ _ _, Dev.setDom_keeps _ _ _⟩

/-- An event whose effect is the sample of a Sync that waits no longer. -/
theorem event_samples {i : Instr} {f : Dev → Dev} {n : Nat} {two : Bool} {seq srcId srcPort t1 t2 : Nat} {corr : Int}
    (hx : exec i s = lift f s) (hi : s.dev.idleMode = true)
    (he : f s.dev = (s.dev.setDom k.val { s.dev.dom k.val with pend := none }).ptpSample k.val two seq srcId srcPort t1
      t2 corr)
    (hn : s.dev.ringOf 4 = some n) (hf : s.dev.fits n 2 = true) :
    ∃ t slot rc, exec i s = .next t ∧ Out.record n slot rc ∈ t.dev.out ∧ rc.type = 0x4100 ∧ rc.inst = k.val
      ∧ ⟨34, 2, seq⟩ ∈ rc.body ∧ ⟨52, 12, ltsForm t2⟩ ∈ rc.body ∧ ⟨88, 8, fromSigned 64 corr⟩ ∈ rc.body
      ∧ t.dev.dom k.val = { s.dev.dom k.val with pend := none, fresh := false }
      ∧ Keeps (.ntu :: byPost) s.dev t.dev := by
  obtain ⟨hdom, -, hk⟩ := Dev.ptpSample_frame (s.dev.setDom k.val { s.dev.dom k.val with pend := none }) k.val two seq
    srcId srcPort t1 t2 corr
  have hkeeps := ((Dev.setDom_keeps s.dev k.val _).mono (by simp)).trans hk
  obtain ⟨slot, rc, hout, htype, hinst, hseq, ht2, hcorr⟩ := Dev.ptpSample_record
    (d := s.dev.setDom k.val { s.dev.dom k.val with pend := none }) k.val two seq srcId srcPort t1 t2 corr hn hf
  exact ⟨_, slot, rc, event_effect hx hi he hkeeps (by decide), hout, htype, hinst, hseq, ht2, hcorr,
    by rw [hdom, Dev.setDom_dom], hkeeps⟩

theorem delayReqReceived_master (hi : s.dev.idleMode = true) (hh : s.dev.domHears k.val p.val m.domain = true)
    (ho : (s.dev.dom (1 - k.val)).role = 0) (hr : (s.dev.dom k.val).role = 3) :
    ∃ t tag, exec (.delayReqReceived p m) s = .next t
      ∧ t.dev.out = s.dev.out ++ [.net p.val tag
          (.delayResp m.domain m.seq m.srcId m.srcPort (s.dev.dom k.val).counter m.corr)]
      ∧ Keeps [.out] s.dev t.dev := by
  have hk := s.dev.netOut_keeps p.val (.delayResp m.domain m.seq m.srcId m.srcPort (s.dev.dom k.val).counter m.corr)
  refine ⟨_, _, event_effect (i := .delayReqReceived p m) (by rw [exec, execDelayReqReceived]) hi ?_ hk (by decide), rfl,
    hk⟩
  exact Dev.eachDom_alone k (fun x hx => by simp [Dev.domHears_stopped hx]) ho (by simp [hh, hr]) rfl

theorem delayReqReceived_other (hi : s.dev.idleMode = true) (ho : (s.dev.dom (1 - k.val)).role = 0)
    (hr : (s.dev.dom k.val).role ≠ 3) : exec (.delayReqReceived p m) s = .next s := by
  refine event_none (i := .delayReqReceived p m) (by rw [exec, execDelayReqReceived]) hi ?_
  exact Dev.eachDom_alone k (fun x hx => by simp [Dev.domHears_stopped hx]) ho (by simp [hr]) rfl

/-- The fields of PTP_MSG (Table 14-5). -/
def Dev.ptpMsgFields (d : Dev) (p : Nat) (body : List Byte) : List Fld :=
  [⟨32, 1, p⟩, ⟨34, 2, body.length⟩, ltsFld 42 d.now, ⟨64, body.length, leNat body⟩]

theorem ptpMsg_posted {body : List Byte} {n : Nat} (hi : s.dev.idleMode = true)
    (hh : s.dev.domHears k.val p.val m.domain = true) (ho : (s.dev.dom (1 - k.val)).role = 0)
    (hb : body.length ≤ 192) (hn : s.dev.ringOf 4 = some n)
    (hf : s.dev.fits n (ceilDiv (64 + body.length) 64) = true) :
    ∃ t slot rc, exec (.ptpMsg p m body) s = .next t ∧ Out.record n slot rc ∈ t.dev.out ∧ rc.type = 0x4101
      ∧ rc.slots = ceilDiv (64 + body.length) 64 ∧ rc.inst = k.val
      ∧ (⟨64, body.length, leNat body⟩ : Fld) ∈ rc.body ∧ Keeps byPost s.dev t.dev := by
  obtain ⟨slot, rc, hout, htype, hslots, hinst, hbody⟩ := Dev.post_record 0x4101 (ceilDiv (64 + body.length) 64) ones64
    0xA k.val (s.dev.ptpMsgFields p.val body) s.dev.now hn hf
  have hk := s.dev.post_keeps 0x4101 (ceilDiv (64 + body.length) 64) ones64 0xA k.val
    (s.dev.ptpMsgFields p.val body) s.dev.now
  have hntu := hk .ntu (by decide)
  refine ⟨_, slot, rc, event_effect (i := .ptpMsg p m body) (by rw [exec, execPtpMsg]) hi ?_ hk (by decide), hout, htype,
    hslots, hinst, by simp [hbody, Dev.ptpMsgFields], hk⟩
  refine Dev.eachDom_alone k (fun x hx => by simp [Dev.domHears_stopped hx]) ho ?_ ?_
  · simp [hh, List.take_of_length_le hb, Dev.ptpMsgFields]
  · unfold Dev.dom
    rw [hntu]

end ReceptionEvents

/-! ## Transmission (R374) -/

section Transmission

variable {s : State} {k : Fin 2}

/-- A message sent on the domain's port while the domain's sequence number moves on. -/
theorem event_sends {i : Instr} {f : Dev → Dev} {v : Dom} {m : NetMsg} (hx : exec i s = lift f s)
    (hi : s.dev.idleMode = true) (he : f s.dev = (s.dev.setDom k.val v).domOut k.val m) :
    ∃ t tag, exec i s = .next t ∧ t.dev.dom k.val = v
      ∧ t.dev.out = s.dev.out ++ [.net (s.dev.domCfg k.val 0 0) tag m] ∧ Keeps [.ntu, .out] s.dev t.dev := by
  have hk : Keeps [.ntu, .out] s.dev ((s.dev.setDom k.val v).domOut k.val m) :=
    ((Dev.setDom_keeps s.dev k.val v).mono (by simp)).trans ((Dev.netOut_keeps _ _ _).mono (by simp))
  exact ⟨_, _, event_effect hx hi he hk (by decide), Dev.setDom_dom _ _ _, rfl, hk⟩

theorem announceSend_not (hi : s.dev.idleMode = true) (hs : s.dev.domSends k.val 3 = false) :
    exec (.announceSend k) s = .next s := by
  refine event_none (i := .announceSend k) (by rw [exec, execAnnounceSend]) hi ?_
  cases h : (s.dev.dom k.val).announce <;> simp [h, hs]

theorem metadataSend_not (hi : s.dev.idleMode = true) (hs : s.dev.domSends k.val 3 = false) :
    exec (.metadataSend k) s = .next s := by
  refine event_none (i := .metadataSend k) (by rw [exec, execMetadataSend]) hi ?_
  cases h : (s.dev.dom k.val).metadata <;> simp [h, hs]

theorem syncSend_not (hi : s.dev.idleMode = true) (hs : s.dev.domSends k.val 3 = false) :
    exec (.syncSend k) s = .next s :=
  event_none (i := .syncSend k) rfl hi (by simp [hs])

theorem delayReqSend_not (hi : s.dev.idleMode = true) (hs : s.dev.domSends k.val 2 = false) :
    exec (.delayReqSend k) s = .next s :=
  event_none (i := .delayReqSend k) rfl hi (by simp [hs])

end Transmission

/-- Settles O56: one lemma for each command and message, giving what it does to its domain and its frame. -/
theorem ptpDomains : Obligations.PtpDomains := by
  unfold Obligations.PtpDomains
  refine ⟨?_, ?_, ?_, ?_⟩
  · rintro s r c k rfl hn
    exact ⟨fun hc => ⟨fun hr => ntuDomStart_started hc hn hr, fun hr hb => ntuDomStart_bad hc hn hr hb,
        fun hr hb => ntuDomStart_good hc hn hr hb⟩,
      fun hc => ntuDomStop_good hc hn,
      fun hc => ⟨fun hr hl => ntuDomRole_linkDown hc hn hr hl, fun hr => ntuDomRole_good hc hn hr⟩,
      fun hc => ntuSetIncr_good hc hn, fun hc => ntuAdjPhase_good hc hn,
      fun _ hc hlen => ntuSetTemplate_good hc hn hlen, fun hc => ntuSelect_good hc hn,
      fun hc => ntuReadTime_good hc hn⟩
  · intro s k hi
    exact ⟨fun h => slewEnd_none hi h, fun hk hs hd => slewEnd_closes hi hk hs hd⟩
  · rintro s p k m v hi hh ho rfl
    refine ⟨fun ht => ⟨event_none exec_syncReceived hi (Dev.sync_not_taken ho ht),
      event_none exec_followUpReceived hi (Dev.followUp_not_taken ho ht),
      event_none exec_delayRespReceived hi (Dev.delayResp_not_taken ho ht)⟩, ?_, ?_, ?_, ?_, ?_, ?_, ?_⟩
    · intro ht h2
      exact event_sets_dom exec_syncReceived hi (Dev.sync_twoStep hh ho ht h2)
    · intro n ht h2 hn hf
      obtain ⟨t, slot, rc, hx, hout, htype, hinst, hseq, ht2, -, hdom, hk⟩ :=
        event_samples exec_syncReceived hi (Dev.sync_oneStep hh ho ht h2) hn hf
      exact ⟨t, slot, rc, hx, hout, htype, hinst, hseq, ht2, hdom, hk⟩
    · intro y n ht hy hseq hid hport hn hf
      obtain ⟨t, slot, rc, hx, hout, htype, hinst, -, ht2, hcorr, hdom, hk⟩ :=
        event_samples exec_followUpReceived hi (Dev.followUp_matched hh ho ht hy hseq hid hport) hn hf
      exact ⟨t, slot, rc, hx, hout, htype, hinst, ht2, hcorr, hdom, hk⟩
    · intro t3 ht hown ha
      exact event_sets_dom exec_delayRespReceived hi (Dev.delayResp_own hh ho ht hown ha)
    · exact fun hr => delayReqReceived_master hi hh ho hr
    · exact fun hr => delayReqReceived_other hi ho hr
    · exact fun body n hb hn hf => ptpMsg_posted hi hh ho hb hn hf
  · rintro s k v hi rfl
    refine ⟨fun hs => ⟨announceSend_not hi hs, syncSend_not hi hs, metadataSend_not hi hs⟩,
      fun hs => delayReqSend_not hi hs, fun hs => ⟨fun b hb => ?_, ?_, fun b hb => ?_⟩, fun hs => ?_⟩
    · exact event_sends (i := .announceSend k) (by rw [exec, execAnnounceSend]) hi (by simp only [hb, hs, if_true])
    · exact event_sends (i := .syncSend k) rfl hi (by simp only [hs, if_true]; rfl)
    · exact event_sends (i := .metadataSend k) (by rw [exec, execMetadataSend]) hi (by simp only [hb, hs, if_true])
    · exact event_sends (i := .delayReqSend k) rfl hi (by simp only [hs, if_true])

end Sys2Proof.Machine
end

section
/-! SUPPORT. Rules of ports: what reading one depends on, and lanes that lock and are lost (R108, R125). -/

namespace Sys2Proof.Machine

open Sys2Proof

/-! ## Work under a condition, and reading a port -/

/-- A stretch of work that is done under a condition keeps what it keeps. -/
theorem Keeps.ifThen {b : List Part} {d e x : Dev} {c : Prop} [Decidable c] (h : Keeps b d e) (k : Keeps b e x) :
    Keeps b d (if c then x else e) := by
  split
  · exact h.trans k
  · exact h

theorem Keeps.ifElse {b : List Part} {d e x : Dev} {c : Prop} [Decidable c] (h : Keeps b d e) (k : Keeps b e x) :
    Keeps b d (if c then e else x) := by
  split
  · exact h
  · exact h.trans k

theorem Keeps.port {b : List Part} {d e : Dev} (h : Keeps b d e) (hb : .sni ∉ b) (p : Nat) : e.port p = d.port p := by
  have hsni : e.sni = d.sni := h .sni hb
  unfold Dev.port
  rw [hsni]

theorem Keeps.reg {b : List Part} {d e : Dev} (h : Keeps b d e) (hb : .regs ∉ b) (o : Nat) : e.reg o = d.reg o := by
  have hregs : e.regs = d.regs := h .regs hb
  unfold Dev.reg
  rw [hregs]

theorem Keeps.gangOf {b : List Part} {d e : Dev} (h : Keeps b d e) (hb : .regs ∉ b) (p : Nat) :
    e.gangOf p = d.gangOf p := by
  simp only [Dev.gangOf, Dev.fld, h.reg hb]

/-- A source works on the set-up registers and on what its port has latched of them. -/
theorem Dev.sreg_congr {d e : Dev} {p : Nat} (hr : ∀ o, e.reg o = d.reg o)
    (hl : (e.port p).latched = (d.port p).latched) (o : Nat) : e.sreg p o = d.sreg p o := by
  unfold Dev.sreg
  simp only []
  rw [hl, hr]

theorem Dev.activeLanes_congr {d e : Dev} {p : Nat} (hr : ∀ o, e.reg o = d.reg o)
    (hl : (e.port p).latched = (d.port p).latched) : e.activeLanes p = d.activeLanes p := by
  have hs := Dev.sreg_congr hr hl
  unfold Dev.activeLanes Dev.sfld
  simp only [hs]

/-- A port has its own place: an update of one port leaves a field of every other, and of that one too where the update
leaves it. -/
theorem Dev.modPort_field {α : Type} (d : Dev) (m p : Nat) {f : Port → Port} (g : Port → α)
    (hg : ∀ v, g (f v) = g v) : g ((d.modPort m f).port p) = g (d.port p) := by
  unfold Dev.modPort
  by_cases hp : p = m
  · rw [hp, Dev.setPort_port, hg]
  · rw [Dev.setPort_port_ne _ _ _ hp]

@[simp] theorem Dev.modPort_port (d : Dev) (p : Nat) (f : Port → Port) : (d.modPort p f).port p = f (d.port p) :=
  Dev.setPort_port _ _ _

/-! ## A lane locks or is lost (R108, R125, R142) -/

/-- The port's lanes are `bits` from now on, and PORT_EVENT says what happened to lane `n`. -/
def Dev.noteLane (d : Dev) (p bits ev n : Nat) : Dev :=
  (d.setPort p { d.port p with laneLock := bits }).portEvent p ev n 0

/-- The port's state alone changes. -/
def Dev.portState (d : Dev) (p : Nat) (st : PortState) : Dev := d.modPort p fun v => { v with state := st }

theorem Dev.portEvent_keeps (d : Dev) (p ev lane spread : Nat) : Keeps byPost d (d.portEvent p ev lane spread) :=
  Dev.post_keeps _ _ _ _ _ _ _ _

section Lanes

variable (d : Dev) (p m bits ev n : Nat)

theorem Dev.noteLane_keeps : Keeps (.sni :: byPost) d (d.noteLane p bits ev n) :=
  ((Dev.setPort_keeps _ _ _).mono (by simp)).trans ((Dev.portEvent_keeps _ _ _ _ _).mono (by simp))

@[simp] theorem Dev.noteLane_port : (d.noteLane p bits ev n).port p = { d.port p with laneLock := bits } :=
  ((Dev.portEvent_keeps _ _ _ _ _).port (by decide) p).trans (Dev.setPort_port _ _ _)

theorem Dev.noteLane_port_ne (h : m ≠ p) : (d.noteLane p bits ev n).port m = d.port m :=
  ((Dev.portEvent_keeps _ _ _ _ _).port (by decide) m).trans (Dev.setPort_port_ne _ _ _ h)

@[simp] theorem Dev.noteLane_frame : ((d.noteLane p bits ev n).port m).frame = (d.port m).frame := by
  by_cases h : m = p
  · rw [h, Dev.noteLane_port]
  · rw [Dev.noteLane_port_ne _ _ _ _ _ _ h]

@[simp] theorem Dev.noteLane_gangOf : (d.noteLane p bits ev n).gangOf m = d.gangOf m :=
  (Dev.noteLane_keeps _ _ _ _ _).gangOf (by decide) m

@[simp] theorem Dev.noteLane_activeLanes : (d.noteLane p bits ev n).activeLanes p = d.activeLanes p :=
  Dev.activeLanes_congr (fun o => (Dev.noteLane_keeps _ _ _ _ _).reg (by decide) o) (by rw [Dev.noteLane_port])

theorem Dev.portState_keeps (st : PortState) : Keeps [.sni] d (d.portState p st) := Dev.modPort_keeps _ _ _

@[simp] theorem Dev.portState_state (st : PortState) : ((d.portState p st).port p).state = st := by
  simp [Dev.portState]

@[simp] theorem Dev.portState_laneLock (st : PortState) : ((d.portState m st).port p).laneLock = (d.port p).laneLock :=
  Dev.modPort_field d m p (·.laneLock) fun _ => rfl

@[simp] theorem Dev.portState_frame (st : PortState) : ((d.portState m st).port p).frame = (d.port p).frame :=
  Dev.modPort_field d m p (·.frame) fun _ => rfl

end Lanes

section LaneEvents

variable {s : State} {d : Dev} {p : Fin 4} {n : Fin 20} {q k : Nat}

/-- A lane that locks is noted, and a gang whose last lane it is runs where it was locking. -/
theorem Dev.laneUp_locks (hs : (d.port q).state ≠ .stopped) (ha : k ∈ d.activeLanes q)
    (hl : (d.port q).laneLock.testBit k = false) {e : Dev}
    (he : e = d.noteLane q ((d.port q).laneLock ||| 2 ^ k) 1 k) :
    d.laneUp q k = if e.allLocked q && (e.port (d.gangOf q).1).state == .locking then
      e.portState (d.gangOf q).1 .running else e := by
  have hgang : e.gangOf q = d.gangOf q := by rw [he, Dev.noteLane_gangOf]
  have hact : ¬ ((d.port q).state = .stopped ∨ (!(d.activeLanes q).contains k) = true
      ∨ (d.port q).laneLock.testBit k = true) := by
    simp [hs, ha, hl]
  rw [← hgang, he, Dev.laneUp, if_neg hact]
  rfl

/-- Outside a gang all is locked once the port's own active lanes are. -/
theorem Dev.allLocked_alone (hg : d.gangOf q = (q, 1))
    (h : ∀ k ∈ d.activeLanes q, (d.port q).laneLock.testBit k = true) : d.allLocked q = true := by
  simpa [Dev.allLocked, hg, rangeFrom] using h

theorem laneLockAcquired_stopped (hi : s.dev.idleMode = true) (hs : (s.dev.port p.val).state = .stopped) :
    exec (.laneLockAcquired p n) s = .next s :=
  event_none (i := .laneLockAcquired p n) (by rw [exec, execLaneLockAcquired]) hi (by simp [Dev.laneUp, hs])

theorem laneLockAcquired_locks (hi : s.dev.idleMode = true) (hs : (s.dev.port p.val).state ≠ .stopped)
    (ha : n.val ∈ s.dev.activeLanes p.val) (hl : (s.dev.port p.val).laneLock.testBit n.val = false) :
    ∃ t, exec (.laneLockAcquired p n) s = .next t
      ∧ (t.dev.port p.val).laneLock = (s.dev.port p.val).laneLock ||| 2 ^ n.val
      ∧ Keeps (.sni :: byPost) s.dev t.dev
      ∧ (s.dev.gangOf p.val = (p.val, 1) → (s.dev.port p.val).state = .locking →
          (∀ k ∈ s.dev.activeLanes p.val, ((s.dev.port p.val).laneLock ||| 2 ^ n.val).testBit k = true) →
          (t.dev.port p.val).state = .running) := by
  obtain ⟨e, he⟩ : ∃ e, e = s.dev.noteLane p.val ((s.dev.port p.val).laneLock ||| 2 ^ n.val) 1 n.val := ⟨_, rfl⟩
  have hup := Dev.laneUp_locks hs ha hl he
  have hke : Keeps (.sni :: byPost) s.dev e := by rw [he]; exact Dev.noteLane_keeps _ _ _ _ _
  have hk : Keeps (.sni :: byPost) s.dev (s.dev.laneUp p.val n.val) := by
    rw [hup]
    exact hke.ifThen ((Dev.portState_keeps _ _ _).mono (by simp))
  refine ⟨_, event_effect (i := .laneLockAcquired p n) (by rw [exec, execLaneLockAcquired]) hi rfl hk (by decide), ?_, hk,
    fun hg hst hall => ?_⟩
  · rw [hup]
    split <;> simp [he]
  · have hlocked : e.allLocked p.val = true := Dev.allLocked_alone (by simp [he, hg]) (by simpa [he] using hall)
    have hlocking : (e.port p.val).state = .locking := by simp [he, hst]
    rw [hup]
    simp [hg, hlocked, hlocking]

/-- A lane that is lost while no frame is open is cleared, and its gang locks anew where it ran. -/
theorem Dev.laneDown_clears (hs : (d.port q).state ≠ .stopped) (hl : (d.port q).laneLock.testBit k = true)
    (hf : (d.port (d.gangOf q).1).frame = none) {e : Dev}
    (he : e = d.noteLane q ((d.port q).laneLock ^^^ 2 ^ k) 2 k) :
    d.laneDown q k = if (e.port (d.gangOf q).1).state = .running then e.portState (d.gangOf q).1 .locking else e := by
  have hgang : e.gangOf q = d.gangOf q := by rw [he, Dev.noteLane_gangOf]
  have hframe : (e.port (d.gangOf q).1).frame = none := by rw [he, Dev.noteLane_frame, hf]
  have hact : ¬ ((d.port q).state = .stopped ∨ (!(d.port q).laneLock.testBit k) = true) := by simp [hs, hl]
  have hdown : d.laneDown q k =
      let c := if (e.port (e.gangOf q).1).state = .running then e.portState (e.gangOf q).1 .locking else e
      if (c.port (e.gangOf q).1).frame.isSome then c.loseInput (e.gangOf q).1 else c := by
    rw [he, Dev.laneDown, if_neg hact]
    rfl
  rw [hdown, hgang]
  split <;> simp [hframe]

theorem laneLockLost_stopped (hi : s.dev.idleMode = true) (hs : (s.dev.port p.val).state = .stopped) :
    exec (.laneLockLost p n) s = .next s :=
  event_none (i := .laneLockLost p n) (by rw [exec, execLaneLockLost]) hi (by simp [Dev.laneDown, hs])

theorem laneLockLost_clears (hi : s.dev.idleMode = true) (hs : (s.dev.port p.val).state ≠ .stopped)
    (hl : (s.dev.port p.val).laneLock.testBit n.val = true)
    (hf : (s.dev.port (s.dev.gangOf p.val).1).frame = none) :
    ∃ t, exec (.laneLockLost p n) s = .next t
      ∧ (t.dev.port p.val).laneLock = (s.dev.port p.val).laneLock ^^^ 2 ^ n.val
      ∧ (s.dev.gangOf p.val = (p.val, 1) → (s.dev.port p.val).state = .running → (t.dev.port p.val).state = .locking)
      ∧ Keeps (.sni :: byPost) s.dev t.dev := by
  obtain ⟨e, he⟩ : ∃ e, e = s.dev.noteLane p.val ((s.dev.port p.val).laneLock ^^^ 2 ^ n.val) 2 n.val := ⟨_, rfl⟩
  have hdown := Dev.laneDown_clears hs hl hf he
  have hke : Keeps (.sni :: byPost) s.dev e := by rw [he]; exact Dev.noteLane_keeps _ _ _ _ _
  have hk : Keeps (.sni :: byPost) s.dev (s.dev.laneDown p.val n.val) := by
    rw [hdown]
    exact hke.ifThen ((Dev.portState_keeps _ _ _).mono (by simp))
  refine ⟨_, event_effect (i := .laneLockLost p n) (by rw [exec, execLaneLockLost]) hi rfl hk (by decide), ?_,
    fun hg hst => ?_, hk⟩
  · rw [hdown]
    split <;> simp [he]
  · have hrun : (e.port p.val).state = .running := by simp [he, hst]
    rw [hdown]
    simp [hg, hrun]

end LaneEvents

end Sys2Proof.Machine
end

section
/-! SUPPORT. What closing a frame touches, and a frame that ends as lost input (R122 to R126); lanes, skew and overruns
(O28). -/

namespace Sys2Proof.Machine

open Sys2Proof

/-! ## The parts that closing a frame touches -/

section CloseFrame

variable (d : Dev) (p : Nat)

theorem Dev.rfe_keeps (r : RfeB) : Keeps [.rfe] d { d with rfe := r } := by
  intro q hq
  cases q <;> simp_all [Part.same]

theorem Dev.stu_keeps (r : StuB) : Keeps [.stu] d { d with stu := r } := by
  intro q hq
  cases q <;> simp_all [Part.same]

theorem Dev.setRaw_keeps (v : Option RawSession) : Keeps [.lse] d (d.setRaw p v) := by
  intro q hq
  cases q <;> simp_all [Part.same, Dev.setRaw]

theorem Dev.writeBuf_keeps (dev : Bool) (addr : Nat) (bytes : List Byte) :
    Keeps [.mem, .out] d (d.writeBuf dev addr bytes) := by
  unfold Dev.writeBuf
  split
  · intro q hq
    cases q <;> simp_all [Part.same]
  · split
    · exact Keeps.refl _ _
    · exact (Dev.emit_keeps _ _).mono (by simp)

theorem Dev.stageRaw_keeps (f : Frame) (flags : Nat) : Keeps [.lse, .ctrs, .mem, .out] d (d.stageRaw p f flags) := by
  unfold Dev.stageRaw
  split
  · exact Keeps.refl _ _
  · split
    · exact ((Dev.setRaw_keeps _ _ _).mono (by simp)).trans ((Dev.count_keeps _ _ _).mono (by simp))
    · exact ((Dev.setRaw_keeps _ _ _).mono (by simp)).trans ((Dev.writeBuf_keeps _ _ _ _).mono (by simp))

theorem Dev.closePipe_keeps (f : Frame) (short : Bool) : Keeps [.rfe] d (d.closePipe p f short) :=
  (Dev.rfe_keeps _ _).trans (Dev.rfe_keeps _ _)

theorem Dev.rfeFinish_keeps (f : PipeFrame) : Keeps [.rfe, .ctrs] d (d.rfeFinish f) := by
  have hmod : ∀ (e : Dev) g, Keeps [.rfe, .ctrs] e (e.modFrame f.src f.index g) := fun e _ =>
    (e.rfe_keeps _).mono (by simp)
  unfold Dev.rfeFinish
  simp only []
  split
  · split
    · exact hmod _ _
    · exact ((Dev.count_keeps _ _ _).mono (by simp)).trans (hmod _ _)
  · exact Keeps.refl _ _

theorem Dev.closeRfe_keeps (i : Nat) : Keeps [.rfe, .ctrs] d (d.closeRfe p i) := by
  unfold Dev.closeRfe
  split
  · exact Keeps.refl _ _
  · exact Dev.rfeFinish_keeps _ _

theorem Dev.portCount_keeps (i n : Nat) : Keeps [.ctrs] d (d.portCount p i n) := by
  unfold Dev.portCount
  split
  · exact Dev.count_keeps _ _ _
  · exact Keeps.refl _ _

theorem Dev.frameRecord_keeps (f : Frame) (short raw : Bool) : Keeps byPost d (d.frameRecord p f short raw) :=
  Dev.post_keeps _ _ _ _ _ _ _ _

theorem Dev.cancelSkipped_keeps (i prog flags expStart : Nat) :
    Keeps (.stu :: byPost) d (d.cancelSkipped p i prog flags expStart) := by
  unfold Dev.cancelSkipped Dev.cancelRaw
  simp only []
  split
  · exact (Dev.post_keeps _ _ _ _ _ _ _ _).mono (by simp)
  · exact (Dev.stu_keeps _ _).mono (by simp)

/-- What closing a frame may touch besides its port: raw staging, the pipeline, held CANCELLED records, and what a posted
record touches. -/
def byClose : List Part := .lse :: .mem :: .rfe :: .stu :: byPost

/-- A port that closes its frame forgets it, after work that touches no port. -/
theorem Dev.closeFrame_some {d : Dev} {p : Nat} {f : Frame} (hf : (d.port p).frame = some f) (force : Bool) :
    ∃ e, Keeps byClose d e ∧ d.closeFrame p force = e.modPort p fun v => { v with
      frame := none, lastClosed := some f.index, faulted := v.faulted.filter (f.index < ·) } := by
  have hstage : ∀ (e : Dev) n, Keeps byClose e (e.stageRaw p f n) := fun e n =>
    (e.stageRaw_keeps p f n).mono (by simp [byClose, byPost])
  have hpipe : ∀ (e : Dev) b, Keeps byClose e ((e.closePipe p f b).closeRfe p f.index) := fun e b =>
    ((e.closePipe_keeps p f b).mono (by simp [byClose])).trans
      ((Dev.closeRfe_keeps _ p f.index).mono (by simp [byClose, byPost]))
  have hcount : ∀ (e : Dev) i n, Keeps byClose e (e.portCount p i n) := fun e i n =>
    (e.portCount_keeps p i n).mono (by simp [byClose, byPost])
  have hrecord : ∀ (e : Dev) a b, Keeps byClose e (e.frameRecord p f a b) := fun e a b =>
    (e.frameRecord_keeps p f a b).mono (by simp [byClose, byPost])
  have hcancel : ∀ (e : Dev) a b c g, Keeps byClose e (e.cancelSkipped p a b c g) := fun e a b c g =>
    (e.cancelSkipped_keeps p a b c g).mono (by simp [byClose, byPost])
  unfold Dev.closeFrame
  simp only [hf]
  exact ⟨_, (((Keeps.refl _ d).ifThen (hstage _ _)).ifElse (hpipe _ _)
    |>.trans (hcount _ _ _) |>.trans (hcount _ _ _) |>.trans (hcount _ _ _) |>.trans (hcount _ _ _)
    |>.trans (hrecord _ _ _)).ifThen (hcancel _ _ _ _ _), rfl⟩

end CloseFrame

/-! ## Lost input (R125) -/

/-- Without a stop that waits, a closed frame stops nothing. -/
theorem Dev.settleStop_none {d : Dev} {p : Nat} (h : (d.port p).stopping = false) : d.settleStop p = d := by
  simp [Dev.settleStop, h]

/-- A port that loses its open frame, no stop waiting, has none and waits for the next good start. -/
theorem Dev.loseInput_open {d : Dev} {p : Nat} (hf : (d.port p).frame.isSome = true)
    (hs : (d.port p).stopping = false) :
    ((d.loseInput p).port p).frame = none ∧ ((d.loseInput p).port p).blind = true
      ∧ Keeps (.sni :: byClose) d (d.loseInput p) := by
  obtain ⟨f, hf⟩ := Option.isSome_iff_exists.mp hf
  obtain ⟨a, ha⟩ : ∃ a, a = d.modPort p fun v => { v with frame := v.frame.map fun f => { f with inputLost := true } } :=
    ⟨_, rfl⟩
  have hfa : (a.port p).frame = some { f with inputLost := true } := by simp [ha, hf]
  obtain ⟨e, hk, hclose⟩ := Dev.closeFrame_some hfa true
  have hstop : (e.port p).stopping = false := by rw [hk.port (by decide), ha, Dev.modPort_port, hs]
  have hlose : d.loseInput p = (a.closeFrame p true).modPort p fun v => { v with blind := true } := by
    unfold Dev.loseInput
    simp only [← ha]
    exact Dev.settleStop_none (by simp [hclose, hstop])
  have hmod : ∀ (x : Dev) g, Keeps (.sni :: byClose) x (x.modPort p g) := fun x g =>
    (x.modPort_keeps p g).mono (by simp)
  rw [hlose, hclose]
  refine ⟨by simp, by simp, ?_⟩
  have hka : Keeps (.sni :: byClose) d a := by rw [ha]; exact hmod _ _
  exact ((hka.trans (hk.mono (by simp))).trans (hmod _ _)).trans (hmod _ _)

section LostInput

variable {s : State} {i : Instr} {f : Dev → Dev} {m : Nat}

/-- An event by which a port loses its open frame. -/
theorem event_loses (hx : exec i s = lift f s) (hi : s.dev.idleMode = true) (he : f s.dev = s.dev.loseInput m)
    (hf : (s.dev.port m).frame.isSome = true) (hs : (s.dev.port m).stopping = false) :
    ∃ t, exec i s = .next t ∧ (t.dev.port m).frame = none ∧ (t.dev.port m).blind = true := by
  obtain ⟨hframe, hblind, hk⟩ := Dev.loseInput_open hf hs
  exact ⟨_, event_effect hx hi he hk (by decide), hframe, hblind⟩

theorem gangSkewTimeout_loses {p : Fin 4} (hi : s.dev.idleMode = true)
    (hg : s.dev.gangOf p.val = (p.val, (s.dev.port p.val).gang)) (h1 : 1 < (s.dev.port p.val).gang)
    (hf : (s.dev.port p.val).frame.isSome = true) (hs : (s.dev.port p.val).stopping = false) :
    ∃ t, exec (.gangSkewTimeout p) s = .next t ∧ (t.dev.port p.val).frame = none
      ∧ (t.dev.port p.val).blind = true := by
  refine event_loses (i := .gangSkewTimeout p) (by rw [exec, execGangSkewTimeout]) hi ?_ hf hs
  exact if_pos ⟨hg, h1, hf⟩

theorem exec_boundaryFifoOverrun (u : OverrunUnit) (s : State) :
    exec (.boundaryFifoOverrun u) s = lift (fun d => d.rxOverrun u) s := by
  rw [exec, execBoundaryFifoOverrun]

theorem sensorOverrun_none {p : Fin 4} (hi : s.dev.idleMode = true)
    (hf : (s.dev.port (s.dev.gangOf p.val).1).frame = none) : exec (.boundaryFifoOverrun (.sensor p)) s = .next s :=
  event_none (exec_boundaryFifoOverrun _ _) hi (by simp [Dev.rxOverrun, hf])

theorem sensorOverrun_loses {p : Fin 4} (hi : s.dev.idleMode = true) (hm : m = (s.dev.gangOf p.val).1)
    (hf : (s.dev.port m).frame.isSome = true) (hs : (s.dev.port m).stopping = false) :
    ∃ t, exec (.boundaryFifoOverrun (.sensor p)) s = .next t ∧ (t.dev.port m).frame = none
      ∧ (t.dev.port m).blind = true :=
  event_loses (exec_boundaryFifoOverrun _ _) hi (by subst hm; exact if_pos hf) hf hs

theorem ethOverrun_counts {k : Fin 2} (hi : s.dev.idleMode = true) (hl : s.dev.ethLink k.val = true) :
    ∃ t, exec (.boundaryFifoOverrun (.eth k)) s = .next t
      ∧ t.dev.ctrs = (s.dev.count (0xA0038 + 0x40 * k.val) 1).ctrs ∧ Keeps [.ctrs] s.dev t.dev := by
  have hk := s.dev.count_keeps (0xA0038 + 0x40 * k.val) 1
  exact ⟨_, event_effect (exec_boundaryFifoOverrun _ _) hi (if_pos hl) hk (by decide), rfl, hk⟩

theorem ethOverrun_none {k : Fin 2} (hi : s.dev.idleMode = true) (hl : s.dev.ethLink k.val = false) :
    exec (.boundaryFifoOverrun (.eth k)) s = .next s :=
  event_none (exec_boundaryFifoOverrun _ _) hi (by simp [Dev.rxOverrun, hl])

theorem sdiOverrun_none {k : Fin 2} (hi : s.dev.idleMode = true)
    (h : (s.dev.sdiIn k.val).run = false ∨ (s.dev.sdiIn k.val).locked = false) (part : Option SdiFrame) :
    exec (.boundaryFifoOverrun (.sdiIn k part)) s = .next s := by
  refine event_none (exec_boundaryFifoOverrun _ _) hi ?_
  obtain hr | hl := h
  · simp [Dev.rxOverrun, Dev.sdiOverrun, hr]
  · simp [Dev.rxOverrun, Dev.sdiOverrun, hl]

end LostInput

/-- Settles O28: one lemma for each event on a lane, a gang or a boundary FIFO; a lost frame is one rule for all. -/
theorem lanesLock : Obligations.LanesLock := by
  unfold Obligations.LanesLock
  refine ⟨?_, ?_, ?_, ?_⟩
  · intro s p n hi
    exact ⟨fun hs => ⟨laneLockAcquired_stopped hi hs, laneLockLost_stopped hi hs⟩,
      fun hs ha hl => laneLockAcquired_locks hi hs ha hl, fun hs hl hf => laneLockLost_clears hi hs hl hf⟩
  · intro s p hi hg h1 hf hs
    exact gangSkewTimeout_loses hi hg h1 hf hs
  · rintro s p m hi rfl
    exact ⟨fun hf => sensorOverrun_none hi hf, fun hf hs => sensorOverrun_loses hi rfl hf hs⟩
  · intro s k hi
    exact ⟨fun hl => ethOverrun_counts hi hl, fun hl => ethOverrun_none hi hl, fun h part => sdiOverrun_none hi h part⟩

end Sys2Proof.Machine
end

section
/-! SUPPORT. Power, the state after reset, and the end of a change of mode (O3, O4, O5, O7). -/

namespace Sys2Proof.Machine

open Sys2Proof

/-! ## What a step of an operating and of a resting part does -/

theorem step_nil {s : State} (h : s.pending = []) :
    step s = .next { s with dev := if s.dev.on then s.dev.tick.settleMode else s.dev } := by
  unfold step
  rw [h]

/-- A part that operates with no change of mode waiting. -/
theorem Dev.idleMode_iff {d : Dev} : d.idleMode = true ↔ d.on = true ∧ d.hif.modeChange = none := by
  simp [Dev.idleMode, Option.isNone_iff_eq_none]

/-- Settles O3: every command but the three of power and RESET_N is lifted, and a lifted effect waits for power. -/
theorem offIgnores : Obligations.OffIgnores := by
  unfold Obligations.OffIgnores
  intro s hoff
  refine ⟨fun i hcold hrise hfall => ?_, fun hpend => ?_⟩
  · obtain ⟨f, hf⟩ := exec_lifts i hcold hrise hfall
    rw [hf, lift_off hoff]
  · rw [step_nil hpend, hoff]
    rfl

/-! ## The invariant of a change of mode (R60) -/

/-- Settling leaves no change of mode open whose work is over, whatever went before. -/
theorem Dev.settleMode_modeInv (d : Dev) : d.settleMode.modeInv := by
  unfold Dev.settleMode Dev.modeInv
  cases hm : d.hif.modeChange with
  | none => simp [hm]
  | some m =>
    cases hs : d.modeSettled m with
    | true => simp [hs]
    | false => simp [hs, hm]

/-- Where no change of mode is open there is none to end. -/
theorem Dev.modeInv_of_none {d : Dev} (h : d.hif.modeChange = none) : d.modeInv := by
  intro _ m hm
  rw [h] at hm
  exact absurd hm (by simp)

/-- A lifted effect keeps the invariant: the part settles after it, or does nothing. -/
theorem lift_modeInv {f : Dev → Dev} {s t : State} (hs : s.dev.modeInv) (h : lift f s = .next t) : t.dev.modeInv := by
  rw [lift_next] at h
  injection h with h
  subst h
  simp only []
  split
  · exact Dev.settleMode_modeInv _
  · exact hs

/-- The rising edge of RESET_N before the standby rasters and DP0 follow it: straps sampled, no change of mode open. -/
def Dev.raised (d : Dev) (st : Straps) : Dev :=
  { d with boot := { d.boot with straps := st, inReset := false }, hif := { d.hif with modeChange := none } }

theorem Dev.rise_keeps (d : Dev) (st : Straps) : Keeps (.regs :: .sco :: byPost) (d.raised st) (d.rise st) :=
  ((Dev.ksRegs_keeps (d.raised st)).mono (by simp)).trans ((Dev.dpTrain_keeps _ 0).mono (by simp))

/-- The rising edge of RESET_N ends a change of mode. -/
theorem Dev.rise_modeChange (d : Dev) (st : Straps) : (d.rise st).hif.modeChange = none :=
  (d.rise_keeps st).modeChange (by decide)

theorem liftAny_modeInv {f : Dev → Dev} {s t : State} (hf : (f s.dev).modeInv) (h : liftAny f s = .next t) :
    t.dev.modeInv := by
  injection h with h
  subst h
  exact hf

theorem exec_modeInv {i : Instr} {s t : State} (hs : s.dev.modeInv) (h : exec i s = .next t) : t.dev.modeInv := by
  by_cases hcold : ∃ st, i = .coldReset st
  · obtain ⟨st, rfl⟩ := hcold
    rw [exec, execColdReset] at h
    exact liftAny_modeInv (Dev.modeInv_of_none (Dev.rise_modeChange _ st)) h
  by_cases hrise : ∃ st, i = .resetNRise st
  · obtain ⟨st, rfl⟩ := hrise
    refine liftAny_modeInv ?_ h
    split
    · exact Dev.modeInv_of_none (Dev.rise_modeChange _ st)
    · exact hs
  by_cases hfall : i = .pwrGoodFall
  · subst hfall
    refine liftAny_modeInv ?_ h
    split
    · exact Dev.modeInv_of_none (by simp)
    · exact hs
  · obtain ⟨f, hf⟩ := exec_lifts i (fun st h => hcold ⟨st, h⟩) (fun st h => hrise ⟨st, h⟩) hfall
    exact lift_modeInv hs ((hf s).symm.trans h)

/-- Settles O4: a lifted effect and an idle step settle the change of mode, and power and RESET_N leave none. -/
theorem modeChangeEnds : Obligations.ModeChangeEnds := by
  unfold Obligations.ModeChangeEnds
  intro s t hs h
  cases hp : s.pending with
  | nil =>
    rw [step_nil hp] at h
    injection h with h
    subst h
    simp only []
    split
    · exact Dev.settleMode_modeInv _
    · exact hs
  | cons i rest =>
    unfold step at h
    rw [hp] at h
    exact exec_modeInv (s := { s with pending := rest }) hs h

/-! ## The state after reset -/

/-- A register that nothing has written reads its reset value. -/
theorem Dev.reg_of_unwritten {d : Dev} (h : d.regs = []) (off : Nat) : d.reg off = regReset off := by
  simp [Dev.reg, h, SMap.get]

/-- Settles O5: the reset state lists nothing, so every map reads its default, and no change of mode is open. -/
theorem resetIsSound : Obligations.ResetIsSound := by
  unfold Obligations.ResetIsSound
  have hid : State.reset.dev.reg 0 = 0x16800100 := by rw [Dev.reg_of_unwritten rfl]; decide
  have hsni : State.reset.dev.reg 0x20004 = 0x086F0EFF := by rw [Dev.reg_of_unwritten rfl]; decide
  exact ⟨rfl, rfl, rfl, rfl, rfl, rfl, fun _ => rfl, Dev.reg_of_unwritten rfl, hid, hsni, rfl, fun _ => rfl, rfl,
    Dev.modeInv_of_none rfl⟩

/-! ## Reading single fields off a frame -/

/-- The parts that make up the host interface. -/
def hifParts : List Part := [.link, .fetch, .rings, .msix]

theorem Keeps.hif {b : List Part} {d e : Dev} (h : Keeps b d e) (hb : ∀ p ∈ hifParts, p ∉ b) : e.hif = d.hif := by
  have hlink := h .link (hb _ (by decide))
  have hfetch := h .fetch (hb _ (by decide))
  have hrings := h .rings (hb _ (by decide))
  have hmsix := h .msix (hb _ (by decide))
  simp only [Part.same] at hlink hfetch hrings hmsix
  generalize e.hif = x at *
  generalize d.hif = y at *
  cases x; cases y
  simp_all

/-- OMS is its log and the rest. -/
theorem Keeps.oms {b : List Part} {d e : Dev} (h : Keeps b d e) (hl : .log ∉ b) (ho : .oms ∉ b) : e.oms = d.oms := by
  have hlog := h .log hl
  have hrest := h .oms ho
  simp only [Part.same, omsRest] at hlog hrest
  generalize e.oms = x at *
  generalize d.oms = y at *
  cases x; cases y
  simp_all

/-! ## What a reset leaves (Table 2-1) -/

/-- Without rings a transmitter trains and nothing is posted. -/
theorem Dev.dpTrain_keeps_of_no_rings {d : Dev} (h : d.hif.rings = []) (j : Nat) :
    Keeps [.sco, .out] d (d.dpTrain j) := by
  have hset : ∀ (v : DpTx) (o : Out) (ev : Nat), Keeps [.sco, .out] d (((d.setDp j v).emit o).dpEvent j ev) := by
    intro v o ev
    rw [Dev.dpEvent, Dev.linkEvent, Dev.post_none (by simpa using h)]
    exact ((Dev.setDp_keeps _ _ _).mono (by simp)).trans ((Dev.emit_keeps _ _).mono (by simp))
  unfold Dev.dpTrain
  simp only []
  split
  · exact Keeps.refl _ _
  · split
    · exact Keeps.refl _ _
    · split <;> exact hset _ _ _

theorem Dev.rise_keeps_of_no_rings {d : Dev} (h : d.hif.rings = []) (st : Straps) :
    Keeps [.regs, .sco, .out] (d.raised st) (d.rise st) := by
  have hregs : (d.raised st).ksRegs.hif.rings = [] := ((d.raised st).ksRegs_keeps .rings (by decide)).trans h
  exact ((Dev.ksRegs_keeps _).mono (by simp)).trans ((Dev.dpTrain_keeps_of_no_rings hregs 0).mono (by simp))

/-- The registers of the standby rasters lie in the SCO page. -/
theorem Dev.ksRegs_reg_ne (d : Dev) {off : Nat} (h : off / 65536 ≠ 9) : d.ksRegs.reg off = d.reg off := by
  unfold Dev.ksRegs
  refine List.foldlRecOn _ _ (motive := fun e : Dev => e.reg off = d.reg off) rfl fun e he k hk => ?_
  refine List.foldlRecOn _ _ (motive := fun e : Dev => e.reg off = d.reg off) he fun f hf o ho => ?_
  have hk4 : k < 4 := by simp [rangeFrom] at hk; omega
  have ho9 : o < 9 := by simp [rangeFrom] at ho; omega
  rw [Dev.setReg_reg_ne _ _ (by omega), hf]

theorem Dev.rise_reg_ne (d : Dev) (st : Straps) {off : Nat} (h : off / 65536 ≠ 9) :
    (d.rise st).reg off = d.reg off :=
  ((Dev.dpTrain_keeps _ 0).reg (by decide) off).trans ((d.raised st).ksRegs_reg_ne h)

/-- Taking clocks and links down leaves the memories and OMS alone. -/
@[simp] theorem Dev.quiet_mem (d : Dev) : d.quiet.mem = d.mem := d.quiet_keeps .mem (by decide)

@[simp] theorem Dev.quiet_oms (d : Dev) : d.quiet.oms = d.oms := d.quiet_keeps.oms (by decide) (by decide)

/-- What a cold reset leaves of the part's interface and of its memories. -/
theorem Dev.coldReset_keeps (d : Dev) (st : Straps) :
    Keeps [.regs, .sco, .out] ((d.cleared {}).raised st) ((d.cleared {}).rise st) :=
  Dev.rise_keeps_of_no_rings (by simp) st

theorem coldReset_leaves (s : State) (st : Straps) : ∃ t, exec (.coldReset st) s = .next t ∧ t.pending = s.pending
    ∧ t.dev.boot = { straps := st } ∧ t.dev.hif = {} ∧ (∀ off, off / 65536 ≠ 9 → t.dev.reg off = regReset off)
    ∧ t.dev.mem = { mram := s.dev.mem.mram } ∧ t.dev.oms = omsKept s.dev.oms := by
  have hk := s.dev.coldReset_keeps st
  refine ⟨_, rfl, rfl, ?_, ?_, fun off hoff => ?_, ?_, ?_⟩
  · exact (hk .boot (by decide)).trans (by simp [Dev.raised])
  · exact (hk.hif (by decide)).trans (by simp [Dev.raised])
  · exact (Dev.rise_reg_ne _ _ hoff).trans (Dev.reg_of_unwritten (by simp) off)
  · exact (hk .mem (by decide)).trans (by simp [Dev.raised])
  · exact (hk.oms (by decide) (by decide)).trans (by simp [Dev.raised])

theorem exec_pwrGoodFall {s : State} (h : s.dev.boot.powered = true) : exec .pwrGoodFall s = .next { s with
    dev := s.dev.cleared { powered := false, mode := .off, hostLink := false, rom := false } } := by
  rw [exec, execPwrGoodFall, liftAny, if_pos h]

/-- A pulse below 1 us is filtered out (R503). -/
theorem warmReset_glitch {s : State} {ns : Nat} (hi : s.dev.idleMode = true) (h : ns < 1000) :
    exec (.warmReset ns) s = .next s :=
  event_none (by rw [exec, execWarmReset]) hi (by simp [Dev.resetSeen, h])

theorem warmReset_resets {s : State} {ns : Nat} (hi : s.dev.idleMode = true) (h : 10000 ≤ ns) :
    exec (.warmReset ns) s = .next { s with
      dev := s.dev.cleared { cause := 1, inReset := true, straps := s.dev.boot.straps } } := by
  obtain ⟨hon, -⟩ := Dev.idleMode_iff.mp hi
  have hseen : s.dev.resetSeen ns = (true, s.dev) := by
    rw [Dev.resetSeen, if_neg (by omega), if_pos h]
  rw [exec, execWarmReset, lift_on hon (by simp [hseen])]
  simp [hseen]

theorem resetNRise_samples {s : State} {st : Straps} (hp : s.dev.boot.powered = true)
    (hr : s.dev.boot.inReset = true) :
    ∃ t, exec (.resetNRise st) s = .next t ∧ t.dev.boot = { s.dev.boot with straps := st, inReset := false }
      ∧ t.dev.mem = s.dev.mem := by
  have hk := s.dev.rise_keeps st
  refine ⟨{ s with dev := s.dev.rise st }, ?_, hk .boot (by decide), hk .mem (by decide)⟩
  rw [exec, execResetNRise, liftAny, if_pos (by simp [hp, hr])]

theorem Dev.boot_keeps (d : Dev) (b : BootB) : Keeps [.boot] d { d with boot := b } := by
  intro p hp
  cases p <;> simp_all [Part.same]

/-- PERST_N rising brings the link up (R504). -/
theorem perstNDeassert_links {s : State} (hi : s.dev.idleMode = true) (hp : s.dev.boot.perst = true) :
    ∃ t, exec .perstNDeassert s = .next t ∧ t.dev.boot = { s.dev.boot with perst := false, hostLink := true }
      ∧ Keeps [.boot] s.dev t.dev := by
  have hk := s.dev.boot_keeps { s.dev.boot with perst := false, hostLink := true }
  exact ⟨_, event_effect (i := .perstNDeassert) rfl hi (if_pos hp) hk (by decide), rfl, hk⟩

/-- Settles O7: a reset leaves what `cleared` and the rising edge leave; a filtered pulse leaves all. -/
theorem powerAndReset : Obligations.PowerAndReset := by
  unfold Obligations.PowerAndReset
  refine ⟨fun s st => ?_, fun s hp => ?_, fun s ns hi => ⟨fun h => warmReset_glitch hi h, fun h => ?_⟩,
    fun s st hp hr => resetNRise_samples hp hr, fun s hi hp => perstNDeassert_links hi hp⟩
  · obtain ⟨t, hx, hpend, hboot, hhif, hreg, hmem, homs⟩ := coldReset_leaves s st
    refine ⟨t, hx, hpend, ?_⟩
    simpa [Dev.on, Dev.qp, SMap.get, hboot, hhif, homs, hmem, omsKept] using hreg
  · exact ⟨_, exec_pwrGoodFall hp, by simp [Dev.on, omsKept]⟩
  · exact ⟨_, warmReset_resets hi h, by simp [Dev.on, omsKept]⟩

end Sys2Proof.Machine
end

section
/-! SUPPORT. Negotiation and SET_MODE (O15, O26). -/

namespace Sys2Proof.Machine

open Sys2Proof

/-! ## COMMIT (R53 to R55): the first feature that fails -/

/-- A requested feature passes where it is offered and has the feature it requires. -/
def featPasses (offered drv k : Nat) : Prop :=
  drv.testBit k = true → offered.testBit k = true ∧ ∀ r, featRequires k = some r → drv.testBit r = true

/-- A bit that passes is passed over. -/
theorem firstBad_step {offered drv k : Nat} (n : Nat) (h : featPasses offered drv k) :
    firstBad offered drv k (n + 1) = firstBad offered drv (k + 1) n := by
  rw [firstBad]
  cases hk : drv.testBit k with
  | false => rfl
  | true =>
    obtain ⟨hoff, hreq⟩ := h hk
    have hany : (featRequires k).any (fun r => !drv.testBit r) = false := by
      cases hf : featRequires k with
      | none => rfl
      | some r => simp [hreq r hf]
    simp [hoff, hany]

theorem firstBad_none {offered drv n : Nat} (k : Nat) (h : ∀ j, j < k + n → featPasses offered drv j) :
    firstBad offered drv k n = none := by
  induction n generalizing k with
  | zero => rfl
  | succ n ih =>
    rw [firstBad_step n (h k (by omega))]
    exact ih (k + 1) fun j hj => h j (by omega)

/-- A bit that fails is named with its reason: 0 not offered, 1 without the feature it requires (Table 2-15). -/
theorem firstBad_here {offered drv b : Nat} (n : Nat) (hb : drv.testBit b = true)
    (hbad : offered.testBit b = false ∨ ∃ r, featRequires b = some r ∧ drv.testBit r = false) :
    firstBad offered drv b (n + 1) = some (b, if offered.testBit b then 1 else 0) := by
  rw [firstBad, if_pos hb]
  cases hoff : offered.testBit b with
  | false => rfl
  | true =>
    obtain ⟨r, hreq, hr⟩ := hbad.resolve_left (by simp [hoff])
    simp [hreq, hr]

theorem firstBad_lowest {offered drv b n : Nat} (k : Nat) (hk : k ≤ b) (hn : b < k + n) (hb : drv.testBit b = true)
    (hbad : offered.testBit b = false ∨ ∃ r, featRequires b = some r ∧ drv.testBit r = false)
    (h : ∀ j, j < b → featPasses offered drv j) :
    firstBad offered drv k n = some (b, if offered.testBit b then 1 else 0) := by
  induction n generalizing k with
  | zero => omega
  | succ n ih =>
    obtain rfl | hlt := Nat.eq_or_lt_of_le hk
    · exact firstBad_here n hb hbad
    · rw [firstBad_step n (h k hlt)]
      exact ih (k + 1) hlt (by omega)

/-! ## COMMIT: what it does to the block -/

theorem exec_commit (s : State) : exec .commit s = lift Dev.commitWrite s := rfl

theorem Dev.commitWrite_decided {d : Dev} (hbusy : d.hif.neg ≠ 1) (hacc : d.hif.neg ≠ 2)
    (hs : d.boot.stage ≠ .booting) : d.commitWrite = d.evalCommit d.requested := by
  rw [Dev.commitWrite, if_neg hacc, if_neg hbusy, if_neg hs]

theorem Dev.hif_keeps (d : Dev) (h : HifB) (hf : h = { d.hif with
      neg := h.neg, reason := h.reason, badBit := h.badBit, sampled := h.sampled, features := h.features }) :
    Keeps [.link] d { d with hif := h } := by
  rw [hf]
  intro p hp
  cases p <;> simp_all [Part.same]

theorem Dev.trainPorts_keeps (d : Dev) (ports : Nat) : Keeps [.recd] d (d.trainPorts ports) := by
  intro p hp
  cases p <;> simp_all [Part.same, Dev.trainPorts]

/-- The set that an accepting COMMIT puts in force, inline ECC with it (R55, R411). -/
def Dev.accepted (d : Dev) (drv : Nat) : Dev := { d with
  hif := { d.hif with neg := 2, reason := 0, badBit := 0, features := drv }
  hub := { d.hub with inlineEcc := drv.testBit 19 }
  mem := if drv.testBit 19 == d.hub.inlineEcc then d.mem else { d.mem with lpddr := [] } }

theorem Dev.accepted_keeps (d : Dev) (drv : Nat) : Keeps [.link, .hub, .mem] d (d.accepted drv) := by
  intro p hp
  cases p <;> simp_all [Part.same, Dev.accepted]

/-- An accepted set is in force, and with it drive ports that the features enable train (R54, R319). -/
theorem Dev.evalCommit_accepts {d : Dev} {drv : Nat} (h : firstBad d.offered drv 0 128 = none) :
    Keeps [.recd] (d.accepted drv) (d.evalCommit drv) := by
  have he : d.evalCommit drv =
      if drv.testBit 7 then (d.accepted drv).trainPorts (d.fld 0x80000 3 0) else d.accepted drv := by
    rw [Dev.evalCommit, h]
    rfl
  rw [he]
  exact (Keeps.refl _ _).ifThen (Dev.trainPorts_keeps _ _)

theorem Dev.evalCommit_rejects {d : Dev} {drv b r : Nat} (h : firstBad d.offered drv 0 128 = some (b, r)) :
    d.evalCommit drv = { d with hif := { d.hif with neg := 3, reason := r, badBit := b } } := by
  rw [Dev.evalCommit, h]

theorem Dev.setupFlag_ignored (d : Dev) (off : Nat) : (d.setupFlag 0 off).fld 0x38 0 0 = 1 := by
  have h := d.setupFlag_flag off (bit := 0) (by decide)
  rw [Nat.testBit_zero] at h
  simpa [Dev.fld, bitsOf] using h

section Commit

variable {s : State}

theorem commit_accepted (hi : s.dev.idleMode = true) (hbusy : s.dev.hif.neg ≠ 1) (hacc : s.dev.hif.neg ≠ 2)
    (hs : s.dev.boot.stage ≠ .booting) (hall : ∀ k, k < 128 → featPasses s.dev.offered s.dev.requested k) :
    ∃ t, exec .commit s = .next t ∧ t.dev.hif.neg = 2 ∧ t.dev.hif.features = s.dev.requested
      ∧ t.dev.hub = { s.dev.hub with inlineEcc := s.dev.requested.testBit 19 }
      ∧ Keeps [.link, .hub, .mem, .recd] s.dev t.dev := by
  obtain ⟨hon, hm⟩ := Dev.idleMode_iff.mp hi
  have hk := Dev.evalCommit_accepts (drv := s.dev.requested) (firstBad_none 0 fun j hj => hall j (by omega))
  have hf := s.dev.commitWrite_decided hbusy hacc hs
  have hhif := hk.hif (by decide)
  have hkeeps := ((s.dev.accepted_keeps s.dev.requested).mono (b := [.link, .hub, .mem, .recd]) (by simp)).trans
    (hk.mono (by simp))
  refine ⟨{ s with dev := s.dev.evalCommit s.dev.requested }, ?_, by rw [hhif]; rfl, by rw [hhif]; rfl,
    hk .hub (by decide), hkeeps⟩
  rw [exec_commit, lift_on hon (by rw [hf, hhif]; exact hm), hf]

theorem commit_rejected {b : Nat} (hi : s.dev.idleMode = true) (hbusy : s.dev.hif.neg ≠ 1) (hacc : s.dev.hif.neg ≠ 2)
    (hs : s.dev.boot.stage ≠ .booting) (hlt : b < 128) (hb : s.dev.requested.testBit b = true)
    (hbad : s.dev.offered.testBit b = false ∨ ∃ r, featRequires b = some r ∧ s.dev.requested.testBit r = false)
    (hlow : ∀ k, k < b → featPasses s.dev.offered s.dev.requested k) :
    ∃ t, exec .commit s = .next t
      ∧ t.dev.hif = { s.dev.hif with neg := 3, badBit := b, reason := if s.dev.offered.testBit b then 1 else 0 }
      ∧ Keeps [.link] s.dev t.dev := by
  have hf : s.dev.commitWrite = _ := (s.dev.commitWrite_decided hbusy hacc hs).trans
    (Dev.evalCommit_rejects (firstBad_lowest 0 (Nat.zero_le b) (by omega) hb hbad hlow))
  refine ⟨_, (exec_commit s).trans (lift_idle hi (by rw [hf])), ?_, ?_⟩
  · simp only [hf]
  · simp only [hf]
    exact s.dev.hif_keeps _ rfl

/-- While BOOTING the set found waits for the stage (R53). -/
theorem commit_waits (hi : s.dev.idleMode = true) (hbusy : s.dev.hif.neg ≠ 1) (hacc : s.dev.hif.neg ≠ 2)
    (hs : s.dev.boot.stage = .booting) :
    ∃ t, exec .commit s = .next t ∧ t.dev.hif.neg = 1 ∧ t.dev.hif.sampled = s.dev.requested
      ∧ t.dev.hif.features = s.dev.hif.features ∧ Keeps [.link] s.dev t.dev := by
  have hf : s.dev.commitWrite = { s.dev with hif := { s.dev.hif with
      neg := 1, reason := 0, badBit := 0, sampled := s.dev.requested } } := by
    rw [Dev.commitWrite, if_neg hacc, if_neg hbusy, if_pos hs]
  refine ⟨_, (exec_commit s).trans (lift_idle hi (by rw [hf])), ?_⟩
  simp only [hf]
  exact ⟨trivial, trivial, trivial, s.dev.hif_keeps _ rfl⟩

theorem commit_busy (hi : s.dev.idleMode = true) (h : s.dev.hif.neg = 1) : exec .commit s = .next s :=
  event_none (exec_commit s) hi (by rw [Dev.commitWrite, if_neg (by omega), if_pos h])

/-- Once ACCEPTED a COMMIT is flagged SW_IGNORED (R55). -/
theorem commit_ignored (hi : s.dev.idleMode = true) (h : s.dev.hif.neg = 2) :
    ∃ t, exec .commit s = .next t ∧ t.dev.hif = s.dev.hif ∧ Keeps [.regs] s.dev t.dev ∧ t.dev.fld 0x38 0 0 = 1 := by
  have hk := s.dev.setupFlag_keeps 0 0x30
  exact ⟨_, event_effect (exec_commit s) hi (if_pos h) hk (by decide),
    hk.hif (by decide), hk, s.dev.setupFlag_ignored 0x30⟩

end Commit

/-- Settles O15: the search for the first bad bit decides, and each of the five states of COMMIT has its lemma. -/
theorem negotiation : Obligations.Negotiation := by
  unfold Obligations.Negotiation
  intro s hi
  exact ⟨fun hbusy hacc hs hall => commit_accepted hi hbusy hacc hs hall,
    fun b hbusy hacc hs hlt hb hbad hlow => commit_rejected hi hbusy hacc hs hlt hb hbad hlow,
    fun hbusy hacc hs => commit_waits hi hbusy hacc hs, fun h => commit_busy hi h, fun h => commit_ignored hi h⟩

end Sys2Proof.Machine
end

section
/-! SUPPORT. SET_MODE where nothing has to end first (O26). -/

namespace Sys2Proof.Machine

open Sys2Proof

/-! ## A block with nothing to end: leaving the old mode changes nothing (R60) -/

section Leave

variable {d : Dev}

theorem Dev.port_of_idle (h : d.sni = {}) (p : Nat) : d.port p = {} := by
  rw [Dev.port, h]
  rfl

theorem Dev.spkOf_of_idle (h : d.spk = {}) (n : Nat) : d.spkOf n = {} := by
  rw [Dev.spkOf, h]
  rfl

theorem Dev.stuUnit_of_idle (h : d.stu = {}) (u : Nat) : d.stuUnit u = {} := by
  rw [Dev.stuUnit, h]
  rfl

theorem Dev.sdiIn_of_idle (h : d.sco.sdi = []) (i : Nat) : d.sdiIn i = {} := by
  rw [Dev.sdiIn, h]
  rfl

theorem Dev.runningPorts_of_idle (h : d.sni = {}) : d.runningPorts = [] := by
  simp [Dev.runningPorts, Dev.port_of_idle h]

theorem Dev.setPort_default (h : d.sni = {}) (p : Nat) : d.setPort p {} = d := by
  obtain ⟨⟩ := d
  subst h
  rfl

theorem Dev.endPrograms_of_idle (h : d.sni = {}) (p st : Nat) : d.endPrograms p st = d := by
  unfold Dev.endPrograms
  simp only [Dev.port_of_idle h]
  exact Dev.setPort_default h p

theorem Dev.leavePorts_of_idle (h : d.sni = {}) : d.leavePorts = d := by
  unfold Dev.leavePorts
  split
  · rfl
  · simp only [Dev.runningPorts_of_idle h, List.foldl_nil]
    exact List.foldlRecOn _ _ (motive := fun e => e = d) rfl fun e he p _ => by rw [he, Dev.endPrograms_of_idle h]

theorem Dev.leaveSpks_of_idle (h : d.spk = {}) : d.leaveSpks = d := by
  have hf : (rangeFrom 0 8).filter d.spkLeaves = [] :=
    List.filter_eq_nil_iff.mpr fun n _ => by simp [Dev.spkLeaves, Dev.spkRunning, Dev.spkOf_of_idle h]
  rw [Dev.leaveSpks, hf, List.foldl_nil]

theorem Dev.leavingUnits_of_idle (h : d.stu = {}) : (rangeFrom 0 4).filter d.unitLeaves = [] :=
  List.filter_eq_nil_iff.mpr fun u _ => by simp [Dev.unitLeaves, Dev.stuUnit_of_idle h]

theorem Dev.leaveUnits_of_idle (h : d.stu = {}) : d.leaveUnits = d := by
  rw [Dev.leaveUnits, Dev.leavingUnits_of_idle h, List.foldl_nil]

theorem Dev.leaveSdi_of_idle (h : d.sco.sdi = []) : d.leaveSdi = d := by
  have hf : (rangeFrom 0 2).filter (fun i => (d.sdiIn i).run) = [] :=
    List.filter_eq_nil_iff.mpr fun i _ => by rw [Dev.sdiIn_of_idle h]; decide
  unfold Dev.leaveSdi
  rw [hf]
  split <;> rfl

/-- Only control commands that have begun are fetched. -/
def Dev.controlBegun (d : Dev) : Prop := ∀ c ∈ d.hif.cmds, c.cls = 0 ∧ c.begun = true

theorem Dev.leaveMp_of_control (h : d.controlBegun) : d.leaveMp = d := by
  have hf : d.hif.cmds.filter (fun c => c.cls == 1 && c.opc == 0x20) = [] :=
    List.filter_eq_nil_iff.mpr fun c hc => by simp [(h c hc).1]
  unfold Dev.leaveMp
  rw [hf]
  split <;> rfl

theorem Dev.leaveCmds_of_control (h : d.controlBegun) (r : CmdRef) : d.leaveCmds r = d := by
  have hf : d.hif.cmds.filter (fun c => !c.begun && c.ref != r && d.refuses c) = [] :=
    List.filter_eq_nil_iff.mpr fun c hc => by simp [(h c hc).2]
  unfold Dev.leaveCmds
  rw [hf]
  rfl

theorem Dev.leave_of_idle (hsni : d.sni = {}) (hspk : d.spk = {}) (hstu : d.stu = {}) (hsdi : d.sco.sdi = [])
    (hc : d.controlBegun) (r : CmdRef) : d.leave r = d := by
  rw [Dev.leave, Dev.leaveMp_of_control hc, Dev.leaveCmds_of_control hc, Dev.leavePorts_of_idle hsni,
    Dev.leaveSpks_of_idle hspk, Dev.leaveUnits_of_idle hstu, Dev.leaveSdi_of_idle hsdi]

/-- A change of mode that waits for nothing, but perhaps for an MP_FRAME. -/
def mpAtMost (r : CmdRef) (old new : Nat) (mp : Bool) : ModeChange := {
  ref := r, old := old, new := new, firstTag := 0, ports := [], spks := [], units := [], cmds := [], mp := mp }

theorem Dev.modeWork_of_idle (hsni : d.sni = {}) (hspk : d.spk = {}) (hstu : d.stu = {}) (hc : d.controlBegun)
    (r : CmdRef) (old new : Nat) : ∃ mp, d.modeWork r old new = mpAtMost r old new mp := by
  have hfin : d.hif.cmds.filter d.finishing = [] :=
    List.filter_eq_nil_iff.mpr fun c h => by simp [Dev.finishing, (hc c h).1]
  exact ⟨(d.modeWork r old new).mp, by simp [Dev.modeWork, mpAtMost, Dev.runningPorts_of_idle hsni,
    Dev.spkOf_of_idle hspk, Dev.leavingUnits_of_idle hstu, hfin]⟩

end Leave

/-! ## SET_MODE -/

section SetMode

variable {s : State} {r : CmdRef} {c : Cmd}

theorem exec_setMode (h : s.dev.clear specSetMode r c = true) :
    exec (.setMode r) s = .next { s with dev := (setMode r c s.dev).settleMode } := by
  rw [exec, execSetMode, lift_next, if_pos (Dev.clear_on h), runCmd_clear _ h]

/-- The takeover with no pilot (R59): the mode changes, the driver has the part, the command completes. -/
theorem setMode_takeover {d : Dev} (hm : d.hif.modeChange = none) (hs : d.boot.stage ≠ .driver)
    (hp : d.boot.pilot = none) :
    setMode r c d = ({ d with boot := { d.boot with mode := Mode.ofCode (c.f 4 11 8), stage := .driver } }).finish r
      stSuccess (d.boot.mode.code * 2 ^ 32 + c.f 4 11 8 * 2 ^ 36) := by
  have htake : d.takeover = true := by simpa [Dev.takeover] using hs
  simp [setMode, hm, htake, hp, Dev.takeOver, Dev.toMode]

theorem setMode_takes_over (h : s.dev.clear specSetMode r c = true) (hs : s.dev.boot.stage ≠ .driver)
    (hp : s.dev.boot.pilot = none) :
    ∃ t, exec (.setMode r) s = .next t ∧ t.pending = s.pending
      ∧ Answered s.dev t.dev r stSuccess (s.dev.boot.mode.code * 2 ^ 32 + c.f 4 11 8 * 2 ^ 36)
      ∧ t.dev.boot = { s.dev.boot with mode := Mode.ofCode (c.f 4 11 8), stage := .driver }
      ∧ Keeps (.boot :: byDone) s.dev t.dev := by
  have hm := Dev.clear_mode h
  have hx := exec_setMode h
  rw [setMode_takeover hm hs hp, Dev.settleMode_none (by simpa using hm)] at hx
  exact ⟨_, hx, rfl, Dev.clear_answered _ _ h rfl, by simp,
    ((s.dev.boot_keeps _).mono (by simp)).trans ((Dev.finish_keeps _ _ _ _).mono (by simp))⟩

/-- Later the command has begun and the mode is the new one, with the work that is still to end. -/
def Dev.changing (d : Dev) (r : CmdRef) (t : Nat) : Dev :=
  let e := (d.begin r).toMode t
  { e with hif := { e.hif with modeChange := some (e.modeWork r d.boot.mode.code t) } }

theorem setMode_driver {d : Dev} (hm : d.hif.modeChange = none) (hs : d.boot.stage = .driver) :
    setMode r c d = (d.changing r (c.f 4 11 8)).leave r := by
  have htake : d.takeover = false := by simp [Dev.takeover, hs]
  simp only [setMode, hm, htake, Option.isSome_none, Bool.false_eq_true, if_false]
  rfl

theorem Dev.changing_control {d : Dev} (hc : d.hif.cmds = [c]) (hcls : c.cls = 0) (hr : d.cmd? r = some c)
    (t : Nat) : (d.changing r t).controlBegun := by
  obtain ⟨hq, hi⟩ := Dev.cmd_ids hr
  have hcmds : (d.changing r t).hif.cmds = [{ c with begun := true }] := by
    simp [Dev.changing, Dev.toMode, Dev.begin, hc, updFirst, hq, hi]
  intro x hx
  rw [hcmds, List.mem_singleton] at hx
  subst hx
  exact ⟨hcls, rfl⟩

/-- The row that a clear command is of. -/
theorem Dev.clear_cls {d : Dev} {sp : CmdSpec} (h : d.clear sp r c = true) : c.cls = sp.cls := by
  obtain ⟨-, -, -, hr, -⟩ := Dev.clear_iff.mp h
  unfold Dev.ready? at hr
  rw [Dev.clear_cmd h] at hr
  simp only [] at hr
  split at hr
  · rename_i hrow
    exact hrow.1
  · exact absurd hr (by simp)

/-- While no MP_FRAME runs such a change of mode is settled. -/
theorem Dev.settleMode_nothing {d : Dev} {old new : Nat} {mp : Bool} (hsni : d.sni = {})
    (hm : d.hif.modeChange = some (mpAtMost r old new mp)) :
    d.settleMode = ({ d with hif := { d.hif with modeChange := none } }).finish r stSuccess
      (old * 2 ^ 32 + new * 2 ^ 36) := by
  simp [Dev.settleMode, hm, mpAtMost, Dev.modeSettled, hsni, SMap.get, modeResult]

theorem setMode_settles (h : s.dev.clear specSetMode r c = true) (hs : s.dev.boot.stage = .driver)
    (hc : s.dev.hif.cmds = [c]) (hsni : s.dev.sni = {}) (hspk : s.dev.spk = {}) (hstu : s.dev.stu = {})
    (hsdi : s.dev.sco.sdi = []) :
    ∃ t, exec (.setMode r) s = .next t ∧ t.pending = s.pending
      ∧ Answered s.dev t.dev r stSuccess (s.dev.boot.mode.code * 2 ^ 32 + c.f 4 11 8 * 2 ^ 36)
      ∧ t.dev.boot = { s.dev.boot with mode := Mode.ofCode (c.f 4 11 8) }
      ∧ t.dev.hif.modeChange = none ∧ Keeps (.boot :: .link :: byDone) s.dev t.dev := by
  obtain ⟨-, hm, hops, -, -, hfail, hlive, hlost⟩ := Dev.clear_iff.mp h
  have hcmd := Dev.clear_cmd h
  have hctl := Dev.changing_control hc (Dev.clear_cls h) hcmd (c.f 4 11 8)
  obtain ⟨mp, hw⟩ := Dev.modeWork_of_idle (d := (s.dev.begin r).toMode (c.f 4 11 8)) hsni hspk hstu hctl r
    s.dev.boot.mode.code (c.f 4 11 8)
  have hx := exec_setMode h
  rw [setMode_driver hm hs, Dev.leave_of_idle (d := s.dev.changing r (c.f 4 11 8)) hsni hspk hstu hsdi hctl,
    Dev.settleMode_nothing (d := s.dev.changing r (c.f 4 11 8)) hsni (congrArg some hw)] at hx
  refine ⟨_, hx, rfl, ?_, by simp [Dev.changing, Dev.toMode], by simp, ?_⟩
  · exact Dev.finish_answered (c := { c with begun := true }) _ _ (Dev.begin_cmd hcmd) hfail hlive hlost hops
  · refine Keeps.trans ?_ ((Dev.finish_keeps _ _ _ _).mono (by simp))
    intro p hp
    cases p <;> simp_all [Part.same, byDone, Dev.changing, Dev.begin, Dev.toMode]

end SetMode

/-- Settles O26: the takeover completes as it is taken; later a block with nothing to end settles at once. -/
theorem setModeChangesTheMode : Obligations.SetModeChangesTheMode := by
  unfold Obligations.SetModeChangesTheMode
  exact ⟨fun s r c h hs hp => setMode_takes_over h hs hp,
    fun s r c h hs hc hsni hspk hstu hsdi => setMode_settles h hs hc hsni hspk hstu hsdi⟩

end Sys2Proof.Machine
end

section
/-! SUPPORT. A function reset and the resets of OMS alone (O9). -/

namespace Sys2Proof.Machine

open Sys2Proof

/-! ## What firmware does after a function reset: the board table's bus and the pilot (R38, R404) -/

/-- The host interface is the same, and of power, mode and stage at most the pilot differs. -/
def Dev.PilotSame (d e : Dev) : Prop := e.hif = d.hif ∧ e.boot = { d.boot with pilot := e.boot.pilot }

theorem Dev.PilotSame.refl (d : Dev) : d.PilotSame d := ⟨rfl, rfl⟩

theorem Dev.PilotSame.trans {d e f : Dev} (h : d.PilotSame e) (k : e.PilotSame f) : d.PilotSame f := by
  obtain ⟨hh, hb⟩ := h
  obtain ⟨kh, kb⟩ := k
  refine ⟨kh.trans hh, ?_⟩
  rw [kb, hb]

/-- Work outside the host interface and outside power, mode and stage. -/
theorem Keeps.pilotSame {b : List Part} {d e : Dev} (h : Keeps b d e) (hb : .boot ∉ b)
    (hh : ∀ p ∈ hifParts, p ∉ b) : d.PilotSame e := by
  have hboot : e.boot = d.boot := h .boot hb
  exact ⟨h.hif hh, by rw [hboot]⟩

theorem Dev.modCtl_keeps (d : Dev) (c : Nat) (f : TwCtl → TwCtl) : Keeps [.tw] d (d.modCtl c f) := by
  intro p hp
  cases p <;> simp_all [Part.same, Dev.modCtl, Dev.setCtl]

theorem Dev.modSpk_keeps (d : Dev) (n : Nat) (f : Spk → Spk) : Keeps [.spk] d (d.modSpk n f) := by
  intro p hp
  cases p <;> simp_all [Part.same, Dev.modSpk, Dev.setSpk]

theorem Dev.spkRun_keeps (d : Dev) (n : Nat) (c : SpkCfg) (handle : Nat) (l : SMap Word) :
    Keeps [.spk] d (d.spkRun n c handle l) := Dev.modSpk_keeps _ _ _

theorem Dev.setIsl_keeps (d : Dev) (i : Nat) (v : Island) : Keeps [.pwr] d (d.setIsl i v) := by
  intro p hp
  cases p <;> simp_all [Part.same, Dev.setIsl]

/-- A bus clear works on its controller, on the bus, and on the count of clears (R401). -/
theorem Dev.busClear_keeps (d : Dev) (c : Nat) (k : Option Nat) : Keeps [.tw, .ctrs, .out] d (d.busClear c k).1 := by
  have hctl : ∀ (e : Dev) f, Keeps [.tw, .ctrs, .out] e (e.modCtl c f) := fun e f =>
    (e.modCtl_keeps c f).mono (by simp)
  have hemit : ∀ (e : Dev) o, Keeps [.tw, .ctrs, .out] e (e.emit o) := fun e o => (e.emit_keeps o).mono (by simp)
  have hcount : ∀ (e : Dev) o n, Keeps [.tw, .ctrs, .out] e (e.count o n) := fun e o n =>
    (e.count_keeps o n).mono (by simp)
  unfold Dev.busClear
  simp only []
  split
  · split
    · exact (((hctl _ _).ifElse ((hemit _ _).trans (hcount _ _ _))).trans (hemit _ _)).trans (hctl _ _)
    · exact ((hctl _ _).trans (hemit _ _)).trans (hctl _ _)
  · exact ((hctl _ _).trans (hemit _ _)).trans (hctl _ _)

theorem Dev.sdaFree_keeps (d : Dev) (c : Nat) : Keeps [] d (d.sdaFree c).2 := by
  unfold Dev.sdaFree
  split
  · exact Keeps.refl _ _
  · exact d.draw_keeps

theorem Dev.enableBoardTw_same (d : Dev) : d.PilotSame d.enableBoardTw :=
  (((Dev.sdaFree_keeps _ _).mono (by simp)).trans (Dev.busClear_keeps _ _ _)).pilotSame (by decide) (by decide)

theorem Dev.pilotGears_keeps (d : Dev) : Keeps [.pwr] d d.pilotGears := by
  unfold Dev.pilotGears
  refine Keeps.foldl _ (fun e i => ?_) _ _
  split
  · exact Keeps.refl _ _
  · exact e.setIsl_keeps _ _

theorem Dev.setPilot_same (d : Dev) (p : Option Nat) :
    d.PilotSame { d with boot := { d.boot with pilot := p } } := ⟨rfl, rfl⟩

theorem Dev.feedPilot_same (d : Dev) (p : Nat) : d.PilotSame (d.feedPilot p) := by
  unfold Dev.feedPilot
  exact Dev.PilotSame.trans (Keeps.pilotSame (b := [.spk, .pwr])
    (((Dev.spkRun_keeps _ _ _ _ _).mono (by simp)).trans ((Dev.pilotGears_keeps _).mono (by simp)))
    (by decide) (by decide)) (Dev.setPilot_same _ _)

theorem Dev.restorePilot_same (d : Dev) : d.PilotSame d.restorePilot := by
  unfold Dev.restorePilot
  split
  · exact Dev.PilotSame.refl d
  · split
    · exact Dev.PilotSame.refl d
    · simp only []
      split
      · exact Dev.feedPilot_same _ _
      · exact ((d.setRaster_keeps _ _).pilotSame (by decide) (by decide)).trans
          (Dev.feedPilot_same _ _)

/-- Firmware, where it runs, takes its bus and the pilot up again. -/
def Dev.firmwareRestores (d : Dev) : Dev := if d.boot.firmware then d.enableBoardTw.restorePilot else d

theorem Dev.firmwareRestores_same (d : Dev) : d.PilotSame d.firmwareRestores := by
  unfold Dev.firmwareRestores
  split
  · exact d.enableBoardTw_same.trans (Dev.restorePilot_same _)
  · exact Dev.PilotSame.refl d

/-! ## The function reset -/

/-- Nothing of the host interface is left but the locks. -/
def Dev.hostGone (d : Dev) : Dev := { d with hif := { locks := d.hif.locks } }

/-- A function reset ends in these steps, whatever its first steps leave. -/
theorem Dev.functionReset_ends (d : Dev) (k : FunctionResetKind) : ∃ (e : Dev) (n : Nat), d.functionReset k =
    (e.hostGone.fallBack.linkAfter k).firmwareRestores.log 1 0x072 (resetCode k) n 0 0 := ⟨_, _, rfl⟩

/-- Cause FUNCTION, and stage and mode as firmware or ROM gives them (R38). -/
def Dev.fellBack (d : Dev) : Prop :=
  d.boot.cause = 2
    ∧ (d.boot.stage ≠ .booting → d.boot.firmware = true → d.boot.stage = .freewheel ∧ d.boot.mode = .freewheel)
    ∧ (d.boot.stage ≠ .booting → d.boot.firmware = false → d.boot.stage = .kickstandHold ∧ d.boot.mode = .kickstand)

/-- The link as the kind of reset leaves it (R504). -/
def Dev.linkLeft (d : Dev) (k : FunctionResetKind) : Prop :=
  (k = .linkLoss ∨ k = .perstN → d.boot.hostLink = false) ∧ (k = .perstN → d.boot.perst = true)

/-- No queue pair, ring, fetched command or negotiated feature, HIF not ready, and no change of mode open. -/
def Dev.hostless (d : Dev) : Prop :=
  d.hif.cmds = [] ∧ d.hif.ready = false ∧ d.hif.features = 0 ∧ d.hif.neg = 0 ∧ d.hif.queues = [] ∧ d.hif.rings = []
    ∧ d.hif.modeChange = none

theorem Dev.fallBack_fellBack (d : Dev) : d.fallBack.fellBack := by
  unfold Dev.fallBack Dev.fellBack
  simp only []
  split
  · simp_all
  · cases d.boot.firmware <;> simp

theorem Dev.fallBack_hif (d : Dev) : d.fallBack.hif = d.hif := by
  unfold Dev.fallBack
  simp only []
  split
  · rfl
  · split <;> rfl

theorem Dev.linkAfter_hif (d : Dev) (k : FunctionResetKind) : (d.linkAfter k).hif = d.hif := by
  cases k <;> rfl

theorem Dev.linkAfter_linkLeft (d : Dev) (k : FunctionResetKind) : (d.linkAfter k).linkLeft k := by
  cases k <;> simp [Dev.linkAfter, Dev.linkLeft]

theorem Dev.linkAfter_fellBack {d : Dev} (k : FunctionResetKind) (h : d.fellBack) : (d.linkAfter k).fellBack := by
  cases k <;> exact h

theorem Dev.PilotSame.fellBack {d e : Dev} (h : d.PilotSame e) (hd : d.fellBack) : e.fellBack := by
  unfold Dev.fellBack
  rw [h.2]
  exact hd

theorem Dev.PilotSame.linkLeft {d e : Dev} {k : FunctionResetKind} (h : d.PilotSame e) (hd : d.linkLeft k) :
    e.linkLeft k := by
  unfold Dev.linkLeft
  rw [h.2]
  exact hd

/-- Without rings a log entry posts nothing and leaves none. -/
theorem Dev.log_rings_of_none {d : Dev} (h : d.hif.rings = []) (sev code a b page inst frame : Nat)
    (tag : Option Nat) : (d.log sev code a b page inst frame tag).hif.rings = [] := by
  have hentry : (d.logEntry sev code frame page inst tag a b).1.hif.rings = [] := by
    unfold Dev.logEntry
    split <;> exact h
  have hpost : ∀ (e : Dev) l, e.hif.rings = [] → (e.postLog l).hif.rings = [] := by
    intro e l hr
    have hnone : e.ringOf 3 = none := by rw [Dev.ringOf, hr]; rfl
    rw [Dev.postLog, hnone]
    exact hr
  unfold Dev.log
  simp only []
  split
  · exact hentry
  · exact hpost _ _ hentry

theorem Dev.log_hostless {d : Dev} (h : d.hostless) (sev code a b page inst frame : Nat) (tag : Option Nat) :
    (d.log sev code a b page inst frame tag).hostless := by
  obtain ⟨hcmds, hready, hfeat, hneg, hqueues, hrings, hmode⟩ := h
  have hk := d.log_keeps sev code a b page inst frame tag
  obtain ⟨kneg, -, -, -, kfeat, kready, -, -, -, -, kmode⟩ := hk .link (by decide)
  obtain ⟨kqueues, kcmds, -⟩ := hk .fetch (by decide)
  exact ⟨kcmds.trans hcmds, kready.trans hready, kfeat.trans hfeat, kneg.trans hneg, kqueues.trans hqueues,
    Dev.log_rings_of_none hrings _ _ _ _ _ _ _ _, kmode.trans hmode⟩

/-- A log entry leaves power, mode and stage alone, the pilot among them. -/
theorem Dev.log_boot (d : Dev) (sev code a b page inst frame : Nat) (tag : Option Nat) :
    (d.log sev code a b page inst frame tag).boot = d.boot := d.log_keeps _ _ _ _ _ _ _ _ .boot (by decide)

theorem Dev.functionReset_leaves (d : Dev) (k : FunctionResetKind) :
    (d.functionReset k).hostless ∧ (d.functionReset k).fellBack ∧ (d.functionReset k).linkLeft k := by
  obtain ⟨e, n, he⟩ := d.functionReset_ends k
  have hsame := (e.hostGone.fallBack.linkAfter k).firmwareRestores_same
  have hboot := Dev.log_boot (e.hostGone.fallBack.linkAfter k).firmwareRestores 1 0x072 (resetCode k) n 0 0 ones64 none
  have hgone : (e.hostGone.fallBack.linkAfter k).firmwareRestores.hostless := by
    unfold Dev.hostless
    rw [hsame.1, Dev.linkAfter_hif, Dev.fallBack_hif]
    exact ⟨rfl, rfl, rfl, rfl, rfl, rfl, rfl⟩
  rw [he]
  refine ⟨Dev.log_hostless hgone _ _ _ _ _ _ _ _, ?_, ?_⟩
  · unfold Dev.fellBack
    rw [hboot]
    exact hsame.fellBack (Dev.linkAfter_fellBack k (Dev.fallBack_fellBack _))
  · unfold Dev.linkLeft
    rw [hboot]
    exact hsame.linkLeft (Dev.linkAfter_linkLeft _ k)

theorem exec_functionReset {s : State} {k : FunctionResetKind} (hon : s.dev.on = true) :
    exec (.functionReset k) s = .next { s with dev := s.dev.functionReset k } := by
  obtain ⟨⟨-, -, -, -, -, -, hm⟩, -⟩ := s.dev.functionReset_leaves k
  rw [exec, execFunctionReset, lift_on hon hm]

/-! ## The resets of OMS alone (R39, R452, R461, R463) -/

theorem Dev.endUnlock_unlock (d : Dev) : d.endUnlock.oms.unlock = 0 := by
  unfold Dev.endUnlock
  simp only []
  split <;> rfl

/-- The core restarts from ROM; `latch` says what caused it. -/
def Dev.coreRestart (d : Dev) (latch : Nat) : Dev := { d with
  boot := { d.boot with rom := true, firmware := false, entering := false, cause := 3 }
  oms := { d.oms with latch := latch }
  dbg := { d.dbg with halted := false, cause := 0, index := 0 } }

/-- A reset of OMS ends with the end of an unlock and the restart of the core. -/
theorem Dev.omsReset_ends (d : Dev) (latch : Nat) : ∃ e : Dev, d.omsReset latch = e.endUnlock.coreRestart latch :=
  ⟨_, rfl⟩

theorem Dev.omsReset_leaves (d : Dev) (latch : Nat) :
    ((d.omsReset latch).boot.rom = true ∧ (d.omsReset latch).boot.firmware = false
      ∧ (d.omsReset latch).boot.entering = false ∧ (d.omsReset latch).boot.cause = 3)
    ∧ ((d.omsReset latch).oms.latch = latch ∧ (d.omsReset latch).oms.unlock = 0)
    ∧ ((d.omsReset latch).dbg.halted = false ∧ (d.omsReset latch).dbg.cause = 0) := by
  obtain ⟨e, he⟩ := d.omsReset_ends latch
  rw [he]
  exact ⟨⟨rfl, rfl, rfl, rfl⟩, ⟨rfl, e.endUnlock_unlock⟩, rfl, rfl⟩

/-- Each of the three events, in the state in which it takes place, is a reset of OMS with its own latch. -/
theorem exec_omsReset {s : State} {i : Instr} {latch : Nat} (hon : s.dev.on = true)
    (hi : i = .omsOnlyReset ∧ latch = 0
      ∨ i = .watchdogExpiry ∧ latch = 2 ∧ s.dev.boot.firmware = true ∧ s.dev.dbg.halted = false
      ∨ i = .trialTimerExpiry ∧ latch = 1 ∧ s.dev.oms.timer.isSome = true) :
    ∃ d : Dev, exec i s = .next { s with dev := (d.omsReset latch).settleMode } := by
  obtain ⟨rfl, rfl⟩ | ⟨rfl, rfl, hfw, hrun⟩ | ⟨rfl, rfl, htimer⟩ := hi
  · exact ⟨s.dev, by rw [exec, execOmsOnlyReset, lift_next, if_pos hon]⟩
  · exact ⟨s.dev, by rw [exec, execWatchdogExpiry, lift_next, if_pos hon, if_pos (by simp [hfw, hrun])]⟩
  · exact ⟨_, by rw [exec, execTrialTimerExpiry, lift_next, if_pos hon, if_pos htimer]⟩

/-- Settles O9: a function reset ends in the same steps whatever it found, and the three resets of OMS are one. -/
theorem functionAndOmsResets : Obligations.FunctionAndOmsResets := by
  unfold Obligations.FunctionAndOmsResets
  refine ⟨fun s k hon => ?_, fun s i latch hon hi => ?_⟩
  · obtain ⟨⟨hcmds, hready, hfeat, hneg, hqueues, hrings, -⟩, ⟨hcause, hfw, hrom⟩, hlink, hperst⟩ :=
      s.dev.functionReset_leaves k
    refine ⟨_, exec_functionReset hon, rfl, hcmds, hready, hfeat, hneg, fun q => ?_, fun n => ?_, hcause, hfw, hrom,
      hlink, hperst⟩
    · simp [Dev.qp, hqueues, SMap.get]
    · simp [Dev.ring, hrings, SMap.get]
  · obtain ⟨d, hx⟩ := exec_omsReset hon hi
    obtain ⟨⟨hrom, hfw, hent, hcause⟩, ⟨hlatch, hunlock⟩, hhalt, hdbg⟩ := d.omsReset_leaves latch
    have hk := (d.omsReset latch).settleMode_keeps
    have hboot : (d.omsReset latch).settleMode.boot = _ := hk .boot (by decide)
    have hcore : (d.omsReset latch).settleMode.dbg = _ := hk .dbg (by decide)
    have homs := hk.oms (by decide) (by decide)
    refine ⟨_, hx, ?_⟩
    simp only [hboot, hcore, homs]
    exact ⟨hrom, hfw, hent, hcause, hlatch, hunlock, hhalt, hdbg⟩

end Sys2Proof.Machine
end

section
/-! SUPPORT. A standby raster that starts in the middle of a frame takes the SCO_RESTARTs that wait for it (O8). -/

namespace Sys2Proof.Machine

open Sys2Proof

/-- A fetched SCO_RESTART that has begun. -/
def restartCmd : Cmd := { qid := 0, cid := 0, num := 0, dw := [], begun := true, since := 0 }

/-- Before reference detection, with a set of SCO_RESTART waiting for a frame start of raster 0. -/
def restartWaits : State := {
  dev := { hif := { cmds := [restartCmd] }, sco := { rasters := [(0, { restarts := [{ ref := ⟨0, 0⟩ }] })] } }
  pending := [] }

/-- A reference at the frame rate of the standby raster: its pixel clock over its pixels (R43). -/
def standbyReference : RefSignal := { num := 74250000, den := 2640 * 1125 }

theorem restartWaits_ctx_after {t : State}
    (h : exec (.referenceDetection (some standbyReference)) restartWaits = .next t) : t.dev.hif.cmds = [] := by
  rw [exec, execReferenceDetection, lift_next] at h
  injection h with h
  subst h
  decide +kernel

/-- Refutes O8: reference detection that accepts a reference has the standby rasters enter a frame, and the reader of
raster 0 binds and completes the SCO_RESTART that waits there, so that more than power, SCO and registers changes. -/
theorem not_bootSequence : ¬ Obligations.BootSequence := by
  unfold Obligations.BootSequence
  intro h
  obtain ⟨hdetect, -⟩ := h
  obtain ⟨t, hx, -, -, hk⟩ := hdetect restartWaits (some standbyReference) (by decide) rfl
  obtain ⟨-, hcmds, -⟩ := hk .fetch (by decide)
  have hgone : [] = restartWaits.dev.hif.cmds := (restartWaits_ctx_after hx).symm.trans hcmds
  exact absurd hgone (by decide)

end Sys2Proof.Machine
end

section
/-! SUPPORT. Commands of the picture pipeline that carry a block: they complete, wait their turn, or begin and queue the
block (O33). -/

namespace Sys2Proof.Machine

open Sys2Proof

/-! ## Ranges and offences -/

theorem mem_rangeFrom {a n k : Nat} : k ∈ rangeFrom a n ↔ a ≤ k ∧ k < a + n := by
  induction n generalizing a with
  | zero => simp [rangeFrom]
  | succ n ih => simp only [rangeFrom, List.mem_cons, ih]; omega

theorem minOff_eq_none_iff {l : List Offence} : minOff l = none ↔ l = [] := by
  refine ⟨fun h => ?_, fun h => by rw [h]; rfl⟩
  cases l with
  | nil => rfl
  | cons o t =>
    rw [minOff] at h
    split at h
    · exact absurd h (by simp)
    · split at h <;> exact absurd h (by simp)

/-! ## Beginning a command -/

theorem Dev.begin_keeps (d : Dev) (r : CmdRef) : Keeps [.fetch] d (d.begin r) := by
  intro p hp
  cases p <;> simp_all [Part.same, Dev.begin]

theorem Dev.cbe_keeps (d : Dev) (c : CbeB) : Keeps [.cbe] d { d with cbe := c } := by
  intro p hp
  cases p <;> simp_all [Part.same]

theorem Dev.setRfe_keeps (d : Dev) (n : Nat) (v : RfeSrc) : Keeps [.rfe] d (d.setRfe n v) := d.rfe_keeps _

theorem Dev.setLut_keeps (d : Dev) (u : Nat) (v : LutUnit) : Keeps [.cbe] d (d.setLut u v) := d.cbe_keeps _

/-- A command has begun on any state that differs from the one just after its beginning neither in contexts nor in what
has left. -/
theorem Begun.of_keeps {d e : Dev} {r : CmdRef} {c : Cmd} {b : List Part} (hc : d.cmd? r = some c)
    (hk : Keeps b (d.begin r) e) (hf : .fetch ∉ b) (ho : .out ∉ b) : Begun d e r c := by
  obtain ⟨-, hcmds, -⟩ := hk .fetch hf
  have hout : e.out = d.out := hk .out ho
  have hcmd : e.cmd? r = (d.begin r).cmd? r := by unfold Dev.cmd?; rw [hcmds]
  exact ⟨hcmd.trans (Dev.begin_cmd hc), hout⟩

theorem Dev.clear_idle {d : Dev} {sp : CmdSpec} {r : CmdRef} {c : Cmd} (h : d.clear sp r c = true) :
    d.idleMode = true :=
  Dev.idleMode_iff.mpr ⟨Dev.clear_on h, Dev.clear_mode h⟩

/-! ## What a clear command with a block does -/

section BlockCommands

variable {i : Instr} {sp : CmdSpec} {addr : Nat} {offs : Dev → Cmd → List Nat} {r : CmdRef} {c : Cmd} {s : State}
  {eff : Cmd → Dev → Dev} {e : Dev} {b : List Part}

/-- An offending byte: INVALID_FIELD, and no effect (R519). -/
theorem blk_offends (hx : exec i s = lift (runBlk sp addr offs r eff) s) (hc : s.dev.clear sp r c = true)
    (ho : offs s.dev c ≠ []) :
    ∃ t res, exec i s = .next t ∧ Answered s.dev t.dev r stInvalidField res ∧ Keeps byDone s.dev t.dev := by
  cases hm : minOff (blkOffs addr (offs s.dev c)) with
  | none =>
    rw [minOff_eq_none_iff, blkOffs, List.map_eq_nil_iff] at hm
    exact absurd hm ho
  | some o =>
    have he : runBlk sp addr offs r eff s.dev = s.dev.finish r stInvalidField o.result := by
      unfold runBlk
      rw [runCmd_clear _ hc, hm]
    have hk := s.dev.finish_keeps r stInvalidField o.result
    exact ⟨_, o.result, event_effect hx (Dev.clear_idle hc) he hk (by decide), Dev.clear_answered _ _ hc rfl, hk⟩

/-- A command that finds no room does not begin. -/
theorem blk_waits (hx : exec i s = lift (runBlk sp addr offs r eff) s) (hc : s.dev.clear sp r c = true)
    (ho : offs s.dev c = []) (he : eff c s.dev = s.dev) : exec i s = .next s :=
  event_none hx (Dev.clear_idle hc) ((runBlk_clear _ hc ho).trans he)

/-- A command that completes at once. -/
theorem blk_completes {st res : Nat} (hx : exec i s = lift (runBlk sp addr offs r eff) s)
    (hc : s.dev.clear sp r c = true) (ho : offs s.dev c = []) (he : eff c s.dev = e.finish r st res)
    (hk : Keeps b s.dev e) (hf : .fetch ∉ b) (hl : .link ∉ b) :
    exec i s = .next { s with dev := e.finish r st res } ∧ Answered s.dev (e.finish r st res) r st res
      ∧ Keeps (b ++ byDone) s.dev (e.finish r st res) := by
  have hall : Keeps (b ++ byDone) s.dev (e.finish r st res) :=
    (hk.mono (List.subset_append_left _ _)).trans ((e.finish_keeps r st res).mono (List.subset_append_right _ _))
  exact ⟨event_effect hx (Dev.clear_idle hc) ((runBlk_clear _ hc ho).trans he) hall (by simp [hl, byDone]),
    Dev.clear_answered_keeps st res hc hk hf, hall⟩

/-- A command that begins and queues its block. -/
theorem blk_begins (hx : exec i s = lift (runBlk sp addr offs r eff) s) (hc : s.dev.clear sp r c = true)
    (ho : offs s.dev c = []) (he : eff c s.dev = e) (hk : Keeps b (s.dev.begin r) e)
    (hf : .fetch ∉ b) (hl : .link ∉ b) (hout : .out ∉ b) :
    exec i s = .next { s with dev := e } ∧ Begun s.dev e r c ∧ Keeps (b ++ [.fetch]) s.dev e := by
  have hall : Keeps (b ++ [.fetch]) s.dev e :=
    ((s.dev.begin_keeps r).mono (List.subset_append_right _ _)).trans (hk.mono (List.subset_append_left _ _))
  exact ⟨event_effect hx (Dev.clear_idle hc) ((runBlk_clear _ hc ho).trans he) hall (by simp [hl]),
    .of_keeps (Dev.clear_cmd hc) hk hf hout, hall⟩

end BlockCommands

/-! ## RFE_SET_PARAMS (R176)

`by exact hb` is matched only once `exec` has named the check of the block's bytes. -/

section SetParams

variable {s : State} {r : CmdRef} {c : Cmd} {blk : List Byte}

theorem rfeSetParams_offends (hc : s.dev.clear specRfeSetParams r c = true)
    (hb : s.dev.paramsBad (c.f 4 2 0) (s.dev.blockOf false 0 256 blk) ≠ []) :
    ∃ t res, exec (.rfeSetParams r blk) s = .next t ∧ Answered s.dev t.dev r stInvalidField res
      ∧ Keeps byDone s.dev t.dev :=
  blk_offends (by rw [exec, execRfeSetParams]) hc (by exact hb)

theorem rfeSetParams_engineDown (hc : s.dev.clear specRfeSetParams r c = true)
    (hb : s.dev.paramsBad (c.f 4 2 0) (s.dev.blockOf false 0 256 blk) = []) (hoff : s.dev.engOff 0x10 16 = true) :
    ∃ t, exec (.rfeSetParams r blk) s = .next t ∧ Answered s.dev t.dev r stEngineDown 0 ∧ Keeps byDone s.dev t.dev :=
  ⟨_, blk_completes (by rw [exec, execRfeSetParams]) hc (by exact hb) (if_pos hoff) (.refl [] _) (by decide)
    (by decide)⟩

theorem rfeSetParams_full (hc : s.dev.clear specRfeSetParams r c = true)
    (hb : s.dev.paramsBad (c.f 4 2 0) (s.dev.blockOf false 0 256 blk) = []) (hoff : s.dev.engOff 0x10 16 = false)
    (hn : 8 ≤ (s.dev.rfe? (c.f 4 2 0)).blocks.length) : exec (.rfeSetParams r blk) s = .next s :=
  blk_waits (by rw [exec, execRfeSetParams]) hc (by exact hb)
    (by simp only [hoff, Nat.not_lt.mpr hn, Bool.false_eq_true, if_false])

/-- The block that RFE_SET_PARAMS queues. -/
def Dev.paramsBlock (d : Dev) (r : CmdRef) (c : Cmd) (blk : List Byte) : PendBlk := {
  ref := r, at? := atFrame c 5, reset := c.b 4 8, bytes := d.blockOf false 0 256 blk }

theorem rfeSetParams_queues (hc : s.dev.clear specRfeSetParams r c = true)
    (hb : s.dev.paramsBad (c.f 4 2 0) (s.dev.blockOf false 0 256 blk) = []) (hoff : s.dev.engOff 0x10 16 = false)
    (hn : (s.dev.rfe? (c.f 4 2 0)).blocks.length < 8) :
    ∃ t, exec (.rfeSetParams r blk) s = .next t ∧ t.pending = s.pending ∧ Begun s.dev t.dev r c
      ∧ t.dev.rfe? (c.f 4 2 0) = { s.dev.rfe? (c.f 4 2 0) with
          blocks := (s.dev.rfe? (c.f 4 2 0)).blocks ++ [s.dev.paramsBlock r c blk] }
      ∧ (∀ k, k ≠ c.f 4 2 0 → t.dev.rfe? k = s.dev.rfe? k) ∧ Keeps [.rfe, .fetch] s.dev t.dev := by
  obtain ⟨hx, hbegun, hk⟩ := blk_begins (i := .rfeSetParams r blk) (by rw [exec, execRfeSetParams]) hc (by exact hb)
    (by simp only [hoff, hn, Bool.false_eq_true, if_false, if_true]; rfl) (Dev.setRfe_keeps _ _ _)
    (by decide) (by decide) (by decide)
  exact ⟨_, hx, rfl, hbegun, Dev.setRfe_rfeOpt _ _ _, fun k hne => Dev.setRfe_rfeOpt_ne _ _ _ hne, hk⟩

end SetParams

/-! ## RFE_LOAD_TABLE (R176) -/

section LoadTable

variable {s : State} {r : CmdRef} {c : Cmd} {tbl : List Byte}

theorem rfeLoadTable_full (hc : s.dev.clear specRfeLoadTable r c = true)
    (hb : tableBad (c.f 4 7 4) (s.dev.tableOf c tbl) = []) (hoff : s.dev.engOff 0x10 16 = false)
    (hn : 2 ≤ ((s.dev.rfe? (c.f 4 2 0)).loads.filter (·.table == c.f 4 7 4)).length) :
    exec (.rfeLoadTable r tbl) s = .next s :=
  blk_waits (by rw [exec, execRfeLoadTable]) hc hb (by simp only [hoff, Nat.not_lt.mpr hn, Bool.false_eq_true, if_false])

/-- The load that RFE_LOAD_TABLE queues: an empty defect map is held as a map that marks no site. -/
def Dev.tableLoad (d : Dev) (r : CmdRef) (c : Cmd) (tbl : List Byte) : PendBlk := {
  ref := r, table := c.f 4 7 4, at? := atFrame c 8
  bytes := if (d.tableOf c tbl).isEmpty then leBytes 4 0x3FFF7FFF else d.tableOf c tbl }

theorem Dev.tableLoad_bytes {d : Dev} {tbl : List Byte} (h : d.tableOf c tbl ≠ []) :
    (d.tableLoad r c tbl).bytes = d.tableOf c tbl := by
  simp [Dev.tableLoad, h]

theorem rfeLoadTable_queues (hc : s.dev.clear specRfeLoadTable r c = true)
    (hb : tableBad (c.f 4 7 4) (s.dev.tableOf c tbl) = []) (hoff : s.dev.engOff 0x10 16 = false)
    (hn : ((s.dev.rfe? (c.f 4 2 0)).loads.filter (·.table == c.f 4 7 4)).length < 2) :
    ∃ t, exec (.rfeLoadTable r tbl) s = .next t ∧ t.pending = s.pending ∧ Begun s.dev t.dev r c
      ∧ t.dev.rfe? (c.f 4 2 0) = { s.dev.rfe? (c.f 4 2 0) with
          loads := (s.dev.rfe? (c.f 4 2 0)).loads ++ [s.dev.tableLoad r c tbl] }
      ∧ (∀ k, k ≠ c.f 4 2 0 → t.dev.rfe? k = s.dev.rfe? k) ∧ Keeps [.rfe, .fetch] s.dev t.dev := by
  obtain ⟨hx, hbegun, hk⟩ := blk_begins (i := .rfeLoadTable r tbl) (by rw [exec, execRfeLoadTable]) hc hb
    (by simp only [hoff, hn, Bool.false_eq_true, if_false, if_true]; rfl) (Dev.setRfe_keeps _ _ _)
    (by decide) (by decide) (by decide)
  exact ⟨_, hx, rfl, hbegun, Dev.setRfe_rfeOpt _ _ _, fun k hne => Dev.setRfe_rfeOpt_ne _ _ _ hne, hk⟩

end LoadTable

/-! ## CBE_SET_COLOUR (R204) -/

section SetColour

variable {s : State} {r : CmdRef} {c : Cmd} {blk : List Byte}

theorem cbeSetColour_full (hc : s.dev.clear specCbeSetColour r c = true)
    (hb : s.dev.colourBad (c.f 4 2 0) (s.dev.blockOf false 0 128 blk) = []) (hoff : s.dev.cbeOff = false)
    (hn : 8 ≤ (SMap.get [] s.dev.cbe.blocks (c.f 4 2 0)).length) : exec (.cbeSetColour r blk) s = .next s :=
  blk_waits (by rw [exec, execCbeSetColour]) hc hb (by simp only [hoff, Nat.not_lt.mpr hn, Bool.false_eq_true, if_false])

/-- The block that CBE_SET_COLOUR queues. -/
def Dev.colourBlock (d : Dev) (r : CmdRef) (c : Cmd) (blk : List Byte) : PendBlk := {
  ref := r, at? := atFrame c 5, bytes := d.blockOf false 0 128 blk }

theorem cbeSetColour_queues (hc : s.dev.clear specCbeSetColour r c = true)
    (hb : s.dev.colourBad (c.f 4 2 0) (s.dev.blockOf false 0 128 blk) = []) (hoff : s.dev.cbeOff = false)
    (hn : (SMap.get [] s.dev.cbe.blocks (c.f 4 2 0)).length < 8) :
    ∃ t, exec (.cbeSetColour r blk) s = .next t ∧ t.pending = s.pending ∧ Begun s.dev t.dev r c
      ∧ SMap.get [] t.dev.cbe.blocks (c.f 4 2 0)
          = SMap.get [] s.dev.cbe.blocks (c.f 4 2 0) ++ [s.dev.colourBlock r c blk]
      ∧ (∀ k, k ≠ c.f 4 2 0 → SMap.get [] t.dev.cbe.blocks k = SMap.get [] s.dev.cbe.blocks k)
      ∧ t.dev.cbe.colour = s.dev.cbe.colour ∧ Keeps [.cbe, .fetch] s.dev t.dev := by
  obtain ⟨hx, hbegun, hk⟩ := blk_begins (i := .cbeSetColour r blk) (by rw [exec, execCbeSetColour]) hc hb
    (by simp only [hoff, hn, Bool.false_eq_true, if_false, if_true]; rfl) (Dev.cbe_keeps _ _)
    (by decide) (by decide) (by decide)
  exact ⟨_, hx, rfl, hbegun, SMap.get_put_same _ _ _ _, fun k hne => SMap.get_put_ne _ _ _ hne, rfl, hk⟩

end SetColour

/-! ## CBE_LOAD_LUT3D (R198) -/

section LoadLut

variable {s : State} {r : CmdRef} {c : Cmd} {blk : List Byte}

theorem cbeLoadLut3d_unused {d : Dev} (hoff : d.cbeOff = false) (hp : (d.lut (c.f 4 0 0)).pend = none)
    (hbehind : (d.lut (c.f 4 0 0)).behind = []) (hu : ∀ src, src < 5 → d.usesLut src (c.f 4 0 0) = false) :
    cbeLoadLut3d blk r c d = (d.setLut (c.f 4 0 0) { d.lut (c.f 4 0 0) with
      loaded := true, old := [], cur := d.blockOf (c.b 4 8) (c.q 7) 3344700 blk }).finish r stSuccess ones64 := by
  have hany : (rangeFrom 0 5).any (fun src => d.usesLut src (c.f 4 0 0)) = false := by
    simp only [List.any_eq_false, mem_rangeFrom, Bool.not_eq_true]
    exact fun src h => hu src (by omega)
  simp only [cbeLoadLut3d, hoff, hp, hbehind, hany, Option.isSome_none, List.any_nil, Bool.or_self, Bool.false_eq_true,
    if_false]

theorem cbeLoadLut3d_used {d : Dev} {src : Nat} (hoff : d.cbeOff = false) (hp : (d.lut (c.f 4 0 0)).pend = none)
    (hbehind : (d.lut (c.f 4 0 0)).behind = []) (hsrc : src < 5) (hu : d.usesLut src (c.f 4 0 0) = true) :
    cbeLoadLut3d blk r c d = (d.begin r).setLut (c.f 4 0 0) { d.lut (c.f 4 0 0) with
      pend := some { ref := r, at? := atFrame c 5, bytes := d.blockOf (c.b 4 8) (c.q 7) 3344700 blk }
      pendSrc := c.f 4 6 4 } := by
  have hany : (rangeFrom 0 5).any (fun src => d.usesLut src (c.f 4 0 0)) = true :=
    List.any_eq_true.mpr ⟨src, mem_rangeFrom.mpr (by omega), hu⟩
  simp only [cbeLoadLut3d, hoff, hp, hbehind, hany, Option.isSome_none, List.any_nil, Bool.or_self, Bool.false_eq_true,
    if_false, if_true]

theorem exec_cbeLoadLut3d : exec (.cbeLoadLut3d r blk) s = lift (runBlk specCbeLoadLut3d 7
    (fun d c => lut3Bad (d.blockOf (c.b 4 8) (c.q 7) 3344700 blk) 274625) r (cbeLoadLut3d blk r)) s := by
  rw [exec, execCbeLoadLut3d]

theorem cbeLoadLut3d_at_once (hc : s.dev.clear specCbeLoadLut3d r c = true)
    (hb : lut3Bad (s.dev.blockOf (c.b 4 8) (c.q 7) 3344700 blk) 274625 = []) (hoff : s.dev.cbeOff = false)
    (hp : (s.dev.lut (c.f 4 0 0)).pend = none) (hbehind : (s.dev.lut (c.f 4 0 0)).behind = [])
    (hu : ∀ src, src < 5 → s.dev.usesLut src (c.f 4 0 0) = false) :
    ∃ t, exec (.cbeLoadLut3d r blk) s = .next t ∧ t.pending = s.pending ∧ Answered s.dev t.dev r stSuccess ones64
      ∧ t.dev.lut (c.f 4 0 0) = { s.dev.lut (c.f 4 0 0) with
          loaded := true, old := [], cur := s.dev.blockOf (c.b 4 8) (c.q 7) 3344700 blk }
      ∧ (∀ k, k ≠ c.f 4 0 0 → t.dev.lut k = s.dev.lut k) ∧ Keeps (.cbe :: byDone) s.dev t.dev := by
  obtain ⟨hx, ha, hk⟩ := blk_completes exec_cbeLoadLut3d hc hb (cbeLoadLut3d_unused hoff hp hbehind hu)
    (Dev.setLut_keeps _ _ _) (by decide) (by decide)
  have hlut : ∀ (e : Dev) k, (e.finish r stSuccess ones64).lut k = e.lut k := fun e k => by simp [Dev.lut]
  exact ⟨_, hx, rfl, ha, (hlut _ _).trans (Dev.setLut_lut _ _ _),
    fun k hne => (hlut _ _).trans (Dev.setLut_lut_ne _ _ _ hne), hk⟩

theorem cbeLoadLut3d_waits {src : Nat} (hc : s.dev.clear specCbeLoadLut3d r c = true)
    (hb : lut3Bad (s.dev.blockOf (c.b 4 8) (c.q 7) 3344700 blk) 274625 = []) (hoff : s.dev.cbeOff = false)
    (hp : (s.dev.lut (c.f 4 0 0)).pend = none) (hbehind : (s.dev.lut (c.f 4 0 0)).behind = []) (hsrc : src < 5)
    (hu : s.dev.usesLut src (c.f 4 0 0) = true) :
    ∃ t, exec (.cbeLoadLut3d r blk) s = .next t ∧ Begun s.dev t.dev r c
      ∧ (t.dev.lut (c.f 4 0 0)).cur = (s.dev.lut (c.f 4 0 0)).cur ∧ (t.dev.lut (c.f 4 0 0)).pendSrc = c.f 4 6 4
      ∧ (t.dev.lut (c.f 4 0 0)).pend.isSome = true ∧ Keeps [.cbe, .fetch] s.dev t.dev := by
  obtain ⟨hx, hbegun, hk⟩ := blk_begins exec_cbeLoadLut3d hc hb (cbeLoadLut3d_used hoff hp hbehind hsrc hu)
    (Dev.setLut_keeps _ _ _) (by decide) (by decide) (by decide)
  exact ⟨_, hx, hbegun, by simp, by simp, by simp, hk⟩

end LoadLut

/-- Settles O33: a block that offends or finds its engine off completes, one that finds the queue full does not begin,
and any other begins and joins the end of its queue; a LUT that no running source uses is loaded at once. -/
theorem pipelineBlocksWait : Obligations.PipelineBlocksWait := by
  unfold Obligations.PipelineBlocksWait
  refine ⟨fun s r c blk hc => ⟨rfeSetParams_offends hc, rfeSetParams_engineDown hc, fun hb hoff =>
      ⟨rfeSetParams_full hc hb hoff, rfeSetParams_queues hc hb hoff⟩⟩,
    fun s r c tbl hc hb hoff => ⟨rfeLoadTable_full hc hb hoff, fun hn => ?_⟩,
    fun s r c blk hc hb hoff => ⟨cbeSetColour_full hc hb hoff, cbeSetColour_queues hc hb hoff⟩,
    fun s r c blk hc hb hoff hp hbehind => ⟨cbeLoadLut3d_at_once hc hb hoff hp hbehind, fun src hsrc hu =>
      cbeLoadLut3d_waits hc hb hoff hp hbehind hsrc hu⟩⟩
  obtain ⟨t, hx, hpend, hbegun, hload, hother, hk⟩ := rfeLoadTable_queues hc hb hoff hn
  exact ⟨t, _, hx, hpend, hbegun, hload, rfl, rfl, rfl, Dev.tableLoad_bytes, hother, hk⟩

end Sys2Proof.Machine
end

section
/-! SUPPORT. Tokens of RFE and CBE: where one moves its frame on, what it changes, and where it waits (O35). -/

namespace Sys2Proof.SMap

/-- A run of writes leaves every place alone that it does not name. -/
theorem get_foldl_put_ne {α : Type} [DecidableEq α] (z : α) (key : Nat → Nat) (v : Nat → α) {k : Nat} (xs : List Nat)
    (m : SMap α) (h : ∀ x ∈ xs, k ≠ key x) :
    get z (xs.foldl (fun m x => put z m (key x) (v x)) m) k = get z m k := by
  induction xs generalizing m with
  | nil => rfl
  | cons x xs ih =>
    obtain ⟨hx, hxs⟩ := List.forall_mem_cons.mp h
    exact (ih _ hxs).trans (get_put_ne _ _ _ hx)

end Sys2Proof.SMap

namespace Sys2Proof.Machine

open Sys2Proof

/-! ## The token point (R478) -/

section TokenPoint

variable {d : Dev} {pts : List Nat} {f : Dev → Dev}

theorem Dev.tokCross_open (h : d.dbg.frozen = false) : d.tokCross pts f = f d := by
  have hfind : pts.find? (fun p => d.dbg.frozen && d.dbg.point == p) = none := by simp [h]
  rw [Dev.tokCross, hfind]

/-- A token waits at a frozen point that has no release left. -/
theorem Dev.tokCross_waits (hz : d.dbg.frozen = true) (hp : d.dbg.point ∈ pts) (hc : d.dbg.credits = 0) :
    d.tokCross pts f = { d with dbg := { d.dbg with waits := true } } := by
  have hfind : pts.find? (fun p => d.dbg.frozen && d.dbg.point == p) = some d.dbg.point := by
    cases hx : pts.find? (fun p => d.dbg.frozen && d.dbg.point == p) with
    | none => simpa [hz] using List.find?_eq_none.mp hx _ hp
    | some p =>
      have := List.find?_some hx
      simp_all
  have hpass : d.tokPass d.dbg.point = none := by simp [Dev.tokPass, hz, hc]
  rw [Dev.tokCross, hfind]
  simp only [hpass]

theorem Dev.dbg_keeps (d : Dev) (b : DbgB) : Keeps [.dbg] d { d with dbg := b } := by
  intro p hp
  cases p <;> simp_all [Part.same]

end TokenPoint

/-! ## The only frame on its way -/

theorem Dev.modFrame_only {d : Dev} {f : PipeFrame} (h : d.rfe.frames = [f]) (g : PipeFrame → PipeFrame) :
    (d.modFrame f.src f.index g).rfe.frames = [g f] := by
  simp [Dev.modFrame, h, updFirst]

theorem Dev.modFrame_keeps (d : Dev) (s i : Nat) (g : PipeFrame → PipeFrame) : Keeps [.rfe] d (d.modFrame s i g) :=
  d.rfe_keeps _

/-! ## The parts of a spoke token -/

/-- Forming the black levels of a frame leaves the rest of it alone, and the list of frames (R159). -/
theorem Dev.formBl_frame (d : Dev) (f : PipeFrame) :
    (∃ set bl, (d.formBl f).1 = { f with blSet := set, bl := bl }) ∧ (d.formBl f).2.rfe.frames = d.rfe.frames
      ∧ Keeps [.rfe] d (d.formBl f).2 := by
  unfold Dev.formBl
  split
  · exact ⟨⟨_, _, rfl⟩, rfl, .refl _ _⟩
  · exact ⟨⟨_, _, rfl⟩, rfl, d.setRfe_keeps _ _⟩

/-- The sites of a token are written to the stage-5 output and to the mosaic, and nothing else of the frame. -/
theorem Dev.tokenRun_eq (d : Dev) (f : PipeFrame) (st : Nat × Nat) (wy : Nat) (xs : List Nat) :
    ∃ nr, ∃ v : Nat → Int, d.tokenRun f st wy xs = { f with
      nr := nr, mos := xs.foldl (fun m x => SMap.put 0 m (siteKey x ((fwin f).y0 + wy)) (v x)) f.mos } := by
  unfold Dev.tokenRun
  simp only []
  generalize d.rx f st = c
  generalize (fwin f).y0 + wy = y
  refine ⟨xs.foldl (fun m (x : Nat) => SMap.put 0 m (siteKey x y) (d.stage5 c x y)) f.nr,
    fun x => stage6 c x y (d.stage5 c x y), ?_⟩
  induction xs generalizing f with
  | nil => rfl
  | cons x xs ih => exact ih _

theorem Dev.writeHist_keeps (d : Dev) (f : PipeFrame) (i wy : Nat) : Keeps [.mem] d (d.writeHist f i wy) := by
  have hmem : ∀ (e : Dev) a bs, Keeps [.mem] e (e.writeBuf true a bs) := by
    intro e a bs p hp
    cases p <;> simp_all [Part.same, Dev.writeBuf]
  unfold Dev.writeHist
  split
  · exact .refl _ _
  · exact (hmem _ _ _).ifThen (hmem _ _ _)

/-- Finishing a frame at most marks it done and gives it its count of replacements. -/
theorem Dev.rfeFinish_only {d : Dev} {f : PipeFrame} (h : d.rfe.frames = [f]) :
    ∃ done n, (d.rfeFinish f).rfe.frames = [{ f with rfeDone := done, dpc := n }] := by
  unfold Dev.rfeFinish
  simp only []
  split
  · refine ⟨true, d.dpcCount f, Dev.modFrame_only ?_ _⟩
    split
    · exact h
    · simpa using h
  · exact ⟨_, _, h⟩

/-! ## SPOKE_TOKEN (R174) -/

/-- The frame after a token of spoke `k`. -/
def Dev.spokeFrame (d : Dev) (k : Nat) (f : PipeFrame) (wy : Nat) (xs : List Nat) : PipeFrame :=
  { (d.formBl f).2.tokenRun (d.formBl f).1 (fstripe f ((fspokes f).idxOf k)) wy xs with
    tok := SMap.put 0 f.tok k (SMap.get 0 f.tok k + 1) }

/-- What a spoke token does once it has crossed the token point: the sites `xs` of row `wy` of frame `f` are worked. -/
def Dev.spokeWork (d : Dev) (k : Nat) (f : PipeFrame) (wy : Nat) (xs : List Nat) : Dev :=
  let g := d.spokeFrame k f wy xs
  let n := ceilDiv (clipTo (fstripe f ((fspokes f).idxOf k)) (fwin f)) 8
  let d := (d.formBl f).2.modFrame f.src f.index fun _ => g
  let d := if SMap.get 0 f.tok k % n + 1 = n then d.writeHist g ((fspokes f).idxOf k) wy else d
  d.rfeFinish g

section SpokeToken

variable {d : Dev} {k : Nat} {f : PipeFrame} {wy : Nat} {xs : List Nat}

section Find

variable (hf : d.rfe.frames = [f]) (hd : f.rfeDone = false) (hk : k ∈ fspokes f)
  (hs : tokenSites f (fstripe f ((fspokes f).idxOf k)) (SMap.get 0 f.tok k) = some (wy, xs))

include hf hd hk hs

theorem Dev.spokeToken_stays (h : d.engDown k k = true ∨ d.engDown 0x10 16 = true ∨ rowsReady f wy = false
    ∨ d.cbeHeld f.src = true) : d.spokeToken k = d := by
  by_cases hdown : d.engDown k k || d.engDown 0x10 16
  · simp [Dev.spokeToken, hdown]
  · have hwait : rowsReady f wy = false ∨ d.cbeHeld f.src = true := by simp_all
    have hfind : d.rfe.frames.find? (fun f => !f.rfeDone && (fspokes f).contains k) = some f := by simp [hf, hd, hk]
    simp only [Dev.spokeToken, hdown, hfind, hs]
    rcases hwait with hr | hh <;> simp [*]

theorem Dev.spokeToken_goes (he : d.engDown k k = false) (hr : d.engDown 0x10 16 = false)
    (hrow : rowsReady f wy = true) (hh : d.cbeHeld f.src = false) :
    d.spokeToken k = d.tokCross (rangeFrom (8 * k) 8) fun d => d.spokeWork k f wy xs := by
  have hfind : d.rfe.frames.find? (fun f => !f.rfeDone && (fspokes f).contains k) = some f := by simp [hf, hd, hk]
  simp only [Dev.spokeToken, he, hr, hfind, hs, hrow, hh]
  rfl

end Find

theorem Dev.spokeFrame_eq (d : Dev) (k : Nat) (f : PipeFrame) (wy : Nat) (xs : List Nat) :
    ∃ set bl nr, ∃ v : Nat → Int, d.spokeFrame k f wy xs = { f with
      blSet := set, bl := bl, nr := nr
      mos := xs.foldl (fun m x => SMap.put 0 m (siteKey x ((fwin f).y0 + wy)) (v x)) f.mos
      tok := SMap.put 0 f.tok k (SMap.get 0 f.tok k + 1) } := by
  obtain ⟨⟨set, bl, hbl⟩, -⟩ := d.formBl_frame f
  obtain ⟨nr, v, hrun⟩ := (d.formBl f).2.tokenRun_eq (d.formBl f).1 (fstripe f ((fspokes f).idxOf k)) wy xs
  refine ⟨set, bl, nr, v, ?_⟩
  rw [Dev.spokeFrame, hrun, hbl]
  rfl

theorem Dev.spokeWork_keeps : Keeps [.rfe, .ctrs, .mem] d (d.spokeWork k f wy xs) := by
  obtain ⟨-, -, hbl⟩ := d.formBl_frame f
  exact (hbl.mono (by simp)).trans (((Dev.modFrame_keeps _ _ _ _).mono (by simp)).ifThen
    ((Dev.writeHist_keeps _ _ _ _).mono (by simp)) |>.trans ((Dev.rfeFinish_keeps _ _).mono (by simp)))

/-- The frame that a spoke token leaves: the one it has worked, at most marked done. -/
theorem Dev.spokeWork_frames (hf : d.rfe.frames = [f]) : ∃ done n,
    (d.spokeWork k f wy xs).rfe.frames = [{ d.spokeFrame k f wy xs with rfeDone := done, dpc := n }] := by
  obtain ⟨-, hbl, -⟩ := d.formBl_frame f
  refine Dev.rfeFinish_only ?_
  have hmod := Dev.modFrame_only (hbl.trans hf) fun _ => d.spokeFrame k f wy xs
  split
  · rw [Dev.writeHist_keeps _ _ _ _ .rfe (by decide)]
    exact hmod
  · exact hmod

theorem Dev.spokeFrame_moves (d : Dev) (k : Nat) (f : PipeFrame) (wy : Nat) (xs : List Nat) :
    (d.spokeFrame k f wy xs).src = f.src ∧ (d.spokeFrame k f wy xs).index = f.index
      ∧ SMap.get 0 (d.spokeFrame k f wy xs).tok k = SMap.get 0 f.tok k + 1
      ∧ (∀ j, j ≠ k → SMap.get 0 (d.spokeFrame k f wy xs).tok j = SMap.get 0 f.tok j)
      ∧ (∀ site, (∀ x ∈ xs, site ≠ siteKey x ((fwin f).y0 + wy)) →
          SMap.get 0 (d.spokeFrame k f wy xs).mos site = SMap.get 0 f.mos site) := by
  obtain ⟨set, bl, nr, v, h⟩ := d.spokeFrame_eq k f wy xs
  simp only [h]
  exact ⟨trivial, trivial, SMap.get_put_same _ _ _ _, fun j hj => SMap.get_put_ne _ _ _ hj,
    fun site hsite => SMap.get_foldl_put_ne 0 _ v xs f.mos hsite⟩

end SpokeToken

/-! ## SPOKE_TOKEN at the block -/

section SpokeEvents

variable {s : State} {k : Fin 16} {f : PipeFrame} {wy : Nat} {xs : List Nat}
  (hi : s.dev.idleMode = true) (hf : s.dev.rfe.frames = [f]) (hd : f.rfeDone = false) (hk : k.val ∈ fspokes f)
  (hs : tokenSites f (fstripe f ((fspokes f).idxOf k.val)) (SMap.get 0 f.tok k.val) = some (wy, xs))

include hi hf hd hk hs

theorem spokeToken_stays (h : s.dev.engDown k.val k.val = true ∨ s.dev.engDown 0x10 16 = true
    ∨ rowsReady f wy = false ∨ s.dev.cbeHeld f.src = true) : exec (.spokeToken k) s = .next s :=
  event_none (by rw [exec, execSpokeToken]) hi (Dev.spokeToken_stays hf hd hk hs h)

section Goes

variable (he : s.dev.engDown k.val k.val = false) (hr : s.dev.engDown 0x10 16 = false)
  (hrow : rowsReady f wy = true) (hh : s.dev.cbeHeld f.src = false)

include he hr hrow hh

theorem spokeToken_waits (hz : s.dev.dbg.frozen = true) (hlo : 8 * k.val ≤ s.dev.dbg.point)
    (hup : s.dev.dbg.point < 8 * k.val + 8) (hc : s.dev.dbg.credits = 0) :
    exec (.spokeToken k) s = .next { s with dev := { s.dev with dbg := { s.dev.dbg with waits := true } } } :=
  event_effect (by rw [exec, execSpokeToken]) hi
    ((Dev.spokeToken_goes hf hd hk hs he hr hrow hh).trans (Dev.tokCross_waits hz (mem_rangeFrom.mpr ⟨hlo, hup⟩) hc))
    (Dev.dbg_keeps _ _) (by decide)

theorem spokeToken_moves (hz : s.dev.dbg.frozen = false) :
    ∃ t g, exec (.spokeToken k) s = .next t ∧ t.pending = s.pending ∧ t.dev.rfe.frames = [g]
      ∧ g.src = f.src ∧ g.index = f.index ∧ SMap.get 0 g.tok k.val = SMap.get 0 f.tok k.val + 1
      ∧ (∀ j, j ≠ k.val → SMap.get 0 g.tok j = SMap.get 0 f.tok j)
      ∧ (∀ site, (∀ x ∈ xs, site ≠ siteKey x ((fwin f).y0 + wy)) → SMap.get 0 g.mos site = SMap.get 0 f.mos site)
      ∧ Keeps [.rfe, .ctrs, .mem] s.dev t.dev := by
  have hx := event_effect (i := .spokeToken k) (by rw [exec, execSpokeToken]) hi
    ((Dev.spokeToken_goes hf hd hk hs he hr hrow hh).trans (Dev.tokCross_open hz)) Dev.spokeWork_keeps (by decide)
  obtain ⟨done, n, hg⟩ := Dev.spokeWork_frames (k := k.val) (wy := wy) (xs := xs) hf
  obtain ⟨hsrc, hindex, htok, hother, hmos⟩ := s.dev.spokeFrame_moves k.val f wy xs
  exact ⟨_, _, hx, rfl, hg, hsrc, hindex, htok, hother, hmos, Dev.spokeWork_keeps⟩

end Goes

end SpokeEvents

/-! ## CBE_TOKEN (R179) -/

/-- The frame with the sites `xs` of row `wy` worked by CBE. -/
def Dev.cbeSites (d : Dev) (f : PipeFrame) (wy : Nat) (xs : List Nat) : PipeFrame :=
  let c := d.cx f
  let y := c.rx.win.y0 + wy
  xs.foldl (fun g (x : Nat) =>
    let p := d.cbeSite c x y
    { g with work := SMap.put {} g.work (siteKey x y) p, col := SMap.put {} g.col (siteKey x y) (d.cbeLut f p) }) f

/-- The frame after a CBE token of spoke `k`. -/
def Dev.cbeFrame (d : Dev) (k : Nat) (f : PipeFrame) (wy : Nat) (xs : List Nat) : PipeFrame :=
  let g := { d.cbeSites f wy xs with cbeTok := SMap.put 0 f.cbeTok k (SMap.get 0 f.cbeTok k + 1) }
  { g with cbeDone := cbeAll g }

/-- What a CBE token does once it has crossed the token point. -/
def Dev.cbeWork (d : Dev) (k : Nat) (f : PipeFrame) (wy : Nat) (xs : List Nat) : Dev :=
  (if f.cfg.lutOn && f.cfg.lut.isEmpty then { d with free := d.free + 3 } else d).modFrame f.src f.index fun _ =>
    d.cbeFrame k f wy xs

/-- CBE writes the sites of a token to its two pictures, and nothing else of the frame. -/
theorem Dev.cbeSites_eq (d : Dev) (f : PipeFrame) (wy : Nat) (xs : List Nat) :
    ∃ col, ∃ v : Nat → Px, d.cbeSites f wy xs = { f with
      col := col, work := xs.foldl (fun m x => SMap.put {} m (siteKey x ((fwin f).y0 + wy)) (v x)) f.work } := by
  have hy : (d.cx f).rx.win.y0 + wy = (fwin f).y0 + wy := rfl
  unfold Dev.cbeSites
  simp only [hy]
  generalize d.cx f = c
  generalize (fwin f).y0 + wy = y
  generalize hl : d.cbeLut f = lut
  refine ⟨xs.foldl (fun m (x : Nat) => SMap.put {} m (siteKey x y) (lut (d.cbeSite c x y))) f.col,
    fun x => d.cbeSite c x y, ?_⟩
  clear hl hy
  induction xs generalizing f with
  | nil => rfl
  | cons x xs ih => exact ih _

section CbeToken

variable {d : Dev} {k : Nat} {f : PipeFrame} {wy : Nat} {xs : List Nat}

section Find

variable (hf : d.rfe.frames = [f]) (hd : f.cbeDone = false) (hk : k ∈ fspokes f)
  (hs : tokenSites f (fstripe f ((fspokes f).idxOf k)) (SMap.get 0 f.cbeTok k) = some (wy, xs))

include hf hd hk hs

theorem Dev.cbeToken_stays (h : d.engDown (sliceOf k).1 (sliceOf k).2 = true ∨ mosReady f wy = false
    ∨ d.cbeHeld f.src = true) : d.cbeToken k = d := by
  by_cases hdown : d.engDown (sliceOf k).1 (sliceOf k).2
  · simp [Dev.cbeToken, hdown]
  · have hwait : mosReady f wy = false ∨ d.cbeHeld f.src = true := by simp_all
    have hfind : d.rfe.frames.find? (fun f => !f.cbeDone && (fspokes f).contains k) = some f := by simp [hf, hd, hk]
    simp only [Dev.cbeToken, hdown, hfind, hs]
    rcases hwait with hr | hh <;> simp [*]

theorem Dev.cbeToken_goes (he : d.engDown (sliceOf k).1 (sliceOf k).2 = false) (hrow : mosReady f wy = true)
    (hh : d.cbeHeld f.src = false) :
    d.cbeToken k = d.tokCross [0x80 + k / 8] fun d => d.cbeWork k f wy xs := by
  have hfind : d.rfe.frames.find? (fun f => !f.cbeDone && (fspokes f).contains k) = some f := by simp [hf, hd, hk]
  simp only [Dev.cbeToken, he, hfind, hs, hrow, hh]
  rfl

end Find

theorem Dev.cbeWork_keeps : Keeps [.rfe] d (d.cbeWork k f wy xs) := by
  have hfree : Keeps [.rfe] d { d with free := d.free + 3 } := by
    intro p _
    cases p <;> simp [Part.same]
  exact ((Keeps.refl _ d).ifThen hfree).trans (Dev.modFrame_keeps _ _ _ _)

theorem Dev.cbeWork_frames (hf : d.rfe.frames = [f]) : (d.cbeWork k f wy xs).rfe.frames = [d.cbeFrame k f wy xs] := by
  refine Dev.modFrame_only ?_ _
  split <;> exact hf

theorem Dev.cbeFrame_moves (d : Dev) (k : Nat) (f : PipeFrame) (wy : Nat) (xs : List Nat) :
    (d.cbeFrame k f wy xs).mos = f.mos
      ∧ SMap.get 0 (d.cbeFrame k f wy xs).cbeTok k = SMap.get 0 f.cbeTok k + 1
      ∧ (∀ j, j ≠ k → SMap.get 0 (d.cbeFrame k f wy xs).cbeTok j = SMap.get 0 f.cbeTok j)
      ∧ (∀ site, (∀ x ∈ xs, site ≠ siteKey x ((fwin f).y0 + wy)) →
          SMap.get {} (d.cbeFrame k f wy xs).work site = SMap.get {} f.work site) := by
  obtain ⟨col, v, h⟩ := d.cbeSites_eq f wy xs
  simp only [Dev.cbeFrame, h]
  exact ⟨trivial, SMap.get_put_same _ _ _ _, fun j hj => SMap.get_put_ne _ _ _ hj,
    fun site hsite => SMap.get_foldl_put_ne {} _ v xs f.work hsite⟩

end CbeToken

section CbeEvents

variable {s : State} {k : Fin 16} {f : PipeFrame} {wy : Nat} {xs : List Nat}
  (hi : s.dev.idleMode = true) (hf : s.dev.rfe.frames = [f]) (hd : f.cbeDone = false) (hk : k.val ∈ fspokes f)
  (hs : tokenSites f (fstripe f ((fspokes f).idxOf k.val)) (SMap.get 0 f.cbeTok k.val) = some (wy, xs))

include hi hf hd hk hs

theorem cbeToken_stays (h : s.dev.engDown (sliceOf k.val).1 (sliceOf k.val).2 = true ∨ mosReady f wy = false
    ∨ s.dev.cbeHeld f.src = true) : exec (.cbeToken k) s = .next s :=
  event_none (by rw [exec, execCbeToken]) hi (Dev.cbeToken_stays hf hd hk hs h)

theorem cbeToken_moves (he : s.dev.engDown (sliceOf k.val).1 (sliceOf k.val).2 = false) (hrow : mosReady f wy = true)
    (hh : s.dev.cbeHeld f.src = false) (hz : s.dev.dbg.frozen = false) :
    ∃ t g, exec (.cbeToken k) s = .next t ∧ t.pending = s.pending ∧ t.dev.rfe.frames = [g]
      ∧ g.mos = f.mos ∧ SMap.get 0 g.cbeTok k.val = SMap.get 0 f.cbeTok k.val + 1
      ∧ (∀ j, j ≠ k.val → SMap.get 0 g.cbeTok j = SMap.get 0 f.cbeTok j)
      ∧ (∀ site, (∀ x ∈ xs, site ≠ siteKey x ((fwin f).y0 + wy)) → SMap.get {} g.work site = SMap.get {} f.work site)
      ∧ Keeps [.rfe] s.dev t.dev := by
  have hx := event_effect (i := .cbeToken k) (by rw [exec, execCbeToken]) hi
    ((Dev.cbeToken_goes hf hd hk hs he hrow hh).trans (Dev.tokCross_open hz)) Dev.cbeWork_keeps (by decide)
  obtain ⟨hmos, htok, hother, hwork⟩ := s.dev.cbeFrame_moves k.val f wy xs
  exact ⟨_, _, hx, rfl, Dev.cbeWork_frames hf, hmos, htok, hother, hwork, Dev.cbeWork_keeps⟩

end CbeEvents

end Sys2Proof.Machine
end

section
/-! SUPPORT. What has left the block stays left, and a record that fits its ring leaves with every field given (R76, R88). -/

namespace Sys2Proof.Machine

open Sys2Proof

/-! ## What has left stays left -/

/-- All that has left in `d` has left in `e`. -/
def Dev.OutGrows (d e : Dev) : Prop := d.out ⊆ e.out

theorem Dev.OutGrows.refl (d : Dev) : d.OutGrows d := List.Subset.refl _

theorem Dev.OutGrows.trans {d e f : Dev} (h : d.OutGrows e) (k : e.OutGrows f) : d.OutGrows f := List.Subset.trans h k

theorem Keeps.outGrows {b : List Part} {d e : Dev} (h : Keeps b d e) (hb : .out ∉ b) : d.OutGrows e := by
  have hout : e.out = d.out := h .out hb
  simp [Dev.OutGrows, hout]

theorem Dev.OutGrows.foldl {α : Type} (f : Dev → α → Dev) (h : ∀ d a, Dev.OutGrows d (f d a)) (l : List α) (d : Dev) :
    d.OutGrows (l.foldl f d) := by
  induction l generalizing d with
  | nil => exact .refl d
  | cons a t ih => exact (h d a).trans (ih _)

section OutGrows

variable (d : Dev)

theorem Dev.emit_outGrows (o : Out) : d.OutGrows (d.emit o) := List.subset_append_left _ _

theorem Dev.signal_outGrows (v : Nat) : d.OutGrows (d.signal v) := fun _ => Dev.signal_out

theorem Dev.setRing_outGrows (n : Nat) (r : Ring) : d.OutGrows (d.setRing n r) :=
  (d.setRing_keeps n r).outGrows (by decide)

/-! ### Completions -/

theorem Dev.complete_outGrows (r : CmdRef) (st res : Nat) : d.OutGrows (d.complete r st res) := by
  unfold Dev.complete
  split
  · exact .refl d
  · exact fun _ => Dev.postCompletion_out_mono (d := (d.dropCmd r).dropWait r _) _ _ _ _

theorem Dev.settleQueueOps_outGrows : d.OutGrows d.settleQueueOps := by
  unfold Dev.settleQueueOps
  refine Dev.OutGrows.foldl _ (fun e o => ?_) _ { d with hif := { d.hif with
    queueOps := d.hif.queueOps.filter fun o => !o.left.isEmpty } }
  simp only []
  split
  · exact (e.setQp o.qid {}).complete_outGrows _ _ _
  · exact e.complete_outGrows _ _ _

theorem Dev.finish_outGrows (r : CmdRef) (st res : Nat) : d.OutGrows (d.finish r st res) :=
  (d.complete_outGrows r st res).trans (Dev.settleQueueOps_outGrows _)

/-! ### Records -/

theorem Dev.putRecord_outGrows (n : Nat) (rc : Rec) : d.OutGrows (d.putRecord n rc) := by
  have hlast : ∀ (e : Dev) (r : Ring) v, e.OutGrows ((e.setRing n r).signal v) := fun e r v =>
    (e.setRing_outGrows n r).trans (Dev.signal_outGrows _ v)
  have hput : ∀ (e : Dev) o (r : Ring) c v [Decidable c],
      e.OutGrows (if c then ((e.emit o).setRing n { r with unsig := 0 }).signal v else (e.emit o).setRing n r) := by
    intro e o r c v _
    split
    · exact (e.emit_outGrows o).trans (hlast _ _ _)
    · exact (e.emit_outGrows o).trans (Dev.setRing_outGrows _ _ _)
  unfold Dev.putRecord
  simp only []
  split
  · exact hput _ _ _ _ _
  · exact (d.emit_outGrows _).trans (hput _ _ _ _ _)

theorem Dev.dropRecord_outGrows (n : Nat) : d.OutGrows (d.dropRecord n) := d.setRing_outGrows _ _

theorem Dev.rereadHead_outGrows (n : Nat) : d.OutGrows (d.rereadHead n) := by
  unfold Dev.rereadHead
  simp only []
  split <;> exact d.draw.2.setRing_outGrows _ _

theorem Dev.logEntry_outGrows (sev code frame page inst : Nat) (tag : Option Nat) (a b : Nat) :
    d.OutGrows (d.logEntry sev code frame page inst tag a b).1 := by
  unfold Dev.logEntry
  split <;> exact List.Subset.refl _

theorem Dev.postLog_outGrows (e : LogEntry) : d.OutGrows (d.postLog e) := by
  have hread : ∀ n, d.OutGrows (d.rereadHead n) := fun n => d.rereadHead_outGrows n
  have hlog : ∀ n a b, d.OutGrows ((d.rereadHead n).logEntry 2 0x073 ones64 0 0 none a b).1 := fun n _ _ =>
    (hread n).trans (Dev.logEntry_outGrows _ _ _ _ _ _ _ _ _)
  unfold Dev.postLog
  split
  · exact .refl d
  · split
    · exact d.putRecord_outGrows _ _
    · split
      · exact d.dropRecord_outGrows _
      · simp only []
        split
        · exact (hread _).trans (Dev.putRecord_outGrows _ _ _)
        · split
          · split
            · exact ((hlog _ _ _).trans (Dev.dropRecord_outGrows _ _)).trans (Dev.dropRecord_outGrows _ _)
            · exact (hlog _ _ _).trans (Dev.dropRecord_outGrows _ _)
          · exact (hread _).trans (Dev.dropRecord_outGrows _ _)

theorem Dev.log_outGrows (sev code a b page inst frame : Nat) (tag : Option Nat) :
    d.OutGrows (d.log sev code a b page inst frame tag) := by
  unfold Dev.log
  simp only []
  split
  · exact d.logEntry_outGrows _ _ _ _ _ _ _ _
  · exact (d.logEntry_outGrows _ _ _ _ _ _ _ _).trans (Dev.postLog_outGrows _ _)

theorem Dev.dmaFault_outGrows (n access err addr : Nat) : d.OutGrows (d.dmaFault n access err addr) := by
  unfold Dev.dmaFault
  simp only []
  split
  · exact d.log_outGrows _ _ _ _ _ _ _ _
  · exact (d.emit_outGrows _).trans (Dev.log_outGrows _ _ _ _ _ _ _ _ _)

theorem Dev.toRing_outGrows (n : Nat) (rc : Rec) : d.OutGrows (d.toRing n rc) := by
  unfold Dev.toRing
  split
  · exact d.putRecord_outGrows _ _
  · split
    · exact d.dropRecord_outGrows _
    · simp only []
      split
      · exact (d.rereadHead_outGrows _).trans (Dev.putRecord_outGrows _ _ _)
      · split
        · exact ((d.rereadHead_outGrows _).trans (Dev.dropRecord_outGrows _ _)).trans (Dev.dmaFault_outGrows _ _ _ _ _)
        · exact (d.rereadHead_outGrows _).trans (Dev.dropRecord_outGrows _ _)

theorem Dev.post_outGrows (type slots frame page inst : Nat) (body : List Fld) (time : Nat) :
    d.OutGrows (d.post type slots frame page inst body time) := by
  unfold Dev.post
  split
  · exact .refl d
  · exact d.toRing_outGrows _ _

end OutGrows

/-! ## A record with every field given -/

/-- A record that a ring takes and has room for is posted there, as it was given (R85, R88). -/
theorem Dev.post_record_as_given {d : Dev} {n : Nat} (type slots frame page inst : Nat) (body : List Fld) (time : Nat)
    (hn : d.ringOf (type / 4096) = some n) (hf : d.fits n slots = true) :
    ∃ slot g p q, Out.record n slot {
      type := type, slots := slots, gap := g, phase := p, seq := q, frame := frame, time := ltsForm time, page := page
      inst := inst, body := body } ∈ (d.post type slots frame page inst body time).out := by
  unfold Dev.post Dev.toRing
  simp only [hn, hf, if_true]
  exact d.putRecord_out n _

end Sys2Proof.Machine
end

section
/-! SUPPORT. Rows and FINAL records of the raw statistics units, and the tokens of the picture pipeline (O35). -/

namespace Sys2Proof.Machine

open Sys2Proof

/-! ## A record with a block (R241) -/

/-- What a posted record with its block may touch. -/
def byBlock : List Part := .stu :: .mem :: .fetch :: byPost

section PostBlock

variable {d : Dev} {n type slots : Nat} (t index flags : Nat) (block : List Byte) (body : Nat → Nat → List Fld)

theorem Dev.takeStuBuf_keeps (d : Dev) : Keeps [.stu] d (d.takeStuBuf t).2 := by
  unfold Dev.takeStuBuf
  split
  · exact .refl _ _
  · exact d.stu_keeps _

theorem Dev.postBlock_keeps (d : Dev) (type slots : Nat) :
    Keeps byBlock d (d.postBlock t index type slots flags block body) := by
  have hpost : ∀ (e : Dev) (bd : List Fld), Keeps byBlock e (e.post type slots index 5 t bd d.now) := fun e _ =>
    (e.post_keeps _ _ _ _ _ _ _).mono (by simp [byBlock, byPost])
  unfold Dev.postBlock
  simp only []
  split
  · exact ((d.count_keeps _ _).mono (by simp [byBlock, byPost])).trans (hpost _ _)
  · exact ((d.takeStuBuf_keeps t).mono (by simp [byBlock, byPost])).trans ((Dev.writeBuf_keeps _ _ _ _).mono
      (by simp [byBlock, byPost])) |>.trans ((Dev.post_keeps _ _ _ _ _ _ _ _).mono (by simp [byBlock, byPost])) |>.trans
      ((Dev.finish_keeps _ _ _ _).mono (by simp [byBlock, byPost, byDone]))

/-- A record with a block that its ring takes and has room for is posted, whether or not a buffer waits for the block. -/
theorem Dev.postBlock_record (hn : d.ringOf (type / 4096) = some n) (hf : d.fits n slots = true) :
    ∃ slot g p q fl addr tm, Out.record n slot {
      type := type, slots := slots, gap := g, phase := p, seq := q, frame := index, time := tm, page := 5, inst := t
      body := body fl addr } ∈ (d.postBlock t index type slots flags block body).out := by
  have hposted : ∀ (e : Dev) (bd : List Fld) (tm : Nat), e.hif.rings = d.hif.rings → ∃ slot g p q, Out.record n slot {
      type := type, slots := slots, gap := g, phase := p, seq := q, frame := index, time := ltsForm tm, page := 5
      inst := t, body := bd } ∈ (e.post type slots index 5 t bd tm).out := fun e bd tm h =>
    Dev.post_record_as_given _ _ _ _ _ _ _ ((Dev.ringOf_congr h _).trans hn) ((Dev.fits_congr h _ _).trans hf)
  unfold Dev.postBlock
  simp only []
  split
  · obtain ⟨slot, g, p, q, h⟩ := hposted _ (body (flags + 32) 0) d.now (d.count_keeps _ 1 .rings (by decide))
    exact ⟨slot, g, p, q, _, _, _, h⟩
  · rename_i b _
    have hk : Keeps [.stu, .mem, .out] d ((d.takeStuBuf t).2.writeBuf b.dev b.a0 block) :=
      ((d.takeStuBuf_keeps t).mono (by simp)).trans ((Dev.writeBuf_keeps _ _ _ _).mono (by simp))
    obtain ⟨slot, g, p, q, h⟩ := hposted _ (body flags b.a0) _ (hk .rings (by decide))
    exact ⟨slot, g, p, q, _, _, _, Dev.finish_outGrows _ _ _ _ h⟩

end PostBlock

/-! ## FINAL (R227) -/

/-- The FINAL record of a raw unit. -/
theorem Dev.statsRecord_final {d : Dev} {n : Nat} (f : PipeFrame) (rows flags : Nat) (hn : d.ringOf 1 = some n)
    (hf : d.fits n 2 = true) :
    ∃ slot rc, Out.record n slot rc ∈ (d.statsRecord f 2 rows flags).out ∧ rc.type = 0x1001 ∧ rc.frame = f.index
      ∧ rc.page = 5 ∧ rc.inst = f.src ∧ (⟨37, 1, 2⟩ : Fld) ∈ rc.body := by
  unfold Dev.statsRecord
  simp only [true_or, if_true]
  obtain ⟨slot, g, p, q, fl, addr, tm, h⟩ := Dev.postBlock_record (type := 0x1001) f.src f.index _ _ _ hn hf
  exact ⟨slot, _, h, rfl, rfl, rfl, rfl, by simp [stuBody]⟩

theorem Dev.statsRecord_keeps (d : Dev) (f : PipeFrame) (rows flags : Nat) :
    Keeps byBlock d (d.statsRecord f 2 rows flags) := by
  unfold Dev.statsRecord
  simp only [true_or, if_true]
  exact Dev.postBlock_keeps _ _ _ _ _ _ _ _

theorem Dev.stuFlush_keeps (d : Dev) : Keeps (.stu :: byPost) d d.stuFlush :=
  ((d.stu_keeps _).mono (by simp)).trans
    (Keeps.foldl _ (fun e _ => (e.post_keeps _ _ _ _ _ _ _).mono (by simp)) _ _)

theorem Dev.stuFlush_outGrows (d : Dev) : d.OutGrows d.stuFlush :=
  ((d.stu_keeps _).outGrows (by decide)).trans (Dev.OutGrows.foldl _ (fun e _ => e.post_outGrows _ _ _ _ _ _ _) _ _)

theorem Dev.sweepFrames_keeps (d : Dev) : Keeps [.rfe] d d.sweepFrames := d.rfe_keeps _

theorem Dev.statsFinal_keeps (d : Dev) (f : PipeFrame) : Keeps (.rfe :: byBlock) d (d.statsFinal f) :=
  ((d.statsRecord_keeps f _ _).mono (by simp)).trans ((Dev.modFrame_keeps _ _ _ _).mono (by simp)) |>.trans
    ((Dev.stuFlush_keeps _).mono (by simp [byBlock, byPost])) |>.trans ((Dev.sweepFrames_keeps _).mono (by simp))

/-- What the FINAL record leaves has left after the frame is measured. -/
theorem Dev.statsFinal_outGrows (d : Dev) (f : PipeFrame) :
    (d.statsRecord f 2 f.stuRow (rawFlags f.short f.long f.fault)).OutGrows (d.statsFinal f) :=
  ((Dev.modFrame_keeps _ _ _ _).outGrows (by decide)).trans (Dev.stuFlush_outGrows _) |>.trans
    ((Dev.sweepFrames_keeps _).outGrows (by decide))

/-- The only frame is measured, where it stays at all. -/
theorem Dev.statsFinal_frames {d : Dev} {f : PipeFrame} (hf : d.rfe.frames = [f]) :
    ∀ g ∈ (d.statsFinal f).rfe.frames, g.stuDone = true := by
  have hrec : (d.statsRecord f 2 f.stuRow (rawFlags f.short f.long f.fault)).rfe = d.rfe :=
    d.statsRecord_keeps f _ _ .rfe (by decide)
  have hmod := Dev.modFrame_only (d := d.statsRecord f 2 f.stuRow (rawFlags f.short f.long f.fault))
    (by rw [hrec]; exact hf) fun g => { g with stuDone := true }
  intro g hg
  have hmem := (List.mem_filter.mp hg).1
  rw [Dev.stuFlush_keeps _ .rfe (by decide), hmod, List.mem_singleton] at hmem
  rw [hmem]

/-! ## STU_ROW_PROCESSED (R225) -/

section StuRow

variable {d : Dev} {src : Nat} {f : PipeFrame}
  (hf : d.rfe.frames = [f]) (hsrc : f.src = src) (hd : f.stuDone = false)
  (hen : ffld f (0x50000 + 0x40 * src) 0 0 = 1)

include hf hsrc hd hen

theorem Dev.find_stuFrame :
    d.rfe.frames.find? (fun f => f.src == src && !f.stuDone && stuOn f) = some f := by
  subst hsrc
  simp [hf, hd, stuOn, hen]

variable (he : d.engDown 0x20 27 = false)

include he

theorem Dev.stuRow_stays (hc : f.closed = false) (hrow : cbeRow f f.stuRow = false) : d.stuRow src = d := by
  simp only [Dev.stuRow, he, Dev.find_stuFrame hf hsrc hd hen]
  simp [rowsOver, hc, hrow]

theorem Dev.stuRow_measures (hc : f.closed = false) (hlt : f.stuRow < (fwin f).h) (hrow : cbeRow f f.stuRow = true)
    (hearly : ffld f (0x50000 + 0x40 * src) 1 1 = 0) :
    d.stuRow src = d.modFrame f.src f.index fun _ => d.rowMeasured f := by
  subst hsrc
  simp only [Dev.stuRow, he, Dev.find_stuFrame hf rfl hd hen]
  simp [rowsOver, Dev.rowMeasured, hc, hrow, hearly, Nat.not_le.mpr hlt]

theorem Dev.stuRow_ends (hc : f.closed = true) (hr : f.rfeDone = true) (hgot : rowsGot f ≤ f.stuRow) :
    d.stuRow src = d.statsFinal f := by
  simp only [Dev.stuRow, he, Dev.find_stuFrame hf hsrc hd hen]
  simp [rowsOver, hc, hr, hgot]

end StuRow

section StuEvents

variable {s : State} {src : Fin 5} {f : PipeFrame}
  (hi : s.dev.idleMode = true) (he : s.dev.engDown 0x20 27 = false) (hf : s.dev.rfe.frames = [f])
  (hsrc : f.src = src.val) (hd : f.stuDone = false) (hen : ffld f (0x50000 + 0x40 * src.val) 0 0 = 1)

include hi he hf hsrc hd hen

theorem stuRowProcessed_stays (hc : f.closed = false)
    (hrow : cbeRow f f.stuRow = false) : exec (.stuRowProcessed src) s = .next s :=
  event_none (by rw [exec, execStuRowProcessed]) hi (Dev.stuRow_stays hf hsrc hd hen he hc hrow)

theorem stuRowProcessed_measures (hc : f.closed = false) (hlt : f.stuRow < (fwin f).h)
    (hrow : cbeRow f f.stuRow = true) (hearly : ffld f (0x50000 + 0x40 * src.val) 1 1 = 0) :
    ∃ t g, exec (.stuRowProcessed src) s = .next t ∧ t.dev.rfe.frames = [g]
      ∧ g = { f with stuRow := f.stuRow + 1, clipped := g.clipped, ovf := g.ovf }
      ∧ t.dev.rfe.src = s.dev.rfe.src ∧ Keeps [.rfe] s.dev t.dev := by
  have hk := s.dev.modFrame_keeps f.src f.index fun _ => s.dev.rowMeasured f
  have hx := event_effect (i := .stuRowProcessed src) (by rw [exec, execStuRowProcessed]) hi
    (Dev.stuRow_measures hf hsrc hd hen he hc hlt hrow hearly) hk (by decide)
  exact ⟨_, s.dev.rowMeasured f, hx, Dev.modFrame_only hf _, rfl, rfl, hk⟩

theorem stuRowProcessed_ends {n : Nat} (hc : f.closed = true) (hr : f.rfeDone = true) (hgot : rowsGot f ≤ f.stuRow)
    (hring : s.dev.ringOf 1 = some n) (hfits : s.dev.fits n 2 = true) :
    ∃ t slot rc, exec (.stuRowProcessed src) s = .next t ∧ Out.record n slot rc ∈ t.dev.out ∧ rc.type = 0x1001
      ∧ rc.frame = f.index ∧ rc.page = 5 ∧ rc.inst = src.val ∧ (⟨37, 1, 2⟩ : Fld) ∈ rc.body
      ∧ (∀ g ∈ t.dev.rfe.frames, g.stuDone = true) := by
  have hx := event_effect (i := .stuRowProcessed src) (by rw [exec, execStuRowProcessed]) hi
    (Dev.stuRow_ends hf hsrc hd hen he hc hr hgot) (s.dev.statsFinal_keeps f) (by decide)
  obtain ⟨slot, rc, hrec, htype, hframe, hpage, hinst, hstate⟩ :=
    Dev.statsRecord_final f f.stuRow (rawFlags f.short f.long f.fault) hring hfits
  exact ⟨_, slot, rc, hx, s.dev.statsFinal_outGrows f hrec, htype, hframe, hpage, hinst.trans hsrc, hstate,
    Dev.statsFinal_frames hf⟩

end StuEvents

/-- Settles O35: a token or row whose rows are there moves the only frame on by one and writes no other site, one that
misses something does nothing, a frozen point holds a token, and a measured closed frame gets its FINAL record. -/
theorem pixelTokens : Obligations.PixelTokens := by
  unfold Obligations.PixelTokens
  refine ⟨fun s k f wy xs hi hf hd hk hs => ⟨spokeToken_stays hi hf hd hk hs, fun he hr hrow hh =>
      ⟨spokeToken_waits hi hf hd hk hs he hr hrow hh, spokeToken_moves hi hf hd hk hs he hr hrow hh⟩⟩,
    fun s k f wy xs hi hf hd hk hs => ⟨cbeToken_stays hi hf hd hk hs, cbeToken_moves hi hf hd hk hs⟩,
    fun s src f hi he hf hsrc hd hen => ⟨fun hc _ => stuRowProcessed_stays hi he hf hsrc hd hen hc,
      stuRowProcessed_measures hi he hf hsrc hd hen, fun n => stuRowProcessed_ends hi he hf hsrc hd hen⟩⟩

end Sys2Proof.Machine
end

section
/-! SUPPORT. CFA descriptions and demosaic banks: a load puts its block in its slot at once, a read writes the bank to
the host or to device memory (O34). -/

namespace Sys2Proof.Mem

/-- A run of bytes reads back as it was written. -/
theorem rdN_wrN_same (m : Mem) (a : Nat) (bs : List Byte) : rdN (wrN m a bs) a bs.length = bs := by
  induction bs generalizing m a with
  | nil => rfl
  | cons b t ih =>
    have hfirst : rd (wrN (wr m a b) (a + 1) t) a = b :=
      (rd_wrN_out _ _ _ (.inl (Nat.lt_succ_self a))).trans (rd_wr_same m a b)
    have hrest : rdN (wrN (wr m a b) (a + 1) t) (a + 1) t.length = t := ih (wr m a b) (a + 1)
    exact List.cons_eq_cons.mpr ⟨hfirst, hrest⟩

end Sys2Proof.Mem

namespace Sys2Proof.Machine

open Sys2Proof

/-! ## Checks that a clear command has passed -/

theorem off_eq_nil_iff {i b : Nat} {p : Bool} : off i b p = [] ↔ p = false := by
  cases p <;> simp [off]

/-- Only the loadable banks, from 8 up, are loaded (R205). -/
theorem Dev.clear_loadBank_slot {d : Dev} {r : CmdRef} {c : Cmd} (h : d.clear specCbeLoadBank r c = true) :
    8 ≤ c.f 4 3 0 := by
  obtain ⟨-, -, hoffs⟩ := Dev.clear_offs h
  simp only [specCbeLoadBank, List.append_eq_nil_iff, off_eq_nil_iff, Bool.or_eq_false_iff,
    decide_eq_false_iff_not] at hoffs
  obtain ⟨⟨-, hslot, -⟩, -⟩ := hoffs
  exact Nat.le_of_not_lt hslot

/-- Only a valid bank is read (R187). -/
theorem Dev.clear_readBank_valid {d : Dev} {r : CmdRef} {c : Cmd} (h : d.clear specCbeReadBank r c = true) :
    (d.bankKey (c.f 4 3 0)).isSome = true := by
  obtain ⟨-, -, hoffs⟩ := Dev.clear_offs h
  simp only [specCbeReadBank, List.append_eq_nil_iff, off_eq_nil_iff, Option.isNone_eq_false_iff] at hoffs
  obtain ⟨⟨-, hvalid⟩, -⟩ := hoffs
  exact hvalid

/-! ## The bytes of a bank (Table 6-4) -/

theorem Dev.bankBytes_loadable (d : Dev) {b : Nat} (h : 5 ≤ b) : d.bankBytes b = SMap.get [] d.cbe.banks b :=
  if_neg (Nat.not_lt.mpr h)

/-- A valid bank has bytes. -/
theorem Dev.bankBytes_ne_nil {d : Dev} {b : Nat} (h : (d.bankKey b).isSome = true) : d.bankBytes b ≠ [] := by
  obtain hb | hb := Nat.lt_or_ge b 5
  · simp [Dev.bankBytes, hb]
  · rw [d.bankBytes_loadable hb]
    intro hnil
    simp [Dev.bankKey, Nat.not_lt.mpr hb, hnil] at h

/-! ## A command without a block completes -/

/-- A clear command that completes on a state with a frame. -/
theorem cmd_completes {i : Instr} {sp : CmdSpec} {r : CmdRef} {c : Cmd} {s : State} {eff : Cmd → Dev → Dev} {e : Dev}
    {st res : Nat} {b : List Part} (hx : exec i s = lift (runCmd sp r eff) s) (hc : s.dev.clear sp r c = true)
    (he : eff c s.dev = e.finish r st res) (hk : Keeps b s.dev e) (hf : .fetch ∉ b) (hl : .link ∉ b) :
    exec i s = .next { s with dev := e.finish r st res } ∧ Answered s.dev (e.finish r st res) r st res := by
  have hall : Keeps (b ++ byDone) s.dev (e.finish r st res) :=
    (hk.mono (List.subset_append_left _ _)).trans ((e.finish_keeps r st res).mono (List.subset_append_right _ _))
  exact ⟨event_effect hx (Dev.clear_idle hc) ((runCmd_clear _ hc).trans he) hall (by simp [hl, byDone]),
    Dev.clear_answered_keeps st res hc hk hf⟩

/-! ## Writing a buffer -/

theorem Dev.writeBuf_host (d : Dev) (addr : Nat) {bytes : List Byte} (h : bytes ≠ []) :
    d.writeBuf false addr bytes = d.emit (.hostWrite addr bytes) := by
  simp [Dev.writeBuf, h]

theorem Dev.writeBuf_device (d : Dev) (addr : Nat) (bytes : List Byte) :
    (d.writeBuf true addr bytes).mem = { d.mem with lpddr := Mem.wrN d.mem.lpddr addr bytes }
      ∧ Keeps [.mem] d (d.writeBuf true addr bytes) := by
  refine ⟨rfl, fun p hp => ?_⟩
  cases p <;> simp_all [Part.same, Dev.writeBuf]

/-! ## The three commands

As for RFE_SET_PARAMS, `by exact hb` is matched only once `exec` has named the check of the block. -/

section BankCommands

variable {s : State} {r : CmdRef} {c : Cmd} {blk : List Byte}

/-- A clear command whose block has no offending byte and whose one effect is to give CBE the state `v`. -/
theorem blk_sets_cbe {i : Instr} {sp : CmdSpec} {addr : Nat} {offs : Dev → Cmd → List Nat} {eff : Cmd → Dev → Dev}
    {v : CbeB} (hx : exec i s = lift (runBlk sp addr offs r eff) s) (hc : s.dev.clear sp r c = true)
    (ho : offs s.dev c = []) (he : eff c s.dev = ({ s.dev with cbe := v }).finish r stSuccess 0) :
    ∃ t, exec i s = .next t ∧ t.pending = s.pending ∧ Answered s.dev t.dev r stSuccess 0 ∧ t.dev.cbe = v
      ∧ Keeps (.cbe :: byDone) s.dev t.dev := by
  obtain ⟨hnext, ha, hk⟩ := blk_completes hx hc ho he (Dev.cbe_keeps _ _) (by decide) (by decide)
  exact ⟨_, hnext, rfl, ha, by simp, hk⟩

/-- CBE_LOAD_CFA (R182, R205). -/
theorem cbeLoadCfa_loads (hc : s.dev.clear specCbeLoadCfa r c = true)
    (hb : cfaBad (s.dev.blockOf (c.b 4 8) (c.q 5) 36 blk) = []) (hoff : s.dev.cbeOff = false) :
    ∃ t, exec (.cbeLoadCfa r blk) s = .next t ∧ t.pending = s.pending ∧ Answered s.dev t.dev r stSuccess 0
      ∧ t.dev.cbe = { s.dev.cbe with
          cfa := SMap.put [] s.dev.cbe.cfa (c.f 4 3 0) (s.dev.blockOf (c.b 4 8) (c.q 5) 36 blk) }
      ∧ Keeps (.cbe :: byDone) s.dev t.dev :=
  blk_sets_cbe (by rw [exec, execCbeLoadCfa]) hc (by exact hb) (if_neg (ne_true_of_eq_false hoff))

/-- CBE_LOAD_BANK (R205). -/
theorem cbeLoadBank_loads (hc : s.dev.clear specCbeLoadBank r c = true)
    (hb : bankBad (s.dev.bankBlock c blk) = []) (hoff : s.dev.cbeOff = false) :
    ∃ t, exec (.cbeLoadBank r blk) s = .next t ∧ t.pending = s.pending ∧ Answered s.dev t.dev r stSuccess 0
      ∧ t.dev.cbe = { s.dev.cbe with banks := SMap.put [] s.dev.cbe.banks (c.f 4 3 0) (s.dev.bankBlock c blk) }
      ∧ Keeps (.cbe :: byDone) s.dev t.dev :=
  blk_sets_cbe (by rw [exec, execCbeLoadBank]) hc (by exact hb) (if_neg (ne_true_of_eq_false hoff))

/-- CBE_READ_BANK writes the bank to its buffer and completes (R187). -/
theorem cbeReadBank_writes (hc : s.dev.clear specCbeReadBank r c = true) (hoff : s.dev.cbeOff = false) :
    ∃ t, exec (.cbeReadBank r) s = .next t ∧ t.pending = s.pending ∧ Answered s.dev t.dev r stSuccess 0
      ∧ t.dev = (s.dev.writeBuf (c.b 4 8) (c.q 5) (s.dev.bankBytes (c.f 4 3 0))).finish r stSuccess 0 := by
  obtain ⟨hx, ha⟩ := cmd_completes (i := .cbeReadBank r) (by rw [exec, execCbeReadBank]) hc
    (if_neg (ne_true_of_eq_false hoff)) (Dev.writeBuf_keeps _ _ _ _) (by decide) (by decide)
  exact ⟨_, hx, rfl, ha, rfl⟩

end BankCommands

/-! ## A buffer that is written as its command completes -/

section WriteAndFinish

variable (d : Dev) (r : CmdRef) (st res addr : Nat) {bytes : List Byte}

theorem Dev.writeBuf_finish_host (h : bytes ≠ []) :
    Out.hostWrite addr bytes ∈ ((d.writeBuf false addr bytes).finish r st res).out
      ∧ Keeps byDone d ((d.writeBuf false addr bytes).finish r st res) := by
  rw [d.writeBuf_host addr h]
  have hleft : Out.hostWrite addr bytes ∈ (d.emit (.hostWrite addr bytes)).out := by simp [Dev.emit]
  exact ⟨Dev.finish_outGrows _ _ _ _ hleft,
    ((d.emit_keeps _).mono (by simp [byDone])).trans (Dev.finish_keeps _ _ _ _)⟩

theorem Dev.writeBuf_finish_device (bytes : List Byte) :
    ((d.writeBuf true addr bytes).finish r st res).mem = { d.mem with lpddr := Mem.wrN d.mem.lpddr addr bytes }
      ∧ Keeps (.mem :: byDone) d ((d.writeBuf true addr bytes).finish r st res) := by
  obtain ⟨hmem, hk⟩ := d.writeBuf_device addr bytes
  have hdone := (d.writeBuf true addr bytes).finish_keeps r st res
  have hsame : ((d.writeBuf true addr bytes).finish r st res).mem = (d.writeBuf true addr bytes).mem :=
    hdone .mem (by decide)
  exact ⟨hsame.trans hmem, (hk.mono (by simp)).trans (hdone.mono (by simp))⟩

end WriteAndFinish

/-- Settles O34: a load puts its block in its slot and leaves the other slots alone, and a read of a valid bank writes its
bytes to the host, or to device memory at its address and nowhere else. -/
theorem banksAndDescriptions : Obligations.BanksAndDescriptions := by
  unfold Obligations.BanksAndDescriptions
  refine ⟨fun s r c blk hoff => ⟨fun hc hb => ?_, fun hc hb => ?_⟩, fun s r c hc hoff => ?_⟩
  · obtain ⟨t, hx, hpend, ha, hcbe, hk⟩ := cbeLoadCfa_loads hc hb hoff
    refine ⟨t, hx, hpend, ha, ?_⟩
    rw [hcbe]
    exact ⟨SMap.get_put_same _ _ _ _, fun k hne => SMap.get_put_ne _ _ _ hne, rfl, hk⟩
  · obtain ⟨t, hx, hpend, ha, hcbe, hk⟩ := cbeLoadBank_loads hc hb hoff
    have hslot := Dev.clear_loadBank_slot hc
    refine ⟨t, hx, hpend, ha, ?_⟩
    rw [t.dev.bankBytes_loadable (by omega), hcbe]
    exact ⟨SMap.get_put_same _ _ _ _, SMap.get_put_same _ _ _ _, fun k hne => SMap.get_put_ne _ _ _ hne, rfl, hk⟩
  · obtain ⟨t, hx, hpend, ha, hdev⟩ := cbeReadBank_writes hc hoff
    refine ⟨t, hx, hpend, ha, fun hhost => ?_, fun hdevice => ?_⟩
    · rw [hdev, hhost]
      exact s.dev.writeBuf_finish_host r stSuccess 0 _ (Dev.bankBytes_ne_nil (Dev.clear_readBank_valid hc))
    · rw [hdevice] at hdev
      obtain ⟨hmem, hk⟩ := s.dev.writeBuf_finish_device r stSuccess 0 (c.q 5) (s.dev.bankBytes (c.f 4 3 0))
      rw [hdev, hmem]
      exact ⟨Mem.rdN_wrN_same _ _ _, fun a ha => Mem.rd_wrN_out _ _ _ ha, rfl, hk⟩

end Sys2Proof.Machine
end

section
/-! SUPPORT. Rules of the sprockets: a sprocket just written, commands that begin or complete there, the latch of a set,
and a stop with nothing queued (O36, O37). -/

namespace Sys2Proof.SMap

/-- A run of writes to distinct places: each of them reads as it was written. -/
theorem get_foldl_put_mem {α : Type} [DecidableEq α] (z : α) {key : Nat → Nat} (hkey : key.Injective)
    (v : Nat → α) {i : Nat} {xs : List Nat} (m : SMap α) (hi : i ∈ xs) :
    get z (xs.foldl (fun m x => put z m (key x) (v x)) m) (key i) = v i := by
  induction xs generalizing m with
  | nil => simp at hi
  | cons x xs ih =>
    by_cases hin : i ∈ xs
    · exact ih _ hin
    · obtain rfl | h := List.mem_cons.mp hi
      · exact (get_foldl_put_ne z key v xs _ fun x hx h => hin (by rwa [hkey h])).trans (get_put_same _ _ _ _)
      · exact absurd h hin

end Sys2Proof.SMap

namespace Sys2Proof.Machine

open Sys2Proof

/-! ## A sprocket and its neighbours -/

theorem Keeps.spkOf {b : List Part} {d e : Dev} (h : Keeps b d e) (hb : .spk ∉ b) (n : Nat) :
    e.spkOf n = d.spkOf n := by
  have hspk : e.spk = d.spk := h .spk hb
  unfold Dev.spkOf
  rw [hspk]

section Places

variable (d : Dev) (n : Nat)

theorem Dev.setSpk_keeps (v : Spk) : Keeps [.spk] d (d.setSpk n v) := d.modSpk_keeps n fun _ => v

@[simp] theorem Dev.modSpk_spkOf (f : Spk → Spk) : (d.modSpk n f).spkOf n = f (d.spkOf n) := Dev.setSpk_spkOf _ _ _

theorem Dev.modSpk_spkOf_ne (f : Spk → Spk) {m : Nat} (h : m ≠ n) : (d.modSpk n f).spkOf m = d.spkOf m :=
  Dev.setSpk_spkOf_ne _ _ _ h

theorem Dev.begin_spkOf (r : CmdRef) : (d.begin r).spkOf n = d.spkOf n := rfl

theorem Dev.finish_spkOf (r : CmdRef) (st res : Nat) : (d.finish r st res).spkOf n = d.spkOf n :=
  (d.finish_keeps r st res).spkOf (by decide) n

end Places

theorem Dev.engOff_of_not_down {d : Dev} {code island : Nat} (h : d.engDown code island = false) :
    d.engOff code island = false := (Bool.or_eq_false_iff.mp h).2

/-! ## Commands at a sprocket -/

section Commands

variable {i : Instr} {sp : CmdSpec} {addr : Nat} {offs : Dev → Cmd → List Nat} {r : CmdRef} {c : Cmd} {s : State}
  {eff : Cmd → Dev → Dev} {n : Nat} {g : Spk → Spk} {st res : Nat}

/-- A command without a block is one whose block has no byte to offend. -/
theorem runCmd_eq_runBlk (sp : CmdSpec) (r : CmdRef) (eff : Cmd → Dev → Dev) :
    runCmd sp r eff = runBlk sp 0 (fun _ _ => []) r eff := rfl

/-- A command that begins and waits at its sprocket, which `g` changes. -/
theorem spkBlk_begins (hx : exec i s = lift (runBlk sp addr offs r eff) s) (hc : s.dev.clear sp r c = true)
    (ho : offs s.dev c = []) (he : eff c s.dev = (s.dev.begin r).modSpk n g) :
    ∃ t, exec i s = .next t ∧ t.pending = s.pending ∧ Begun s.dev t.dev r c ∧ t.dev.spkOf n = g (s.dev.spkOf n)
      ∧ (∀ m, m ≠ n → t.dev.spkOf m = s.dev.spkOf m) ∧ Keeps [.spk, .fetch] s.dev t.dev := by
  obtain ⟨hnext, hbegun, hk⟩ := blk_begins hx hc ho he (Dev.modSpk_keeps _ _ _) (by decide) (by decide) (by decide)
  exact ⟨_, hnext, rfl, hbegun, Dev.modSpk_spkOf _ _ _, fun m hm => Dev.modSpk_spkOf_ne _ _ _ hm, hk⟩

theorem spkCmd_begins (hx : exec i s = lift (runCmd sp r eff) s) (hc : s.dev.clear sp r c = true)
    (he : eff c s.dev = (s.dev.begin r).modSpk n g) :
    ∃ t, exec i s = .next t ∧ t.pending = s.pending ∧ Begun s.dev t.dev r c ∧ t.dev.spkOf n = g (s.dev.spkOf n)
      ∧ (∀ m, m ≠ n → t.dev.spkOf m = s.dev.spkOf m) ∧ Keeps [.spk, .fetch] s.dev t.dev :=
  spkBlk_begins (runCmd_eq_runBlk sp r eff ▸ hx) hc rfl he

/-- A command without a block that finds no room does not begin. -/
theorem spkCmd_waits (hx : exec i s = lift (runCmd sp r eff) s) (hc : s.dev.clear sp r c = true)
    (he : eff c s.dev = s.dev) : exec i s = .next s :=
  blk_waits (runCmd_eq_runBlk sp r eff ▸ hx) hc rfl he

/-- A command that completes at once and leaves the block otherwise as it was. -/
theorem spkCmd_answers (hx : exec i s = lift (runCmd sp r eff) s) (hc : s.dev.clear sp r c = true)
    (he : eff c s.dev = s.dev.finish r st res) :
    ∃ t, exec i s = .next t ∧ Answered s.dev t.dev r st res ∧ Keeps byDone s.dev t.dev :=
  ⟨_, blk_completes (runCmd_eq_runBlk sp r eff ▸ hx) hc rfl he (.refl [] _) (by decide) (by decide)⟩

/-- A command that completes at once after `g` has changed its sprocket. -/
theorem spkCmd_changes (hx : exec i s = lift (runCmd sp r eff) s) (hc : s.dev.clear sp r c = true)
    (he : eff c s.dev = (s.dev.modSpk n g).finish r st res) :
    ∃ t, exec i s = .next t ∧ t.pending = s.pending ∧ Answered s.dev t.dev r st res
      ∧ t.dev.spkOf n = g (s.dev.spkOf n) ∧ (∀ m, m ≠ n → t.dev.spkOf m = s.dev.spkOf m)
      ∧ Keeps (.spk :: byDone) s.dev t.dev := by
  obtain ⟨hnext, ha, hk⟩ := blk_completes (runCmd_eq_runBlk sp r eff ▸ hx) hc rfl he (Dev.modSpk_keeps _ _ _)
    (by decide) (by decide)
  exact ⟨_, hnext, rfl, ha, (Dev.finish_spkOf _ _ _ _ _).trans (Dev.modSpk_spkOf _ _ _),
    fun m hm => (Dev.finish_spkOf _ _ _ _ _).trans (Dev.modSpk_spkOf_ne _ _ _ hm), hk⟩

end Commands

/-! ## SPK_START (R221) -/

section Start

variable {s : State} {r : CmdRef} {c : Cmd}

theorem exec_spkStart : exec (.spkStart r) s = lift (runCmd specSpkStart r (spkStart r)) s := by
  rw [exec, execSpkStart]

theorem spkStart_off {d : Dev} (h : d.engOff (0x18 + c.f 4 2 0) (19 + c.f 4 2 0) = true) :
    spkStart r c d = d.finish r stEngineDown 0 := if_pos h

variable {d : Dev} (hup : d.engDown (0x18 + c.f 4 2 0) (19 + c.f 4 2 0) = false)

include hup

theorem spkStart_bad (he : d.spkErr (c.f 4 2 0) (d.spkRegs (c.f 4 2 0)) c.handle ≠ 0) :
    spkStart r c d = (d.modSpk (c.f 4 2 0) fun v => { v with
      cfgErr := d.spkErr (c.f 4 2 0) (d.spkRegs (c.f 4 2 0)) c.handle }).finish r stInvalidField 4 := by
  simp only [spkStart, Dev.engOff_of_not_down hup, hup, Bool.false_eq_true, if_false]
  rfl

variable (he : d.spkErr (c.f 4 2 0) (d.spkRegs (c.f 4 2 0)) c.handle = 0)

include he

theorem spkStart_unlinked (hdest : (d.spkRegs (c.f 4 2 0)).dest = 4)
    (hlink : d.ethLink (d.spkRegs (c.f 4 2 0)).destId = false) : spkStart r c d = d.finish r stLinkDown 0 := by
  simp [spkStart, Dev.engOff_of_not_down hup, hup, he, hdest, hlink]

theorem spkStart_runs (hlink : (d.spkRegs (c.f 4 2 0)).dest = 4 → d.ethLink (d.spkRegs (c.f 4 2 0)).destId = true) :
    spkStart r c d = (d.spkRun (c.f 4 2 0) (d.spkRegs (c.f 4 2 0)) c.handle (d.spkLatch (c.f 4 2 0))).finish r stSuccess
      (d.spkFirst (c.f 4 2 0) (d.spkRegs (c.f 4 2 0))) := by
  have hok : ¬ ((d.spkRegs (c.f 4 2 0)).dest = 4 ∧ (!d.ethLink (d.spkRegs (c.f 4 2 0)).destId) = true) := by
    rintro ⟨hdest, hdown⟩
    simp [hlink hdest] at hdown
  simp only [spkStart, Dev.engOff_of_not_down hup, hup, he, hok, Bool.false_eq_true, if_false]

end Start

/-- SPK_START latches the twelve registers of the sprocket. -/
theorem Dev.spkLatch_get (d : Dev) (n : Nat) {i : Nat} (hi : i < 12) :
    (SMap.get 0 (d.spkLatch n) (4 * i)).toNat = d.reg (0x41000 + 0x100 * n + 4 * i) % 4294967296 := by
  have hget := SMap.get_foldl_put_mem (0 : Word) (key := fun i => 4 * i)
    (fun _ _ h => Nat.eq_of_mul_eq_mul_left (by decide) h)
    (fun i => BitVec.ofNat 32 (d.reg (0x41000 + 0x100 * n + 4 * i))) []
    ((mem_rangeFrom (n := 12)).mpr ⟨Nat.zero_le i, by omega⟩)
  unfold Dev.spkLatch
  rw [hget, BitVec.toNat_ofNat]

/-! ## SPK_STOP (R223) -/

/-- The sprocket at rest: what it latched, took and queued is gone. -/
def restedSpk (v : Spk) : Spk := { v with
  state := .stopped, stopping := false, stopRef := none, bufs := [], submits := [], restarts := [], applied := []
  arrivals := [], cur := none, latched := [], paceDue := false, held := false, shed := false, shedNow := false }

/-- SPK0 is no longer the pilot's (R59). -/
def Dev.unpilot (d : Dev) (n : Nat) : Dev := if n = 0 then { d with boot := { d.boot with pilot := none } } else d

/-- What a stop with nothing queued leaves, but for its completion. -/
def Dev.spkRested (d : Dev) (n : Nat) : Dev := ((d.modSpk n restedSpk).unpilot n).sweepFrames

section Stop

variable {s : State} {r : CmdRef} {c : Cmd} {d : Dev} {n : Nat}

theorem exec_spkStop : exec (.spkStop r) s = lift (runCmd specSpkStop r fun c d =>
    (d.begin r).spkStop (c.f 4 2 0) (c.b 4 8) (some r)) s := by
  rw [exec, execSpkStop]

theorem Dev.unpilot_keeps (d : Dev) (n : Nat) : Keeps [.boot] d (d.unpilot n) :=
  (Keeps.refl _ d).ifThen (d.boot_keeps _)

theorem Dev.unpilot_boot (d : Dev) (n : Nat) :
    (d.unpilot n).boot = { d.boot with pilot := if n = 0 then none else d.boot.pilot } := by
  unfold Dev.unpilot
  split <;> rfl

theorem Dev.spkRested_keeps (d : Dev) (n : Nat) : Keeps [.spk, .boot, .rfe] d (d.spkRested n) :=
  ((d.modSpk_keeps n _).mono (by simp)).trans ((Dev.unpilot_keeps _ n).mono (by simp)) |>.trans
    ((Dev.sweepFrames_keeps _).mono (by simp))

theorem Dev.spkHalt_nothing (hb : (d.spkOf n).bufs = []) (hs : (d.spkOf n).submits = [])
    (hr : (d.spkOf n).restarts = []) (ha : (d.spkOf n).applied = []) (href : (d.spkOf n).stopRef = some r) :
    d.spkHalt n = (d.spkRested n).finish r stSuccess ((d.spkOf n).lastDone.getD ones64) := by
  simp only [Dev.spkHalt, hb, hs, hr, ha, href]
  rfl

/-- A begun command completes as a fetched one does. -/
theorem Dev.clear_answered_begun {e : Dev} {sp : CmdSpec} {b : List Part} (st res : Nat) (h : d.clear sp r c = true)
    (hk : Keeps b (d.begin r) e) (hf : .fetch ∉ b) : Answered d (e.finish r st res) r st res := by
  obtain ⟨-, -, ho, hr, -, hfail, hl, hn⟩ := Dev.clear_iff.mp h
  obtain ⟨hqueues, hcmds, hops, -⟩ := hk .fetch hf
  have hq : e.qp r.qid = d.qp r.qid := by unfold Dev.qp; rw [hqueues]; rfl
  have hc : e.cmd? r = some { c with begun := true } := by
    unfold Dev.cmd?; rw [hcmds]; exact Dev.begin_cmd (Dev.ready_cmd hr)
  have := Dev.finish_answered (d := e) st res hc hfail (by rw [hq]; exact hl) (by rw [hq]; exact hn)
    (hops.trans ho)
  unfold Answered at *
  rwa [hq] at this

theorem Dev.spkRested_spkOf (d : Dev) (n : Nat) : (d.spkRested n).spkOf n = restedSpk (d.spkOf n) :=
  ((Dev.sweepFrames_keeps _).spkOf (by decide) n).trans
    (((Dev.unpilot_keeps _ n).spkOf (by decide) n).trans (d.modSpk_spkOf n _))

theorem Dev.spkRested_spkOf_ne (d : Dev) (n : Nat) {m : Nat} (h : m ≠ n) : (d.spkRested n).spkOf m = d.spkOf m :=
  ((Dev.sweepFrames_keeps _).spkOf (by decide) m).trans
    (((Dev.unpilot_keeps _ n).spkOf (by decide) m).trans (d.modSpk_spkOf_ne n _ h))

theorem Dev.spkRested_boot (d : Dev) (n : Nat) :
    (d.spkRested n).boot = { d.boot with pilot := if n = 0 then none else d.boot.pilot } :=
  (Dev.sweepFrames_keeps _ .boot (by decide)).trans (Dev.unpilot_boot _ n)

/-- The sprocket stops: this is all that happens while it has a frame in hand and NOW is 0. -/
def Dev.spkStopping (d : Dev) (n : Nat) (ref : Option CmdRef) : Dev :=
  d.modSpk n fun v => { v with stopping := true, stopRef := ref }

theorem Dev.spkStop_waits {ref : Option CmdRef} (h : (d.spkOf n).cur.isSome = true) :
    d.spkStop n false ref = d.spkStopping n ref := by
  simp [Dev.spkStop, Dev.spkStopping, ← Option.not_isSome, h]

theorem Dev.spkStop_nothing (now : Bool) (hcur : (d.spkOf n).cur = none) (hb : (d.spkOf n).bufs = [])
    (hs : (d.spkOf n).submits = []) (hr : (d.spkOf n).restarts = []) (ha : (d.spkOf n).applied = []) :
    d.spkStop n now (some r)
      = ((d.spkStopping n (some r)).spkRested n).finish r stSuccess ((d.spkOf n).lastDone.getD ones64) := by
  have hspk : (d.spkStopping n (some r)).spkOf n = { d.spkOf n with stopping := true, stopRef := some r } :=
    Dev.modSpk_spkOf _ _ _
  have hstop : d.spkStop n now (some r) = (d.spkStopping n (some r)).spkHalt n := by
    simp [Dev.spkStop, Dev.spkStopping, hcur]
  rw [hstop, Dev.spkHalt_nothing (r := r) (by rw [hspk]; exact hb) (by rw [hspk]; exact hs) (by rw [hspk]; exact hr)
    (by rw [hspk]; exact ha) (by rw [hspk]), hspk]

end Stop

section StopEvent

variable {s : State} {r : CmdRef} {c : Cmd} {n : Nat}

/-- What SPK_STOP leaves, but for its completion, where nothing is queued. -/
def Dev.spkStopLeaves (d : Dev) (r : CmdRef) (n : Nat) : Dev := ((d.begin r).spkStopping n (some r)).spkRested n

theorem Dev.spkStopLeaves_keeps (d : Dev) (r : CmdRef) (n : Nat) :
    Keeps [.spk, .boot, .rfe] (d.begin r) (d.spkStopLeaves r n) :=
  ((Dev.modSpk_keeps _ _ _).mono (by simp)).trans (Dev.spkRested_keeps _ _)

theorem spkStop_stops (hc : s.dev.clear specSpkStop r c = true) (hn : n = c.f 4 2 0)
    (hcur : (s.dev.spkOf n).cur = none) (hb : (s.dev.spkOf n).bufs = []) (hs : (s.dev.spkOf n).submits = [])
    (hr : (s.dev.spkOf n).restarts = []) (ha : (s.dev.spkOf n).applied = []) :
    ∃ t, exec (.spkStop r) s = .next t ∧ t.pending = s.pending
      ∧ Answered s.dev t.dev r stSuccess ((s.dev.spkOf n).lastDone.getD ones64)
      ∧ (t.dev.spkOf n).state = .stopped ∧ (t.dev.spkOf n).stopping = false ∧ (t.dev.spkOf n).latched = []
      ∧ (∀ m, m ≠ n → t.dev.spkOf m = s.dev.spkOf m)
      ∧ t.dev.boot = { s.dev.boot with pilot := if n = 0 then none else s.dev.boot.pilot }
      ∧ Keeps (.spk :: .rfe :: .boot :: byDone) s.dev t.dev := by
  subst hn
  generalize hres : (s.dev.spkOf (c.f 4 2 0)).lastDone.getD ones64 = res
  have he : (s.dev.begin r).spkStop (c.f 4 2 0) (c.b 4 8) (some r)
      = (s.dev.spkStopLeaves r (c.f 4 2 0)).finish r stSuccess res :=
    hres ▸ Dev.spkStop_nothing (c.b 4 8) hcur hb hs hr ha
  have hleaves := s.dev.spkStopLeaves_keeps r (c.f 4 2 0)
  have hdone := (s.dev.spkStopLeaves r (c.f 4 2 0)).finish_keeps r stSuccess res
  have hk : Keeps (.spk :: .rfe :: .boot :: byDone) s.dev
      ((s.dev.spkStopLeaves r (c.f 4 2 0)).finish r stSuccess res) :=
    ((s.dev.begin_keeps r).mono (by simp [byDone])).trans (hleaves.mono (by simp)) |>.trans
      (hdone.mono (by simp [byDone]))
  have hspk : ∀ m, ((s.dev.spkStopLeaves r (c.f 4 2 0)).finish r stSuccess res).spkOf m
      = (s.dev.spkStopLeaves r (c.f 4 2 0)).spkOf m := hdone.spkOf (by decide)
  have hrest := (hspk (c.f 4 2 0)).trans (Dev.spkRested_spkOf _ _)
  refine ⟨_, event_effect exec_spkStop (Dev.clear_idle hc) ((runCmd_clear _ hc).trans he) hk (by decide), rfl,
    Dev.clear_answered_begun _ _ hc hleaves (by decide), by rw [hrest]; rfl, by rw [hrest]; rfl, by rw [hrest]; rfl,
    fun m hm => ?_, ?_, hk⟩
  · exact (hspk m).trans ((Dev.spkRested_spkOf_ne _ _ hm).trans (Dev.modSpk_spkOf_ne _ _ _ hm))
  · exact (hdone .boot (by decide)).trans (Dev.spkRested_boot _ _)

end StopEvent

/-- Settles O36: SPK_START ends in one of four ways by its engine, its checks and its port's link, and SPK_STOP at once
or with the frame in hand. -/
theorem sprocketsStartAndStop : Obligations.SprocketsStartAndStop := by
  unfold Obligations.SprocketsStartAndStop
  refine ⟨fun s r c n k hc hn hk => ?_, fun s r c n hc hn => ⟨spkStop_stops hc hn, fun hcur hnow => ?_⟩⟩
  · subst hn hk
    refine ⟨fun hoff => spkCmd_answers exec_spkStart hc (spkStart_off hoff), fun hup he => ?_,
      fun hup he hdest hlink => spkCmd_answers exec_spkStart hc (spkStart_unlinked hup he hdest hlink),
      fun hup he hlink => ?_⟩
    · obtain ⟨t, hx, -, h⟩ := spkCmd_changes exec_spkStart hc (spkStart_bad hup he)
      exact ⟨t, hx, h⟩
    · obtain ⟨t, hx, hpend, ha, hspk, hother, hkeeps⟩ := spkCmd_changes exec_spkStart hc
        (spkStart_runs hup he hlink)
      refine ⟨t, hx, hpend, ha, hspk, fun i hi => ?_, hother, hkeeps⟩
      rw [hspk]
      exact s.dev.spkLatch_get _ hi
  · subst hn
    obtain ⟨t, hx, hpend, h⟩ := spkCmd_begins exec_spkStop hc (by rw [hnow]; exact Dev.spkStop_waits hcur)
    exact ⟨t, hx, hpend, h⟩

end Sys2Proof.Machine
end

section
/-! SUPPORT. The queues of a sprocket: what a command adds at the end of one, and where it finds no room (O37). -/

namespace Sys2Proof.Machine

open Sys2Proof

/-! ## An engine that is not off, with room in the queue and without

Each command but SPK_RESTART asks first whether the engine is off and then whether its queue has room. -/

section Room

variable {off room : Prop} [Decidable off] [Decidable room] {down queued full : Dev}

theorem queue_of_room (hoff : ¬ off) (hroom : room) : (if off then down else if room then queued else full) = queued :=
  (if_neg hoff).trans (if_pos hroom)

theorem queue_of_full (hoff : ¬ off) (hfull : ¬ room) : (if off then down else if room then queued else full) = full :=
  (if_neg hoff).trans (if_neg hfull)

end Room

/-- All ones give a submitted frame no index of its own (R209). -/
theorem submitOf_index_eq_some_iff {c : Cmd} {i : Nat} :
    (submitOf c).index = some i ↔ c.q 9 ≠ ones64 ∧ i = c.q 9 := by
  by_cases hq : c.q 9 = ones64 <;> simp [submitOf, hq, eq_comm]

/-- Settles O37: a command whose queue has room begins and joins its end, and one whose queue is full does not begin.
As for RFE_SET_PARAMS, `by exact hb` is matched only once `exec` has named the check of the block. -/
theorem sprocketQueues : Obligations.SprocketQueues := by
  unfold Obligations.SprocketQueues
  intro s r c blk n hn
  subst hn
  refine ⟨fun hc hb => ?restart, fun hoff => ?queues⟩
  case restart =>
    exact spkBlk_begins (g := fun v => { v with restarts := v.restarts ++ [_] }) (by rw [exec, execSpkRestart]) hc
      (by exact hb) rfl
  case queues =>
    have hup := ne_true_of_eq_false hoff
    refine ⟨fun hc hb => ⟨fun hfull => ?pathFull, fun hroom => ?path⟩, fun hc hb hroom => ?load,
      fun hc => ⟨fun hfull => ?bufferFull, fun hroom => ?buffer⟩,
      fun hc => ⟨fun hfull => ?frameFull, fun hroom => ?frame⟩⟩
    case pathFull =>
      exact blk_waits (by rw [exec, execSpkSetPath]) hc (by exact hb) (queue_of_full hup (Nat.not_lt.mpr hfull))
    case path =>
      exact spkBlk_begins (g := fun v => { v with paths := v.paths ++ [_] }) (by rw [exec, execSpkSetPath]) hc
        (by exact hb) (queue_of_room hup hroom)
    case load =>
      exact spkBlk_begins (g := fun v => { v with loads := v.loads ++ [_] }) (by rw [exec, execSpkLoadLut]) hc
        (by exact hb) (queue_of_room hup hroom)
    case bufferFull => exact spkCmd_waits (by rw [exec, execSpkBuffer]) hc (queue_of_full hup (Nat.not_lt.mpr hfull))
    case buffer =>
      exact spkCmd_begins (g := fun v => { v with bufs := v.bufs ++ [_] }) (by rw [exec, execSpkBuffer]) hc
        (queue_of_room hup hroom)
    case frameFull => exact spkCmd_waits (by rw [exec, execSpkSubmitFrame]) hc (queue_of_full hup (Nat.not_lt.mpr hfull))
    case frame =>
      obtain ⟨t, hx, hpend, hbegun, hspk, h⟩ := spkCmd_begins (i := .spkSubmitFrame r)
        (g := fun v => { v with submits := v.submits ++ [submitOf c] }) (by rw [exec, execSpkSubmitFrame]) hc
        (queue_of_room hup hroom)
      exact ⟨t, submitOf c, hx, hpend, hbegun, hspk, rfl, rfl, rfl, rfl, rfl, rfl,
        fun i => submitOf_index_eq_some_iff, h⟩

end Sys2Proof.Machine
end

section
/-! SUPPORT. A frame start at a sprocket: the frame taken, what binds with it, and what becomes of it (O38). -/

namespace Sys2Proof.Machine

open Sys2Proof

/-! ## What the settings and the links depend on -/

theorem Dev.skc_congr {d e : Dev} {n : Nat} (h : (e.spkOf n).latched = (d.spkOf n).latched) : e.skc n = d.skc n := by
  unfold Dev.skc
  rw [h]

theorem Keeps.ethLink {b : List Part} {d e : Dev} (h : Keeps b d e) (hb : .ntu ∉ b) (p : Nat) :
    e.ethLink p = d.ethLink p := by
  have hntu : e.ntu = d.ntu := h .ntu hb
  unfold Dev.ethLink Dev.eth
  rw [hntu]

/-- The counters of a sprocket, one after the other (Table 7-5). -/
theorem spkCtr_eq (n i : Nat) : spkCtr n i = 0x41060 + 4 * i + 0x100 * n := by
  unfold spkCtr
  omega

/-! ## The next frame of the source (R209) -/

section Take

variable {d : Dev} {n : Nat} {f : SpkFrame} {v : Spk}

/-- Taking a frame changes what the sprocket counts and queues of its source, and nothing else of it. -/
theorem Dev.spkTake_takes (h : d.spkTake n = some (f, v)) : ∃ from' pace mem subs arr, v = { d.spkOf n with
    fromIndex := from', paceDue := pace, memIndex := mem, submits := subs, arrivals := arr } := by
  unfold Dev.spkTake at h
  simp only [] at h
  split at h
  · obtain ⟨g, -, hg⟩ := Option.map_eq_some_iff.mp h
    obtain ⟨-, rfl⟩ := Prod.mk.inj hg
    exact ⟨_, _, _, _, _, rfl⟩
  · split at h
    · exact absurd h (by simp)
    · split at h
      · exact absurd h (by simp)
      · split at h
        · exact absurd h (by simp)
        · obtain ⟨-, rfl⟩ := Prod.mk.inj (Option.some.inj h)
          exact ⟨_, _, _, _, _, rfl⟩
  · split at h
    · exact absurd h (by simp)
    · split at h
      · exact absurd h (by simp)
      · obtain ⟨-, rfl⟩ := Prod.mk.inj (Option.some.inj h)
        exact ⟨_, _, _, _, _, rfl⟩
  · split at h
    · exact absurd h (by simp)
    · obtain ⟨-, rfl⟩ := Prod.mk.inj (Option.some.inj h)
      exact ⟨_, _, _, _, _, rfl⟩

/-- A memory frame that decimation keeps waits for a posted buffer. -/
theorem Dev.spkTake_memory {m : Submit} {ms : List Submit} (hkind : (d.skc n).kind = 2) (hdest : (d.skc n).dest < 2)
    (hmn : (d.skc n).m = (d.skc n).n) (hpos : 0 < (d.skc n).n) (hsub : (d.spkOf n).submits = m :: ms)
    (hbufs : (d.spkOf n).bufs = []) : d.spkTake n = none := by
  have hkept : ∀ i, keptFrame (d.skc n) i = true := fun i => by simp [keptFrame, hmn, hpos]
  have hfull : d.spkAccepts n = false := by simp [Dev.spkAccepts, hdest, hbufs]
  simp [Dev.spkTake, hkind, hsub, hkept, hfull]

/-! ## What takes effect with it (R221, R222) -/

theorem Dev.spkRestarts_nothing (h : (d.spkOf n).restarts = []) : d.spkRestarts n = d := by
  simp [Dev.spkRestarts, h]

/-- Without a pending path or table nothing binds; the tables are written again as they are. -/
theorem Dev.bindSpk_nothing (i : Nat) (hp : (d.spkOf n).paths = []) (hl : (d.spkOf n).loads = []) :
    ∃ luts, d.bindSpk n i = d.setSpk n { d.spkOf n with luts := luts } := by
  unfold Dev.bindSpk
  generalize d.spkOf n = w at *
  cases w
  subst hp hl
  exact ⟨_, rfl⟩

theorem Dev.spkApplied_nothing (i : Nat) (ha : (d.spkOf n).applied = []) :
    d.spkApplied n i = d.setSpk n (d.spkOf n) := by
  unfold Dev.spkApplied Dev.modSpk
  generalize d.spkOf n = w at *
  cases w
  subst ha
  rfl

/-- The sprocket has taken frame `f`, which made it `v`, and what waits for the frame has taken effect. -/
def Dev.spkEnter (d : Dev) (n : Nat) (f : SpkFrame) (v : Spk) : Dev :=
  let e := d.setSpk n { v with shedNow := v.shed }
  (if d.spkDown n then e else e.bindSpk n f.index).spkApplied n f.index

/-- What becomes of the frame taken: passed, dropped, or begun. -/
def Dev.spkPass (d : Dev) (n : Nat) (f : SpkFrame) (down : Bool) : Dev :=
  if !keptFrame (d.skc n) f.index then (d.submitDone f stSuccess f.index).sweepFrames
  else if (d.spkOf n).shedNow then d.spkDrop n f 1
  else if down then d.spkDrop n f 2
  else d.spkBegin n f

/-- An idle running sprocket with nothing pending, whose source has frame `f`, not a memory frame; `v` is the sprocket
after taking it. -/
structure Dev.SpkStarts (d : Dev) (n : Nat) (f : SpkFrame) (v : Spk) : Prop where
  running : (d.spkOf n).state = .running
  going : (d.spkOf n).stopping = false
  idle : (d.spkOf n).cur = none
  noPath : (d.spkOf n).paths = []
  noLoad : (d.spkOf n).loads = []
  noRestart : (d.spkOf n).restarts = []
  noApplied : (d.spkOf n).applied = []
  take : d.spkTake n = some (f, v)
  notMemory : ∀ m, f.input ≠ .memory m

/-- The sprocket after the frame has been taken. -/
theorem Dev.SpkStarts.entered (h : d.SpkStarts n f v) :
    (∃ luts, (d.spkEnter n f v).spkOf n = { v with shedNow := v.shed, luts := luts })
      ∧ Keeps [.spk] d (d.spkEnter n f v) := by
  obtain ⟨_, _, _, _, _, hv⟩ := Dev.spkTake_takes h.take
  have hpaths : v.paths = [] := by rw [hv]; exact h.noPath
  have hloads : v.loads = [] := by rw [hv]; exact h.noLoad
  have happlied : v.applied = [] := by rw [hv]; exact h.noApplied
  have hset : (d.setSpk n { v with shedNow := v.shed }).spkOf n = { v with shedNow := v.shed } := Dev.setSpk_spkOf _ _ _
  have hkset := d.setSpk_keeps n { v with shedNow := v.shed }
  unfold Dev.spkEnter
  simp only []
  split
  · rw [Dev.spkApplied_nothing f.index (by rw [hset]; exact happlied), hset]
    exact ⟨⟨v.luts, Dev.setSpk_spkOf _ _ _⟩, hkset.trans (Dev.setSpk_keeps _ _ _)⟩
  · obtain ⟨luts, hbind⟩ := Dev.bindSpk_nothing f.index (by rw [hset]; exact hpaths) (by rw [hset]; exact hloads)
    rw [hset] at hbind
    rw [hbind, Dev.spkApplied_nothing f.index (by rw [Dev.setSpk_spkOf]; exact happlied), Dev.setSpk_spkOf]
    exact ⟨⟨luts, Dev.setSpk_spkOf _ _ _⟩, (hkset.trans (Dev.setSpk_keeps _ _ _)).trans (Dev.setSpk_keeps _ _ _)⟩

theorem Dev.SpkStarts.frameStart (h : d.SpkStarts n f v) :
    d.spkFrameStart n = (d.spkEnter n f v).spkPass n f (d.spkDown n) := by
  simp only [Dev.spkFrameStart, h.running, h.going, h.idle, h.take, Dev.spkRestarts_nothing h.noRestart, ite_self,
    bne_self_eq_false, Option.isSome_none, Option.isNone_some, Bool.or_self, Bool.false_eq_true, if_false]
  rfl

end Take

/-! ## What becomes of the frame (R214, R219, R220, R216, R217) -/

section Pass

variable {d : Dev} {n : Nat} {f : SpkFrame} {v : Spk}

theorem Dev.submitDone_of_not_memory (st res : Nat) (hm : ∀ m, f.input ≠ .memory m) : d.submitDone f st res = d := by
  unfold Dev.submitDone
  split
  · exact absurd ‹_› (hm _)
  · rfl

/-- A frame not from memory is dropped: it is counted, and frames that nothing needs any more go. -/
theorem Dev.spkDrop_counts (k : Nat) (hm : ∀ m, f.input ≠ .memory m) :
    d.spkDrop n f k = (d.count (spkCtr n k) 1).sweepFrames := by
  rw [Dev.spkDrop, Dev.submitDone_of_not_memory _ _ hm]

theorem Dev.setUnit_keeps (d : Dev) (u : Nat) (v : StuUnit) : Keeps [.stu] d (d.setUnit u v) := d.stu_keeps _

theorem Dev.scopeBegin_keeps (d : Dev) (kind id i : Nat) : Keeps [.stu] d (d.scopeBegin kind id i) :=
  Keeps.foldl _ (fun e _ => by
    split
    · exact .refl _ _
    · exact e.setUnit_keeps _ _) _ _

/-- A frame as it begins: with the sprocket's path, tables and registers. -/
def Dev.spkFramed (d : Dev) (n : Nat) (f : SpkFrame) : SpkFrame :=
  { f with path := (d.spkOf n).path, luts := (d.spkOf n).luts, latched := (d.spkOf n).latched }

theorem Dev.spkBegin_noBuffer (hdest : (d.skc n).dest < 2) (hb : (d.spkOf n).bufs = []) :
    d.spkBegin n f = d.spkDrop n (d.spkFramed n f) 3 := by
  simp only [Dev.spkBegin, hdest, hb, if_true]
  rfl

theorem Dev.spkBegin_buffer {b : Buf} {bs : List Buf} (hdest : (d.skc n).dest < 2) (hb : (d.spkOf n).bufs = b :: bs) :
    d.spkBegin n f = (d.setSpk n { d.spkOf n with
      bufs := bs, cur := some { d.spkFramed n f with buf := some b } }).scopeBegin 0 n f.index := by
  simp only [Dev.spkBegin, hdest, hb, if_true]
  rfl

theorem Dev.spkBegin_unlinked (hdest : (d.skc n).dest = 4) (hlink : d.ethLink (d.skc n).destId = false) :
    d.spkBegin n f = d.spkDrop n (d.spkFramed n f) 4 := by
  simp [Dev.spkBegin, hdest, hlink]
  rfl

namespace Dev.SpkStarts

theorem latched_eq (h : d.SpkStarts n f v) : v.latched = (d.spkOf n).latched := by
  obtain ⟨_, _, _, _, _, hv⟩ := Dev.spkTake_takes h.take
  rw [hv]

theorem cur_eq (h : d.SpkStarts n f v) : v.cur = none := by
  obtain ⟨_, _, _, _, _, hv⟩ := Dev.spkTake_takes h.take
  rw [hv]
  exact h.idle

theorem skc_eq (h : d.SpkStarts n f v) : (d.spkEnter n f v).skc n = d.skc n := by
  obtain ⟨⟨luts, hspk⟩, -⟩ := h.entered
  exact Dev.skc_congr (by rw [hspk]; exact h.latched_eq)

theorem passed (h : d.SpkStarts n f v) (hk : keptFrame (d.skc n) f.index = false) :
    d.spkFrameStart n = (d.spkEnter n f v).sweepFrames := by
  rw [h.frameStart, Dev.spkPass, h.skc_eq, hk, Dev.submitDone_of_not_memory _ _ h.notMemory]
  rfl

variable (h : d.SpkStarts n f v) (hk : keptFrame (d.skc n) f.index = true)

include h hk

theorem sheds (hs : v.shed = true) : d.spkFrameStart n = (d.spkEnter n f v).spkDrop n f 1 := by
  obtain ⟨⟨luts, hspk⟩, -⟩ := h.entered
  simp [h.frameStart, Dev.spkPass, h.skc_eq, hk, hspk, hs]

variable (hs : v.shed = false)

include hs

theorem stalls (hd : d.spkDown n = true) : d.spkFrameStart n = (d.spkEnter n f v).spkDrop n f 2 := by
  obtain ⟨⟨luts, hspk⟩, -⟩ := h.entered
  simp [h.frameStart, Dev.spkPass, h.skc_eq, hk, hspk, hs, hd]

variable (hd : d.spkDown n = false)

include hd

theorem begins : d.spkFrameStart n = (d.spkEnter n f v).spkBegin n f := by
  obtain ⟨⟨luts, hspk⟩, -⟩ := h.entered
  simp [h.frameStart, Dev.spkPass, h.skc_eq, hk, hspk, hs, hd]

theorem lacksBuffer (hdest : (d.skc n).dest < 2) (hb : v.bufs = []) :
    d.spkFrameStart n = (d.spkEnter n f v).spkDrop n ((d.spkEnter n f v).spkFramed n f) 3 := by
  obtain ⟨⟨luts, hspk⟩, -⟩ := h.entered
  rw [h.begins hk hs hd, Dev.spkBegin_noBuffer (by rw [h.skc_eq]; exact hdest) (by rw [hspk]; exact hb)]

theorem lacksLink (hdest : (d.skc n).dest = 4) (hlink : d.ethLink (d.skc n).destId = false) :
    d.spkFrameStart n = (d.spkEnter n f v).spkDrop n ((d.spkEnter n f v).spkFramed n f) 4 := by
  obtain ⟨-, hkeeps⟩ := h.entered
  rw [h.begins hk hs hd, Dev.spkBegin_unlinked (by rw [h.skc_eq]; exact hdest)
    (by rw [h.skc_eq, hkeeps.ethLink (by decide)]; exact hlink)]

end Dev.SpkStarts

end Pass

/-! ## SPK_FRAME_START and PATTERN_FRAME_TICK at the block -/

section FrameEvents

variable {s : State} {n : Fin 8} {f : SpkFrame} {v : Spk}

theorem exec_spkFrameStart : exec (.spkFrameStart n) s = lift (fun d => d.spkFrameStart n.val) s := by
  rw [exec, execSpkFrameStart]

theorem spkFrameStart_none (hi : s.dev.idleMode = true) (ht : s.dev.spkTake n.val = none) :
    exec (.spkFrameStart n) s = .next s :=
  event_none exec_spkFrameStart hi (by simp [Dev.spkFrameStart, ht])

theorem spkFrameStart_passes (hi : s.dev.idleMode = true) (h : s.dev.SpkStarts n.val f v)
    (hk : keptFrame (s.dev.skc n.val) f.index = false) :
    ∃ t, exec (.spkFrameStart n) s = .next t ∧ (t.dev.spkOf n.val).cur = none ∧ t.dev.ctrs = s.dev.ctrs
      ∧ Keeps [.spk, .rfe] s.dev t.dev := by
  obtain ⟨⟨luts, hspk⟩, hkeeps⟩ := h.entered
  have hsweep := (s.dev.spkEnter n.val f v).sweepFrames_keeps
  have hall : Keeps [.spk, .rfe] s.dev (s.dev.spkEnter n.val f v).sweepFrames :=
    (hkeeps.mono (by simp)).trans (hsweep.mono (by simp))
  refine ⟨_, event_effect exec_spkFrameStart hi (h.passed hk) hall (by decide), ?_, hall .ctrs (by decide), hall⟩
  rw [hsweep.spkOf (by decide), hspk]
  exact h.cur_eq

/-- A frame that is dropped at its start: no frame is in hand, and the counter of the cause counts it. -/
theorem spkFrameStart_drops (hi : s.dev.idleMode = true) (h : s.dev.SpkStarts n.val f v) {g : SpkFrame} {k : Nat}
    (hg : g.input = f.input) (hdrop : s.dev.spkFrameStart n.val = (s.dev.spkEnter n.val f v).spkDrop n.val g k) :
    ∃ t, exec (.spkFrameStart n) s = .next t ∧ (t.dev.spkOf n.val).cur = none
      ∧ (t.dev.spkOf n.val).shedNow = v.shed
      ∧ t.dev.ctrs = (s.dev.count (0x41060 + 4 * k + 0x100 * n.val) 1).ctrs ∧ Keeps [.spk, .rfe, .ctrs] s.dev t.dev := by
  rw [Dev.spkDrop_counts k (by rw [hg]; exact h.notMemory)] at hdrop
  obtain ⟨⟨luts, hspk⟩, hkeeps⟩ := h.entered
  have hctrs : (s.dev.spkEnter n.val f v).ctrs = s.dev.ctrs := hkeeps .ctrs (by decide)
  have hend : ((s.dev.spkEnter n.val f v).count (spkCtr n.val k) 1).sweepFrames.spkOf n.val
      = { v with shedNow := v.shed, luts := luts } := hspk
  have hall : Keeps [.spk, .rfe, .ctrs] s.dev ((s.dev.spkEnter n.val f v).count (spkCtr n.val k) 1).sweepFrames :=
    (hkeeps.mono (by simp)).trans ((Dev.count_keeps _ _ _).mono (by simp)) |>.trans
      ((Dev.sweepFrames_keeps _).mono (by simp))
  refine ⟨_, event_effect exec_spkFrameStart hi hdrop hall (by decide), ?_, ?_, ?_, hall⟩
  · rw [hend]
    exact h.cur_eq
  · rw [hend]
  · simp only [Dev.sweepFrames, Dev.count, hctrs, spkCtr_eq]

theorem spkFrameStart_begins {b : Buf} {bs : List Buf} (hi : s.dev.idleMode = true) (h : s.dev.SpkStarts n.val f v)
    (hk : keptFrame (s.dev.skc n.val) f.index = true) (hs : v.shed = false) (hd : s.dev.spkDown n.val = false)
    (hdest : (s.dev.skc n.val).dest < 2) (hb : v.bufs = b :: bs) :
    ∃ t g, exec (.spkFrameStart n) s = .next t ∧ (t.dev.spkOf n.val).cur = some g ∧ (t.dev.spkOf n.val).bufs = bs
      ∧ g.index = f.index ∧ g.input = f.input ∧ g.buf = some b ∧ g.latched = v.latched
      ∧ Keeps [.spk, .stu] s.dev t.dev := by
  obtain ⟨⟨luts, hspk⟩, hkeeps⟩ := h.entered
  have hbegin := (h.begins hk hs hd).trans
    (Dev.spkBegin_buffer (b := b) (bs := bs) (by rw [h.skc_eq]; exact hdest) (by rw [hspk]; exact hb))
  have hscope := fun e : Dev => e.scopeBegin_keeps 0 n.val f.index
  have hall : ∀ w, Keeps [.spk, .stu] s.dev (((s.dev.spkEnter n.val f v).setSpk n.val w).scopeBegin 0 n.val f.index) :=
    fun w => ((hkeeps.trans (Dev.setSpk_keeps _ _ _)).mono (by simp)).trans ((hscope _).mono (by simp))
  refine ⟨_, { (s.dev.spkEnter n.val f v).spkFramed n.val f with buf := some b },
    event_effect exec_spkFrameStart hi hbegin (hall _) (by decide), ?_, ?_, rfl, rfl, rfl, ?_, hall _⟩
  · rw [(hscope _).spkOf (by decide), Dev.setSpk_spkOf]
  · rw [(hscope _).spkOf (by decide), Dev.setSpk_spkOf]
  · simp only [Dev.spkFramed, hspk]

theorem patternFrameTick_adds (hi : s.dev.idleMode = true) (hrun : (s.dev.spkOf n.val).state = .running)
    (hstop : (s.dev.spkOf n.val).stopping = false) (hkind : (s.dev.skc n.val).kind = 3)
    (hd : s.dev.spkDown n.val = false)
    (hpace : (s.dev.skc n.val).pace = true → (s.dev.skc n.val).dest = 3 → (s.dev.spkOf n.val).paceDue = true) :
    ∃ t f, exec (.patternFrameTick n) s = .next t ∧ f.index = (s.dev.spkOf n.val).nextIndex ∧ f.input = .pattern
      ∧ f.expStart = s.dev.now
      ∧ t.dev.spkOf n.val = { s.dev.spkOf n.val with
          paceDue := false, nextIndex := (s.dev.spkOf n.val).nextIndex + 1
          arrivals := (s.dev.spkOf n.val).arrivals ++ [f] }
      ∧ (∀ m, m ≠ n.val → t.dev.spkOf m = s.dev.spkOf m) ∧ Keeps [.spk] s.dev t.dev := by
  have hdue : ((s.dev.skc n.val).pace && (s.dev.skc n.val).dest == 3 && !(s.dev.spkOf n.val).paceDue) = false := by
    cases hp : (s.dev.skc n.val).pace <;> simp_all
  have htick : s.dev.patternTick n.val = s.dev.setSpk n.val { s.dev.spkOf n.val with
      paceDue := false, nextIndex := (s.dev.spkOf n.val).nextIndex + 1
      arrivals := (s.dev.spkOf n.val).arrivals
        ++ [{ index := (s.dev.spkOf n.val).nextIndex, input := .pattern, expStart := s.dev.now }] } := by
    simp only [Dev.patternTick, hrun, hstop, hkind, hd, hdue, bne_self_eq_false, Bool.or_self, Bool.false_eq_true,
      if_false]
  have hk := s.dev.setSpk_keeps n.val
  exact ⟨_, _, event_effect (i := .patternFrameTick n) (by rw [exec, execPatternFrameTick]) hi htick (hk _) (by decide),
    rfl, rfl, rfl, Dev.setSpk_spkOf _ _ _, fun m hm => Dev.setSpk_spkOf_ne _ _ _ hm, hk _⟩

end FrameEvents

end Sys2Proof.Machine
end

section
/-! SUPPORT. Tokens of a sprocket: one that moves its frame on, the last of a frame, and one held back (O38). -/

namespace Sys2Proof.Machine

open Sys2Proof

/-! ## Completions that stay -/

section Answers

variable {d e x : Dev} {r : CmdRef} {st res : Nat} {b : List Part}

theorem Dev.finish_no_queueOps (r : CmdRef) (st res : Nat) (ho : d.hif.queueOps = []) :
    (d.finish r st res).hif.queueOps = [] := by
  rw [Dev.finish_of_no_queueOps r st res ho]
  unfold Dev.complete
  split
  · exact ho
  · rw [Dev.postCompletion_queueOps]
    simp [Dev.dropWait, Dev.dropCmd, ho]

/-- A completion brings no context back. -/
theorem Dev.finish_cmd_none (q : CmdRef) (st res : Nat) (ho : d.hif.queueOps = []) (h : d.cmd? r = none) :
    (d.finish q st res).cmd? r = none := by
  rw [Dev.finish_of_no_queueOps q st res ho]
  unfold Dev.complete
  split
  · exact h
  · rw [Dev.postCompletion_cmd]
    exact List.find?_eq_none.mpr fun c hc => List.find?_eq_none.mp h c (List.mem_filter.mp hc).1

theorem Answered.of_keeps (h : Answered d e r st res) (hk : Keeps b e x) (hf : .fetch ∉ b) (ho : .out ∉ b) :
    Answered d x r st res := by
  obtain ⟨hleft, hcmd⟩ := h
  obtain ⟨-, hcmds, -⟩ := hk .fetch hf
  refine ⟨hk.outGrows ho hleft, ?_⟩
  unfold Dev.cmd?
  rw [hcmds]
  exact hcmd

/-- What an answer says of the state before it, it says of a state with the same queues. -/
theorem Answered.before (h : Answered e x r st res) (hk : Keeps b d e) (hf : .fetch ∉ b) : Answered d x r st res := by
  obtain ⟨hqueues, -⟩ := hk .fetch hf
  have hq : e.qp r.qid = d.qp r.qid := by unfold Dev.qp; rw [hqueues]
  unfold Answered at *
  rwa [hq] at h

/-- A command stays answered when another completes. -/
theorem Answered.finish (h : Answered d e r st res) (ho : e.hif.queueOps = []) (q : CmdRef) (st' res' : Nat) :
    Answered d (e.finish q st' res') r st res :=
  ⟨e.finish_outGrows q st' res' h.1, Dev.finish_cmd_none q st' res' ho h.2⟩

/-- A command with a context whose queue takes completions, while no operation on a queue waits. -/
structure Dev.Answerable (d : Dev) (r : CmdRef) : Prop where
  noOps : d.hif.queueOps = []
  context : ∃ c, d.cmd? r = some c ∧ c.fail = none
  live : (d.qp r.qid).live = true
  heard : (d.qp r.qid).cqLost = false

theorem Dev.Answerable.of_keeps (h : d.Answerable r) (hk : Keeps b d e) (hf : .fetch ∉ b) : e.Answerable r := by
  obtain ⟨hqueues, hcmds, hops, -⟩ := hk .fetch hf
  have hq : e.qp r.qid = d.qp r.qid := by unfold Dev.qp; rw [hqueues]
  have hcmd : e.cmd? r = d.cmd? r := by unfold Dev.cmd?; rw [hcmds]
  exact ⟨hops.trans h.noOps, hcmd ▸ h.context, hq ▸ h.live, hq ▸ h.heard⟩

theorem Dev.Answerable.finish (h : d.Answerable r) (st res : Nat) : Answered d (d.finish r st res) r st res := by
  obtain ⟨c, hc, hfail⟩ := h.context
  exact Dev.finish_answered st res hc hfail h.live h.heard h.noOps

end Answers

/-! ## Scopes that take a sprocket (R236, R239) -/

section Scopes

variable {d : Dev} {n u i : Nat}

theorem Dev.scopesOf_none (h : d.stu.units = []) (kind id : Nat) : d.scopesOf kind id = [] := by
  simp [Dev.scopesOf, Dev.stuUnit, h, SMap.get]

theorem Dev.scopeCancel_keeps (d : Dev) (u index flags : Nat) : Keeps byPost d (d.scopeCancel u index flags) :=
  d.post_keeps _ _ _ _ _ _ _

theorem Dev.unitDone_going (h : (d.stuUnit u).stopping = false) :
    d.unitDone u i = d.setUnit u { d.stuUnit u with cur := none, lastTerm := some i } := by
  simp [Dev.unitDone, h]

/-- A token that outruns no scope leaves them all as they are. -/
theorem Dev.scopeStall_none (d : Dev) (kind id : Nat) : d.scopeStall kind id 0 = d :=
  List.foldlRecOn (motive := (· = d)) _ _ rfl fun e he u _ => by
    rw [he]
    split <;> simp

/-- A scope that an input outruns has posted its CANCELLED record and has no frame in hand any more. -/
def Dev.scopeGivesUp (d : Dev) (u i : Nat) : Dev :=
  (d.scopeCancel u i 64).setUnit u { d.stuUnit u with cur := none, lastTerm := some i }

theorem Dev.scopeGivesUp_keeps (d : Dev) (u i : Nat) : Keeps (.stu :: byPost) d (d.scopeGivesUp u i) :=
  ((d.scopeCancel_keeps u i 64).mono (by simp)).trans ((Dev.setUnit_keeps _ _ _).mono (by simp))

theorem Dev.scopeStall_outrun (hs : d.scopesOf 0 n = [0]) (hc : (d.stuUnit 0).cur = some i)
    (hgo : (d.stuUnit 0).stopping = false) : d.scopeStall 0 n 1 = d.scopeGivesUp 0 i := by
  have hunit : (d.scopeCancel 0 i 64).stuUnit 0 = d.stuUnit 0 := by
    have hstu : (d.scopeCancel 0 i 64).stu = d.stu := d.scopeCancel_keeps 0 i 64 .stu (by decide)
    unfold Dev.stuUnit
    rw [hstu]
  have hstall : d.scopeStall 0 n 1 = (d.scopeCancel 0 i 64).unitDone 0 i := by
    simp [Dev.scopeStall, hs, hc]
  rw [hstall, Dev.unitDone_going (by rw [hunit]; exact hgo), hunit]
  rfl

theorem Dev.scopeStall_no_units (h : d.stu.units = []) (kind id : Nat) (outrun : BitVec 2) :
    d.scopeStall kind id outrun = d := by
  rw [Dev.scopeStall, Dev.scopesOf_none h]
  rfl

theorem Dev.unitStop_keeps (d : Dev) (u : Nat) : Keeps (.stu :: byDone) d (d.unitStop u) := by
  unfold Dev.unitStop
  simp only []
  split
  · exact ((d.setUnit_keeps u _).mono (by simp)).trans ((Dev.finish_keeps _ _ _ _).mono (by simp))
  · exact (d.setUnit_keeps u _).mono (by simp)

theorem Dev.scopeDrop_keeps (d : Dev) (kind id : Nat) : Keeps (.stu :: byDone) d (d.scopeDrop kind id) :=
  Keeps.foldl _ (fun _ u => ((Dev.setUnit_keeps _ u _).mono (by simp)).ifThen (Dev.unitStop_keeps _ u)) _ _

end Scopes

/-! ## The end of the frame in hand -/

section FrameEnd

variable {d : Dev} {n : Nat} {f : SpkFrame}

/-- No frame is in hand any more. -/
def Dev.spkFreed (d : Dev) (n : Nat) : Dev := (d.modSpk n fun v => { v with cur := none, held := false }).sweepFrames

theorem Dev.spkFreed_keeps (d : Dev) (n : Nat) : Keeps [.spk, .rfe] d (d.spkFreed n) :=
  ((d.modSpk_keeps n _).mono (by simp)).trans ((Dev.sweepFrames_keeps _).mono (by simp))

theorem Dev.spkFreed_spkOf (d : Dev) (n : Nat) :
    (d.spkFreed n).spkOf n = { d.spkOf n with cur := none, held := false } :=
  ((Dev.sweepFrames_keeps _).spkOf (by decide) n).trans (d.modSpk_spkOf n _)

theorem Dev.spkNext_going (h : (d.spkOf n).stopping = false) : d.spkNext n = d.spkFreed n := by
  simp [Dev.spkNext, Dev.spkFreed, h]

/-- At most one command completes with the end of a frame. -/
theorem Dev.submitDone_eq (d : Dev) (f : SpkFrame) (st res : Nat) :
    d.submitDone f st res = d ∨ ∃ q st' res', d.submitDone f st res = d.finish q st' res' := by
  unfold Dev.submitDone
  split
  · refine .inr ?_
    unfold Dev.submitEnd
    split
    · split <;> exact ⟨_, _, _, rfl⟩
    · exact ⟨_, _, _, rfl⟩
  · exact .inl rfl

theorem Dev.submitDone_keeps (d : Dev) (f : SpkFrame) (st res : Nat) : Keeps byDone d (d.submitDone f st res) := by
  obtain h | ⟨q, st', res', h⟩ := d.submitDone_eq f st res <;> rw [h]
  · exact .refl _ _
  · exact d.finish_keeps _ _ _

theorem Answered.submitDone {e : Dev} {r : CmdRef} {st res : Nat} (h : Answered d e r st res)
    (ho : e.hif.queueOps = []) (f : SpkFrame) (st' res' : Nat) : Answered d (e.submitDone f st' res') r st res := by
  obtain hd | ⟨q, _, _, hd⟩ := e.submitDone_eq f st' res' <;> rw [hd]
  · exact h
  · exact h.finish ho q _ _

theorem Dev.writePlanes_keeps (d : Dev) (f : SpkFrame) (o : OutFmt) (stride : Nat) (b : Buf) :
    Keeps [.mem, .out] d (d.writePlanes f o stride b) :=
  Keeps.foldl _ (fun _ _ => Keeps.foldl _ (fun e _ => e.writeBuf_keeps _ _ _) _ _) _ _

/-- A whole frame is in its buffer, whose command has completed, and is counted (R216). -/
def Dev.spkWritten (d : Dev) (n : Nat) (f : SpkFrame) (b : Buf) : Dev :=
  (((d.writePlanes f (frameSkc f).out (frameSkc f).stride b).finish b.ref stSuccess f.index).count (spkCtr n 0) 1).modSpk
    n fun v => { v with lastDone := some f.index }

theorem Dev.spkWritten_keeps (d : Dev) (n : Nat) (f : SpkFrame) (b : Buf) :
    Keeps (.spk :: .mem :: .ctrs :: byDone) d (d.spkWritten n f b) :=
  ((d.writePlanes_keeps f _ _ b).mono (by simp [byDone])).trans ((Dev.finish_keeps _ _ _ _).mono (by simp [byDone]))
    |>.trans ((Dev.count_keeps _ _ _).mono (by simp)) |>.trans ((Dev.modSpk_keeps _ _ _).mono (by simp))

theorem Dev.spkWritten_spkOf (d : Dev) (n : Nat) (f : SpkFrame) (b : Buf) :
    (d.spkWritten n f b).spkOf n = { d.spkOf n with lastDone := some f.index } := by
  rw [Dev.spkWritten, Dev.modSpk_spkOf, (Dev.count_keeps _ _ _).spkOf (by decide), Dev.finish_spkOf,
    (Dev.writePlanes_keeps _ _ _ _ _).spkOf (by decide)]

theorem Dev.spkWritten_ctrs (d : Dev) (n : Nat) (f : SpkFrame) (b : Buf) :
    (d.spkWritten n f b).ctrs = (d.count (0x41060 + 0x100 * n) 1).ctrs := by
  have hplanes : (d.writePlanes f (frameSkc f).out (frameSkc f).stride b).ctrs = d.ctrs :=
    d.writePlanes_keeps f _ _ b .ctrs (by decide)
  simp [Dev.spkWritten, Dev.modSpk, Dev.setSpk, Dev.count, hplanes, spkCtr_eq]

/-- The frame is in its buffer and done with: no frame is in hand. -/
def Dev.spkDelivered (d : Dev) (n : Nat) (f : SpkFrame) (b : Buf) : Dev :=
  ((d.spkWritten n f b).submitDone f stSuccess f.index).spkFreed n

theorem Dev.Answerable.spkWritten {b : Buf} (h : d.Answerable b.ref) (n : Nat) (f : SpkFrame) :
    Answered d (d.spkWritten n f b) b.ref stSuccess f.index ∧ (d.spkWritten n f b).hif.queueOps = [] := by
  have hplanes := d.writePlanes_keeps f (frameSkc f).out (frameSkc f).stride b
  have hafter := h.of_keeps hplanes (by decide)
  have hdone := (hafter.finish stSuccess f.index).before hplanes (by decide)
  exact ⟨(hdone.of_keeps (Dev.count_keeps _ _ _) (by decide) (by decide)).of_keeps (Dev.modSpk_keeps _ _ _) (by decide)
    (by decide), Dev.finish_no_queueOps _ _ _ hafter.noOps⟩

theorem Dev.Answerable.spkDelivered {b : Buf} (h : d.Answerable b.ref) (n : Nat) (f : SpkFrame) :
    Answered d (d.spkDelivered n f b) b.ref stSuccess f.index := by
  obtain ⟨hdone, hops⟩ := h.spkWritten n f
  exact (hdone.submitDone hops f _ _).of_keeps (Dev.spkFreed_keeps _ _) (by decide) (by decide)

theorem Dev.spkDelivered_keeps (d : Dev) (n : Nat) (f : SpkFrame) (b : Buf) :
    Keeps (.spk :: .rfe :: .mem :: .ctrs :: byDone) d (d.spkDelivered n f b) :=
  ((d.spkWritten_keeps n f b).mono (by simp [byDone])).trans ((Dev.submitDone_keeps _ _ _ _).mono (by simp [byDone]))
    |>.trans ((Dev.spkFreed_keeps _ _).mono (by simp [byDone]))

theorem Dev.submitted_spkOf (d : Dev) (n : Nat) (f : SpkFrame) (b : Buf) :
    ((d.spkWritten n f b).submitDone f stSuccess f.index).spkOf n = { d.spkOf n with lastDone := some f.index } :=
  ((Dev.submitDone_keeps _ _ _ _).spkOf (by decide) n).trans (d.spkWritten_spkOf n f b)

theorem Dev.spkDelivered_spkOf (d : Dev) (n : Nat) (f : SpkFrame) (b : Buf) :
    (d.spkDelivered n f b).spkOf n = { d.spkOf n with lastDone := some f.index, cur := none, held := false } := by
  rw [Dev.spkDelivered, Dev.spkFreed_spkOf, Dev.submitted_spkOf]

theorem Dev.spkDelivered_ctrs (d : Dev) (n : Nat) (f : SpkFrame) (b : Buf) :
    (d.spkDelivered n f b).ctrs = (d.count (0x41060 + 0x100 * n) 1).ctrs :=
  (Dev.spkFreed_keeps _ _ .ctrs (by decide)).trans
    ((Dev.submitDone_keeps _ _ _ _ .ctrs (by decide)).trans (d.spkWritten_ctrs n f b))

/-- Without scopes, the end of a frame whose destination is memory is its delivery (R216). -/
theorem Dev.spkDeliver_memory {b : Buf} (hdest : (frameSkc f).dest < 2) (hb : f.buf = some b)
    (hu : d.stu.units = []) (hgo : (d.spkOf n).stopping = false) : d.spkDeliver n f = d.spkDelivered n f b := by
  have hnext := Dev.spkNext_going (d := (d.spkWritten n f b).submitDone f stSuccess f.index) (n := n)
    (by rw [Dev.submitted_spkOf]; exact hgo)
  have hfmt : d.spkFmt (frameSkc f) = (frameSkc f).out := if_neg (by omega)
  have hscopes := Dev.scopesOf_none (d := ((d.writePlanes f (frameSkc f).out (frameSkc f).stride b).finish b.ref
    stSuccess f.index).count (spkCtr n 0) 1) (by
      simpa using (congrArg StuB.units (d.writePlanes_keeps f _ _ b .stu (by decide))).trans hu)
  obtain h | h : (frameSkc f).dest = 0 ∨ (frameSkc f).dest = 1 := by omega
  all_goals
    rw [Dev.spkDelivered, ← hnext]
    simp only [Dev.spkDeliver, hfmt, h, hb, Dev.scopeEnd, hscopes]
    rfl

/-- The frame is given up and counted, and its buffer is the next to be filled (R219). -/
def Dev.spkStalled (d : Dev) (n : Nat) (b : Buf) : Dev :=
  (((d.count (spkCtr n 2) 1).modSpk n fun v => { v with bufs := b :: v.bufs }).scopeDrop 0 n).spkFreed n

theorem Dev.spkStalled_keeps (d : Dev) (n : Nat) (b : Buf) :
    Keeps (.spk :: .stu :: .rfe :: .ctrs :: byDone) d (d.spkStalled n b) :=
  ((d.count_keeps _ _).mono (by simp)).trans ((Dev.modSpk_keeps _ _ _).mono (by simp)) |>.trans
    ((Dev.scopeDrop_keeps _ _ _).mono (by simp [byDone])) |>.trans ((Dev.spkFreed_keeps _ _).mono (by simp))

theorem Dev.stallDropped_spkOf (d : Dev) (n : Nat) (b : Buf) :
    (((d.count (spkCtr n 2) 1).modSpk n fun v => { v with bufs := b :: v.bufs }).scopeDrop 0 n).spkOf n
      = { d.spkOf n with bufs := b :: (d.spkOf n).bufs } :=
  ((Dev.scopeDrop_keeps _ _ _).spkOf (by decide) n).trans (Dev.modSpk_spkOf _ _ _)

theorem Dev.spkStalled_spkOf (d : Dev) (n : Nat) (b : Buf) : (d.spkStalled n b).spkOf n = { d.spkOf n with
    bufs := b :: (d.spkOf n).bufs, cur := none, held := false } := by
  rw [Dev.spkStalled, Dev.spkFreed_spkOf, Dev.stallDropped_spkOf]

theorem Dev.spkStalled_ctrs (d : Dev) (n : Nat) (b : Buf) :
    (d.spkStalled n b).ctrs = (d.count (0x41068 + 0x100 * n) 1).ctrs := by
  rw [← show spkCtr n 2 = 0x41068 + 0x100 * n from spkCtr_eq n 2]
  exact (Dev.spkFreed_keeps _ _ .ctrs (by decide)).trans (Dev.scopeDrop_keeps _ _ _ .ctrs (by decide))

/-- Held back on a live source, an expendable sprocket gives up the frame in hand. -/
theorem Dev.spkHeld_expendable {src : Nat} {b : Buf} (hp : (frameSkc f).prot = false) (hlive : f.input = .live src)
    (hcur : (d.spkOf n).cur = some f) (hb : f.buf = some b) (hgo : (d.spkOf n).stopping = false) :
    d.spkHeld n f = d.spkStalled n b := by
  have hcount : ((d.count (spkCtr n 2) 1).spkOf n).cur = some f := hcur
  have hsubmit := fun e : Dev => e.submitDone_of_not_memory (f := f) stSuccess f.index (by simp [hlive])
  have hnext := Dev.spkNext_going (n := n) (d := ((d.count (spkCtr n 2) 1).modSpk n fun v => { v with
    bufs := b :: v.bufs }).scopeDrop 0 n) (by rw [Dev.stallDropped_spkOf]; exact hgo)
  simp only [Dev.spkHeld, hlive, hp, Bool.false_eq_true, if_false, Dev.spkAbandon, hcount, hb, Option.getD_none, hsubmit]
  exact hnext

end FrameEnd

/-! ## A token (R206) -/

/-- Tokens of a row of the frame's picture, and of the whole picture. -/
def rowTokens (f : SpkFrame) : Nat := ceilDiv (frameSkc f).out.w 8

def frameTokens (f : SpkFrame) : Nat := rowTokens f * (frameSkc f).out.h

/-- The sprocket with frame `f` in hand. -/
def Dev.spkHolding (d : Dev) (n : Nat) (f : SpkFrame) : Dev := d.modSpk n fun v => { v with cur := some f }

/-- The frame after its next token: the codes of up to eight pixels are there. -/
def Dev.spkTokened (d : Dev) (f : SpkFrame) : SpkFrame :=
  let x := f.tok % rowTokens f * 8
  let y := f.tok / rowTokens f
  { f with
    tok := f.tok + 1
    codes := (d.tokenCodes f (frameSkc f).out x y).zipIdx.foldl
      (fun m e => SMap.put (0, 0, 0) m (siteKey (x + e.2) y) e.1) f.codes }

/-- The sprocket after the next token of frame `f`, but for the scopes. -/
def Dev.spkMoved (d : Dev) (n : Nat) (f : SpkFrame) : Dev :=
  let g := (d.spkHolding n f).spkTokened f
  { d.spkHolding n f with free := (d.spkHolding n f).free + spkDraws g }.modSpk n fun v => { v with
    cur := some g, held := false }

section Token

variable {d : Dev} {n : Nat} {f : SpkFrame} {outrun : BitVec 2}

theorem Dev.spkHolding_keeps (d : Dev) (n : Nat) (f : SpkFrame) : Keeps [.spk] d (d.spkHolding n f) :=
  d.modSpk_keeps n _

theorem Dev.spkHolding_spkOf (hcur : (d.spkOf n).cur = some f) : (d.spkHolding n f).spkOf n = d.spkOf n := by
  rw [Dev.spkHolding, Dev.modSpk_spkOf, ← hcur]

theorem Dev.free_keeps (d : Dev) (k : Nat) : Keeps [] d { d with free := k } := by
  intro p _
  cases p <;> simp [Part.same]

theorem Dev.spkMoved_keeps (d : Dev) (n : Nat) (f : SpkFrame) : Keeps [.spk] d (d.spkMoved n f) :=
  ((d.spkHolding_keeps n f).trans ((Dev.free_keeps _ _).mono (by simp))).trans (Dev.modSpk_keeps _ _ _)

theorem Dev.spkMoved_spkOf (d : Dev) (n : Nat) (f : SpkFrame) : (d.spkMoved n f).spkOf n = { d.spkOf n with
    cur := some ((d.spkHolding n f).spkTokened f), held := false } := by
  refine (Dev.modSpk_spkOf _ _ _).trans ?_
  rw [(Dev.free_keeps _ _).spkOf (by decide), Dev.spkHolding, Dev.modSpk_spkOf]

theorem Dev.spkMoved_spkOf_ne (d : Dev) (f : SpkFrame) {m : Nat} (h : m ≠ n) :
    (d.spkMoved n f).spkOf m = d.spkOf m :=
  (Dev.modSpk_spkOf_ne _ _ _ h).trans
    (((Dev.free_keeps (d.spkHolding n f) _).spkOf (by decide) m).trans (d.modSpk_spkOf_ne n _ h))

section Goes

variable (hcur : (d.spkOf n).cur = some f) (hdest : (frameSkc f).dest < 3) (hup : d.spkDown n = false)
  (hready : d.spkReady f (frameSkc f).out (f.tok / rowTokens f) = true)

include hcur hdest hup hready

theorem Dev.spkToken_refused : d.spkToken n false outrun = (d.spkHolding n f).spkHeld n f := by
  have hfmt : d.spkFmt (frameSkc f) = (frameSkc f).out := if_neg (by omega)
  have hraster : (frameSkc f).dest ≠ 3 := by omega
  unfold rowTokens at hready
  simp [Dev.spkToken, hcur, hfmt, hup, hready, hraster]
  rfl

theorem Dev.spkToken_accepted : d.spkToken n true outrun =
    if frameTokens f ≤ f.tok + 1 then
      ((d.spkMoved n f).scopeStall 0 n outrun).spkDeliver n ((d.spkHolding n f).spkTokened f)
    else (d.spkMoved n f).scopeStall 0 n outrun := by
  have hfmt : d.spkFmt (frameSkc f) = (frameSkc f).out := if_neg (by omega)
  have hraster : (frameSkc f).dest ≠ 3 := by omega
  unfold rowTokens at hready
  simp [Dev.spkToken, hcur, hfmt, hup, hready, hraster]
  rfl

end Goes

end Token

/-! ## SPK_TOKEN at the block -/

section TokenEvents

variable {s : State} {n : Fin 8} {f : SpkFrame}

theorem exec_spkToken (accepted : Bool) (outrun : BitVec 2) :
    exec (.spkToken n accepted outrun) s = lift (fun d => d.spkToken n.val accepted outrun) s := by
  rw [exec, execSpkToken]

variable (hi : s.dev.idleMode = true) (hcur : (s.dev.spkOf n.val).cur = some f) (hdest : (frameSkc f).dest < 3)
  (hup : s.dev.spkDown n.val = false)
  (hready : s.dev.spkReady f (frameSkc f).out (f.tok / rowTokens f) = true)

include hi hcur hdest hup hready

/-- A token that is not the last moves the frame on by one (R206). -/
theorem spkToken_moves (hmore : f.tok + 1 < frameTokens f) :
    ∃ t g, exec (.spkToken n true 0) s = .next t ∧ (t.dev.spkOf n.val).cur = some g ∧ g.tok = f.tok + 1
      ∧ g.index = f.index ∧ g.buf = f.buf ∧ (t.dev.spkOf n.val).bufs = (s.dev.spkOf n.val).bufs
      ∧ (∀ m, m ≠ n.val → t.dev.spkOf m = s.dev.spkOf m) ∧ Keeps [.spk] s.dev t.dev := by
  have he : s.dev.spkToken n.val true 0 = s.dev.spkMoved n.val f := by
    rw [Dev.spkToken_accepted hcur hdest hup hready, if_neg (Nat.not_le.mpr hmore), Dev.scopeStall_none]
  have hk := s.dev.spkMoved_keeps n.val f
  refine ⟨_, (s.dev.spkHolding n.val f).spkTokened f, event_effect (exec_spkToken _ _) hi he hk (by decide), ?_, rfl,
    rfl, rfl, ?_, fun m hm => Dev.spkMoved_spkOf_ne _ _ hm, hk⟩ <;> rw [Dev.spkMoved_spkOf]

/-- A scope that the token outruns abandons the frame, and the token goes on (R239). -/
theorem spkToken_outruns {i : Nat} (hmore : f.tok + 1 < frameTokens f) (hs : s.dev.scopesOf 0 n.val = [0])
    (hc : (s.dev.stuUnit 0).cur = some i) (hgo : (s.dev.stuUnit 0).stopping = false) :
    ∃ t, exec (.spkToken n true 1) s = .next t ∧ (t.dev.stuUnit 0).cur = none ∧ (t.dev.stuUnit 0).lastTerm = some i
      ∧ (t.dev.spkOf n.val).cur.map (·.tok) = some (f.tok + 1) ∧ Keeps (.spk :: .stu :: byPost) s.dev t.dev := by
  have he : s.dev.spkToken n.val true 1 = (s.dev.spkMoved n.val f).scopeGivesUp 0 i := by
    rw [Dev.spkToken_accepted hcur hdest hup hready, if_neg (Nat.not_le.mpr hmore)]
    exact Dev.scopeStall_outrun hs hc hgo
  have hup := (s.dev.spkMoved n.val f).scopeGivesUp_keeps 0 i
  have hk : Keeps (.spk :: .stu :: byPost) s.dev ((s.dev.spkMoved n.val f).scopeGivesUp 0 i) :=
    ((s.dev.spkMoved_keeps n.val f).mono (by simp)).trans (hup.mono (by simp))
  refine ⟨_, event_effect (exec_spkToken _ _) hi he hk (by decide), ?_, ?_, ?_, hk⟩
  · rw [Dev.scopeGivesUp, Dev.setUnit_stuUnit]
  · rw [Dev.scopeGivesUp, Dev.setUnit_stuUnit]
  · rw [hup.spkOf (by decide), Dev.spkMoved_spkOf]
    rfl

/-- The last token completes the buffer of the frame with its index (R216). -/
theorem spkToken_delivers {b : Buf} (outrun : BitVec 2) (hlast : frameTokens f ≤ f.tok + 1)
    (hmem : (frameSkc f).dest < 2) (hb : f.buf = some b) (hgo : (s.dev.spkOf n.val).stopping = false)
    (hu : s.dev.stu.units = []) (h : s.dev.Answerable b.ref) :
    ∃ t, exec (.spkToken n true outrun) s = .next t ∧ Answered s.dev t.dev b.ref stSuccess f.index
      ∧ (t.dev.spkOf n.val).cur = none ∧ (t.dev.spkOf n.val).lastDone = some f.index
      ∧ t.dev.ctrs = (s.dev.count (0x41060 + 0x100 * n.val) 1).ctrs
      ∧ Keeps (.spk :: .rfe :: .mem :: .ctrs :: byDone) s.dev t.dev := by
  have hmoved := s.dev.spkMoved_keeps n.val f
  have hunits : (s.dev.spkMoved n.val f).stu.units = [] := (congrArg StuB.units (hmoved .stu (by decide))).trans hu
  have hctrs : (s.dev.spkMoved n.val f).ctrs = s.dev.ctrs := hmoved .ctrs (by decide)
  have he : s.dev.spkToken n.val true outrun
      = (s.dev.spkMoved n.val f).spkDelivered n.val ((s.dev.spkHolding n.val f).spkTokened f) b := by
    rw [Dev.spkToken_accepted hcur hdest hup hready, if_pos hlast, Dev.scopeStall_no_units hunits]
    exact Dev.spkDeliver_memory hmem hb hunits (by rw [Dev.spkMoved_spkOf]; exact hgo)
  have ha := ((h.of_keeps hmoved (by decide)).spkDelivered n.val ((s.dev.spkHolding n.val f).spkTokened f)).before
    hmoved (by decide)
  have hk := (hmoved.mono (by simp)).trans
    ((s.dev.spkMoved n.val f).spkDelivered_keeps n.val ((s.dev.spkHolding n.val f).spkTokened f) b)
  refine ⟨_, event_effect (exec_spkToken _ _) hi he hk (by decide), ha, ?_, ?_, ?_, hk⟩
  · rw [Dev.spkDelivered_spkOf]
  · rw [Dev.spkDelivered_spkOf]
    rfl
  · rw [Dev.spkDelivered_ctrs]
    simp only [Dev.count, hctrs]

/-- Held back on a live source, a protected sprocket waits and holds CBE (R219). -/
theorem spkToken_holds {src : Nat} (outrun : BitVec 2) (hp : (frameSkc f).prot = true) (hlive : f.input = .live src) :
    ∃ t, exec (.spkToken n false outrun) s = .next t
      ∧ t.dev.spkOf n.val = { s.dev.spkOf n.val with held := true } ∧ Keeps [.spk] s.dev t.dev := by
  have he : s.dev.spkToken n.val false outrun
      = (s.dev.spkHolding n.val f).modSpk n.val fun v => { v with held := true } := by
    simp [Dev.spkToken_refused hcur hdest hup hready, Dev.spkHeld, hlive, hp]
  have hk := (s.dev.spkHolding_keeps n.val f).trans (Dev.modSpk_keeps _ n.val fun v => { v with held := true })
  refine ⟨_, event_effect (exec_spkToken _ _) hi he hk (by decide), ?_, hk⟩
  rw [Dev.modSpk_spkOf, Dev.spkHolding_spkOf hcur]

/-- Held back, a memory or pattern frame waits (R209). -/
theorem spkToken_waits (outrun : BitVec 2) (hin : f.input = .pattern ∨ ∃ m, f.input = .memory m) :
    ∃ t, exec (.spkToken n false outrun) s = .next t ∧ t.dev.spkOf n.val = s.dev.spkOf n.val
      ∧ Keeps [.spk] s.dev t.dev := by
  have he : s.dev.spkToken n.val false outrun = s.dev.spkHolding n.val f := by
    rw [Dev.spkToken_refused hcur hdest hup hready]
    obtain h | ⟨m, h⟩ := hin <;> simp [Dev.spkHeld, h]
  have hk := s.dev.spkHolding_keeps n.val f
  exact ⟨_, event_effect (exec_spkToken _ _) hi he hk (by decide), Dev.spkHolding_spkOf hcur, hk⟩

/-- Held back on a live source, an expendable sprocket abandons the frame (R219). -/
theorem spkToken_abandons {src : Nat} {b : Buf} (outrun : BitVec 2) (hp : (frameSkc f).prot = false)
    (hb : f.buf = some b) (hgo : (s.dev.spkOf n.val).stopping = false) (hlive : f.input = .live src) :
    ∃ t, exec (.spkToken n false outrun) s = .next t ∧ (t.dev.spkOf n.val).cur = none
      ∧ (t.dev.spkOf n.val).bufs = b :: (s.dev.spkOf n.val).bufs
      ∧ t.dev.ctrs = (s.dev.count (0x41068 + 0x100 * n.val) 1).ctrs
      ∧ Keeps (.spk :: .stu :: .rfe :: .ctrs :: byDone) s.dev t.dev := by
  have hhold := Dev.spkHolding_spkOf hcur
  have he : s.dev.spkToken n.val false outrun = (s.dev.spkHolding n.val f).spkStalled n.val b := by
    rw [Dev.spkToken_refused hcur hdest hup hready]
    exact Dev.spkHeld_expendable hp hlive (by rw [hhold]; exact hcur) hb (by rw [hhold]; exact hgo)
  have hholding := s.dev.spkHolding_keeps n.val f
  have hctrs : (s.dev.spkHolding n.val f).ctrs = s.dev.ctrs := hholding .ctrs (by decide)
  have hk := (hholding.mono (by simp)).trans ((s.dev.spkHolding n.val f).spkStalled_keeps n.val b)
  refine ⟨_, event_effect (exec_spkToken _ _) hi he hk (by decide), ?_, ?_, ?_, hk⟩
  · rw [Dev.spkStalled_spkOf]
  · rw [Dev.spkStalled_spkOf, hhold]
  · rw [Dev.spkStalled_ctrs]
    simp only [Dev.count, hctrs]

end TokenEvents

/-- Settles O38: a frame start takes the next frame and passes, drops or begins it, and a token moves the frame in hand
on, delivers it, or is held back. -/
theorem sprocketFrames : Obligations.SprocketFrames := by
  unfold Obligations.SprocketFrames
  refine ⟨fun s n hi ht => spkFrameStart_none hi ht,
    fun s n m ms hkind hdest hmn hpos hsub hbufs => Dev.spkTake_memory hkind hdest hmn hpos hsub hbufs,
    fun s n f v hi hrun hgo hcur hp hl hr ha ht hm => ?start,
    fun s n hi hrun hgo hkind hd hpace => patternFrameTick_adds hi hrun hgo hkind hd hpace,
    fun s n f hi hcur hdest hup hready => ?token⟩
  case start =>
    have h : s.dev.SpkStarts n.val f v := ⟨hrun, hgo, hcur, hp, hl, hr, ha, ht, hm⟩
    refine ⟨fun hk => spkFrameStart_passes hi h hk, fun hk hs => ?_, fun hk hs hd => ?_, fun hk hs hd hdest hb => ?_,
      fun b bs hk hs hd hdest hb => spkFrameStart_begins hi h hk hs hd hdest hb, fun hk hs hd hdest hlink => ?_⟩
    · obtain ⟨t, hx, hnone, hshed, hcount⟩ := spkFrameStart_drops hi h rfl (h.sheds hk hs)
      exact ⟨t, hx, hnone, hshed.trans hs, hcount⟩
    · obtain ⟨t, hx, hnone, -, hcount⟩ := spkFrameStart_drops hi h rfl (h.stalls hk hs hd)
      exact ⟨t, hx, hnone, hcount⟩
    · obtain ⟨t, hx, hnone, -, hcount⟩ := spkFrameStart_drops hi h rfl (h.lacksBuffer hk hs hd hdest hb)
      exact ⟨t, hx, hnone, hcount⟩
    · obtain ⟨t, hx, hnone, -, hcount⟩ := spkFrameStart_drops hi h rfl (h.lacksLink hk hs hd hdest hlink)
      exact ⟨t, hx, hnone, hcount⟩
  case token =>
    exact ⟨spkToken_moves hi hcur hdest hup hready, fun i => spkToken_outruns hi hcur hdest hup hready,
      fun b k o hlast hmem hb hgo hu ho hc hf hl hn => spkToken_delivers hi hcur hdest hup hready o hlast hmem hb hgo hu
        ⟨ho, ⟨k, hc, hf⟩, hl, hn⟩,
      fun o src hp hlive => spkToken_holds hi hcur hdest hup hready o hp hlive,
      fun o hin => spkToken_waits hi hcur hdest hup hready o hin,
      fun b o hp hb hgo ⟨src, hlive⟩ => spkToken_abandons hi hcur hdest hup hready o hp hb hgo hlive⟩

end Sys2Proof.Machine
end

section
/-! SUPPORT. Statistics units and buffers: a unit just written, its start, its stop with a frame in hand and without, and
a buffer that waits behind those of its target (O39). -/

namespace Sys2Proof.Machine

open Sys2Proof

/-! ## A unit and its neighbours -/

section Units

variable {d e : Dev} {b : List Part}

theorem Keeps.stuUnit (h : Keeps b d e) (hb : .stu ∉ b) (u : Nat) : e.stuUnit u = d.stuUnit u := by
  have hstu : e.stu = d.stu := h .stu hb
  unfold Dev.stuUnit
  rw [hstu]

theorem Dev.finish_stuUnit (d : Dev) (r : CmdRef) (st res u : Nat) : (d.finish r st res).stuUnit u = d.stuUnit u :=
  (d.finish_keeps r st res).stuUnit (by decide) u

theorem Dev.scopeCancel_stuUnit (d : Dev) (v i flags u : Nat) : (d.scopeCancel v i flags).stuUnit u = d.stuUnit u :=
  (d.scopeCancel_keeps v i flags).stuUnit (by decide) u

end Units

/-! ## STU_UNIT_START (R243) -/

section Start

variable {s : State} {r : CmdRef} {c : Cmd} {d : Dev}

theorem exec_stuUnitStart : exec (.stuUnitStart r) s = lift (runCmd specUnitStart r (unitStart r)) s := by
  rw [exec, execStuUnitStart]

/-- The unit runs, a scope with its set-up register as latched. -/
def Dev.unitStarted (d : Dev) (u : Nat) : Dev :=
  d.setUnit u { running := true, latched := if u < 2 then BitVec.ofNat 32 (d.scopeCfg u) else 0 }

theorem Dev.unitStarted_stuUnit (d : Dev) (u : Nat) : (d.unitStarted u).stuUnit u
    = { running := true, latched := if u < 2 then BitVec.ofNat 32 (d.scopeCfg u) else 0 } :=
  Dev.setUnit_stuUnit _ _ _

theorem unitStart_off (h : d.engOff 0x20 27 = true) : unitStart r c d = d.finish r stEngineDown 0 := if_pos h

theorem unitStart_bad (hup : d.engDown 0x20 27 = false) (hu : c.f 4 1 0 < 2) (hbad : d.scopeBad (c.f 4 1 0) = true) :
    unitStart r c d = d.finish r stInvalidField 4 := by
  simp [unitStart, Dev.engOff_of_not_down hup, hup, hu, hbad, Dev.setupFault]

theorem unitStart_runs (hup : d.engDown 0x20 27 = false)
    (hgood : c.f 4 1 0 < 2 → d.scopeBad (c.f 4 1 0) = false) :
    unitStart r c d = (d.unitStarted (c.f 4 1 0)).finish r stSuccess (d.unitFirst (c.f 4 1 0)) := by
  have hok : ¬ (c.f 4 1 0 < 2 ∧ d.scopeBad (c.f 4 1 0) = true) := fun ⟨hu, hbad⟩ => by simp [hgood hu] at hbad
  simp only [unitStart, Dev.engOff_of_not_down hup, hup, hok, Bool.false_eq_true, if_false]
  rfl

theorem stuUnitStart_starts (hc : s.dev.clear specUnitStart r c = true) (hup : s.dev.engDown 0x20 27 = false)
    (hgood : c.f 4 1 0 < 2 → s.dev.scopeBad (c.f 4 1 0) = false) :
    ∃ t, exec (.stuUnitStart r) s = .next t ∧ t.pending = s.pending
      ∧ Answered s.dev t.dev r stSuccess (s.dev.unitFirst (c.f 4 1 0))
      ∧ (t.dev.stuUnit (c.f 4 1 0)).running = true ∧ (t.dev.stuUnit (c.f 4 1 0)).stopping = false
      ∧ (c.f 4 1 0 < 2 → (t.dev.stuUnit (c.f 4 1 0)).latched = BitVec.ofNat 32 (s.dev.reg (0x50400 + 0x20 * c.f 4 1 0)))
      ∧ (∀ u, u ≠ c.f 4 1 0 → t.dev.stuUnit u = s.dev.stuUnit u) ∧ t.dev.stu.bufs = s.dev.stu.bufs
      ∧ Keeps (.stu :: byDone) s.dev t.dev := by
  obtain ⟨hnext, ha, hk⟩ := blk_completes (runCmd_eq_runBlk specUnitStart r (unitStart r) ▸ exec_stuUnitStart) hc rfl
    (unitStart_runs hup hgood) (Dev.setUnit_keeps _ _ _) (by decide) (by decide)
  have hunit := (Dev.finish_stuUnit _ r stSuccess (s.dev.unitFirst (c.f 4 1 0)) _).trans
    (s.dev.unitStarted_stuUnit (c.f 4 1 0))
  refine ⟨_, hnext, rfl, ha, ?_, ?_, fun hu => ?_, fun u hu => ?_, ?_, hk⟩
  · exact congrArg StuUnit.running hunit
  · exact congrArg StuUnit.stopping hunit
  · exact (congrArg StuUnit.latched hunit).trans (if_pos hu)
  · exact (Dev.finish_stuUnit _ _ _ _ _).trans (Dev.setUnit_stuUnit_ne _ _ _ hu)
  · simp [Dev.unitStarted, Dev.setUnit]

end Start

/-! ## STU_UNIT_STOP (R228) -/

section Stop

variable {s : State} {r : CmdRef} {c : Cmd} {d : Dev} {u i : Nat}

theorem exec_stuUnitStop : exec (.stuUnitStop r) s = lift (runCmd specUnitStop r (unitStopCmd r)) s := by
  rw [exec, execStuUnitStop]

/-- A command that has begun completes at once, after an effect on other parts of the block. -/
theorem begunCmd_completes {i : Instr} {sp : CmdSpec} {eff : Cmd → Dev → Dev} {e : Dev} {b : List Part} {st res : Nat}
    (hx : exec i s = lift (runCmd sp r eff) s) (hc : s.dev.clear sp r c = true) (he : eff c s.dev = e.finish r st res)
    (hk : Keeps b (s.dev.begin r) e) (hf : .fetch ∉ b) (hl : .link ∉ b) :
    exec i s = .next { s with dev := e.finish r st res } ∧ Answered s.dev (e.finish r st res) r st res
      ∧ Keeps (b ++ byDone) s.dev (e.finish r st res) := by
  have hall : Keeps (b ++ byDone) s.dev (e.finish r st res) :=
    ((s.dev.begin_keeps r).mono (by simp [byDone])).trans (hk.mono (List.subset_append_left _ _)) |>.trans
      ((e.finish_keeps r st res).mono (List.subset_append_right _ _))
  exact ⟨event_effect hx (Dev.clear_idle hc) ((runCmd_clear _ hc).trans he) hall (by simp [hl, byDone]),
    Dev.clear_answered_begun st res hc hk hf, hall⟩

/-- The unit stops for the command `r`, which has begun. -/
def Dev.unitStopping (d : Dev) (r : CmdRef) (u : Nat) : Dev :=
  (d.begin r).setUnit u { d.stuUnit u with stopping := true, stopRef := some r }

/-- The unit at rest. -/
def Dev.unitRested (d : Dev) (u : Nat) : Dev :=
  d.setUnit u { d.stuUnit u with running := false, stopping := false, stopRef := none, cur := none }

/-- The frame in hand has its terminal record. -/
def Dev.unitTerminated (d : Dev) (u i : Nat) : Dev :=
  d.setUnit u { d.stuUnit u with cur := none, lastTerm := some i }

/-- A stop with NOW 1 before the command completes: the frame in hand is CANCELLED and the unit at rest. -/
def Dev.unitCancelled (d : Dev) (r : CmdRef) (u i : Nat) : Dev :=
  (((d.unitStopping r u).scopeCancel u i 0).unitTerminated u i).unitRested u

theorem Dev.unitStopping_stuUnit (d : Dev) (r : CmdRef) (u : Nat) :
    (d.unitStopping r u).stuUnit u = { d.stuUnit u with stopping := true, stopRef := some r } :=
  Dev.setUnit_stuUnit _ _ _

theorem Dev.unitStopping_stuUnit_ne (d : Dev) (r : CmdRef) {u v : Nat} (h : v ≠ u) :
    (d.unitStopping r u).stuUnit v = d.stuUnit v := Dev.setUnit_stuUnit_ne _ _ _ h

theorem Dev.unitStopping_keeps (d : Dev) (r : CmdRef) (u : Nat) : Keeps [.stu] (d.begin r) (d.unitStopping r u) :=
  Dev.setUnit_keeps _ _ _

theorem Dev.unitRested_running (d : Dev) (u : Nat) : ((d.unitRested u).stuUnit u).running = false :=
  congrArg StuUnit.running (Dev.setUnit_stuUnit _ _ _)

theorem Dev.unitCancelled_keeps (d : Dev) (r : CmdRef) (u i : Nat) :
    Keeps (.stu :: byPost) (d.begin r) (d.unitCancelled r u i) :=
  ((d.unitStopping_keeps r u).mono (by simp)).trans ((Dev.scopeCancel_keeps _ _ _ _).mono (by simp)) |>.trans
    ((Dev.setUnit_keeps _ _ _).mono (by simp)) |>.trans ((Dev.setUnit_keeps _ _ _).mono (by simp))

/-- A unit that stops for a command completes it with the last frame that has a terminal record. -/
theorem Dev.unitStop_completes (h : (d.stuUnit u).stopRef = some r) :
    d.unitStop u = (d.unitRested u).finish r stSuccess ((d.stuUnit u).lastTerm.getD ones64) := by
  simp only [Dev.unitStop, h]
  rfl

/-- For a unit that stops, the terminal record of frame `i` is the last: the command completes with `i`. -/
theorem Dev.unitDone_stopping (hs : (d.stuUnit u).stopping = true) (hr : (d.stuUnit u).stopRef = some r) :
    d.unitDone u i = ((d.unitTerminated u i).unitRested u).finish r stSuccess i := by
  have hunit : (d.unitTerminated u i).stuUnit u = { d.stuUnit u with cur := none, lastTerm := some i } :=
    Dev.setUnit_stuUnit _ _ _
  have hdone : d.unitDone u i = (d.unitTerminated u i).unitStop u := by
    simp [Dev.unitDone, Dev.unitTerminated, hs]
  rw [hdone, Dev.unitStop_completes (r := r) (by rw [hunit]; exact hr), hunit]
  rfl

theorem unitStopCmd_idle (h : (d.stuUnit (c.f 4 1 0)).cur = none) :
    unitStopCmd r c d = ((d.unitStopping r (c.f 4 1 0)).unitRested (c.f 4 1 0)).finish r stSuccess
      ((d.stuUnit (c.f 4 1 0)).lastTerm.getD ones64) := by
  have hstop : unitStopCmd r c d = (d.unitStopping r (c.f 4 1 0)).unitStop (c.f 4 1 0) := by
    simp [unitStopCmd, Dev.unitStopping, h]
  rw [hstop, Dev.unitStop_completes (r := r) (by rw [Dev.unitStopping_stuUnit]), Dev.unitStopping_stuUnit]

theorem unitStopCmd_waits (h : (d.stuUnit (c.f 4 1 0)).cur = some i) (hnow : c.b 4 8 = false) :
    unitStopCmd r c d = d.unitStopping r (c.f 4 1 0) := by
  simp [unitStopCmd, Dev.unitStopping, h, hnow]

theorem unitStopCmd_cancels (h : (d.stuUnit (c.f 4 1 0)).cur = some i) (hnow : c.b 4 8 = true) :
    unitStopCmd r c d = (d.unitCancelled r (c.f 4 1 0) i).finish r stSuccess i := by
  have hunit : ((d.unitStopping r (c.f 4 1 0)).scopeCancel (c.f 4 1 0) i 0).stuUnit (c.f 4 1 0)
      = { d.stuUnit (c.f 4 1 0) with stopping := true, stopRef := some r } :=
    (Dev.scopeCancel_stuUnit _ _ _ _ _).trans (Dev.unitStopping_stuUnit _ _ _)
  have hdone : unitStopCmd r c d
      = ((d.unitStopping r (c.f 4 1 0)).scopeCancel (c.f 4 1 0) i 0).unitDone (c.f 4 1 0) i := by
    simp [unitStopCmd, Dev.unitStopping, h, hnow]
  rw [hdone, Dev.unitDone_stopping (r := r) (by rw [hunit]) (by rw [hunit])]
  rfl

theorem stuUnitStop_stops (hc : s.dev.clear specUnitStop r c = true) (hcur : (s.dev.stuUnit (c.f 4 1 0)).cur = none) :
    ∃ t, exec (.stuUnitStop r) s = .next t ∧ t.pending = s.pending
      ∧ Answered s.dev t.dev r stSuccess ((s.dev.stuUnit (c.f 4 1 0)).lastTerm.getD ones64)
      ∧ (t.dev.stuUnit (c.f 4 1 0)).running = false
      ∧ (∀ u, u ≠ c.f 4 1 0 → t.dev.stuUnit u = s.dev.stuUnit u) ∧ Keeps (.stu :: byDone) s.dev t.dev := by
  obtain ⟨hnext, ha, hk⟩ := begunCmd_completes exec_stuUnitStop hc (unitStopCmd_idle hcur)
    ((s.dev.unitStopping_keeps r (c.f 4 1 0)).trans (Dev.setUnit_keeps _ _ _)) (by decide) (by decide)
  refine ⟨_, hnext, rfl, ha, ?_, fun u hu => ?_, hk⟩
  · rw [Dev.finish_stuUnit, Dev.unitRested_running]
  · rw [Dev.finish_stuUnit, Dev.unitRested, Dev.setUnit_stuUnit_ne _ _ _ hu, Dev.unitStopping_stuUnit_ne _ _ hu]

theorem stuUnitStop_waits (hc : s.dev.clear specUnitStop r c = true)
    (hcur : (s.dev.stuUnit (c.f 4 1 0)).cur = some i) (hnow : c.b 4 8 = false) :
    ∃ t, exec (.stuUnitStop r) s = .next t ∧ t.pending = s.pending ∧ Begun s.dev t.dev r c
      ∧ t.dev.stuUnit (c.f 4 1 0) = { s.dev.stuUnit (c.f 4 1 0) with stopping := true, stopRef := some r }
      ∧ (∀ u, u ≠ c.f 4 1 0 → t.dev.stuUnit u = s.dev.stuUnit u) ∧ Keeps [.stu, .fetch] s.dev t.dev := by
  obtain ⟨hnext, hbegun, hk⟩ := blk_begins (runCmd_eq_runBlk specUnitStop r (unitStopCmd r) ▸ exec_stuUnitStop) hc rfl
    (unitStopCmd_waits hcur hnow) (s.dev.unitStopping_keeps r _) (by decide) (by decide) (by decide)
  exact ⟨_, hnext, rfl, hbegun, Dev.unitStopping_stuUnit _ _ _, fun u hu => Dev.unitStopping_stuUnit_ne _ _ hu, hk⟩

theorem stuUnitStop_cancels (hc : s.dev.clear specUnitStop r c = true)
    (hcur : (s.dev.stuUnit (c.f 4 1 0)).cur = some i) (hnow : c.b 4 8 = true) :
    ∃ t, exec (.stuUnitStop r) s = .next t ∧ Answered s.dev t.dev r stSuccess i
      ∧ (t.dev.stuUnit (c.f 4 1 0)).running = false ∧ Keeps (.stu :: .fetch :: byPost) s.dev t.dev := by
  obtain ⟨hnext, ha, hk⟩ := begunCmd_completes exec_stuUnitStop hc (unitStopCmd_cancels hcur hnow)
    (s.dev.unitCancelled_keeps r (c.f 4 1 0) i) (by decide) (by decide)
  refine ⟨_, hnext, ha, ?_, hk.mono (by decide)⟩
  rw [Dev.finish_stuUnit, Dev.unitCancelled, Dev.unitRested_running]

end Stop

/-! ## STU_BUFFER (R240) -/

section Buffer

variable {s : State} {r : CmdRef} {c : Cmd}

/-- A buffer waits behind those of target `t`. -/
def Dev.stuBufAdded (d : Dev) (t : Nat) (b : Buf) : Dev :=
  { d with stu := { d.stu with bufs := SMap.put [] d.stu.bufs t (SMap.get [] d.stu.bufs t ++ [b]) } }

/-- The effect of STU_BUFFER. -/
def stuBufferCmd (r : CmdRef) (c : Cmd) (d : Dev) : Dev :=
  if (SMap.get [] d.stu.bufs (c.f 4 3 0)).length < 16 then
    (d.begin r).stuBufAdded (c.f 4 3 0) { ref := r, a0 := c.q 5, dev := c.b 4 8, len := c.w 7 }
  else d

theorem exec_stuBuffer : exec (.stuBuffer r) s = lift (runCmd specStuBuffer r (stuBufferCmd r)) s := by
  rw [exec, execStuBuffer]
  rfl

theorem stuBuffer_full (hc : s.dev.clear specStuBuffer r c = true)
    (hfull : 16 ≤ (SMap.get [] s.dev.stu.bufs (c.f 4 3 0)).length) : exec (.stuBuffer r) s = .next s :=
  blk_waits (runCmd_eq_runBlk specStuBuffer r (stuBufferCmd r) ▸ exec_stuBuffer) hc rfl (if_neg (Nat.not_lt.mpr hfull))

theorem stuBuffer_begins (hc : s.dev.clear specStuBuffer r c = true)
    (hroom : (SMap.get [] s.dev.stu.bufs (c.f 4 3 0)).length < 16) :
    ∃ t, exec (.stuBuffer r) s = .next t ∧ t.pending = s.pending ∧ Begun s.dev t.dev r c
      ∧ SMap.get [] t.dev.stu.bufs (c.f 4 3 0) = SMap.get [] s.dev.stu.bufs (c.f 4 3 0) ++ [{
          ref := r, a0 := c.q 5, dev := c.b 4 8, len := c.w 7 }]
      ∧ (∀ k, k ≠ c.f 4 3 0 → SMap.get [] t.dev.stu.bufs k = SMap.get [] s.dev.stu.bufs k)
      ∧ t.dev.stu.units = s.dev.stu.units ∧ Keeps [.stu, .fetch] s.dev t.dev := by
  obtain ⟨hnext, hbegun, hk⟩ := blk_begins (runCmd_eq_runBlk specStuBuffer r (stuBufferCmd r) ▸ exec_stuBuffer) hc rfl
    (if_pos hroom) (Dev.stu_keeps _ _) (by decide) (by decide) (by decide)
  exact ⟨_, hnext, rfl, hbegun, SMap.get_put_same _ _ _ _, fun k hk => SMap.get_put_ne _ _ _ hk, rfl, hk⟩

end Buffer

/-- Settles O39: STU_UNIT_START ends in one of three ways by its engine and the scope's set-up, STU_UNIT_STOP in one of
three by the frame in hand and NOW, and STU_BUFFER begins while its target has room. -/
theorem statisticsUnitsAndBuffers : Obligations.StatisticsUnitsAndBuffers := by
  unfold Obligations.StatisticsUnitsAndBuffers
  refine ⟨fun s r c hc => ⟨fun hoff => ?_, fun hup hu hbad => ?_, fun hup hgood => stuUnitStart_starts hc hup hgood⟩,
    fun s r c hc => ⟨fun hcur => stuUnitStop_stops hc hcur, fun i hcur hnow => stuUnitStop_waits hc hcur hnow,
      fun i hcur hnow => stuUnitStop_cancels hc hcur hnow⟩,
    fun s r c hc => ⟨fun hfull => stuBuffer_full hc hfull, fun hroom => stuBuffer_begins hc hroom⟩⟩
  · exact spkCmd_answers exec_stuUnitStart hc (unitStart_off hoff)
  · exact spkCmd_answers exec_stuUnitStart hc (unitStart_bad hup hu hbad)

end Sys2Proof.Machine
end

section
/-! SUPPORT. Encode sessions: a session just written, the frames that wait there, a close with nothing left, and what
each command does (O41). -/

namespace Sys2Proof.SMap

/-- Of two writes to one place the later stands. -/
theorem ins_ins {α : Type} (m : SMap α) (k : Nat) (v w : α) : ins (ins m k v) k w = ins m k w := by
  induction m with
  | nil => simp [ins]
  | cons a t ih =>
    obtain ⟨j, u⟩ := a
    obtain hlt | heq | hgt := Nat.lt_trichotomy k j
    · simp [ins, hlt]
    · simp [ins, heq]
    · simp [ins, Nat.lt_asymm hgt, Nat.ne_of_lt hgt, ih]

end Sys2Proof.SMap

namespace Sys2Proof.Machine

open Sys2Proof

theorem mem_updFirst {α : Type} {p : α → Bool} {f : α → α} {l : List α} {x : α} (h : x ∈ updFirst p f l) :
    x ∈ l ∨ ∃ a ∈ l, x = f a := by
  induction l with
  | nil => simp [updFirst] at h
  | cons a t ih =>
    unfold updFirst at h
    split at h
    · obtain rfl | hx := List.mem_cons.mp h
      · exact .inr ⟨a, by simp, rfl⟩
      · exact .inl (List.mem_cons_of_mem _ hx)
    · obtain rfl | hx := List.mem_cons.mp h
      · exact .inl (by simp)
      · exact (ih hx).imp (List.mem_cons_of_mem _) fun ⟨y, hy, hxy⟩ => ⟨y, List.mem_cons_of_mem _ hy, hxy⟩

/-- The first number of a range that satisfies `p`. -/
theorem find_rangeFrom {p : Nat → Bool} {a m n : Nat} (ha : a ≤ n) (hm : n < a + m) (hp : p n = true)
    (hno : ∀ k, a ≤ k → k < n → p k = false) : (rangeFrom a m).find? p = some n := by
  induction m generalizing a with
  | zero => omega
  | succ m ih =>
    obtain rfl | hlt := Nat.eq_or_lt_of_le ha
    · simp [rangeFrom, hp]
    · simp only [rangeFrom, List.find?_cons, hno a (Nat.le_refl a) hlt]
      exact ih hlt (by omega) fun k hk => hno k (by omega)

/-! ## A session and its neighbours -/

section Sessions

variable {b : List Part} {d e : Dev} {x : EncSession}

theorem Dev.codec_keeps (d : Dev) (v : CodecB) : Keeps [.codec] d { d with codec := v } := by
  intro p hp
  cases p <;> simp_all [Part.same]

theorem Dev.setEnc_keeps (d : Dev) (h : Nat) (v : Option EncSession) : Keeps [.codec] d (d.setEnc h v) :=
  d.codec_keeps _

theorem Keeps.encOpt (hk : Keeps b d e) (hb : .codec ∉ b) (h : Nat) : e.enc? h = d.enc? h := by
  have hcodec : e.codec = d.codec := hk .codec hb
  unfold Dev.enc?
  rw [hcodec]

theorem Dev.finish_encOpt (d : Dev) (r : CmdRef) (st res h : Nat) : (d.finish r st res).enc? h = d.enc? h :=
  (d.finish_keeps r st res).encOpt (by decide) h

theorem Dev.begin_encOpt (d : Dev) (r : CmdRef) (h : Nat) : (d.begin r).enc? h = d.enc? h := rfl

/-- A session that is written twice is as the later write has it. -/
theorem Dev.setEnc_setEnc (d : Dev) (h : Nat) (x y : EncSession) :
    (d.setEnc h (some x)).setEnc h (some y) = d.setEnc h (some y) := by
  simp [Dev.setEnc, SMap.put, SMap.ins_ins]

/-- A change of an open session is a write of it. -/
theorem Dev.modEnc_some {h : Nat} (he : d.enc? h = some x) (f : EncSession → EncSession) :
    d.modEnc h f = d.setEnc h (some (f x)) := by
  simp [Dev.modEnc, he]

theorem Dev.modEnc_keeps (d : Dev) (h : Nat) (f : EncSession → EncSession) : Keeps [.codec] d (d.modEnc h f) := by
  unfold Dev.modEnc
  split
  · exact .refl _ _
  · exact d.setEnc_keeps _ _

end Sessions

/-! ## Frames that wait for a job (R251) -/

section Frames

variable {d : Dev} {h : Nat} {x : EncSession}

theorem Dev.encTidy_keeps (d : Dev) (h : Nat) : Keeps [.codec, .ctrs] d (d.encTidy h) := by
  unfold Dev.encTidy
  split
  · exact .refl _ _
  · split
    · exact .refl _ _
    · exact ((d.setEnc_keeps _ _).mono (by simp)).trans ((Dev.count_keeps _ _ _).mono (by simp))

theorem Dev.encTidy_no_frames (he : d.enc? h = some x) (hf : x.frames = []) : d.encTidy h = d := by
  simp [Dev.encTidy, he, hf]

/-- Frames at the encoder input find their jobs; the others are counted. -/
theorem Dev.encTidy_matches (he : d.enc? h = some x) (hf : x.frames ≠ []) : d.encTidy h
    = (d.setEnc h (some { x with frames := (matchFrames (d.encPend h x) x.frames).1 })).count 0x60040
        (matchFrames (d.encPend h x) x.frames).2 := by
  simp [Dev.encTidy, he, hf]

theorem matchFrames_later {f : EncFrame} {a : Nat} (js : List Nat) (h : a < f.num) :
    matchFrames (a :: js) [f] = ([f], 0) := by
  simp [matchFrames, h]

theorem matchFrames_earlier {f : EncFrame} {a : Nat} (h : f.num ≤ a) : matchFrames [a] [f] = ([], 1) := by
  simp [matchFrames, Nat.not_lt.mpr h]

end Frames

/-! ## A session that closes with nothing left (R271) -/

section Closing

variable {d : Dev} {h : Nat} {x : EncSession} {r : CmdRef}

/-- Fetched jobs of a session that have not begun: none is left. -/
theorem Dev.jobsLeft_nil_iff (cls : Nat) : d.jobsLeft cls h = [] ↔
    ∀ c ∈ d.hif.cmds, c.cls = cls → c.opc = 3 → c.handle = h → c.begun = true := by
  simp [Dev.jobsLeft, List.filter_eq_nil_iff, and_imp]

/-- Jobs that PXE has not begun are jobs in the session's queue and fetched jobs whose row has not run. -/
theorem Dev.encPend_nothing (hj : x.jobs = []) (hl : d.jobsLeft 4 h = []) : d.encPend h x = [] := by
  rw [Dev.jobsLeft_nil_iff] at hl
  simp only [Dev.encPend, hj, List.map_nil, List.nil_append, List.map_eq_nil_iff, List.filter_eq_nil_iff]
  intro c hc
  have hbegun := hl c hc
  simp only [Bool.and_eq_true, beq_iff_eq, Bool.not_eq_true', not_and, and_imp]
  intro hcls hopc hh hopen
  simp [hbegun hcls hopc hh] at hopen

/-- A command that begins is no job that has not begun. -/
theorem Dev.begin_jobsLeft (r : CmdRef) (hl : d.jobsLeft 4 h = []) : (d.begin r).jobsLeft 4 h = [] := by
  rw [Dev.jobsLeft_nil_iff] at hl ⊢
  intro c hc hcls hopc hh
  obtain hold | ⟨a, -, rfl⟩ := mem_updFirst hc
  · exact hl c hold hcls hopc hh
  · rfl

theorem Dev.encLost_nothing (ho : ∀ n, n < 8 → ∀ y ∈ (d.spkOf n).encOut, y.1 ≠ h) : d.encLost h = d := by
  unfold Dev.encLost
  refine List.foldlRecOn (motive := (· = d)) _ _ rfl fun e he n hn => ?_
  obtain ⟨-, hn⟩ := mem_rangeFrom.mp hn
  have hnone : (d.spkOf n).encOut.any (·.1 == h) = false := by
    simpa using fun a b hab => ho n (by omega) (a, b) hab
  simp [he, hnone]

/-- A session that closes with no frame, no job and no picture left is gone, and its ENC_CLOSE completes. -/
theorem Dev.encSettle_closes (he : d.enc? h = some x) (hf : x.frames = []) (hj : x.jobs = [])
    (hl : d.jobsLeft 4 h = []) (ho : ∀ n, n < 8 → ∀ y ∈ (d.spkOf n).encOut, y.1 ≠ h) (hcur : x.cur = none)
    (hc : x.closing = some r) : d.encSettle h = (d.setEnc h none).finish r stSuccess (x.lastPic.getD ones32) := by
  unfold Dev.encSettle
  simp only [Dev.encTidy_no_frames he hf, he, hc, hcur, Dev.encPend_nothing hj hl, Dev.encLost_nothing ho]
  rfl

/-- While a picture is in hand, a close waits. -/
theorem Dev.encSettle_waits (he : d.enc? h = some x) (hf : x.frames = []) (hcur : x.cur.isSome = true) :
    d.encSettle h = d := by
  unfold Dev.encSettle
  simp only [Dev.encTidy_no_frames he hf, he, hcur]
  split <;> rfl

end Closing

/-! ## ENC_OPEN (R272) -/

section Open

variable {s : State} {r : CmdRef} {c : Cmd} {blk : List Byte}

theorem exec_encOpen : exec (.encOpen r blk) s = lift (runCmd (specEncOpenOf blk) r (encOpen blk r)) s := by
  rw [exec, execEncOpen]

/-- A command that completes at once after it has written a session. -/
theorem encBlk_writes {i : Instr} {sp : CmdSpec} {addr : Nat} {offs : Dev → Cmd → List Nat} {eff : Cmd → Dev → Dev}
    {h st res : Nat} {v : Option EncSession} (hx : exec i s = lift (runBlk sp addr offs r eff) s)
    (hc : s.dev.clear sp r c = true) (ho : offs s.dev c = [])
    (he : eff c s.dev = (s.dev.setEnc h v).finish r st res) :
    ∃ t, exec i s = .next t ∧ t.pending = s.pending ∧ Answered s.dev t.dev r st res ∧ t.dev.enc? h = v
      ∧ (∀ k, k ≠ h → t.dev.enc? k = s.dev.enc? k) ∧ t.dev.codec.dec = s.dev.codec.dec
      ∧ Keeps (.codec :: byDone) s.dev t.dev := by
  obtain ⟨hnext, ha, hk⟩ := blk_completes hx hc ho he (Dev.setEnc_keeps _ _ _) (by decide) (by decide)
  refine ⟨_, hnext, rfl, ha, (Dev.finish_encOpt _ _ _ _ _).trans (Dev.setEnc_encOpt _ _ _),
    fun k hne => (Dev.finish_encOpt _ _ _ _ _).trans (Dev.setEnc_encOpt_ne _ _ _ hne), ?_, hk⟩
  simp [Dev.setEnc]

theorem encOpen_offends (hc : s.dev.clear (specEncOpenOf blk) r c = true)
    (ho : s.dev.encOffs c (s.dev.blockOf false 0 256 blk) ≠ []) :
    ∃ t res, exec (.encOpen r blk) s = .next t ∧ Answered s.dev t.dev r stInvalidField res
      ∧ Keeps byDone s.dev t.dev := by
  obtain ⟨o, hmin⟩ := Option.ne_none_iff_exists'.mp (mt minOff_eq_none_iff.mp ho)
  obtain ⟨t, hdone⟩ := spkCmd_answers exec_encOpen hc
    (show encOpen blk r c s.dev = s.dev.finish r stInvalidField o.result by simp only [encOpen, hmin])
  exact ⟨t, o.result, hdone⟩

variable (hc : s.dev.clear (specEncOpenOf blk) r c = true) (ho : s.dev.encOffs c (s.dev.blockOf false 0 256 blk) = [])

include hc ho

theorem encOpen_engineDown (hoff : s.dev.codecOff = true) :
    ∃ t, exec (.encOpen r blk) s = .next t ∧ Answered s.dev t.dev r stEngineDown 0 ∧ Keeps byDone s.dev t.dev :=
  spkCmd_answers exec_encOpen hc (by simp only [encOpen, minOff_eq_none_iff.mpr ho, hoff, if_true])

theorem encOpen_opens (hoff : s.dev.codecOff = false) :
    ∃ t, exec (.encOpen r blk) s = .next t ∧ t.pending = s.pending ∧ Answered s.dev t.dev r stSuccess 0
      ∧ t.dev.enc? c.handle = some (newEnc c (s.dev.blockOf false 0 256 blk))
      ∧ (∀ h, h ≠ c.handle → t.dev.enc? h = s.dev.enc? h) ∧ t.dev.codec.dec = s.dev.codec.dec
      ∧ Keeps (.codec :: byDone) s.dev t.dev :=
  encBlk_writes (runCmd_eq_runBlk _ r (encOpen blk r) ▸ exec_encOpen) hc rfl
    (by simp only [encOpen, minOff_eq_none_iff.mpr ho, hoff, Bool.false_eq_true, if_false])

end Open

/-! ## ENC_PICTURE (R250, R268) -/

section Picture

variable {s : State} {r : CmdRef} {c : Cmd} {hb : Nat} {b : List Part} {e : Dev}

/-- ENC_PICTURE has the effect `e` of its class, and a job that ended with it leaves its frame to the next. -/
theorem encPicture_next (hc : s.dev.clear specEncPicture r c = true) (he : encPicture hb r c s.dev = e)
    (hk : Keeps b s.dev (if (e.cmd? r).isSome then e else e.encTidy c.handle)) (hl : .link ∉ b) :
    exec (.encPicture r hb) s
      = .next { s with dev := if (e.cmd? r).isSome then e else e.encTidy c.handle } := by
  refine event_effect (f := fun d => if ((runCmd specEncPicture r (encPicture hb r) d).cmd? r).isSome then
      runCmd specEncPicture r (encPicture hb r) d else (d.cmd? r).elim (runCmd specEncPicture r (encPicture hb r) d)
        fun c => (runCmd specEncPicture r (encPicture hb r) d).encTidy c.handle) ?_ (Dev.clear_idle hc) ?_ hk hl
  · rw [exec, execEncPicture]
  · simp only [runCmd_clear _ hc, he, Dev.clear_cmd hc, Option.elim_some]

variable (hc : s.dev.clear specEncPicture r c = true)

include hc

theorem encPicture_engineDown (hgone : s.dev.codecGone = true) :
    ∃ t, exec (.encPicture r hb) s = .next t ∧ Answered s.dev t.dev r stEngineDown 0
      ∧ Keeps (.codec :: .ctrs :: byDone) s.dev t.dev := by
  have he : encPicture hb r c s.dev = s.dev.finish r stEngineDown 0 := if_pos hgone
  have ha := Dev.clear_answered (e := s.dev) stEngineDown 0 hc rfl
  have hdev : (if ((s.dev.finish r stEngineDown 0).cmd? r).isSome then s.dev.finish r stEngineDown 0
      else (s.dev.finish r stEngineDown 0).encTidy c.handle) = (s.dev.finish r stEngineDown 0).encTidy c.handle := by
    obtain ⟨-, hnone⟩ := ha
    simp [hnone]
  have hk := ((s.dev.finish_keeps r stEngineDown 0).mono (b := .codec :: .ctrs :: byDone) (by simp)).trans
    ((Dev.encTidy_keeps _ c.handle).mono (by simp))
  have hnext := encPicture_next hc he (hdev ▸ hk) (by decide)
  rw [hdev] at hnext
  exact ⟨_, hnext, ha.of_keeps (Dev.encTidy_keeps _ _) (by decide) (by decide), hk⟩

theorem encPicture_waits (hgone : s.dev.codecGone = false) (hahead : s.dev.jobAhead c = true) :
    exec (.encPicture r hb) s = .next s := by
  have he : encPicture hb r c s.dev = s.dev := by simp [encPicture, hgone, hahead]
  have hsome : (s.dev.cmd? r).isSome = true := by simp [Dev.clear_cmd hc]
  exact (encPicture_next hc he (by rw [if_pos hsome]; exact .refl [] _) (by decide)).trans (by rw [if_pos hsome])

theorem encPicture_joins {x : EncSession} (hx : s.dev.enc? c.handle = some x) (hgone : s.dev.codecGone = false)
    (hahead : s.dev.jobAhead c = false) :
    ∃ t, exec (.encPicture r hb) s = .next t ∧ t.pending = s.pending ∧ Begun s.dev t.dev r c
      ∧ t.dev.enc? c.handle = some { x with jobs := x.jobs ++ [{ ref := r, num := c.num, headerBits := hb }] }
      ∧ (∀ h, h ≠ c.handle → t.dev.enc? h = s.dev.enc? h) ∧ Keeps [.codec, .fetch] s.dev t.dev := by
  have he : encPicture hb r c s.dev = (s.dev.begin r).setEnc c.handle
      (some { x with jobs := x.jobs ++ [{ ref := r, num := c.num, headerBits := hb }] }) := by
    simp only [encPicture, hgone, hahead, Bool.false_eq_true, if_false]
    exact Dev.modEnc_some ((s.dev.begin_encOpt r _).trans hx) _
  have hset := (s.dev.begin r).setEnc_keeps c.handle
    (some { x with jobs := x.jobs ++ [{ ref := r, num := c.num, headerBits := hb }] })
  have hbegun : Begun s.dev _ r c := .of_keeps (Dev.clear_cmd hc) hset (by decide) (by decide)
  have hsome := hbegun.1 ▸ Option.isSome_some
  have hk := ((s.dev.begin_keeps r).mono (b := [.codec, .fetch]) (by simp)).trans (hset.mono (by simp))
  have hnext := encPicture_next hc he (by rw [if_pos hsome]; exact hk) (by decide)
  rw [if_pos hsome] at hnext
  exact ⟨_, hnext, rfl, hbegun, Dev.setEnc_encOpt _ _ _, fun h hne => Dev.setEnc_encOpt_ne _ _ _ hne, hk⟩

end Picture

/-! ## ENC_SET_RC (R269) -/

section SetRc

variable {s : State} {r : CmdRef} {c : Cmd} {blk : List Byte} {x : EncSession}

theorem encSetRc_waits (hc : s.dev.clear specEncSetRc r c = true) (hx : s.dev.enc? c.handle = some x)
    (hrc : rcBad x (s.dev.blockOf false 0 64 blk) = []) :
    ∃ t, exec (.encSetRc r blk) s = .next t ∧ t.pending = s.pending
      ∧ Answered s.dev t.dev r stSuccess ((x.picNum + if x.cur.isSome then 1 else 0) % 4294967296)
      ∧ t.dev.enc? c.handle = some { x with pendRc := some (s.dev.blockOf false 0 64 blk) }
      ∧ (∀ h, h ≠ c.handle → t.dev.enc? h = s.dev.enc? h) ∧ Keeps (.codec :: byDone) s.dev t.dev := by
  obtain ⟨t, hnext, hpend, ha, henc, hother, -, hk⟩ := encBlk_writes (i := .encSetRc r blk)
    (h := c.handle) (v := some { x with pendRc := some (s.dev.blockOf false 0 64 blk) }) (st := stSuccess)
    (res := (x.picNum + if x.cur.isSome then 1 else 0) % 4294967296) (by rw [exec, execEncSetRc]) hc
    (by simp only [Dev.setRcBad, hx]; exact hrc)
    (by simp only [Dev.modEnc_some hx, hx, Option.map_some, Option.getD_some])
  exact ⟨t, hnext, hpend, ha, henc, hother, hk⟩

end SetRc

/-! ## ENC_CLOSE (R271) -/

section Close

variable {s : State} {r : CmdRef} {c : Cmd} {x : EncSession}

theorem exec_encClose : exec (.encClose r) s = lift (runCmd specEncClose r (encClose r)) s := by
  rw [exec, execEncClose]

/-- The session `x` closes for the command `r`, which has begun. -/
def Dev.encClosing (d : Dev) (r : CmdRef) (h : Nat) (x : EncSession) : Dev :=
  (d.begin r).setEnc h (some { x with closing := some r })

theorem Dev.encClosing_encOpt (d : Dev) (r : CmdRef) (h : Nat) (x : EncSession) :
    (d.encClosing r h x).enc? h = some { x with closing := some r } := Dev.setEnc_encOpt _ _ _

theorem Dev.encClosing_encOpt_ne (d : Dev) (r : CmdRef) {h k : Nat} (x : EncSession) (hne : k ≠ h) :
    (d.encClosing r h x).enc? k = d.enc? k := Dev.setEnc_encOpt_ne _ _ _ hne

/-- Where no job is left, NOW makes no difference. -/
theorem encClose_no_jobs {d : Dev} (hx : d.enc? c.handle = some x) (hl : d.jobsLeft 4 c.handle = [])
    (hj : x.jobs = []) : encClose r c d = (d.encClosing r c.handle x).encSettle c.handle := by
  have hmod : (d.begin r).modEnc c.handle (fun v => { v with closing := some r }) = d.encClosing r c.handle x :=
    Dev.modEnc_some ((d.begin_encOpt r _).trans hx) _
  have hleft : (d.encClosing r c.handle x).jobsLeft 4 c.handle = [] := Dev.begin_jobsLeft r hl
  have hjobs : (d.encClosing r c.handle x).modEnc c.handle (fun v => { v with jobs := [] })
      = d.encClosing r c.handle x := by
    rw [Dev.modEnc_some (d.encClosing_encOpt r c.handle x), Dev.encClosing, Dev.setEnc_setEnc, ← hj]
  simp only [encClose, hmod, hleft, hjobs, Dev.encClosing_encOpt, Option.map_some, Option.getD_some, hj, List.map_nil,
    List.append_nil]
  split <;> rfl

variable (hc : s.dev.clear specEncClose r c = true) (hx : s.dev.enc? c.handle = some x)
  (hl : s.dev.jobsLeft 4 c.handle = []) (hj : x.jobs = []) (hf : x.frames = [])

include hc hx hl hj hf

theorem encClose_closes (ho : ∀ n, n < 8 → ∀ y ∈ (s.dev.spkOf n).encOut, y.1 ≠ c.handle) (hcur : x.cur = none) :
    ∃ t, exec (.encClose r) s = .next t ∧ t.pending = s.pending
      ∧ Answered s.dev t.dev r stSuccess (x.lastPic.getD 4294967295) ∧ t.dev.enc? c.handle = none
      ∧ (∀ h, h ≠ c.handle → t.dev.enc? h = s.dev.enc? h) ∧ Keeps (.codec :: byDone) s.dev t.dev := by
  have hclosing := s.dev.encClosing_encOpt r c.handle x
  have he : encClose r c s.dev = ((s.dev.encClosing r c.handle x).setEnc c.handle none).finish r stSuccess
      (x.lastPic.getD ones32) := by
    rw [encClose_no_jobs hx hl hj]
    exact Dev.encSettle_closes (x := { x with closing := some r }) hclosing hf hj (Dev.begin_jobsLeft r hl) ho hcur rfl
  obtain ⟨hnext, ha, hk⟩ := begunCmd_completes exec_encClose hc he
    ((Dev.setEnc_keeps _ _ _).trans (Dev.setEnc_keeps _ _ _)) (by decide) (by decide)
  exact ⟨_, hnext, rfl, ha, (Dev.finish_encOpt _ _ _ _ _).trans (Dev.setEnc_encOpt _ _ _), fun h hne =>
    (Dev.finish_encOpt _ _ _ _ _).trans ((Dev.setEnc_encOpt_ne _ _ _ hne).trans (Dev.encClosing_encOpt_ne _ _ _ hne)),
    hk⟩

theorem encClose_waits (hcur : x.cur.isSome = true) :
    ∃ t, exec (.encClose r) s = .next t ∧ Begun s.dev t.dev r c
      ∧ t.dev.enc? c.handle = some { x with closing := some r }
      ∧ (∀ h, h ≠ c.handle → t.dev.enc? h = s.dev.enc? h) ∧ Keeps [.codec, .fetch] s.dev t.dev := by
  have hclosing := s.dev.encClosing_encOpt r c.handle x
  have he : encClose r c s.dev = s.dev.encClosing r c.handle x :=
    (encClose_no_jobs hx hl hj).trans (Dev.encSettle_waits (x := { x with closing := some r }) hclosing hf hcur)
  obtain ⟨hnext, hbegun, hk⟩ := blk_begins (runCmd_eq_runBlk specEncClose r (encClose r) ▸ exec_encClose) hc rfl he
    (Dev.setEnc_keeps _ _ _) (by decide) (by decide) (by decide)
  exact ⟨_, hnext, hbegun, hclosing, fun h hne => s.dev.encClosing_encOpt_ne r x hne, hk⟩

end Close

/-! ## ENCODER_FRAME_ARRIVAL (R251) -/

section Arrival

variable {s : State} {d : Dev} {h n : Nat} {b : EncBind} {rest : List (Nat × EncBind)} {x : EncSession}

/-- The session with a frame at its encoder input that it had not. -/
def framedEnc (x : EncSession) (b : EncBind) (num : Nat) : EncSession :=
  { x with frames := x.frames ++ [{ bind := b, num := num }] }

/-- A frame has come from sprocket `n` to the encoder input of session `x`. -/
def Dev.encArrived (d : Dev) (h n : Nat) (b : EncBind) (rest : List (Nat × EncBind)) (x : EncSession) : Dev :=
  (d.modSpk n fun v => { v with encOut := rest }).setEnc h (some (framedEnc x b d.hif.fetchNum))

theorem Dev.encArrival_arrives (hn : n < 8) (hout : (d.spkOf n).encOut = (h, b) :: rest)
    (hfirst : ∀ k, k < n → ∀ y ∈ (d.spkOf k).encOut, ¬ (y.1 = h ∧ y.2.index = b.index)) (hx : d.enc? h = some x) :
    d.encArrival h b.index = (d.encArrived h n b rest x).encTidy h := by
  have hfind : ((rangeFrom 0 8).find? fun k =>
      (d.spkOf k).encOut.any fun y => y.1 == h && y.2.index == b.index) = some n := by
    refine find_rangeFrom (Nat.zero_le n) (by omega) (by simp [hout]) fun k _ hk => ?_
    simpa using fun y z hy => not_and.mp (hfirst k hk (y, z) hy)
  have hmod : (d.modSpk n fun v => { v with encOut := v.encOut.erase (h, b) })
      = d.modSpk n fun v => { v with encOut := rest } := by
    simp [Dev.modSpk, hout]
  have henc : (d.modSpk n fun v => { v with encOut := rest }).enc? h = some x := hx
  have hhead : (d.spkOf n).encOut.find? (fun y => y.1 == h && y.2.index == b.index) = some (h, b) := by simp [hout]
  simp only [Dev.encArrival, hfind, hhead, hmod, Dev.modEnc_some henc]
  rfl

theorem Dev.encArrived_encPend (d : Dev) (h n : Nat) (b : EncBind) (rest : List (Nat × EncBind)) (x : EncSession)
    (num : Nat) : (d.encArrived h n b rest x).encPend h (framedEnc x b num) = d.encPend h x := rfl

theorem Dev.encArrived_keeps (d : Dev) (h n : Nat) (b : EncBind) (rest : List (Nat × EncBind)) (x : EncSession) :
    Keeps [.spk, .codec, .ctrs] d (d.encArrived h n b rest x) :=
  ((d.modSpk_keeps n _).mono (by simp)).trans ((Dev.setEnc_keeps _ h _).mono (by simp))

theorem encoderFrameArrival_matches {m : List EncFrame × Nat} (hi : s.dev.idleMode = true) (hn : n < 8)
    (hout : (s.dev.spkOf n).encOut = (h, b) :: rest)
    (hfirst : ∀ k, k < n → ∀ y ∈ (s.dev.spkOf k).encOut, ¬ (y.1 = h ∧ y.2.index = b.index))
    (hx : s.dev.enc? h = some x)
    (hm : m = matchFrames (s.dev.encPend h x) (x.frames ++ [{ bind := b, num := s.dev.hif.fetchNum }])) :
    ∃ t, exec (.encoderFrameArrival h b.index) s = .next t ∧ t.dev.enc? h = some { x with frames := m.1 }
      ∧ t.dev.ctrs = (s.dev.count 0x60040 m.2).ctrs ∧ t.dev.spkOf n = { s.dev.spkOf n with encOut := rest }
      ∧ (∀ k, k ≠ h → t.dev.enc? k = s.dev.enc? k) ∧ Keeps [.spk, .codec, .ctrs] s.dev t.dev := by
  subst hm
  have harrived : (s.dev.encArrived h n b rest x).enc? h = some (framedEnc x b s.dev.hif.fetchNum) :=
    Dev.setEnc_encOpt _ _ _
  have htidy := Dev.encTidy_matches harrived (by simp [framedEnc])
  rw [Dev.encArrived_encPend] at htidy
  have he := (Dev.encArrival_arrives hn hout hfirst hx).trans htidy
  have hk := (Dev.encArrived_keeps s.dev h n b rest x).trans
    ((Dev.encTidy_keeps (s.dev.encArrived h n b rest x) h).mono (List.subset_cons_self _ _))
  rw [htidy] at hk
  refine ⟨_, event_effect (f := fun d => d.encArrival h b.index) (by rw [exec, execEncoderFrameArrival]) hi he hk
    (by decide), ?_, rfl, ?_, fun k hne => ?_, hk⟩
  · exact ((Dev.count_keeps _ _ _).encOpt (by decide) h).trans (Dev.setEnc_encOpt _ _ _)
  · exact Dev.modSpk_spkOf s.dev n fun v => { v with encOut := rest }
  · exact ((Dev.count_keeps _ _ _).encOpt (by decide) k).trans ((Dev.setEnc_encOpt_ne _ _ _ hne).trans
      (Dev.setEnc_encOpt_ne _ _ _ hne))

end Arrival

/-- Settles O41: each command by what its class answers and by what it leaves of its session, a frame that arrives by
the match of frames and jobs, and that match for one frame. -/
theorem encodeSessions : Obligations.EncodeSessions := by
  unfold Obligations.EncodeSessions
  refine ⟨fun s r c blk b hc hb => ?opens, fun s r c hb x hc hx => ⟨fun hgone => encPicture_engineDown hc hgone,
      fun hgone hahead => encPicture_waits hc hgone hahead, fun hgone hahead => encPicture_joins hc hx hgone hahead⟩,
    fun s r c blk x hc hx hrc => encSetRc_waits hc hx hrc,
    fun s r c x hc hx hl hj hf ho => ⟨fun hcur => encClose_closes hc hx hl hj hf ho hcur,
      fun hcur => encClose_waits hc hx hl hj hf hcur⟩,
    fun s h i n b rest x m hi hn hb hout hfirst hx hm => ?arrival,
    fun f a js => ⟨matchFrames_later js, matchFrames_earlier⟩⟩
  case opens =>
    subst hb
    refine ⟨encOpen_offends hc, encOpen_engineDown hc, fun ho hoff => ?_⟩
    obtain ⟨t, hnext, hpend, ha, henc, hother⟩ := encOpen_opens hc ho hoff
    exact ⟨t, _, hnext, hpend, ha, henc, rfl, rfl, rfl, rfl, rfl, rfl, rfl, rfl, rfl, rfl, rfl, rfl, rfl, rfl, hother⟩
  case arrival =>
    subst hb
    exact encoderFrameArrival_matches hi hn hout hfirst hx hm

end Sys2Proof.Machine
end

section
/-! SUPPORT. What ending work leaves alone (R94, R270, R273, R485): settling a session or a volume, cutting a command
and stopping a codec slice let completions and records leave, remove contexts, and touch no reset of an engine (O42). -/

namespace Sys2Proof.Machine

open Sys2Proof

/-! ## Buffers that a job writes -/

section Buffers

variable {d : Dev}

theorem Dev.undefMem_keeps (d : Dev) (addr len : Nat) : Keeps [.mem] d (d.undefBuf true addr len) := by
  intro p hp
  cases p <;> simp_all [Part.same, Dev.undefBuf]

theorem Dev.writeHost_keeps (d : Dev) (addr len : Nat) (body : List Fld) :
    Keeps [.out] d (d.writeFields false addr len body) := Dev.emit_keeps _ _

theorem Dev.encWorked_keeps (d : Dev) (x : EncSession) : Keeps [.mem] d (d.encWorked x) := d.undefMem_keeps _ _

theorem Dev.undefBuf_keeps (d : Dev) (dev : Bool) (addr len : Nat) :
    Keeps [.mem, .out] d (d.undefBuf dev addr len) := by
  cases dev with
  | true => exact (d.undefMem_keeps addr len).mono (by simp)
  | false => exact (d.emit_keeps _).mono (by simp)

end Buffers

/-! ## The relation -/

/-- `e` comes of `d` by ending work: what has left stays left, no context comes back while no operation on a queue
waits, the resets of the engines stand, and so does a change of mode. -/
structure Dev.OnlyEnds (d e : Dev) : Prop where
  grows : d.OutGrows e
  eng : e.eng = d.eng
  mode : e.hif.modeChange = d.hif.modeChange
  gone : d.hif.queueOps = [] → e.hif.queueOps = [] ∧ ∀ r, d.cmd? r = none → e.cmd? r = none

/-- A part without commands, resets, a change of mode and what has left: a change of it ends nothing. -/
def Part.quiet : Part → Bool
  | .fetch | .eng | .link | .out => false
  | _ => true

section Relation

variable {b : List Part} {d e x : Dev}

theorem Dev.OnlyEnds.refl (d : Dev) : d.OnlyEnds d := ⟨.refl d, rfl, rfl, fun ho => ⟨ho, fun _ h => h⟩⟩

theorem Dev.OnlyEnds.trans (h : d.OnlyEnds e) (k : e.OnlyEnds x) : d.OnlyEnds x where
  grows := h.grows.trans k.grows
  eng := k.eng.trans h.eng
  mode := k.mode.trans h.mode
  gone ho := by
    obtain ⟨hops, hnone⟩ := h.gone ho
    obtain ⟨hops', hnone'⟩ := k.gone hops
    exact ⟨hops', fun r hr => hnone' r (hnone r hr)⟩

theorem Dev.OnlyEnds.foldl {α : Type} {f : Dev → α → Dev} (h : d.OnlyEnds e) (hf : ∀ x a, Dev.OnlyEnds x (f x a))
    (l : List α) : d.OnlyEnds (l.foldl f e) :=
  List.foldlRecOn l f h fun _ hx a _ => hx.trans (hf _ a)

/-- A change that leaves commands and resets alone, and takes back nothing that has left. -/
theorem Keeps.endsOf (hk : Keeps b d e) (ho : d.OutGrows e) (hf : .fetch ∉ b) (he : .eng ∉ b) (hl : .link ∉ b) :
    d.OnlyEnds e := by
  obtain ⟨-, hcmds, hops, -⟩ := hk .fetch hf
  refine ⟨ho, hk .eng he, hk.modeChange hl, fun hnil => ⟨hops.trans hnil, fun r hr => ?_⟩⟩
  unfold Dev.cmd?
  rwa [hcmds]

theorem Keeps.onlyEnds (hk : Keeps b d e) (hb : b.all Part.quiet = true) : d.OnlyEnds e := by
  have hnot : ∀ p, p.quiet = false → p ∉ b := fun p hp hmem => by simp [List.all_eq_true.mp hb p hmem] at hp
  exact hk.endsOf (hk.outGrows (hnot _ rfl)) (hnot _ rfl) (hnot _ rfl) (hnot _ rfl)

theorem Dev.OnlyEnds.keeps (h : d.OnlyEnds e) (hk : Keeps b e x) (hb : b.all Part.quiet = true) :
    d.OnlyEnds x := h.trans (hk.onlyEnds hb)

theorem Dev.OnlyEnds.finish (h : d.OnlyEnds e) (r : CmdRef) (st res : Nat) : d.OnlyEnds (e.finish r st res) :=
  h.trans ⟨e.finish_outGrows r st res, e.finish_keeps r st res .eng (by decide),
    (e.finish_keeps r st res).modeChange (by decide),
    fun ho => ⟨Dev.finish_no_queueOps r st res ho, fun _ => Dev.finish_cmd_none r st res ho⟩⟩

theorem Dev.OnlyEnds.finishAll (h : d.OnlyEnds e) (rs : List CmdRef) (st res : Nat) :
    d.OnlyEnds (e.finishAll rs st res) := h.foldl (fun x r => (Dev.OnlyEnds.refl x).finish r st res) rs

theorem Dev.OnlyEnds.emit (h : d.OnlyEnds e) (o : Out) : d.OnlyEnds (e.emit o) :=
  h.trans ((e.emit_keeps o).endsOf (e.emit_outGrows o) (by decide) (by decide)
    (by decide))

theorem Dev.OnlyEnds.log (h : d.OnlyEnds e) (sev code m n page inst frame : Nat) (tag : Option Nat) :
    d.OnlyEnds (e.log sev code m n page inst frame tag) :=
  h.trans ((e.log_keeps sev code m n page inst frame tag).endsOf (e.log_outGrows _ _ _ _ _ _ _ _) (by decide)
    (by decide) (by decide))

theorem Dev.OnlyEnds.undefBuf (h : d.OnlyEnds e) (dev : Bool) (addr len : Nat) :
    d.OnlyEnds (e.undefBuf dev addr len) := by
  cases dev with
  | true => exact h.keeps (e.undefMem_keeps addr len) rfl
  | false => exact h.emit _

/-- Work under a condition. -/
theorem Dev.OnlyEnds.ite {c : Prop} [Decidable c] (h : d.OnlyEnds e) (k : d.OnlyEnds x) :
    d.OnlyEnds (if c then e else x) := by
  split
  · exact h
  · exact k

theorem Answered.ends {r : CmdRef} {st res : Nat} (h : Answered d e r st res) (ho : e.hif.queueOps = [])
    (k : e.OnlyEnds x) : Answered d x r st res := by
  obtain ⟨hleft, hcmd⟩ := h
  obtain ⟨-, hnone⟩ := k.gone ho
  exact ⟨k.grows hleft, hnone r hcmd⟩

end Relation

/-! ## Parts that a change of state keeps -/

section Parts

theorem Dev.lse_keeps (d : Dev) (v : LseB) : Keeps [.lse] d { d with lse := v } := by
  intro p hp
  cases p <;> simp_all [Part.same]

theorem Dev.recd_keeps (d : Dev) (v : RecB) : Keeps [.recd] d { d with recd := v } := by
  intro p hp
  cases p <;> simp_all [Part.same]

theorem Dev.teu_keeps (d : Dev) (v : TeuB) : Keeps [.teu] d { d with teu := v } := by
  intro p hp
  cases p <;> simp_all [Part.same]

theorem Dev.hub_keeps (d : Dev) (v : HubB) : Keeps [.hub] d { d with hub := v } := by
  intro p hp
  cases p <;> simp_all [Part.same]

theorem Dev.setDec_keeps (d : Dev) (h : Nat) (v : Option DecSession) : Keeps [.codec] d (d.setDec h v) :=
  d.codec_keeps _

theorem Dev.modDec_keeps (d : Dev) (h : Nat) (f : DecSession → DecSession) : Keeps [.codec] d (d.modDec h f) := by
  unfold Dev.modDec
  split
  · exact .refl _ _
  · exact d.setDec_keeps _ _

theorem Dev.modRaw_keeps (d : Dev) (p : Nat) (f : RawSession → RawSession) : Keeps [.lse] d (d.modRaw p f) := by
  unfold Dev.modRaw
  split
  · exact .refl _ _
  · exact Dev.setRaw_keeps _ _ _

theorem Dev.setVol_keeps (d : Dev) (n : Nat) (v : Volume) : Keeps [.recd] d (d.setVol n v) := d.recd_keeps _

theorem Dev.modRec_keeps (d : Dev) (r : CmdRef) (f : RecCmd → RecCmd) : Keeps [.recd] d (d.modRec r f) :=
  d.recd_keeps _

end Parts

/-! ## Sessions and volumes settle -/

section Settling

variable (d : Dev)

theorem Dev.encLost_keeps (h : Nat) : Keeps [.spk, .ctrs] d (d.encLost h) :=
  Keeps.foldl _ (fun e n => (Keeps.refl _ e).ifThen
    (((e.modSpk_keeps n _).mono (by simp)).trans ((Dev.count_keeps _ _ _).mono (by simp)))) _ _

theorem Dev.encSettle_ends (h : Nat) : d.OnlyEnds (d.encSettle h) := by
  have htidy := (d.encTidy_keeps h).onlyEnds rfl
  unfold Dev.encSettle
  simp only
  split
  · exact htidy
  · split
    · exact htidy
    · exact htidy.ite (((htidy.keeps (Dev.encLost_keeps _ h) rfl).keeps (Dev.setEnc_keeps _ _ _) rfl).finish _ _ _)

theorem Dev.flushSettle_ends (h : Nat) : d.OnlyEnds (d.flushSettle h) := by
  unfold Dev.flushSettle
  split
  · exact .refl d
  · split
    · exact (((d.setDec_keeps h _).onlyEnds rfl).finish _ _ _).ite (.refl d)
    · exact .refl d

theorem Dev.closeDrain_ends (h : Nat) : d.OnlyEnds (d.closeDrain h) := by
  unfold Dev.closeDrain
  split
  · exact .refl d
  · exact (((d.setDec_keeps h _).onlyEnds rfl).trans (Dev.flushSettle_ends _ h)).ite (.refl d)

theorem Dev.closeSettle_ends (h : Nat) : d.OnlyEnds (d.closeSettle h) := by
  unfold Dev.closeSettle
  split
  · exact .refl d
  · split
    · exact .refl d
    · exact (Dev.OnlyEnds.refl d).ite ((((d.setDec_keeps h _).onlyEnds rfl).finishAll _ _ _).finish _ _ _)

theorem Dev.decSettle_ends (h : Nat) : d.OnlyEnds (d.decSettle h) :=
  ((d.flushSettle_ends h).trans (Dev.closeDrain_ends _ h)).trans (Dev.closeSettle_ends _ h)

theorem Dev.lseSettle_ends (h : Nat) : d.OnlyEnds (d.lseSettle h) := by
  unfold Dev.lseSettle
  split
  · exact .refl d
  · exact (((d.lse_keeps _).onlyEnds rfl).finish _ _ _).ite (.refl d)

theorem Dev.rawSettle_ends (p : Nat) : d.OnlyEnds (d.rawSettle p) := by
  unfold Dev.rawSettle
  split
  · exact .refl d
  · split
    · exact .refl d
    · exact (Dev.OnlyEnds.refl d).ite ((((d.lse_keeps _).onlyEnds rfl).finishAll _ _ _).finish _ _ _)

theorem Dev.recChange_ends (e : RecEvent) : d.OnlyEnds (d.recChange e) := by
  unfold Dev.recChange
  split
  · exact ((d.recd_keeps _).onlyEnds rfl).finish _ _ _
  · exact (d.recd_keeps _).onlyEnds rfl

theorem Dev.volTo_ends (n st : Nat) : d.OnlyEnds (d.volTo n st) :=
  (Dev.OnlyEnds.refl d).ite (((d.setVol_keeps n _).onlyEnds rfl).trans (Dev.recChange_ends _ _))

theorem Dev.volSettle_ends (n : Nat) : d.OnlyEnds (d.volSettle n) := by
  have hmarkers : ∀ (e : Dev) (m : Member), e.OnlyEnds
      (if (e.slot m.slot).present then e.clearMarker (e.slot m.slot).drive else e) := fun e m =>
    ((e.recd_keeps _).onlyEnds rfl).ite (.refl e)
  unfold Dev.volSettle
  simp only
  split
  · exact (Dev.OnlyEnds.refl d).ite (((d.setVol_keeps n {}).onlyEnds rfl).keeps (Dev.recd_keeps _ _) rfl)
  · split
    · exact .refl d
    · exact (Dev.OnlyEnds.refl d).ite
        (((((Dev.OnlyEnds.refl d).foldl hmarkers _).trans (Dev.volTo_ends _ n 0)).keeps
          (Dev.setVol_keeps _ _ _) rfl).finish _ _ _)

theorem Dev.settleAll_ends : d.OnlyEnds d.settleAll :=
  ((((Dev.OnlyEnds.refl d).foldl Dev.encSettle_ends _).foldl Dev.decSettle_ends _).foldl Dev.lseSettle_ends _).foldl
    Dev.rawSettle_ends _ |>.foldl Dev.volSettle_ends _

end Settling

/-! ## The codec slices stop (R273, R291) -/

section CodecStops

variable (d : Dev)

theorem Dev.encCut_ends (h st : Nat) : d.OnlyEnds (d.encCut h st) := by
  unfold Dev.encCut
  split
  · exact .refl d
  · have hout := ((d.modEnc_keeps h fun x => { x with cur := none }).onlyEnds rfl).undefBuf
    exact (((hout _ _ _).ite ((hout _ _ _).undefBuf _ _ _)).finish _ _ _).trans (Dev.encSettle_ends _ h)

theorem Dev.encReset_ends (st : Nat) : d.OnlyEnds (d.encReset st) :=
  (Dev.OnlyEnds.refl d).foldl (fun e h => ((e.modEnc_keeps h _).onlyEnds rfl).trans (Dev.encCut_ends _ h st)) _

theorem Dev.decReset_ends (st : Nat) : d.OnlyEnds (d.decReset st) := by
  refine (Dev.OnlyEnds.refl d).foldl (fun e h => ?_) _
  split
  · exact .refl e
  · refine Dev.OnlyEnds.trans ?_ (Dev.decSettle_ends _ h)
    split
    · exact ((e.setDec_keeps h _).onlyEnds rfl).finish _ _ _
    · exact (e.setDec_keeps h _).onlyEnds rfl

theorem Dev.hubLower_keeps (p : Nat) : Keeps [.hub] d (d.hubLower p) := by
  refine Keeps.foldl _ (fun e k => ?_) _ _
  simp only
  split
  · exact .refl _ _
  · exact e.hub_keeps _

theorem Dev.codecStop_ends {code : Nat} (hlo : 0x28 ≤ code) (hhi : code < 0x2E) (st : Nat) :
    d.OnlyEnds (d.engStop code st) := by
  have hhalt : d.engHalt code st = (d.encReset st).decReset st := by
    unfold Dev.engHalt
    rw [if_neg (by omega), if_neg (by omega), if_neg (by omega), if_pos hhi]
  have hstop := (((d.encReset_ends st).trans (Dev.decReset_ends _ st)).trans (Dev.settleAll_ends _)).foldl
    (fun e p => (e.hubLower_keeps p).onlyEnds rfl) (engPorts code)
  unfold Dev.engStop
  rw [hhalt]
  exact (hstop.keeps (Dev.dbg_keeps _ _) rfl).ite hstop

end CodecStops

/-! ## A begun command is cut (R94, R96) -/

/-- Whatever a cut answers comes of ending work. -/
def Dev.MayEnd (d : Dev) (o : Option Dev) : Prop := ∀ e ∈ o, d.OnlyEnds e

section Cuts

variable {d e : Dev} {o o' : Option Dev}

theorem Dev.MayEnd.none : d.MayEnd none := fun _ h => by simp at h

theorem Dev.OnlyEnds.mayEnd (h : d.OnlyEnds e) : d.MayEnd (some e) := fun _ he => (Option.mem_some.mp he) ▸ h

theorem Dev.mayEnd_map {α : Type} {l : Option α} {f : α → Dev} (hf : ∀ a, d.OnlyEnds (f a)) : d.MayEnd (l.map f) := by
  intro e he
  obtain ⟨a, -, rfl⟩ := Option.map_eq_some_iff.mp he
  exact hf a

theorem Dev.MayEnd.map (h : d.MayEnd o) {f : Dev → Dev} (hf : ∀ e : Dev, e.OnlyEnds (f e)) : d.MayEnd (o.map f) := by
  intro x hx
  obtain ⟨e, he, rfl⟩ := Option.map_eq_some_iff.mp hx
  exact (h e he).trans (hf e)

theorem Dev.MayEnd.or (h : d.MayEnd o) (k : d.MayEnd o') : d.MayEnd (o.or o') := by
  cases o with
  | none => exact k
  | some e => exact h

theorem Dev.MayEnd.finish (h : d.MayEnd o) (r : CmdRef) (st res : Nat) :
    d.MayEnd (o.map fun e => e.finish r st res) := h.map fun e => (Dev.OnlyEnds.refl e).finish r st res

variable (d)

/-! Programs of a port: places that a cut frees are taken (R135, R136, R139). -/

theorem Dev.missWrites_ends (g : Prog) : d.OnlyEnds (d.missWrites g) :=
  ((d.modPort_keeps _ _).onlyEnds rfl).ite (((d.modPort_keeps _ _).onlyEnds rfl).finish _ _ _)

theorem Dev.missOthers_ends (p n : Nat) : d.OnlyEnds (d.missOthers p n) :=
  (Dev.OnlyEnds.refl d).foldl Dev.missWrites_ends _

/-- A program is applied, its command completes, and the others that aim at its frame miss it. -/
theorem Dev.appliedProg_ends (g f : Prog) (st n : Nat) :
    d.OnlyEnds ((((d.dropProg g.port g.ref).applyProg f).finish g.ref st n).missOthers g.port n) :=
  ((((d.modPort_keeps _ _).onlyEnds rfl).keeps (Dev.modPort_keeps _ _ _) rfl).finish _ _ _).trans
    (Dev.missOthers_ends _ _ _)

theorem Dev.missProg_ends (g : Prog) : d.OnlyEnds (d.missProg g) :=
  (d.missWrites_ends g).ite (d.appliedProg_ends g _ _ _)

theorem Dev.judgeProg_ends (g : Prog) : d.OnlyEnds (d.judgeProg g) :=
  (Dev.OnlyEnds.refl d).ite <| (d.missProg_ends g).ite <|
    (d.appliedProg_ends g _ _ _).ite ((d.modPort_keeps _ _).onlyEnds rfl)

theorem Dev.admitWaiting_ends (p n : Nat) : d.OnlyEnds (d.admitWaiting p n) := by
  induction n generalizing d with
  | zero => exact .refl d
  | succ n ih =>
    unfold Dev.admitWaiting
    simp only
    split
    · exact (((((d.setPort_keeps p _).onlyEnds rfl).keeps (Dev.modPort_keeps _ _ _) rfl).trans
        (Dev.judgeProg_ends _ _)).trans (ih _)).ite (.refl d)
    · exact .refl d

theorem Dev.refill_ends (p : Nat) : d.OnlyEnds (d.refill p) := d.admitWaiting_ends p _

theorem Dev.cutProg_ends (r : CmdRef) : d.MayEnd (d.cutProg r) :=
  Dev.mayEnd_map fun _ => (d.modPort_keeps _ _).onlyEnds rfl

/-! Memory to the sprockets: a sequencer frame, a block, a buffer, the frame in hand (R132, R177, R204, R223). -/

theorem Dev.mpEnd_ends (st index : Nat) : d.OnlyEnds (d.mpEnd st index) := by
  unfold Dev.mpEnd
  split
  · exact .refl d
  · exact ((d.modPort_keeps 4 _).onlyEnds rfl).finish _ _ _

theorem Dev.cutMp_ends (r : CmdRef) (st : Nat) : d.MayEnd (d.cutMp r st) := by
  unfold Dev.cutMp
  split
  · exact .none
  · split
    · exact (d.mpEnd_ends st 0).mayEnd
    · exact ((d.modPort_keeps 4 _).onlyEnds rfl).mayEnd

theorem Dev.cutBlk_ends (r : CmdRef) : d.MayEnd (d.cutBlk r) := by
  unfold Dev.cutBlk
  split
  · exact (((d.setRfe_keeps _ _).onlyEnds rfl).keeps (Dev.cbe_keeps _ _) rfl).mayEnd
  · exact Dev.mayEnd_map fun _ => (d.setLut_keeps _ _).onlyEnds rfl

theorem Dev.cutSpk_ends (r : CmdRef) : d.MayEnd (d.cutSpk r) :=
  Dev.mayEnd_map fun n => (d.modSpk_keeps n _).onlyEnds rfl

theorem Dev.submitEnd_ends (m : Submit) (st res : Nat) : d.OnlyEnds (d.submitEnd m st res) := by
  unfold Dev.submitEnd
  split
  · exact ((Dev.OnlyEnds.refl d).finish _ _ _).ite ((Dev.OnlyEnds.refl d).finish _ _ _)
  · exact (Dev.OnlyEnds.refl d).finish _ _ _

theorem Dev.submitDone_ends (f : SpkFrame) (st res : Nat) : d.OnlyEnds (d.submitDone f st res) := by
  unfold Dev.submitDone
  split
  · exact d.submitEnd_ends _ _ _
  · exact .refl d

theorem Dev.unitStop_ends (u : Nat) : d.OnlyEnds (d.unitStop u) := by
  have hset := fun v => (d.setUnit_keeps u v).onlyEnds rfl
  unfold Dev.unitStop
  simp only
  split
  · exact (hset _).finish _ _ _
  · exact hset _

theorem Dev.scopeDrop_ends (kind id : Nat) : d.OnlyEnds (d.scopeDrop kind id) :=
  (Dev.OnlyEnds.refl d).foldl (fun e u =>
    (((e.setUnit_keeps u _).onlyEnds rfl).trans (Dev.unitStop_ends _ u)).ite ((e.setUnit_keeps u _).onlyEnds rfl)) _

theorem Dev.spkHalt_ends (n : Nat) : d.OnlyEnds (d.spkHalt n) := by
  unfold Dev.spkHalt
  simp only
  have hset := fun v => (Dev.setSpk_keeps (d := d) (n := n) v).onlyEnds rfl
  have hpilot := fun v => ((hset v).keeps (Dev.boot_keeps _ { d.boot with pilot := none }) rfl).ite
    (c := n = 0) (hset v)
  have hdone := fun v l rs => (((hpilot v).foldl (fun e m => e.submitEnd_ends m stAborted ones64) l).finishAll
    rs stAborted ones64).keeps (Dev.sweepFrames_keeps _) rfl
  split
  · exact (hdone _ _ _).finish _ _ _
  · exact hdone _ _ _

theorem Dev.spkNext_ends (n : Nat) : d.OnlyEnds (d.spkNext n) :=
  (((d.modSpk_keeps n _).onlyEnds rfl).trans (Dev.spkHalt_ends _ n)).ite
    (((d.modSpk_keeps n _).onlyEnds rfl).keeps (Dev.sweepFrames_keeps _) rfl)

theorem Dev.spkSpoil_ends (n st res : Nat) : d.OnlyEnds (d.spkSpoil n st res) := by
  unfold Dev.spkSpoil
  split
  · exact .refl d
  · split
    · exact .refl d
    · exact (((d.modSpk_keeps n _).onlyEnds rfl).foldl (fun e p => (Dev.OnlyEnds.refl e).undefBuf _ _ _) _).finish _ _ _

theorem Dev.spkAbandon_ends (n : Nat) (st : Option (Nat × Nat)) : d.OnlyEnds (d.spkAbandon n st) := by
  unfold Dev.spkAbandon
  split
  · exact .refl d
  · refine (Dev.OnlyEnds.trans ?_ (Dev.submitDone_ends _ _ _ _)).trans (Dev.scopeDrop_ends _ 0 n) |>.trans
      (Dev.spkNext_ends _ n)
    split
    · exact (d.modSpk_keeps n _).onlyEnds rfl
    · exact d.spkSpoil_ends n _ _
    · exact .refl d

theorem Dev.cutFilling_ends (r : CmdRef) (st : Nat) : d.MayEnd (d.cutFilling r st) :=
  Dev.mayEnd_map fun n => (((d.count_keeps _ _).onlyEnds rfl).trans (Dev.spkSpoil_ends _ n st 0)).trans
    (Dev.spkAbandon_ends _ n Option.none)

/-! The recorder: a command that ends lets others go on (R326, R329, R335). -/

theorem Dev.issuePiece_ends (r : CmdRef) (off : Nat) : d.OnlyEnds (d.issuePiece r off) := by
  unfold Dev.issuePiece
  split
  · exact .refl d
  · split
    · exact .refl d
    · exact (Dev.OnlyEnds.refl d).ite <| (Dev.OnlyEnds.refl d).ite <| ((d.modRec_keeps r _).onlyEnds rfl).ite <|
        (Dev.OnlyEnds.refl d).ite (((d.modRec_keeps r _).onlyEnds rfl).emit _)

theorem Dev.recDone_ends (c : RecCmd) : d.OnlyEnds (d.recDone c) := by
  have hout := (d.recd_keeps { d.recd with cmds := d.recd.cmds.filter (·.ref != c.ref) }).onlyEnds rfl
  exact (((hout.keeps (Dev.setVol_keeps _ c.vol _) rfl).ite hout).finish _ _ _).trans (Dev.volSettle_ends _ _)

theorem Dev.recGo_ends (r : CmdRef) : d.OnlyEnds (d.recGo r) := by
  unfold Dev.recGo
  split
  · exact .refl d
  · have hturn := fun f => (d.modRec_keeps r f).onlyEnds rfl
    have hissued := fun f (l : List Piece) =>
      (hturn f).ite (c := (d.modRec r f).recDown = true) ((hturn f).foldl (fun x p => x.issuePiece_ends r p.off) l)
    simp only
    split
    · exact hissued _ _
    · exact ((hissued _ _).trans (Dev.recDone_ends _ _)).ite (hissued _ _)

theorem Dev.recPump_ends (n : Nat) : d.OnlyEnds (Dev.recPump n d) := by
  induction n generalizing d with
  | zero => exact .refl d
  | succ n ih => exact ((Dev.OnlyEnds.refl d).foldl Dev.recGo_ends _).trans (ih _)

theorem Dev.recCut_ends (r : CmdRef) (st : Nat) : d.OnlyEnds (d.recCut r st) := by
  unfold Dev.recCut
  split
  · exact .refl d
  · exact ((((d.recd_keeps _).onlyEnds rfl).finish _ _ _).trans (Dev.volSettle_ends _ _)).ite
      (((d.modRec_keeps r _).onlyEnds rfl).trans (Dev.recPump_ends _ _))

theorem Dev.cutRec_ends (r : CmdRef) (st : Nat) : d.MayEnd (d.cutRec r st) := by
  unfold Dev.cutRec
  split
  · exact (((d.recd_keeps _).onlyEnds rfl).finish _ _ _).mayEnd
  · split
    · split
      · exact .none
      · exact (d.recCut_ends r st).mayEnd
    · exact .none

/-! The other classes: what waits is taken out. -/

theorem Dev.setLock_ends (n : Nat) (l : Lock) : d.OnlyEnds (d.setLock n l) :=
  ⟨.refl _, rfl, rfl, fun ho => ⟨ho, fun _ h => h⟩⟩

theorem Dev.cutLock_ends (r : CmdRef) : d.MayEnd (d.cutLock r) := Dev.mayEnd_map fun _ => d.setLock_ends _ _

theorem Dev.cutStu_ends (r : CmdRef) : d.MayEnd (d.cutStu r) := Dev.mayEnd_map fun _ => (d.stu_keeps _).onlyEnds rfl

theorem Dev.encAbort_ends (r : CmdRef) (st : Nat) : d.OnlyEnds (d.encAbort r st) := by
  unfold Dev.encAbort
  split
  · exact .refl d
  · exact (((d.modEnc_keeps _ _).onlyEnds rfl).finish _ _ _).trans (Dev.encSettle_ends _ _)

theorem Dev.cutDec_ends (r : CmdRef) : d.MayEnd (d.cutDec r) :=
  Dev.mayEnd_map fun _ => (d.modDec_keeps _ _).onlyEnds rfl

theorem Dev.cutRaw_ends (r : CmdRef) : d.MayEnd (d.cutRaw r) :=
  Dev.mayEnd_map fun _ => (d.modRaw_keeps _ _).onlyEnds rfl

theorem Dev.cutSco_ends (r : CmdRef) : d.MayEnd (d.cutSco r) :=
  Dev.mayEnd_map fun k => (d.setRaster_keeps k _).onlyEnds rfl

theorem Dev.cutTeu_ends (r : CmdRef) (st : Nat) : d.MayEnd (d.cutTeu r st) := by
  unfold Dev.cutTeu
  split
  · exact (((d.teu_keeps _).onlyEnds rfl).finish _ _ _).mayEnd
  · split
    · exact .none
    · split
      · exact .none
      · split
        · exact ((d.teu_keeps _).onlyEnds rfl).mayEnd
        · exact (((d.teu_keeps _).onlyEnds rfl).finish _ _ _).mayEnd

theorem Dev.cutTw_ends (r : CmdRef) : d.MayEnd (d.cutTw r) :=
  Dev.mayEnd_map fun c => (d.modCtl_keeps c _).onlyEnds rfl

/-- A begun command, by its class. -/
theorem Dev.cutBegun_ends (c : Cmd) (st : Nat) : d.MayEnd (d.cutBegun c st) := by
  unfold Dev.cutBegun
  simp only
  split
  · exact (d.cutLock_ends c.ref).finish _ _ _
  · split
    · exact d.cutMp_ends c.ref st
    · exact ((d.cutProg_ends c.ref).finish _ _ _).map fun e => (Dev.OnlyEnds.refl e).foldl Dev.refill_ends _
  · exact (((d.cutBlk_ends c.ref).or (d.cutSpk_ends c.ref)).finish _ _ _).or (d.cutFilling_ends c.ref st)
  · exact (d.cutStu_ends c.ref).finish _ _ _
  · split
    · exact (d.encAbort_ends c.ref st).mayEnd
    · exact .none
  · exact (d.cutDec_ends c.ref).finish _ _ _
  · exact (d.cutRaw_ends c.ref).finish _ _ _
  · exact d.cutRec_ends c.ref st
  · exact (d.cutSco_ends c.ref).finish _ _ _
  · exact d.cutTeu_ends c.ref st
  · exact (d.cutTw_ends c.ref).finish _ _ _
  · exact .none

theorem Dev.cutOpt_ends (c : Cmd) (st : Nat) : d.MayEnd (d.cut? c st) := by
  unfold Dev.cut?
  split
  · exact .none
  · split
    · exact (d.cutBegun_ends c st).map Dev.settleAll_ends
    · exact (((Dev.OnlyEnds.refl d).finish _ _ _).trans (Dev.settleAll_ends _)).mayEnd

theorem Dev.cut_ends (st : Nat) (r : CmdRef) : d.OnlyEnds (d.cut st r) := by
  unfold Dev.cut
  split
  · exact .refl d
  · next c _ =>
    cases hcut : d.cut? c st with
    | none => exact .refl d
    | some e => exact d.cutOpt_ends c st e hcut

end Cuts

/-! ## A failed check (R493, R494) -/

section Fault

variable {d e : Dev} {h k : Nat} {x : EncSession} {p : EncPic} {r : CmdRef} {st res : Nat}

/-- The islands of the codec slices (Table 19-1). -/
theorem codec_islands (hlo : 0x28 ≤ k) (hhi : k < 0x2E) :
    engIsland k = some (k - 12) ∧ engOfIsland (k - 12) = some k := by
  have hslice : ∀ j < 6, engIsland (0x28 + j) = some (0x28 + j - 12)
      ∧ engOfIsland (0x28 + j - 12) = some (0x28 + j) := by
    decide
  obtain ⟨j, rfl⟩ := Nat.exists_eq_add_of_le hlo
  exact hslice j (by omega)

theorem Dev.codecDisable_ends (hlo : 0x28 ≤ k) (hhi : k < 0x2E) (d : Dev) (cause : Nat) (tag : Option Nat) :
    d.OnlyEnds (d.islandDisable (k - 12) cause tag).1 := by
  obtain ⟨-, hisland⟩ := codec_islands hlo hhi
  unfold Dev.islandDisable
  simp only [hisland]
  exact (((((d.setIsl_keeps _ _).onlyEnds rfl).keeps (Dev.pwr_keeps _ _ _) rfl).trans
    (Dev.codecStop_ends _ hlo hhi stEngineDown)).foldl (fun e q => e.cut_ends stEngineDown q) _).log _ _ _ _ _ _ _ _

/-- An autonomous reset of a codec slice: work ends, the reset begins, and at the third of them work ends again. -/
theorem Dev.codecReset_begins (hlo : 0x28 ≤ k) (hhi : k < 0x2E) (d : Dev) (tag : Option Nat) :
    ∃ (e : Dev) (v : EngB), d.OnlyEnds e ∧ Dev.OnlyEnds { e with eng := v } (d.autoReset k tag)
      ∧ ∃ y ∈ v.resets, y.code = k ∧ y.auto = true := by
  obtain ⟨hisland, -⟩ := codec_islands hlo hhi
  unfold Dev.autoReset
  simp only [hisland, Option.elim_some, Dev.enterReset]
  refine ⟨_, _, ?_, (Dev.codecDisable_ends hlo hhi _ 1 none).ite (.refl _), by simp⟩
  exact (((d.draw_keeps.onlyEnds rfl).log _ _ _ _ _ _ _ _).keeps (Dev.count_keeps _ _ _) rfl).trans
    (Dev.codecStop_ends _ hlo hhi stEngineReset)

theorem Dev.eng_keeps (d : Dev) (v : EngB) : Keeps [.eng] d { d with eng := v } := by
  intro q hq
  cases q <;> simp_all [Part.same]

/-- The job in hand ends where its session's engine fails. -/
theorem Dev.Answerable.encCut (ha : d.Answerable p.ref) (hx : d.enc? h = some x) (hp : x.cur = some p) (st : Nat) :
    Answered d (d.encCut h st) p.ref st 0 ∧ (d.encCut h st).hif.queueOps = [] := by
  have hcut : ∃ e, Keeps [.codec, .mem, .out] d e ∧ d.encCut h st = (e.finish p.ref st 0).encSettle h := by
    simp only [Dev.encCut, hx, Option.bind_some, hp]
    refine ⟨_, ?_, rfl⟩
    exact (((d.modEnc_keeps h _).mono (by simp)).trans ((Dev.undefBuf_keeps _ _ _ _).mono (by simp))).ifElse
      ((Dev.undefBuf_keeps _ _ _ _).mono (by simp))
  obtain ⟨e, hk, he⟩ := hcut
  have hready := ha.of_keeps hk (by decide)
  have hops := Dev.finish_no_queueOps p.ref st 0 hready.noOps
  have hsettle := (e.finish p.ref st 0).encSettle_ends h
  rw [he]
  exact ⟨((hready.finish st 0).ends hops hsettle).before hk (by decide), (hsettle.gone hops).1⟩

theorem Dev.Answerable.rowFault (ha : d.Answerable p.ref) (hx : d.enc? h = some x) (hp : x.cur = some p)
    (hs : d.sliceServes k = true) : Answered d (d.rowFault h k) p.ref stInternal 0
      ∧ (∃ y ∈ (d.rowFault h k).eng.resets, y.code = k ∧ y.auto = true)
      ∧ (d.rowFault h k).hif.modeChange = d.hif.modeChange := by
  obtain ⟨⟨hlo, hhi⟩, -⟩ : (0x28 ≤ k ∧ k < 0x2E) ∧ _ := by simpa [Dev.sliceServes] using hs
  obtain ⟨hans, hops⟩ := ha.encCut hx hp stInternal
  have hfault : d.rowFault h k = (d.encCut h stInternal).autoReset k (d.tagOf p.ref) := by
    simp [Dev.rowFault, hx, hp, hs]
  obtain ⟨e, v, hends, hreset, y, hy, hcode⟩ :=
    Dev.codecReset_begins hlo hhi (d.encCut h stInternal) (d.tagOf p.ref)
  obtain ⟨hops', -⟩ := hends.gone hops
  have hheld := (hans.ends hops hends).of_keeps (e.eng_keeps v) (by decide) (by decide)
  rw [hfault]
  refine ⟨hheld.ends hops' hreset, ⟨y, hreset.eng ▸ hy, hcode⟩, ?_⟩
  exact hreset.mode.trans (hends.mode.trans (d.encCut_ends h stInternal).mode)

theorem eneRowCommit_faults {s : State} {row : RowBits} (hi : s.dev.idleMode = true) (hx : s.dev.enc? h = some x)
    (hp : x.cur = some p) (ha : s.dev.Answerable p.ref) (hrow : row.internal = some k)
    (hs : s.dev.sliceServes k = true) :
    ∃ t y, exec (.eneRowCommit h row) s = .next t ∧ Answered s.dev t.dev p.ref stInternal 0 ∧ y ∈ t.dev.eng.resets
      ∧ y.code = k ∧ y.auto = true := by
  have hexec : exec (.eneRowCommit h row) s = lift (fun d => d.rowFault h k) s := by
    rw [exec, execEneRowCommit, hrow]
  obtain ⟨hans, ⟨y, hy, hcode⟩, hmode⟩ := ha.rowFault hx hp hs
  exact ⟨_, y, hexec.trans (lift_idle hi hmode), hans, hy, hcode⟩

end Fault

end Sys2Proof.Machine
end

section
/-! SUPPORT. Rows of a picture that is coded: what PXE begins and what ENE commits (O42). -/

namespace Sys2Proof.Machine

open Sys2Proof

/-! ## A session that is not closing settles by its frames alone -/

section Settles

variable {d : Dev} {h : Nat} {x : EncSession}

theorem Dev.encSettle_open (he : d.enc? h = some x) (hc : x.closing = none) :
    (∃ fs, (d.encSettle h).enc? h = some { x with frames := fs }) ∧ Keeps [.codec, .ctrs] d (d.encSettle h) := by
  have htidy : ∃ fs, (d.encTidy h).enc? h = some { x with frames := fs } := by
    by_cases hf : x.frames = []
    · exact ⟨x.frames, by rw [Dev.encTidy_no_frames he hf, he]⟩
    · rw [Dev.encTidy_matches he hf]
      exact ⟨_, ((Dev.count_keeps _ _ _).encOpt (by decide) h).trans (Dev.setEnc_encOpt _ _ _)⟩
  obtain ⟨fs, hfs⟩ := htidy
  have hsettle : d.encSettle h = d.encTidy h := by
    unfold Dev.encSettle
    simp only [hfs, hc]
  exact ⟨⟨fs, hsettle ▸ hfs⟩, hsettle ▸ d.encTidy_keeps h⟩

/-- A job that ends, in a session that is not closing, is answered and leaves its session to its frames. -/
theorem Dev.Answerable.encEnds {r : CmdRef} (ha : d.Answerable r) (he : d.enc? h = some x) (hc : x.closing = none)
    (st res : Nat) : Answered d ((d.finish r st res).encSettle h) r st res
      ∧ (∃ fs, ((d.finish r st res).encSettle h).enc? h = some { x with frames := fs })
      ∧ Keeps (.codec :: .ctrs :: byDone) d ((d.finish r st res).encSettle h) := by
  obtain ⟨hfs, hk⟩ := Dev.encSettle_open ((d.finish_encOpt r st res h).trans he) hc
  exact ⟨(ha.finish st res).of_keeps hk (by decide) (by decide), hfs,
    ((d.finish_keeps r st res).mono (by simp)).trans (hk.mono (by simp))⟩

end Settles

/-! ## PXE (R254, R256, R263) -/

section Pxe

variable {s : State} {d : Dev} {h : Nat} {x : EncSession} {p : EncPic}

theorem exec_pxeRowStart : exec (.pxeRowStart h) s = lift (fun d => d.pxeRow h) s := by
  rw [exec, execPxeRowStart]

/-- The session `y` stands in place of `x`, and PXE has used the workspace. -/
theorem Dev.encWrites (d : Dev) (h : Nat) (x y : EncSession) :
    ((d.setEnc h (some y)).encWorked x).enc? h = some y
      ∧ (∀ k, k ≠ h → ((d.setEnc h (some y)).encWorked x).enc? k = d.enc? k)
      ∧ Keeps [.codec, .mem] d ((d.setEnc h (some y)).encWorked x) := by
  have hwork := (d.setEnc h (some y)).encWorked_keeps x
  exact ⟨(hwork.encOpt (by decide) h).trans (Dev.setEnc_encOpt _ _ _),
    fun k hne => (hwork.encOpt (by decide) k).trans (Dev.setEnc_encOpt_ne _ _ _ hne),
    ((d.setEnc_keeps h _).mono (by simp)).trans (hwork.mono (by simp))⟩

section Next

variable (hi : s.dev.idleMode = true) (hx : s.dev.enc? h = some x) (hup : s.dev.pxeUp = true) (hp : x.cur = some p)

include hi hx hup hp

theorem pxeRowStart_next (hleft : p.begun < encRows x) (hahead : p.begun ≤ p.committed + s.dev.fld 0x60000 2 0) :
    ∃ t, exec (.pxeRowStart h) s = .next t
      ∧ t.dev.enc? h = some { x with cur := some { p with begun := p.begun + 1 } }
      ∧ (∀ k, k ≠ h → t.dev.enc? k = s.dev.enc? k) ∧ Keeps [.codec, .mem] s.dev t.dev := by
  obtain ⟨henc, hother, hk⟩ := s.dev.encWrites h x { x with cur := some { p with begun := p.begun + 1 } }
  have he : s.dev.pxeRow h
      = (s.dev.setEnc h (some { x with cur := some { p with begun := p.begun + 1 } })).encWorked x := by
    simp [Dev.pxeRow, hx, hup, hp, hleft, hahead]
  exact ⟨_, event_effect exec_pxeRowStart hi he hk (by decide), henc, hother, hk⟩

theorem pxeRowStart_waits (hwait : encRows x ≤ p.begun ∨ p.committed + s.dev.fld 0x60000 2 0 < p.begun) :
    exec (.pxeRowStart h) s = .next s := by
  have hno : ¬ (p.begun < encRows x ∧ p.begun ≤ p.committed + s.dev.fld 0x60000 2 0) := by omega
  exact event_none exec_pxeRowStart hi (by simp [Dev.pxeRow, hx, hup, hp, hno])

end Next

/-! A rate-control block that takes effect changes nothing of the session's queues. -/

theorem takeRc_keeps (x : EncSession) : (takeRc x).src = x.src ∧ (takeRc x).jobs = x.jobs
    ∧ (takeRc x).frames = x.frames ∧ (takeRc x).cur = x.cur ∧ (takeRc x).closing = x.closing
    ∧ (takeRc x).pendRc = none := by
  unfold takeRc
  split
  case h_1 hnone => exact ⟨rfl, rfl, rfl, rfl, rfl, hnone⟩
  case h_2 => simp [withRc]

/-- The session once PXE has taken its first job, and its frame with it. -/
def encTaken (x : EncSession) : EncSession :=
  { takeRc x with jobs := (takeRc x).jobs.drop 1, frames := (takeRc x).frames.drop 1 }

/-- The picture of job `j` as PXE begins it: its kind, its input, and the values that it settles for the coding. -/
def encPicOf (x : EncSession) (j : EncJob) (c : Cmd) (kind : Bool × Bool × Nat × Option Nat) (b : EncBind)
    (target : Nat) (key : List Nat) : EncPic :=
  { ref := j.ref, bind := b, poc := kind.2.2.1, idr := kind.1, forced := kind.2.1, sweep := kind.2.2.2
    target := target, cap := capEff (takeRc x) (c.w 7) (c.w 13), bits := j.headerBits + eosBits c, begun := 1
    key := key }

section Begin

variable {j : EncJob} {js : List EncJob} {c : Cmd}

theorem Dev.pxeRow_begins (hx : d.enc? h = some x) (hup : d.pxeUp = true) (hcur : x.cur = none)
    (hj : x.jobs = j :: js) (hc : d.cmd? j.ref = some c)
    (hsrc : x.src = true → ∃ f fs, x.frames = f :: fs ∧ j.num < f.num) : d.pxeRow h = d.encBegin h x j c := by
  have hframe : (x.src && !x.frames.head?.any (j.num < ·.num)) = false := by
    cases hs : x.src with
    | false => rfl
    | true =>
      obtain ⟨f, fs, hf, hlt⟩ := hsrc hs
      simp [hf, hlt]
  simp only [Dev.pxeRow, hx, hup, hcur, hj, hc, hframe, Bool.not_true, Bool.false_eq_true, if_false]

variable {idr forced : Bool} {n : Nat} {sweep : Option Nat} (hkind : encKind (takeRc x) c = (idr, forced, n, sweep))

include hkind

theorem Dev.encBegin_fits
    (hroom : j.headerBits + eosBits c + reserveFrom (takeRc x) idr sweep 0 ≤ capHost (takeRc x) (c.w 7) (c.w 13)) :
    ∃ e b target key, Keeps [] d e ∧ (∀ f fs, x.src = true → x.frames = f :: fs → b = f.bind) ∧ d.encBegin h x j c
      = (e.setEnc h (some { encTaken x with
          cur := some (encPicOf x j c (idr, forced, n, sweep) b target key) })).encWorked (takeRc x) := by
  obtain ⟨hsrc, -, hframes, -⟩ := takeRc_keeps x
  unfold Dev.encBegin
  simp only [hkind, if_neg (Nat.not_lt.mpr hroom)]
  split
  · exact ⟨_, _, _, _, d.draw_keeps, fun f fs hs hf => by simp [hsrc, hframes, hs, hf], rfl⟩
  · exact ⟨_, _, _, _, .refl _ _, fun f fs hs hf => by simp [hsrc, hframes, hs, hf], rfl⟩

theorem Dev.encBegin_fails
    (hroom : capHost (takeRc x) (c.w 7) (c.w 13) < j.headerBits + eosBits c + reserveFrom (takeRc x) idr sweep 0) :
    ∃ res, d.encBegin h x j c = ((d.setEnc h (some (encTaken x))).finish j.ref stInvalidField res).encSettle h := by
  unfold Dev.encBegin
  simp only [hkind, if_pos hroom]
  exact ⟨_, rfl⟩

variable (hi : s.dev.idleMode = true) (hx : s.dev.enc? h = some x) (hup : s.dev.pxeUp = true) (hcur : x.cur = none)
  (hj : x.jobs = j :: js) (hc : s.dev.cmd? j.ref = some c)
  (hsrc : x.src = true → ∃ f fs, x.frames = f :: fs ∧ j.num < f.num)

include hi hx hup hcur hj hc hsrc

theorem pxeRowStart_begins
    (hroom : j.headerBits + eosBits c + reserveFrom (takeRc x) idr sweep 0 ≤ capHost (takeRc x) (c.w 7) (c.w 13)) :
    ∃ t b target key, exec (.pxeRowStart h) s = .next t
      ∧ t.dev.enc? h = some { encTaken x with cur := some (encPicOf x j c (idr, forced, n, sweep) b target key) }
      ∧ (∀ f fs, x.src = true → x.frames = f :: fs → b = f.bind) ∧ (∀ k, k ≠ h → t.dev.enc? k = s.dev.enc? k)
      ∧ Keeps [.codec, .mem] s.dev t.dev := by
  obtain ⟨e, b, target, key, hfree, hbind, he⟩ := Dev.encBegin_fits (d := s.dev) (h := h) hkind hroom
  obtain ⟨henc, hother, hk⟩ := e.encWrites h (takeRc x)
    { encTaken x with cur := some (encPicOf x j c (idr, forced, n, sweep) b target key) }
  have hkeeps := (hfree.mono (b := [.codec, .mem]) (by simp)).trans hk
  exact ⟨_, b, target, key, event_effect exec_pxeRowStart hi
    ((Dev.pxeRow_begins hx hup hcur hj hc hsrc).trans he) hkeeps (by decide), henc, hbind,
    fun k hne => (hother k hne).trans (hfree.encOpt (by simp) k), hkeeps⟩

theorem pxeRowStart_fails
    (hroom : capHost (takeRc x) (c.w 7) (c.w 13) < j.headerBits + eosBits c + reserveFrom (takeRc x) idr sweep 0)
    (ha : s.dev.Answerable j.ref) (hclosing : x.closing = none) :
    ∃ t res fs, exec (.pxeRowStart h) s = .next t ∧ Answered s.dev t.dev j.ref stInvalidField res
      ∧ t.dev.enc? h = some { encTaken x with frames := fs } ∧ Keeps (.codec :: .ctrs :: byDone) s.dev t.dev := by
  obtain ⟨-, -, -, -, hcl, -⟩ := takeRc_keeps x
  obtain ⟨res, he⟩ := Dev.encBegin_fails (d := s.dev) (h := h) hkind hroom
  have hset := s.dev.setEnc_keeps h (some (encTaken x))
  obtain ⟨hdone, ⟨fs, henc⟩, hk⟩ := (ha.of_keeps hset (by decide)).encEnds (Dev.setEnc_encOpt _ _ _)
    (hcl.trans hclosing) stInvalidField res
  have hkeeps := (hset.mono (b := .codec :: .ctrs :: byDone) (by simp)).trans hk
  exact ⟨_, res, fs, event_effect exec_pxeRowStart hi
    ((Dev.pxeRow_begins hx hup hcur hj hc hsrc).trans he) hkeeps (by decide), hdone.before hset (by decide), henc,
    hkeeps⟩

end Begin

end Pxe

/-! ## The last row (R256, R261) -/

section LastRow

variable {d : Dev} {h : Nat} {x : EncSession} {p : EncPic} {c : Cmd} {filler : Nat}

/-- The session after its picture `p`. -/
def encAfter (x : EncSession) (p : EncPic) (filler : Nat) : EncSession :=
  { rcAfter x (p.bits + filler) with
    cur := none, picNum := (x.picNum + 1) % two32, lastPic := some x.picNum, sinceIdr := some p.poc, sweep := p.sweep
    forceIdr := x.forceIdr && !p.forced, refs := refsAfter x p, made := Config.carry (12 :: picKey p) }

theorem rcAfter_keeps (x : EncSession) (b : Nat) :
    (rcAfter x b).jobs = x.jobs ∧ (rcAfter x b).closing = x.closing := by
  unfold rcAfter
  split <;> exact ⟨rfl, rfl⟩

/-- RESULT of a picture without floor rows. -/
def encResult (x : EncSession) (p : EncPic) (c : Cmd) (filler : Nat) : Nat :=
  (ceilDiv (p.bits + filler) 8 + 4 * encNals x p filler (c.b 4 2)) % 4294967296 + 65535 * 2 ^ 32

theorem Dev.encDone_clean (hf : p.floorFrom = none) :
    ∃ e, d.encDone h x p c filler = (e.finish p.ref stSuccess (encResult x p c filler)).encSettle h
      ∧ Keeps [.codec, .mem, .ctrs, .out] d e ∧ e.enc? h = some (encAfter x p filler) := by
  have hk : ∀ (e : Dev) body bytes, Keeps [.mem, .ctrs, .out] e
      (let t := (e.writeBuf (c.b 4 8) (c.q 5) bytes).draw.2
       let t := if c.q 8 = 0 then t else t.writeFields false (c.q 8) 64 body
       if p.forced then t.count 0x6004C 1 else t) := fun e body bytes =>
    (((Dev.writeBuf_keeps _ _ _ _).mono (by simp)).trans ((Dev.draw_keeps _).mono (by simp))).trans
      (Keeps.ifElse (.refl _ _) ((Dev.writeHost_keeps _ _ _ _).mono (by simp)))
      |>.ifThen ((Dev.count_keeps _ _ _).mono (by simp))
  simp only [Dev.encDone, hf, Option.getD_none, Nat.sub_self, if_true, Nat.zero_mul, Nat.add_zero]
  refine ⟨_, rfl, ((d.setEnc_keeps h _).mono (by simp)).trans ((hk _ _ _).mono (by simp)), ?_⟩
  exact ((hk _ _ _).encOpt (by decide) h).trans (Dev.setEnc_encOpt _ _ _)

end LastRow

/-! ## ENE (R256, R261, R264 to R266) -/

section Ene

variable {s : State} {d : Dev} {h i : Nat} {x : EncSession} {p q : EncPic} {c : Cmd} {row : RowBits}

theorem exec_eneRowCommit (hint : row.internal = none) :
    exec (.eneRowCommit h row) s = lift (fun d => d.eneRow h row) s := by
  rw [exec, execEneRowCommit, hint]

/-- The picture with the row that ENE has coded on slice `i`. -/
def rowAdded (p : EncPic) (row : RowBits) (i : Nat) : EncPic :=
  { p with bits := p.bits + row.bits, committed := p.committed + 1, rows := p.rows ++ [row.ctus], ene := some i }

/-- The next row is one of floor mode. -/
def inFloor (p : EncPic) : Bool := p.floorFrom.any (· ≤ p.committed)

/-- The row leaves too little room for the reserve of the rows after it. -/
def overCap (x : EncSession) (p : EncPic) (row : RowBits) : Bool :=
  p.cap.any (· < p.bits + row.bits + reserveFrom x p.idr p.sweep (p.committed + 1))

theorem inFloor_from {f : Nat} (hf : p.floorFrom = some f) (hle : f ≤ p.committed) : inFloor p = true := by
  simp [inFloor, hf, hle]

theorem inFloor_none (hf : p.floorFrom = none) : inFloor p = false := by
  simp [inFloor, hf]

theorem overCap_eq_false_iff : overCap x p row = false ↔
    ∀ k, p.cap = some k → p.bits + row.bits + reserveFrom x p.idr p.sweep (p.committed + 1) ≤ k := by
  cases hcap : p.cap <;> simp [overCap, hcap]

variable (hx : d.enc? h = some x) (hp : x.cur = some p) (hc : d.cmd? p.ref = some c)
  (hs : d.eneFor c.num p.ene = some i) (hrun : p.committed < p.begun)

include hx hp hc hs hrun

/-- What becomes of the next row of a picture that ENE codes on slice `i`. -/
theorem Dev.eneRow_codes : d.eneRow h row =
    if !rowRight x p (inFloor p) p.committed row.ctus then d
    else if inFloor p && decide (rowReserve x p.idr p.sweep p.committed < row.bits) then d
    else if !inFloor p && overCap x p row then
      d.setEnc h (some { x with cur := some { p with
        floorFrom := some p.committed, begun := p.committed, ene := some i } })
    else if p.committed + 1 == encRows x && !fillerOk x p (p.bits + row.bits) row.filler then d
    else if p.committed + 1 == encRows x then d.encDone h x (rowAdded p row i) c row.filler
    else d.setEnc h (some { x with cur := some (rowAdded p row i) }) := by
  simp only [Dev.eneRow, hx, hp, hc, hs, Nat.not_le.mpr hrun, decide_false, Bool.false_or]
  rfl

theorem Dev.eneRow_wrong (hright : rowRight x p (inFloor p) p.committed row.ctus = false) : d.eneRow h row = d := by
  simp [Dev.eneRow_codes hx hp hc hs hrun, hright]

theorem Dev.eneRow_overlong (hfloor : inFloor p = true)
    (hlong : rowReserve x p.idr p.sweep p.committed < row.bits) : d.eneRow h row = d := by
  simp [Dev.eneRow_codes hx hp hc hs hrun, hfloor, hlong]

variable (hright : rowRight x p (inFloor p) p.committed row.ctus = true)

include hright

theorem Dev.eneRow_reissues (hfloor : inFloor p = false) (hover : overCap x p row = true) :
    d.eneRow h row = d.setEnc h (some { x with cur := some { p with
      floorFrom := some p.committed, begun := p.committed, ene := some i } }) := by
  rw [hfloor] at hright
  simp [Dev.eneRow_codes hx hp hc hs hrun, hright, hfloor, hover]

variable (hbound : if inFloor p = true
  then row.bits ≤ rowReserve x p.idr p.sweep p.committed
  else overCap x p row = false)

include hbound

/-- A row within its bound is committed; a last one also brings the filler that suits the picture. -/
theorem Dev.eneRow_takes : d.eneRow h row =
    if p.committed + 1 == encRows x && !fillerOk x p (p.bits + row.bits) row.filler then d
    else if p.committed + 1 == encRows x then d.encDone h x (rowAdded p row i) c row.filler
    else d.setEnc h (some { x with cur := some (rowAdded p row i) }) := by
  rw [Dev.eneRow_codes hx hp hc hs hrun]
  cases hfloor : inFloor p with
  | true =>
    rw [hfloor] at hright
    have hbits : row.bits ≤ rowReserve x p.idr p.sweep p.committed := by simpa [hfloor] using hbound
    simp [hright, Nat.not_lt.mpr hbits]
  | false =>
    rw [hfloor] at hright
    have hfits : overCap x p row = false := by simpa [hfloor] using hbound
    simp [hright, hfits]

theorem Dev.eneRow_commits (hmore : p.committed + 1 ≠ encRows x) :
    d.eneRow h row = d.setEnc h (some { x with cur := some (rowAdded p row i) }) := by
  simp [Dev.eneRow_takes hx hp hc hs hrun hright hbound, hmore]

theorem Dev.eneRow_completes (hlast : p.committed + 1 = encRows x)
    (hfill : fillerOk x p (p.bits + row.bits) row.filler = true) :
    d.eneRow h row = d.encDone h x (rowAdded p row i) c row.filler := by
  simp [Dev.eneRow_takes hx hp hc hs hrun hright hbound, hlast, hfill]

end Ene

section Commit

variable {s : State} {h i : Nat} {x : EncSession} {p : EncPic} {c : Cmd} {row : RowBits}

theorem eneRowCommit_none (hint : row.internal = none) (hidle : s.dev.idleMode = true)
    (he : s.dev.eneRow h row = s.dev) : exec (.eneRowCommit h row) s = .next s :=
  event_none (exec_eneRowCommit hint) hidle he

theorem eneRowCommit_writes {y : EncSession} (hint : row.internal = none) (hidle : s.dev.idleMode = true)
    (he : s.dev.eneRow h row = s.dev.setEnc h (some y)) :
    ∃ t, exec (.eneRowCommit h row) s = .next t ∧ t.dev.enc? h = some y
      ∧ (∀ k, k ≠ h → t.dev.enc? k = s.dev.enc? k) ∧ Keeps [.codec] s.dev t.dev := by
  have hk := s.dev.setEnc_keeps h (some y)
  exact ⟨_, event_effect (exec_eneRowCommit hint) hidle he hk (by decide), Dev.setEnc_encOpt _ _ _,
    fun k hne => Dev.setEnc_encOpt_ne _ _ _ hne, hk⟩

theorem eneRowCommit_completes (hint : row.internal = none) (hidle : s.dev.idleMode = true)
    (he : s.dev.eneRow h row = s.dev.encDone h x p c row.filler) (hf : p.floorFrom = none) (hcl : x.closing = none)
    (ha : s.dev.Answerable p.ref) :
    ∃ t fs, exec (.eneRowCommit h row) s = .next t
      ∧ Answered s.dev t.dev p.ref stSuccess (encResult x p c row.filler)
      ∧ t.dev.enc? h = some { encAfter x p row.filler with frames := fs }
      ∧ Keeps (.codec :: .mem :: .ctrs :: byDone) s.dev t.dev := by
  obtain ⟨e, hdone, hk, henc⟩ := Dev.encDone_clean (d := s.dev) (h := h) (x := x) (c := c) (filler := row.filler) hf
  obtain ⟨-, hclosing⟩ := rcAfter_keeps x (p.bits + row.filler)
  obtain ⟨hans, ⟨fs, hfs⟩, hends⟩ := (ha.of_keeps hk (by decide)).encEnds henc (hclosing.trans hcl) stSuccess
    (encResult x p c row.filler)
  have hkeeps := (hk.mono (b := .codec :: .mem :: .ctrs :: byDone) (by simp [byDone])).trans
    (hends.mono (by simp [byDone]))
  exact ⟨_, fs, event_effect (exec_eneRowCommit hint) hidle (he.trans hdone) hkeeps (by decide),
    hans.before hk (by decide), hfs, hkeeps⟩

end Commit

/-- Settles O42: PXE by the rows it begins, ENE by what becomes of the next row, a failed check by the job that it ends
and the reset that it starts. -/
theorem encodeRows : Obligations.EncodeRows := by
  unfold Obligations.EncodeRows
  refine ⟨fun s h x p hi hx hup hp => ⟨pxeRowStart_next hi hx hup hp, pxeRowStart_waits hi hx hup hp⟩,
    fun s h x j js c idr forced n need sweep hi hx hup hcur hj hc hsrc hkind hneed => ⟨fun hroom => ?begins,
      fun hroom hfail hlive hheard hops hcl => ?fails⟩,
    fun s h i x p q c row hidle hx hp hc hs hrun hq => ?ene⟩
  case begins =>
    subst hneed
    obtain ⟨t, b, target, key, hnext, henc, hbind, hother, hk⟩ :=
      pxeRowStart_begins hkind hi hx hup hcur hj hc hsrc hroom
    obtain ⟨-, hjobs, hframes, -, -, hrc⟩ := takeRc_keeps x
    exact ⟨t, _, _, hnext, henc, by simp [encTaken, hjobs, hj], by simp [encTaken, hframes], rfl, hrc, rfl, rfl, rfl,
      rfl, rfl, rfl, rfl, rfl, rfl, hbind, hother, hk⟩
  case fails =>
    subst hneed
    obtain ⟨t, res, fs, hnext, hans, henc, hk⟩ := pxeRowStart_fails hkind hi hx hup hcur hj hc hsrc hroom
      ⟨hops, ⟨c, hc, hfail⟩, hlive, hheard⟩ hcl
    obtain ⟨-, hjobs, -, htaken, -⟩ := takeRc_keeps x
    exact ⟨t, res, _, hnext, hans, henc, by simp [encTaken, hjobs, hj], htaken.trans hcur, hk⟩
  case ene =>
    subst hq
    refine ⟨fun f hint hf hle => ⟨fun hbad => eneRowCommit_none hint hidle ?refused,
        fun hright hbits hmore => ?floored⟩,
      fun hint hf hwrong => ?wrong, fun k hint hf hright hcap hover => ?reissued,
      fun hint hf hright hfits => ⟨fun hmore => ?more, fun hlast hfill hcl hfail hlive hheard hops => ?last⟩,
      fun k hint hserves hfail hlive hheard hops => ?fault⟩
    case refused =>
      have hfloor := inFloor_from hf hle
      obtain hwrong | hlong := hbad
      · exact Dev.eneRow_wrong hx hp hc hs hrun (by rwa [hfloor])
      · exact Dev.eneRow_overlong hx hp hc hs hrun hfloor hlong
    case floored =>
      have hfloor := inFloor_from hf hle
      obtain ⟨t, hnext, henc, -, hk⟩ := eneRowCommit_writes hint hidle
        (Dev.eneRow_commits hx hp hc hs hrun (by rwa [hfloor]) (by rwa [if_pos hfloor]) hmore)
      exact ⟨t, hnext, henc, hk⟩
    case wrong =>
      exact eneRowCommit_none hint hidle (Dev.eneRow_wrong hx hp hc hs hrun (by rwa [inFloor_none hf]))
    case reissued =>
      obtain ⟨t, hnext, henc, -, hk⟩ := eneRowCommit_writes hint hidle
        (Dev.eneRow_reissues hx hp hc hs hrun (by rwa [inFloor_none hf]) (inFloor_none hf)
          (by simp [overCap, hcap, hover]))
      exact ⟨t, hnext, henc, hk⟩
    case more =>
      exact eneRowCommit_writes hint hidle (Dev.eneRow_commits hx hp hc hs hrun (by rwa [inFloor_none hf])
        (by simpa [inFloor_none hf] using overCap_eq_false_iff.mpr hfits) hmore)
    case last =>
      obtain ⟨t, fs, hnext, hans, henc, hk⟩ := eneRowCommit_completes hint hidle
        (Dev.eneRow_completes hx hp hc hs hrun (by rwa [inFloor_none hf])
          (by simpa [inFloor_none hf] using overCap_eq_false_iff.mpr hfits) hlast hfill) hf hcl
        ⟨hops, ⟨c, hc, hfail⟩, hlive, hheard⟩
      obtain ⟨hjobs, -⟩ := rcAfter_keeps x (p.bits + row.bits + row.filler)
      exact ⟨t, _, hnext, hans, henc, rfl, rfl, rfl, rfl, hjobs, rfl, rfl, hk⟩
    case fault =>
      exact eneRowCommit_faults hidle hx hp ⟨hops, ⟨c, hc, hfail⟩, hlive, hheard⟩ hint hserves

end Sys2Proof.Machine
end

section
/-! SUPPORT. Decode sessions: a session just written, when a flush and a close are over, and what each command does
(O43). -/

namespace Sys2Proof.Machine

open Sys2Proof

/-! ## A session and its neighbours -/

section Sessions

variable {b : List Part} {d e : Dev} {h : Nat} {x : DecSession}

theorem Keeps.decOpt (hk : Keeps b d e) (hb : .codec ∉ b) (h : Nat) : e.dec? h = d.dec? h := by
  have hcodec : e.codec = d.codec := hk .codec hb
  unfold Dev.dec?
  rw [hcodec]

theorem Dev.finish_decOpt (d : Dev) (r : CmdRef) (st res h : Nat) : (d.finish r st res).dec? h = d.dec? h :=
  (d.finish_keeps r st res).decOpt (by decide) h

theorem Dev.begin_decOpt (d : Dev) (r : CmdRef) (h : Nat) : (d.begin r).dec? h = d.dec? h := rfl

/-- A change of an open session is a write of it. -/
theorem Dev.modDec_some (hx : d.dec? h = some x) (f : DecSession → DecSession) :
    d.modDec h f = d.setDec h (some (f x)) := by
  simp [Dev.modDec, hx]

end Sessions

/-! ## Nothing waits for output (R280, R290) -/

section Nothing

variable {x : DecSession}

theorem firstOut_nothing (hw : waiting x = []) : firstOut x = none := by simp [firstOut, hw]

theorem dropFirst_nothing (hw : waiting x = []) : dropFirst x = x := by simp [dropFirst, firstOut_nothing hw]

theorem outDue_nothing (hw : waiting x = []) (drain needs : Bool) : outDue x drain needs = false := by
  simp [outDue, hw]

theorem dropDue_nothing (hw : waiting x = []) (drain : Bool) (n : Nat) : dropDue drain n x = x := by
  cases n <;> simp [dropDue, outDue_nothing hw]

end Nothing

/-! ## A session settles (R283, R290) -/

section Settles

variable {d : Dev} {h : Nat} {x : DecSession} {r : CmdRef}

theorem Dev.flushSettle_none (hx : d.dec? h = some x) (hf : x.flushing = none) : d.flushSettle h = d := by
  simp [Dev.flushSettle, hx, hf]

theorem Dev.flushSettle_waits (hx : d.dec? h = some x) (hw : waiting x ≠ []) : d.flushSettle h = d := by
  unfold Dev.flushSettle
  simp only [hx]
  split
  · exact if_neg (by simpa using hw)
  · rfl

/-- The session as its flush ends. -/
def emptiedDec (x : DecSession) : DecSession := { x with flushing := none, flushed := 0, dpb := [] }

theorem Dev.flushSettle_over (hx : d.dec? h = some x) (hf : x.flushing = some r) (hw : waiting x = []) :
    d.flushSettle h = (d.setDec h (some (emptiedDec x))).finish r stSuccess x.flushed := by
  simp [Dev.flushSettle, emptiedDec, hx, hf, hw]

/-- A session that does not close settles by its flush alone. -/
theorem Dev.decSettle_open (hx : (d.flushSettle h).dec? h = some x) (hd : x.drain = false) (hc : x.closing = none) :
    d.decSettle h = d.flushSettle h := by
  simp [Dev.decSettle, Dev.closeDrain, Dev.closeSettle, hx, hd, hc]

section NotClosing

variable (hx : d.dec? h = some x) (hd : x.drain = false) (hc : x.closing = none)

include hx hd hc

/-- A session without a flush and a close has nothing to settle. -/
theorem Dev.decSettle_rests (hf : x.flushing = none) : d.decSettle h = d := by
  have hflush := Dev.flushSettle_none hx hf
  exact (Dev.decSettle_open (hflush.symm ▸ hx) hd hc).trans hflush

theorem Dev.decSettle_flushing (hw : waiting x ≠ []) : d.decSettle h = d := by
  have hflush := Dev.flushSettle_waits hx hw
  exact (Dev.decSettle_open (hflush.symm ▸ hx) hd hc).trans hflush

theorem Dev.decSettle_flushed (hf : x.flushing = some r) (hw : waiting x = []) :
    d.decSettle h = (d.setDec h (some (emptiedDec x))).finish r stSuccess x.flushed := by
  have hflush := Dev.flushSettle_over hx hf hw
  have hset : (d.flushSettle h).dec? h = some (emptiedDec x) := by
    rw [hflush, Dev.finish_decOpt, Dev.setDec_decOpt]
  exact (Dev.decSettle_open hset hd hc).trans hflush

end NotClosing

/-- With nothing left to write, a drain changes of the session at most the job that needs a slot. -/
theorem Dev.closeDrain_nothing (hx : d.dec? h = some x) (hf : x.flushing = none) (hw : waiting x = []) :
    (∃ n, (d.closeDrain h).dec? h = some { x with need := n })
      ∧ (∀ k, k ≠ h → (d.closeDrain h).dec? k = d.dec? k) ∧ Keeps [.codec] d (d.closeDrain h) := by
  have hwrite : ∀ n, (d.setDec h (some { x with need := n })).flushSettle h = d.setDec h (some { x with need := n }) :=
    fun n => Dev.flushSettle_none (Dev.setDec_decOpt _ _ _) hf
  have hdrain : d.closeDrain h = d ∨ ∃ n, d.closeDrain h = d.setDec h (some { x with need := n }) := by
    simp only [Dev.closeDrain, hx, dropDue_nothing hw, dropFirst_nothing hw]
    split
    · split
      · exact .inr ⟨none, hwrite none⟩
      · exact .inr ⟨x.need, hwrite x.need⟩
    · exact .inl rfl
  obtain hsame | ⟨n, hset⟩ := hdrain
  · rw [hsame]
    exact ⟨⟨x.need, hx⟩, fun _ _ => rfl, .refl _ _⟩
  · rw [hset]
    exact ⟨⟨n, Dev.setDec_decOpt _ _ _⟩, fun k hne => Dev.setDec_decOpt_ne _ _ _ hne, d.setDec_keeps h _⟩

/-- Every fetched command has begun. -/
def Dev.allBegun (d : Dev) : Prop := ∀ c ∈ d.hif.cmds, c.begun = true

theorem Keeps.allBegun {b : List Part} {e : Dev} (hk : Keeps b d e) (hb : .fetch ∉ b) (ha : d.allBegun) :
    e.allBegun := by
  obtain ⟨-, hcmds, -⟩ := hk .fetch hb
  unfold Dev.allBegun
  rwa [hcmds]

variable (ha : d.allBegun)

include ha

theorem Dev.decEarly_of_allBegun (hf : x.flushing = none) : d.decEarly h x = false := by
  simp only [Dev.decEarly, hf, Option.isSome_none, Bool.false_or, List.any_eq_false]
  intro c hc
  simp [ha c hc]

theorem Dev.bufsEarly_of_allBegun : d.bufsEarly h x = [] := by
  simp only [Dev.bufsEarly, List.map_eq_nil_iff, List.filter_eq_nil_iff]
  intro c hc
  simp [ha c hc]

theorem Dev.jobsLeft_of_allBegun (cls : Nat) : d.jobsLeft cls h = [] :=
  (Dev.jobsLeft_nil_iff cls).mpr fun c hc _ _ _ => ha c hc

/-- A close is over where no picture waits and every fetched command has begun. -/
theorem Dev.closeSettle_over (hx : d.dec? h = some x) (hc : x.closing = some r) (hf : x.flushing = none)
    (hw : waiting x = []) (hb : x.bufs = []) :
    d.closeSettle h = (d.setDec h none).finish r stSuccess x.wrote := by
  simp [Dev.closeSettle, hx, hc, hw, hb, Dev.decEarly_of_allBegun ha hf, Dev.bufsEarly_of_allBegun ha, Dev.finishAll]

/-- A session that closes with no job, picture or buffer left is gone, and its DEC_CLOSE completes. -/
theorem Dev.decSettle_closes (hx : d.dec? h = some x) (hc : x.closing = some r) (hf : x.flushing = none)
    (hw : waiting x = []) (hb : x.bufs = []) :
    ∃ e, d.decSettle h = e.finish r stSuccess x.wrote ∧ e.dec? h = none ∧ (∀ k, k ≠ h → e.dec? k = d.dec? k)
      ∧ Keeps [.codec] d e := by
  obtain ⟨⟨n, hdrained⟩, hother, hk⟩ := Dev.closeDrain_nothing hx hf hw
  refine ⟨(d.closeDrain h).setDec h none, ?_, Dev.setDec_decOpt _ _ _,
    fun k hne => (Dev.setDec_decOpt_ne _ _ _ hne).trans (hother k hne), hk.trans (Dev.setDec_keeps _ _ _)⟩
  unfold Dev.decSettle
  rw [Dev.flushSettle_none hx hf]
  exact Dev.closeSettle_over (x := { x with need := n }) (hk.allBegun (by decide) ha) hdrained hc hf hw hb

end Settles

/-! ## DEC_OPEN (R275, R278) -/

section Open

variable {s : State} {r : CmdRef} {c : Cmd} {blk : List Byte}

theorem exec_decOpen : exec (.decOpen r blk) s = lift (runCmd (specDecOpenOf blk) r (decOpen blk r)) s := by
  rw [exec, execDecOpen]

variable (hc : s.dev.clear (specDecOpenOf blk) r c = true)
  (ho : blkOffs 5 (s.dev.decBad (s.dev.blockOf false 0 64 blk))
    ++ s.dev.workOffs c (decWork (s.dev.blockOf false 0 64 blk) (s.dev.fld 0x60000 2 0)) = [])

include hc ho

theorem decOpen_engineDown (hoff : s.dev.codecOff = true) :
    ∃ t, exec (.decOpen r blk) s = .next t ∧ Answered s.dev t.dev r stEngineDown 0 ∧ Keeps byDone s.dev t.dev :=
  spkCmd_answers exec_decOpen hc (by simp only [decOpen, minOff_eq_none_iff.mpr ho, hoff, if_true])

theorem decOpen_opens (hoff : s.dev.codecOff = false) :
    ∃ t, exec (.decOpen r blk) s = .next t ∧ t.pending = s.pending ∧ Answered s.dev t.dev r stSuccess 0
      ∧ t.dev.dec? c.handle = some (newDec c (s.dev.blockOf false 0 64 blk))
      ∧ (∀ h, h ≠ c.handle → t.dev.dec? h = s.dev.dec? h) ∧ t.dev.codec.enc = s.dev.codec.enc
      ∧ Keeps (.codec :: byDone) s.dev t.dev := by
  have he : decOpen blk r c s.dev = (s.dev.setDec c.handle
      (some (newDec c (s.dev.blockOf false 0 64 blk)))).finish r stSuccess 0 := by
    simp only [decOpen, minOff_eq_none_iff.mpr ho, hoff, Bool.false_eq_true, if_false]
  obtain ⟨hnext, ha, hk⟩ := blk_completes (runCmd_eq_runBlk _ r (decOpen blk r) ▸ exec_decOpen) hc rfl he
    (Dev.setDec_keeps _ _ _) (by decide) (by decide)
  refine ⟨_, hnext, rfl, ha, (Dev.finish_decOpt _ _ _ _ _).trans (Dev.setDec_decOpt _ _ _),
    fun h hne => (Dev.finish_decOpt _ _ _ _ _).trans (Dev.setDec_decOpt_ne _ _ _ hne), ?_, hk⟩
  simp [Dev.setDec]

end Open

/-! ## DEC_OUTPUT (R280) -/

section Output

variable {s : State} {r : CmdRef} {c : Cmd} {x : DecSession}

theorem decOutput_waits (hc : s.dev.clear specDecOutput r c = true) (hx : s.dev.dec? c.handle = some x) :
    ∃ t, exec (.decOutput r) s = .next t ∧ t.pending = s.pending ∧ Begun s.dev t.dev r c
      ∧ t.dev.dec? c.handle = some { x with
          bufs := x.bufs ++ [{ ref := r, a0 := c.q 5, a1 := c.w 7, dev := c.b 4 8, len := c.w 8 }] }
      ∧ (∀ h, h ≠ c.handle → t.dev.dec? h = s.dev.dec? h) ∧ Keeps [.codec, .fetch] s.dev t.dev := by
  have hexec : exec (.decOutput r) s = lift (runCmd specDecOutput r fun c d =>
      (d.begin r).modDec c.handle fun v => { v with
        bufs := v.bufs ++ [{ ref := r, a0 := c.q 5, a1 := c.w 7, dev := c.b 4 8, len := c.w 8 }] }) s := by
    rw [exec, execDecOutput]
  obtain ⟨hnext, hbegun, hk⟩ := blk_begins (runCmd_eq_runBlk specDecOutput r _ ▸ hexec) hc rfl
    (Dev.modDec_some ((s.dev.begin_decOpt r _).trans hx) _) (Dev.setDec_keeps _ _ _) (by decide) (by decide) (by decide)
  exact ⟨_, hnext, rfl, hbegun, Dev.setDec_decOpt _ _ _, fun h hne => Dev.setDec_decOpt_ne _ _ _ hne, hk⟩

end Output

/-! ## DEC_FLUSH (R283) -/

section Flush

variable {s : State} {d : Dev} {r : CmdRef} {c : Cmd} {x : DecSession}

theorem exec_decFlush : exec (.decFlush r) s = lift (runCmd specDecFlush r (decFlush r)) s := by
  rw [exec, execDecFlush]

/-- The session as its flush begins: a new sequence, and no references. -/
def flushedDec (x : DecSession) (r : CmdRef) : DecSession :=
  { x with
    flushing := some r, flushed := 0, seq := x.seq + 1, dpb := prune (x.dpb.map fun p => { p with isRef := false }) }

theorem mem_flushedDec {p : DpbPic} (hp : p ∈ (flushedDec x r).dpb) : p.isRef = false ∧ p.output = true := by
  obtain ⟨hmem, hkept⟩ := List.mem_filter.mp hp
  obtain ⟨q, -, rfl⟩ := List.mem_map.mp hmem
  simpa using hkept

theorem waiting_flushedDec : waiting (flushedDec x r) = (waiting x).map fun p => { p with isRef := false } := by
  simp [waiting, flushedDec, prune, List.filter_map, List.filter_filter, Function.comp_def]

theorem decFlush_begins (hx : d.dec? c.handle = some x) (hahead : d.jobAhead c = false) (hf : x.flushing = none) :
    decFlush r c d = ((d.begin r).setDec c.handle (some (flushedDec x r))).decSettle c.handle := by
  simp only [decFlush, hahead, hx, hf, Option.any_some, Option.isSome_none, Bool.or_self, Bool.false_eq_true, if_false]
  rw [Dev.modDec_some ((d.begin_decOpt r _).trans hx)]
  rfl

variable (hc : s.dev.clear specDecFlush r c = true) (hx : s.dev.dec? c.handle = some x)
  (hahead : s.dev.jobAhead c = false) (hf : x.flushing = none) (hclosing : x.closing = none) (hd : x.drain = false)

include hc hx hahead hf hclosing hd

theorem decFlush_completes (hw : waiting x = []) :
    ∃ t, exec (.decFlush r) s = .next t ∧ t.pending = s.pending ∧ Answered s.dev t.dev r stSuccess 0
      ∧ t.dev.dec? c.handle = some (emptiedDec (flushedDec x r)) ∧ Keeps (.codec :: byDone) s.dev t.dev := by
  have he := (decFlush_begins (r := r) hx hahead hf).trans
    (Dev.decSettle_flushed (Dev.setDec_decOpt _ _ _) hd hclosing rfl (by simp [waiting_flushedDec, hw]))
  obtain ⟨hnext, ha, hk⟩ := begunCmd_completes exec_decFlush hc he
    ((Dev.setDec_keeps _ _ _).trans (Dev.setDec_keeps _ _ _)) (by decide) (by decide)
  exact ⟨_, hnext, rfl, ha, (Dev.finish_decOpt _ _ _ _ _).trans (Dev.setDec_decOpt _ _ _), hk⟩

theorem decFlush_waits (hw : waiting x ≠ []) :
    ∃ t, exec (.decFlush r) s = .next t ∧ Begun s.dev t.dev r c ∧ t.dev.dec? c.handle = some (flushedDec x r)
      ∧ Keeps [.codec, .fetch] s.dev t.dev := by
  have he := (decFlush_begins (r := r) hx hahead hf).trans
    (Dev.decSettle_flushing (Dev.setDec_decOpt _ _ _) hd hclosing (by simpa [waiting_flushedDec] using hw))
  obtain ⟨hnext, hbegun, hk⟩ := blk_begins (runCmd_eq_runBlk specDecFlush r (decFlush r) ▸ exec_decFlush) hc rfl he
    (Dev.setDec_keeps _ _ _) (by decide) (by decide) (by decide)
  exact ⟨_, hnext, hbegun, Dev.setDec_decOpt _ _ _, hk⟩

end Flush

/-! ## DEC_CLOSE (R290) -/

section Close

variable {s : State} {d : Dev} {r : CmdRef} {c : Cmd} {x : DecSession}

theorem exec_decClose : exec (.decClose r) s = lift (runCmd specDecClose r (decClose r)) s := by
  rw [exec, execDecClose]

theorem Dev.begin_allBegun (hc : d.cmd? r = some c) (hcmds : d.hif.cmds = [c]) : (d.begin r).allBegun := by
  obtain ⟨hq, hi⟩ := Dev.cmd_ids hc
  simp [Dev.allBegun, Dev.begin, hcmds, updFirst, hq, hi]

/-- The session as a close with NOW 0 begins: it drains. -/
def drainedDec (x : DecSession) (r : CmdRef) : DecSession :=
  { x with closing := some r, drain := true, wrote := 0 }

/-- The session as a close with NOW 1 begins: its DPB is discarded. -/
def discardedDec (x : DecSession) (r : CmdRef) : DecSession :=
  { x with closing := some r, dpb := [], flushing := none, flushed := 0, wrote := 0 }

/-- Where no job is left and no flush waits, NOW decides only on the DPB. -/
theorem decClose_no_jobs (hx : d.dec? c.handle = some x) (ha : (d.begin r).allBegun) (hf : x.flushing = none) :
    decClose r c d = ((d.begin r).setDec c.handle
      (some (if c.b 4 0 then discardedDec x r else drainedDec x r))).decSettle c.handle := by
  have hopen : (d.begin r).dec? c.handle = some x := hx
  simp only [decClose, Dev.jobsLeft_of_allBegun ha, Dev.finishAll, List.foldl_nil, Dev.modDec_some hopen, hopen,
    Option.bind_some, hf]
  cases c.b 4 0 <;> simp [discardedDec, drainedDec, hf]

theorem decClose_closes (hc : s.dev.clear specDecClose r c = true) (hx : s.dev.dec? c.handle = some x)
    (hcmds : s.dev.hif.cmds = [c]) (hf : x.flushing = none) (hw : waiting x = []) (hb : x.bufs = []) :
    ∃ t, exec (.decClose r) s = .next t ∧ t.pending = s.pending ∧ Answered s.dev t.dev r stSuccess 0
      ∧ t.dev.dec? c.handle = none ∧ (∀ h, h ≠ c.handle → t.dev.dec? h = s.dev.dec? h)
      ∧ Keeps (.codec :: byDone) s.dev t.dev := by
  have hbegun := Dev.begin_allBegun (Dev.clear_cmd hc) hcmds
  have hclosing := decClose_no_jobs (r := r) hx hbegun hf
  generalize hy : (if c.b 4 0 then discardedDec x r else drainedDec x r) = y at hclosing
  obtain ⟨hclose, hflush, hnone, hbufs, hwrote⟩ : y.closing = some r ∧ y.flushing = none ∧ waiting y = []
      ∧ y.bufs = [] ∧ y.wrote = 0 := by
    rw [← hy]
    split
    · exact ⟨rfl, rfl, rfl, hb, rfl⟩
    · exact ⟨rfl, hf, hw, hb, rfl⟩
  have hset := (s.dev.begin r).setDec_keeps c.handle (some y)
  obtain ⟨e, hdone, hgone, hother, hk⟩ := Dev.decSettle_closes (hset.allBegun (by decide) hbegun)
    (Dev.setDec_decOpt _ _ _) hclose hflush hnone hbufs
  rw [hwrote] at hdone
  obtain ⟨hnext, ha, hkeeps⟩ := begunCmd_completes exec_decClose hc (hclosing.trans hdone) (hset.trans hk) (by decide)
    (by decide)
  exact ⟨_, hnext, rfl, ha, (Dev.finish_decOpt _ _ _ _ _).trans hgone, fun h hne =>
    (Dev.finish_decOpt _ _ _ _ _).trans ((hother h hne).trans (Dev.setDec_decOpt_ne _ _ _ hne)), hkeeps⟩

end Close

/-- Settles O43: each command by what its class answers and by what it leaves of its session; a flush and a close by
whether a picture waits. -/
theorem decodeSessions : Obligations.DecodeSessions := by
  unfold Obligations.DecodeSessions
  refine ⟨fun s r c blk b hc hb ho => ?opens, fun s r c x hx => ⟨fun hc => decOutput_waits hc hx,
    fun hc hahead hf hclosing hd => ⟨fun hw => ?flushed, fun hw => ?flushing⟩,
    fun hc hcmds hf hw hb => decClose_closes hc hx hcmds hf hw hb⟩⟩
  case opens =>
    subst hb
    refine ⟨decOpen_engineDown hc ho, fun hoff => ?_⟩
    obtain ⟨t, hnext, hpend, ha, hdec, hother⟩ := decOpen_opens hc ho hoff
    exact ⟨t, hnext, hpend, ha, hdec, rfl, rfl, rfl, hother⟩
  case flushed =>
    obtain ⟨t, hnext, hpend, ha, hdec, hk⟩ := decFlush_completes hc hx hahead hf hclosing hd hw
    exact ⟨t, _, hnext, hpend, ha, hdec, rfl, rfl, rfl, rfl, hk⟩
  case flushing =>
    obtain ⟨t, hnext, hbegun, hdec, hk⟩ := decFlush_waits hc hx hahead hf hclosing hd hw
    exact ⟨t, _, hnext, hbegun, hdec, rfl, fun _ => mem_flushedDec, hk⟩

end Sys2Proof.Machine
end

section
/-! SUPPORT. Decode jobs and pictures that go out: what becomes of an access unit, a failed check, and a picture that
is due (O44). -/

namespace Sys2Proof.Machine

open Sys2Proof

/-! ## An access unit (R284 to R288, Table 10-1) -/

section Units

variable {a : AccessUnit} {x : DecSession}

theorem auErr_none (h : a.errCode = 0) : auErr a = 0 := by simp [auErr, h]

theorem auErr_slice (h : a.errCode = 5 ∨ a.errCode = 6) : auErr a = a.errCode :=
  if_pos (by omega)

/-- An intra random access point without a fault ends a discard. -/
theorem discardCode_irap (hover : auOver x a = false) (hirap : a.irap = true) (herr : a.errCode = 0) :
    discardCode x a = 0 := by
  simp only [discardCode, hover, auErr_none herr, hirap]
  cases x.discard <;> rfl

/-- A damaged slice discards no access unit. -/
theorem discardCode_slice (hover : auOver x a = false) (herr : a.errCode = 5 ∨ a.errCode = 6)
    (hdiscard : x.discard = none) : discardCode x a = 0 := by
  obtain h | h := herr <;> simp [discardCode, hover, hdiscard, auErr, h]

theorem conceal_irap (hirap : a.irap = true) (herr : auErr a = 0) (l : List DpbPic) (num : Nat) :
    conceal x a l num = { tainted := false, recovered := false, first := none, point := none } := by
  simp [conceal, hirap, herr]

theorem conceal_slice (herr : auErr a = 5 ∨ auErr a = 6) (l : List DpbPic) (num : Nat) :
    (conceal x a l num).tainted = true := by
  obtain h | h := herr <;> simp [conceal, h]

/-- The picture joins the DPB as its last. -/
theorem joined_getLast (l : List DpbPic) (k : Conceal) (seq made : Nat) :
    ∃ p, (joined a l k seq made).getLast? = some p ∧ p.poc = a.poc ∧ p.tainted = k.tainted ∧ p.output = a.outputFlag
      ∧ (auErr a = 0 → p.src = .coded made) :=
  ⟨_, List.getLast?_concat, rfl, rfl, rfl, fun h => if_neg (by omega)⟩

end Units

/-! ## A job in its turn (R275, R279, R280) -/

/-- The turn of job `c` has come in its session `x`, which neither flushes nor closes, and a slice of each kind serves
it. -/
structure Dev.DecTurn (d : Dev) (c : Cmd) (x : DecSession) : Prop where
  served : d.codecGone = false
  pxe : d.pxeUp = true
  ene : (d.eneFor c.num none).isSome = true
  first : d.jobAhead c = false
  session : d.dec? c.handle = some x
  flushing : x.flushing = none
  closing : x.closing = none
  drain : x.drain = false

/-- The picture's slot is taken by one that waits for output. -/
abbrev crowdedOut (x : DecSession) (a : AccessUnit) : Prop :=
  min (b8 x.block 5) (max 1 a.size) ≤ (refSet x a).length ∧ (refSet x a).any (fun p => p.output && !p.isRef) = true

theorem not_crowdedOut {x : DecSession} {a : AccessUnit}
    (h : (refSet x a).length < min (b8 x.block 5) (max 1 a.size) ∨ ∀ p ∈ refSet x a, p.isRef = true) :
    ¬ crowdedOut x a := by
  rintro ⟨hfull, hany⟩
  obtain ⟨p, hp, hwaits⟩ := List.any_eq_true.mp hany
  obtain hroom | href := h
  · omega
  · simp [href p hp] at hwaits

section Turn

variable {d : Dev} {c : Cmd} {x : DecSession} {a : AccessUnit} {r : CmdRef}

/-- What a job in its turn does. -/
theorem Dev.DecTurn.runs (h : d.DecTurn c x) : decDecode a r c d =
    if discardCode x a ≠ 0 then d.decDiscard r c x a (discardCode x a)
    else if crowdedOut x a then
      (d.setDec c.handle (some { x with need := some c.num })).decSettle c.handle
    else d.decPicture r c x a := by
  simp only [decDecode, h.served, h.pxe, h.first, h.session, h.flushing, Option.isNone_eq_false_iff.mpr h.ene,
    Dev.modDec_some h.session, Bool.not_true, Bool.or_self, Bool.false_eq_true, if_false, Option.isSome_none]

theorem Dev.setDec_cmdOpt (d : Dev) (h : Nat) (v : Option DecSession) (r : CmdRef) :
    (d.setDec h v).cmd? r = d.cmd? r := rfl

/-- A completion of a session that neither flushes nor closes lets nothing else settle. -/
theorem Dev.finish_decSettle {e : Dev} {h st res : Nat} (hx : e.dec? h = some x) (hf : x.flushing = none)
    (hc : x.closing = none) (hd : x.drain = false) : (e.finish r st res).decSettle h = e.finish r st res :=
  Dev.decSettle_rests ((e.finish_decOpt r st res h).trans hx) hd hc hf

/-! ### A discarded access unit (R288) -/

/-- The session after an access unit that is discarded with code `k`. -/
def discardedAu (x : DecSession) (bytes : List Byte) (k : Nat) : DecSession :=
  { x with
    discard := if k = 3 ∨ k = 7 then some k else x.discard
    made := Config.carry (22 :: auKey x bytes []) }

theorem Dev.decTell_keeps (d : Dev) (c : Cmd) (body : List Fld) : Keeps [.out] d (d.decTell c body) :=
  Keeps.ifElse (.refl _ _) (d.writeHost_keeps _ _ _)

theorem Dev.DecTurn.discards (h : d.DecTurn c x) (k : Nat) :
    ∃ e, d.decDiscard r c x a k = e.finish r stBitstream (x.picNum + 16777215 * 4294967296 + k * 2 ^ 56)
      ∧ e.dec? c.handle = some (discardedAu x (d.auData c a) k) ∧ e.ctrs = (d.count 0x60844 1).ctrs
      ∧ Keeps [.codec, .ctrs, .out] d e := by
  have htell := ((d.setDec c.handle (some (discardedAu x (d.auData c a) k))).count 0x60844 1).decTell_keeps c
    (decReport a x.picNum (4 + auFlags a) k 0 ones32 0 x.concealed)
  have hcount := (d.setDec c.handle (some (discardedAu x (d.auData c a) k))).count_keeps 0x60844 1
  have hdec := (htell.decOpt (by decide) c.handle).trans
    ((hcount.decOpt (by decide) c.handle).trans (Dev.setDec_decOpt _ _ _))
  exact ⟨_, Dev.finish_decSettle hdec h.flushing h.closing h.drain, hdec, htell .ctrs (by decide),
    ((d.setDec_keeps _ _).mono (by simp)).trans (hcount.mono (by simp)) |>.trans (htell.mono (by simp))⟩

/-! ### A picture (R284 to R287) -/

/-- Status of a job whose picture is reconstructed. -/
def picStatus (x : DecSession) (a : AccessUnit) : Nat :=
  if auErr a ≠ 0 then stBitstream
  else if (conceal x a (refSet x a) x.picNum).tainted then stConcealed else stSuccess

/-- Its RESULT. -/
def picResult (x : DecSession) (a : AccessUnit) : Nat :=
  x.picNum + (if auErr a = 0 then 16777215 else a.firstBadCtu % 16777216) * 4294967296 + auErr a * 2 ^ 56

/-- The session after its picture: `made` names what the decoder carries on. -/
def decodedDec (x : DecSession) (a : AccessUnit) (made : Nat) : DecSession :=
  let l := refSet x a
  let seq := if a.newSeq then x.seq + 1 else x.seq
  let k := conceal x a l x.picNum
  { x with
    dpb := joined a l k seq made, made := made, picNum := (x.picNum + 1) % 4294967296
    concealed := if picStatus x a = stConcealed then satW 32 (x.concealed + 1) else x.concealed
    discard := none, firstTaint := k.first, recovery := k.point, seq := if a.eos then seq + 1 else seq
    reorder := a.reorder, latency := a.latency, size := a.size, need := none }

theorem decodedDec_last (made : Nat) :
    ∃ p, (decodedDec x a made).dpb.getLast? = some p ∧ p.poc = a.poc
      ∧ p.tainted = (conceal x a (refSet x a) x.picNum).tainted ∧ p.output = a.outputFlag
      ∧ (auErr a = 0 → p.src = .coded (decodedDec x a made).made) := joined_getLast _ _ _ _

theorem picStatus_irap (hirap : a.irap = true) (herr : auErr a = 0) : picStatus x a = stSuccess := by
  simp [picStatus, herr, conceal_irap hirap herr]

theorem picResult_clean (herr : auErr a = 0) : picResult x a = x.picNum + 16777215 * 4294967296 := by
  simp [picResult, herr]

theorem picStatus_fault (herr : auErr a ≠ 0) : picStatus x a = stBitstream := if_pos herr

theorem picResult_fault (herr : auErr a ≠ 0) :
    picResult x a = x.picNum + a.firstBadCtu % 16777216 * 4294967296 + auErr a * 2 ^ 56 := by
  simp [picResult, herr]

/-- The counters of a job: generated references, and its status where it is none of success. -/
def Dev.picCounted (d : Dev) (st gen : Nat) : Dev :=
  if st = stConcealed then (d.count 0x60848 gen).count 0x60840 1
  else if st = stBitstream then (d.count 0x60848 gen).count 0x60844 1
  else d.count 0x60848 gen

theorem Dev.picCounted_keeps (d : Dev) (st gen : Nat) : Keeps [.ctrs] d (d.picCounted st gen) := by
  have hgen := d.count_keeps 0x60848 gen
  unfold Dev.picCounted
  split
  · exact hgen.trans (Dev.count_keeps _ _ _)
  · exact hgen.ifThen (Dev.count_keeps _ _ _)

/-- The report of a job whose picture is reconstructed (Table 10-5). -/
def picReport (x : DecSession) (a : AccessUnit) : List Fld :=
  let k := conceal x a (refSet x a) x.picNum
  decReport a x.picNum (k.tainted.toNat + (decide (auErr a ≠ 0)).toNat * 2 + k.recovered.toNat * 8 + auFlags a)
    (auReport a) (missing (refSet x a) a).length (if auErr a = 0 then ones32 else a.firstBadCtu) a.ctusDecoded
    (if picStatus x a = stConcealed then satW 32 (x.concealed + 1) else x.concealed)

/-- The picture is in the DPB, counted and reported. -/
def Dev.decPainted (d : Dev) (c : Cmd) (x : DecSession) (a : AccessUnit) (made : Nat) : Dev :=
  (((d.setDec c.handle (some (decodedDec x a made))).undefBuf true x.workAddr (4096 * x.workLen)).picCounted
    (picStatus x a) (missing (refSet x a) a).length).decTell c (picReport x a)

theorem Dev.decPainted_keeps (d : Dev) (c : Cmd) (x : DecSession) (a : AccessUnit) (made : Nat) :
    Keeps [.mem, .ctrs, .out] (d.setDec c.handle (some (decodedDec x a made))) (d.decPainted c x a made) :=
  ((Dev.undefMem_keeps _ _ _).mono (by simp)).trans ((Dev.picCounted_keeps _ _ _).mono (by simp)) |>.trans
    ((Dev.decTell_keeps _ _ _).mono (by simp))

theorem Dev.DecTurn.decodes (h : d.DecTurn c x) :
    ∃ e made, d.decPicture r c x a = e.finish r (picStatus x a) (picResult x a)
      ∧ e.dec? c.handle = some (decodedDec x a made) ∧ Keeps [.codec, .mem, .ctrs, .out] d e := by
  have hpainted := d.decPainted_keeps c x a (Config.carry (auKey x (d.auData c a) (missing (refSet x a) a)))
  have hdec := (hpainted.decOpt (by decide) c.handle).trans (Dev.setDec_decOpt _ _ _)
  exact ⟨_, _, Dev.finish_decSettle hdec h.flushing h.closing h.drain, hdec,
    ((d.setDec_keeps _ _).mono (by simp)).trans (hpainted.mono (by simp))⟩

end Turn

/-! ### What DEC_DECODE answers -/

section Decode

variable {s : State} {r : CmdRef} {c : Cmd} {x : DecSession} {a : AccessUnit}

theorem exec_decDecode (hint : a.internal = none) :
    exec (.decDecode r a) s = lift (runCmd specDecDecode r (decDecode a r)) s := by
  rw [exec, execDecDecode, hint]

variable (hc : s.dev.clear specDecDecode r c = true) (h : s.dev.DecTurn c x) (hint : a.internal = none)

include hc h hint

theorem decDecode_discards (hcode : discardCode x a ≠ 0) :
    ∃ t, exec (.decDecode r a) s = .next t
      ∧ Answered s.dev t.dev r stBitstream (x.picNum + 16777215 * 4294967296 + discardCode x a * 2 ^ 56)
      ∧ t.dev.dec? c.handle = some (discardedAu x (s.dev.auData c a) (discardCode x a))
      ∧ t.dev.ctrs = (s.dev.count 0x60844 1).ctrs ∧ Keeps (.codec :: .ctrs :: byDone) s.dev t.dev := by
  obtain ⟨e, he, hdec, hctrs, hk⟩ := h.discards (r := r) (a := a) (discardCode x a)
  obtain ⟨hnext, ha, hkeeps⟩ := blk_completes (runCmd_eq_runBlk _ r (decDecode a r) ▸ exec_decDecode hint) hc rfl
    (by rw [h.runs, if_pos hcode, he]) hk (by decide) (by decide)
  exact ⟨_, hnext, ha, (Dev.finish_decOpt _ _ _ _ _).trans hdec,
    (e.finish_keeps r _ _ .ctrs (by decide)).trans hctrs, hkeeps.mono (by simp [byDone])⟩

variable (hcode : discardCode x a = 0)

include hcode

theorem decDecode_waits (hcrowded : crowdedOut x a) :
    ∃ t, exec (.decDecode r a) s = .next t ∧ t.dev.cmd? r = some c
      ∧ t.dev.dec? c.handle = some { x with need := some c.num } ∧ Keeps [.codec] s.dev t.dev := by
  have he : decDecode a r c s.dev = s.dev.setDec c.handle (some { x with need := some c.num }) := by
    rw [h.runs, if_neg (not_not.mpr hcode), if_pos hcrowded]
    exact Dev.decSettle_rests (Dev.setDec_decOpt _ _ _) h.drain h.closing h.flushing
  have hk := s.dev.setDec_keeps c.handle (some { x with need := some c.num })
  exact ⟨_, event_effect (exec_decDecode hint) (Dev.clear_idle hc) ((runCmd_clear _ hc).trans he) hk (by decide),
    (s.dev.setDec_cmdOpt _ _ r).trans (Dev.clear_cmd hc), Dev.setDec_decOpt _ _ _, hk⟩

theorem decDecode_decodes (hroom : ¬ crowdedOut x a) :
    ∃ t made, exec (.decDecode r a) s = .next t ∧ t.pending = s.pending
      ∧ Answered s.dev t.dev r (picStatus x a) (picResult x a) ∧ t.dev.dec? c.handle = some (decodedDec x a made)
      ∧ Keeps (.codec :: .mem :: .ctrs :: byDone) s.dev t.dev := by
  obtain ⟨e, made, he, hdec, hk⟩ := h.decodes (r := r) (a := a)
  obtain ⟨hnext, ha, hkeeps⟩ := blk_completes (runCmd_eq_runBlk _ r (decDecode a r) ▸ exec_decDecode hint) hc rfl
    (by rw [h.runs, if_neg (not_not.mpr hcode), if_neg hroom, he]) hk (by decide) (by decide)
  exact ⟨_, made, hnext, rfl, ha, (Dev.finish_decOpt _ _ _ _ _).trans hdec, hkeeps.mono (by simp [byDone])⟩

end Decode

/-! ## A failed check (R493) -/

section Fault

variable {d e : Dev} {r : CmdRef} {c : Cmd} {x : DecSession} {k : Nat}

theorem Dev.clear_answerable {sp : CmdSpec} (hc : d.clear sp r c = true) : d.Answerable r := by
  obtain ⟨-, -, hops, hready, -, hfail, hlive, hheard⟩ := Dev.clear_iff.mp hc
  exact ⟨hops, ⟨c, Dev.ready_cmd hready, hfail⟩, hlive, hheard⟩

/-- What is answered stays so through an autonomous reset of a codec slice. -/
theorem Answered.codecReset {st res : Nat} (h : Answered d e r st res) (hops : e.hif.queueOps = []) (hlo : 0x28 ≤ k)
    (hhi : k < 0x2E) (tag : Option Nat) : Answered d (e.autoReset k tag) r st res
      ∧ (∃ y ∈ (e.autoReset k tag).eng.resets, y.code = k ∧ y.auto = true)
      ∧ (e.autoReset k tag).hif.modeChange = e.hif.modeChange := by
  obtain ⟨f, v, hends, hreset, y, hy, hcode⟩ := Dev.codecReset_begins hlo hhi e tag
  obtain ⟨hops', -⟩ := hends.gone hops
  have hheld := (h.ends hops hends).of_keeps (f.eng_keeps v) (by decide) (by decide)
  exact ⟨hheld.ends hops' hreset, ⟨y, hreset.eng ▸ hy, hcode⟩, hreset.mode.trans hends.mode⟩

theorem Dev.DecTurn.faults (h : d.DecTurn c x) (hs : d.sliceServes k = true) : decFault k r c d =
    ((d.finish r stInternal 0).decSettle c.handle).autoReset k (some c.tag) := by
  simp [decFault, h.served, h.pxe, Option.isNone_eq_false_iff.mpr h.ene, h.first, hs, h.session, h.flushing]

theorem decDecode_faults {s : State} {a : AccessUnit} (hc : s.dev.clear specDecDecode r c = true)
    (h : s.dev.DecTurn c x) (hint : a.internal = some k) (hs : s.dev.sliceServes k = true) :
    ∃ t y, exec (.decDecode r a) s = .next t ∧ Answered s.dev t.dev r stInternal 0 ∧ y ∈ t.dev.eng.resets
      ∧ y.code = k ∧ y.auto = true := by
  have hexec : exec (.decDecode r a) s = lift (runCmd specDecDecode r (decFault k r)) s := by
    rw [exec, execDecDecode, hint]
  obtain ⟨⟨hlo, hhi⟩, -⟩ : (0x28 ≤ k ∧ k < 0x2E) ∧ _ := by simpa [Dev.sliceServes] using hs
  have ha := Dev.clear_answerable hc
  have hrests := Dev.finish_decSettle (r := r) (st := stInternal) (res := 0) h.session h.flushing h.closing h.drain
  obtain ⟨hans, ⟨y, hy, hcode⟩, hmode⟩ := (ha.finish stInternal 0).codecReset
    (Dev.finish_no_queueOps r stInternal 0 ha.noOps) hlo hhi (some c.tag)
  have he := (h.faults (r := r) hs).trans (congrArg (·.autoReset k (some c.tag)) hrests)
  have hfixed := hmode.trans ((s.dev.finish_keeps r stInternal 0).modeChange (by decide))
  rw [← he] at hans hy hfixed
  exact ⟨_, y, hexec.trans (lift_clear hc hfixed), hans, hy, hcode⟩

end Fault

/-! ## A picture goes out (R280, R281, R285) -/

section Out

variable {s : State} {d : Dev} {h : Nat} {x : DecSession} {p : DpbPic} {b : Buf} {bs : List Buf}

theorem exec_decPictureOutput : exec (.decPictureOutput h) s = lift (fun d => d.decOut h) s := by
  rw [exec, execDecPictureOutput]

theorem Dev.decOut_none (hx : d.dec? h = some x) (hnone : x.bufs = [] ∨ waiting x = []) : d.decOut h = d := by
  simp only [Dev.decOut, hx]
  obtain hb | hw := hnone
  · rw [hb]
    cases firstOut x <;> rfl
  · simp [firstOut_nothing hw]

/-- The session without the picture and the buffer that have gone out. -/
def outputDec (x : DecSession) : DecSession :=
  { x with
    bufs := x.bufs.drop 1, outNum := (x.outNum + 1) % 4294967296, need := none
    flushed := x.flushed + x.flushing.isSome.toNat, wrote := x.wrote + x.drain.toNat, dpb := (dropFirst x).dpb }

/-- Status of a picture that goes out. -/
def outStatus (p : DpbPic) : Nat := if p.tainted then stConcealed else stSuccess

/-- Its RESULT. -/
def outResult (x : DecSession) (p : DpbPic) : Nat := x.outNum + fromSigned 32 p.poc * 4294967296

theorem Dev.decWrite_delivers (hrow : fmtRow (decFmt p) p.w ≤ b.a1) (hlen : b.a1 * decRows p ≤ b.len)
    (hspk : d.outSpk x = none) :
    ∃ e, d.decWrite h x p b = e.finish b.ref (outStatus p) (outResult x p) ∧ e.dec? h = some (outputDec x)
      ∧ Keeps [.codec, .mem, .out] d e := by
  have hrows := Keeps.foldl (fun e row => e.writeBuf b.dev (b.a0 + row.1) row.2) (fun e _ => e.writeBuf_keeps _ _ _)
    (decBytes p b.a1) (d.setDec h (some (outputDec x)))
  refine ⟨_, ?_, (hrows.decOpt (by decide) h).trans (Dev.setDec_decOpt _ _ _),
    ((d.setDec_keeps h _).mono (by simp)).trans (hrows.mono (by simp))⟩
  have hfits : ¬ (b.a1 < fmtRow (decFmt p) p.w ∨ b.len < b.a1 * decRows p) := by omega
  simp only [Dev.decWrite, if_neg hfits, hspk, Option.filter_none, Option.any_none, Bool.false_eq_true, if_false]
  rfl

theorem decPictureOutput_delivers (hi : s.dev.idleMode = true) (hx : s.dev.dec? h = some x)
    (hfirst : firstOut x = some p) (hb : x.bufs = b :: bs) (hd : x.drain = false)
    (hdue : outDue x false (s.dev.decNeeds x) = true) (hf : x.flushing = none) (hclosing : x.closing = none)
    (hrow : fmtRow (decFmt p) p.w ≤ b.a1) (hlen : b.a1 * decRows p ≤ b.len) (hspk : s.dev.outSpk x = none)
    (ha : s.dev.Answerable b.ref) :
    ∃ t, exec (.decPictureOutput h) s = .next t ∧ Answered s.dev t.dev b.ref (outStatus p) (outResult x p)
      ∧ t.dev.dec? h = some (outputDec x) ∧ Keeps (.codec :: .mem :: byDone) s.dev t.dev := by
  obtain ⟨e, he, hdec, hk⟩ := Dev.decWrite_delivers (h := h) hrow hlen hspk
  have hout : s.dev.decOut h = (s.dev.decWrite h x p b).decSettle h := by
    simp [Dev.decOut, hx, hfirst, hb, hd, hdue]
  have hrests := Dev.finish_decSettle (r := b.ref) (st := outStatus p) (res := outResult x p) hdec hf hclosing hd
  have hkeeps := (hk.mono (b := .codec :: .mem :: byDone) (by simp [byDone])).trans
    ((e.finish_keeps b.ref (outStatus p) (outResult x p)).mono (by simp [byDone]))
  rw [he, hrests] at hout
  exact ⟨_, event_effect exec_decPictureOutput hi hout hkeeps (by decide),
    ((ha.of_keeps hk (by decide)).finish _ _).before hk (by decide), (Dev.finish_decOpt _ _ _ _ _).trans hdec, hkeeps⟩

end Out

/-- Settles O44: a job in its turn by what becomes of its access unit and by a check that fails, a picture that goes
out by the buffer that takes it. -/
theorem decodeJobs : Obligations.DecodeJobs := by
  unfold Obligations.DecodeJobs
  refine ⟨fun s r c a x hc hserved hpxe hene hfirst hx hf hclosing hd => ?jobs, fun s h x hi hx =>
    ⟨fun hnone => event_none exec_decPictureOutput hi (Dev.decOut_none hx hnone),
      fun p b bs k hfirst hb hd hdue hf hclosing hrow hlen hspk hops hk hfail hlive hheard => ?output⟩⟩
  case jobs =>
    have h : s.dev.DecTurn c x := ⟨hserved, hpxe, hene, hfirst, hx, hf, hclosing, hd⟩
    refine ⟨fun k => decDecode_faults hc h, fun hint hcode => ?discarded, fun hint hcode hfull hwaits => ?crowded,
      fun hint hroom hover => ⟨fun hirap herr => ?clean, fun herr hdiscard => ?damaged⟩⟩
    case discarded =>
      obtain ⟨t, hnext, ha, hdec, hctrs, hk⟩ := decDecode_discards hc h hint hcode
      exact ⟨t, _, hnext, ha, hdec, rfl, rfl, hctrs, hk⟩
    case crowded =>
      obtain ⟨p, hp, hout, href⟩ := hwaits
      exact decDecode_waits hc h hint hcode ⟨hfull, List.any_eq_true.mpr ⟨p, hp, by simp [hout, href]⟩⟩
    case clean =>
      have hunit := auErr_none herr
      obtain ⟨t, made, hnext, hpend, ha, hdec, hk⟩ := decDecode_decodes hc h hint
        (discardCode_irap hover hirap herr) (not_crowdedOut hroom)
      obtain ⟨p, hlast, hpoc, htaint, hout, hsrc⟩ := decodedDec_last (x := x) (a := a) made
      have hconceal := conceal_irap (x := x) hirap hunit (refSet x a) x.picNum
      rw [picStatus_irap hirap hunit, picResult_clean hunit] at ha
      rw [hconceal] at htaint
      exact ⟨t, _, p, hnext, hpend, ha, hdec, rfl, hlast, hpoc, htaint, hout, hsrc hunit, rfl,
        congrArg Conceal.first hconceal, hk⟩
    case damaged =>
      have hunit := auErr_slice herr
      have hfault : auErr a ≠ 0 := by omega
      obtain ⟨t, made, hnext, -, ha, hdec, hk⟩ := decDecode_decodes hc h hint
        (discardCode_slice hover herr hdiscard) (not_crowdedOut hroom)
      obtain ⟨p, hlast, hpoc, htaint, -⟩ := decodedDec_last (x := x) (a := a) made
      rw [picStatus_fault hfault, picResult_fault hfault, hunit] at ha
      exact ⟨t, _, p, hnext, ha, hdec, rfl, hlast, hpoc, htaint.trans (conceal_slice (by rwa [hunit]) _ _), hk⟩
  case output =>
    obtain ⟨t, hnext, ha, hdec, hk⟩ := decPictureOutput_delivers hi hx hfirst hb hd hdue hf hclosing hrow hlen hspk
      ⟨hops, ⟨k, hk, hfail⟩, hlive, hheard⟩
    exact ⟨t, _, hnext, ha, hdec, by simp [outputDec, hb], rfl, hk⟩

end Sys2Proof.Machine
end

section
/-! SUPPORT. The model's queue of commands and its tick (O1, O2, O6). -/

namespace Sys2Proof.Machine

open Sys2Proof

/-! ## The queue (log entry 1) -/

/-- Every command goes on, and leaves the queue behind it alone (log entry 14). -/
theorem exec_goes (i : Instr) (s : State) : ∃ t, exec i s = .next t ∧ t.pending = s.pending := by
  by_cases hcold : ∃ st, i = .coldReset st
  · obtain ⟨st, rfl⟩ := hcold
    exact ⟨_, rfl, rfl⟩
  by_cases hrise : ∃ st, i = .resetNRise st
  · obtain ⟨st, rfl⟩ := hrise
    exact ⟨_, rfl, rfl⟩
  by_cases hfall : i = .pwrGoodFall
  · subst hfall
    exact ⟨_, rfl, rfl⟩
  · obtain ⟨f, hf⟩ := exec_lifts i (fun st h => hcold ⟨st, h⟩) (fun st h => hrise ⟨st, h⟩) hfall
    exact ⟨_, (hf s).trans (lift_next f s), rfl⟩

/-- A step with a command at the front is that command on the rest of the queue. -/
theorem step_cons (s : State) (i : Instr) (rest : List Instr) :
    step { s with pending := i :: rest } = exec i { s with pending := rest } := rfl

/-- Settles O1: the queue's front decides the step. -/
theorem stepRunsFront : Obligations.StepRunsFront := by
  unfold Obligations.StepRunsFront
  exact step_cons

/-- Settles O2: by induction on the commands that wait, each of which goes on. -/
theorem queueDrains : Obligations.QueueDrains := by
  unfold Obligations.QueueDrains
  intro xs ys
  induction xs with
  | nil => exact fun d => ⟨_, rfl, rfl⟩
  | cons i xs ih =>
    intro d
    obtain ⟨t, hstep, hpend⟩ := exec_goes i { dev := d, pending := xs ++ ys }
    obtain ⟨u, hrun, hu⟩ := ih t.dev
    have ht : { dev := t.dev, pending := xs ++ ys } = t := by rw [← show t.pending = xs ++ ys from hpend]
    refine ⟨u, ?_, hu⟩
    have hfront : core.step { dev := d, pending := i :: xs ++ ys } = .next t := hstep
    rw [ht] at hrun
    simp only [List.length_cons, Host.Core.run, hfront]
    exact hrun

/-! ## The tick (log entries 1 and 10) -/

section Tick

variable (d : Dev)

theorem Dev.mclkTrack_keeps (adv : Nat) : Keeps [.sni, .out] d (d.mclkTrack adv) := by
  unfold Dev.mclkTrack
  refine Keeps.foldl _ (fun e k => ?_) _ _
  split
  · exact Dev.setMclk_keeps _ _ _
  · exact Keeps.refl _ _

theorem Dev.stampOut_keeps : Keeps (.teu :: byPost) d d.stampOut := by
  unfold Dev.stampOut
  split
  · exact Keeps.refl _ _
  · refine Keeps.trans ?_ ((Dev.post_keeps _ _ _ _ _ _ _ _).mono (by simp))
    intro p hp
    cases p <;> simp_all [Part.same]

/-- The LTS moves by `n` and takes up the increment `inc`; the clocks that track it follow. -/
def Dev.ltsMoved (inc n : Nat) : Dev :=
  ({ d with ntu := { d.ntu with incr := inc, lts := (d.ntu.lts + n) % timeMod } }).mclkTrack n

theorem Dev.ltsMoved_ntu (inc n : Nat) :
    (d.ltsMoved inc n).ntu = { d.ntu with incr := inc, lts := (d.ntu.lts + n) % timeMod } :=
  Dev.mclkTrack_keeps _ _ .ntu (by decide)

/-- What a tick may touch beside the times: pulses and clocks that follow, records, and a slew that ends. -/
def byTick : List Part := .ntu :: .sni :: .teu :: byPost

theorem Dev.ltsMoved_keeps (inc n : Nat) : Keeps byTick d (d.ltsMoved inc n) :=
  ((d.ntu_keeps _).mono (by simp [byTick])).trans ((Dev.mclkTrack_keeps _ _).mono (by simp [byTick, byPost]))

/-- An LTS that follows no domain advances by the increment in force (R376). -/
theorem Dev.ltsTick_free {d : Dev} (h : d.ltsFollows = none) : d.ltsTick = d.ltsMoved d.ntu.incr d.ntu.incr := by
  unfold Dev.ltsTick
  rw [h]
  rfl

/-- An LTS that follows a domain moves too, and may end its slew (R377). -/
theorem Dev.ltsTick_moves : ∃ inc n, (d.ltsMoved inc n).SlewSame d.ltsTick := by
  unfold Dev.ltsTick
  split
  · exact ⟨_, _, Dev.SlewSame.refl _⟩
  · simp only []
    split
    · exact ⟨_, _, Dev.SlewSame.refl _⟩
    · split
      · exact ⟨_, _, Dev.slewStop_same _ _⟩
      · split <;> exact ⟨_, _, Dev.SlewSame.refl _⟩

theorem Dev.ltsTick_doms : d.ltsTick.ntu.doms = d.ntu.doms := by
  obtain ⟨inc, n, h⟩ := d.ltsTick_moves
  rw [h.doms, Dev.ltsMoved_ntu]

theorem Dev.ltsTick_keeps : Keeps byTick d d.ltsTick := by
  obtain ⟨inc, n, -, hk⟩ := d.ltsTick_moves
  exact (d.ltsMoved_keeps inc n).trans (hk.mono (by simp [byTick, byPost]))

/-- Both domain counters advance by their increments, and the LTS stays (R372). -/
theorem Dev.domTick_dom {k : Nat} (hk : k < 2) :
    (d.domTick.dom k).counter = ((d.dom k).counter + (d.dom k).incr) % timeMod := by
  obtain rfl | rfl : k = 0 ∨ k = 1 := by omega
  · simp [Dev.domTick, rangeFrom, Dev.setDom_dom_ne]
  · simp [Dev.domTick, rangeFrom, Dev.setDom_dom_ne]

theorem Dev.domTick_lts : d.domTick.ntu.lts = d.ntu.lts := rfl

theorem Dev.domTick_keeps : Keeps [.ntu] d d.domTick := Keeps.foldl _ (fun e _ => e.setDom_keeps _ _) _ _

/-- A change of schedule that takes effect is the membership's alone (R381). -/
theorem Dev.pelTick_ntu : d.pelTick.ntu = { d.ntu with pel := d.pelTick.ntu.pel } := by
  have hevent : ∀ (e : Dev) a b c f, (e.pelEvent a b c f).ntu = e.ntu := fun e a b c f =>
    e.pelEvent_keeps a b c f .ntu (by decide)
  unfold Dev.pelTick Dev.pelApply
  split
  · split
    · simp only []
      split
      · rfl
      · simp only [hevent]
        rfl
    · rfl
  · rfl

theorem Dev.tick_keeps : Keeps byTick d d.tick := by
  unfold Dev.tick
  exact ((((d.ltsTick_keeps).trans ((Dev.domTick_keeps _).mono (by simp [byTick]))).trans
    ((Dev.fsTick_keeps _).mono (by simp [byTick, byPost]))).trans
    ((Dev.pelTick_keeps _).mono (by simp [byTick, byPost]))).trans
    ((Dev.stampOut_keeps _).mono (by simp [byTick, byPost]))

/-- The times after a tick are those that its first two parts leave. -/
theorem Dev.tick_ntu : d.tick.ntu = { d.ltsTick.domTick.ntu with pel := d.tick.ntu.pel } := by
  have hout : ∀ e : Dev, e.stampOut.ntu = e.ntu := fun e => e.stampOut_keeps .ntu (by decide)
  have hfs : ∀ e : Dev, e.fsTick.ntu = e.ntu := fun e => e.fsTick_keeps .ntu (by decide)
  unfold Dev.tick
  rw [hout, Dev.pelTick_ntu, hfs]

theorem Dev.tick_dom {k : Nat} (hk : k < 2) :
    (d.tick.dom k).counter = ((d.dom k).counter + (d.dom k).incr) % timeMod := by
  have hdom : d.tick.dom k = d.ltsTick.domTick.dom k := by
    unfold Dev.dom
    rw [Dev.tick_ntu]
  have hold : d.ltsTick.dom k = d.dom k := by
    unfold Dev.dom
    rw [Dev.ltsTick_doms]
  rw [hdom, Dev.domTick_dom _ hk, hold]

theorem Dev.tick_lts {d : Dev} (h : d.ltsFollows = none) : d.tick.ntu.lts = (d.ntu.lts + d.ntu.incr) % timeMod := by
  rw [Dev.tick_ntu]
  change d.ltsTick.domTick.ntu.lts = _
  rw [Dev.domTick_lts, Dev.ltsTick_free h, Dev.ltsMoved_ntu]

end Tick

/-- Settles O6: the first two parts of a tick move the times, and nothing after them touches a time. -/
theorem tickAdvances : Obligations.TickAdvances := by
  unfold Obligations.TickAdvances
  intro s hp hon
  have hmode := Dev.settleMode_keeps s.dev.tick
  have hntu : s.dev.tick.settleMode.ntu = s.dev.tick.ntu := hmode .ntu (by decide)
  refine ⟨_, step_nil hp, hp, fun k hk => ?_, fun hfree => ?_, ?_, ?_⟩
  · rw [if_pos hon, ← Dev.tick_dom _ hk]
    unfold Dev.dom
    rw [hntu]
  · rw [if_pos hon, hntu, Dev.tick_lts hfree]
  · rw [if_pos hon]
    exact (hmode .regs (by decide)).trans (s.dev.tick_keeps .regs (by decide))
  · rw [if_pos hon]
    exact (hmode .mem (by decide)).trans (s.dev.tick_keeps .mem (by decide))

end Sys2Proof.Machine
end

section
/-! SUPPORT. The Mosaic Predictor and its inverse, and the record of a staged frame (O45). -/

namespace Sys2Proof.Machine

open Sys2Proof

/-! ## Ranges -/

theorem rangeFrom_eq_range' (a n : Nat) : rangeFrom a n = List.range' a n := by
  induction n generalizing a with
  | zero => rfl
  | succ n ih => rw [rangeFrom, ih, List.range'_succ]

theorem length_rangeFrom (a n : Nat) : (rangeFrom a n).length = n := by simp [rangeFrom_eq_range']

theorem rangeFrom_succ_last (a n : Nat) : rangeFrom a (n + 1) = rangeFrom a n ++ [a + n] := by
  simp [rangeFrom_eq_range', List.range'_concat]

/-- Entry `b` of a mapped range. -/
theorem getD_map_rangeFrom {α : Type} (f : Nat → α) {n b : Nat} (z : α) (h : b < n) :
    ((rangeFrom 0 n).map f).getD b z = f b := by
  simp [rangeFrom_eq_range', List.getD_eq_getElem?_getD, h]

theorem getD_map_rangeFrom_past {α : Type} (f : Nat → α) {n b : Nat} (z : α) (h : n ≤ b) :
    ((rangeFrom 0 n).map f).getD b z = z := by
  simp [rangeFrom_eq_range', List.getD_eq_getElem?_getD, h]

/-! ## One word (R302, R303) -/

section Word

variable {m v : Nat} (p : Nat) (hm : m % 2 = 0) (hv : v < m)
include hm hv

/-- The fold is undone modulo M. -/
theorem mpUnfold_mpFold : mpUnfold m (mpFold m v p) p = v := by
  obtain ⟨e, he⟩ : ∃ e, e = ((v : Int) - p + ((m / 2 : Nat) : Int)) % m - ((m / 2 : Nat) : Int) := ⟨_, rfl⟩
  have hback : ((p : Int) + e) % m = v := by
    have hsum : (p : Int) + e = v - m * (((v : Int) - p + ((m / 2 : Nat) : Int)) / m) := by
      rw [he, Int.emod_def]
      ring
    rw [hsum, Int.sub_mul_emod_self_left]
    exact Int.emod_eq_of_lt (by omega) (by omega)
  unfold mpFold mpUnfold
  simp only [← he]
  by_cases h0 : 0 ≤ e
  · have hz : (2 * e).toNat % 2 = 0 ∧ (((2 * e).toNat / 2 : Nat) : Int) = e := by omega
    rw [if_pos h0, if_neg (by omega), hz.2, hback]
    rfl
  · have hz : (-2 * e - 1).toNat % 2 = 1 ∧ -((((-2 * e - 1).toNat + 1) / 2 : Nat) : Int) = e := by omega
    rw [if_neg h0, if_pos hz.1, hz.2, hback]
    rfl

/-- Words keep the depth of the samples. -/
theorem mpFold_lt : mpFold m v p < m := by
  have hlo := Int.emod_nonneg ((v : Int) - p + ((m / 2 : Nat) : Int)) (b := m) (by omega)
  have hhi := Int.emod_lt_of_pos ((v : Int) - p + ((m / 2 : Nat) : Int)) (b := m) (by omega)
  unfold mpFold
  simp only []
  split <;> omega

end Word

/-! ## Rows and planes -/

/-- The prediction of a site reads its row only before the site. -/
theorem mpPredict_take {m px : Nat} (hpx : 1 ≤ px) (row : List Nat) (up : Option (List Nat)) (x : Nat) :
    mpPredict m px (row.take x) up x = mpPredict m px row up x := by
  have hsmp : px ≤ x → smp (row.take x) (x - px) = smp row (x - px) := fun h => by
    simp [smp, List.getD_eq_getElem?_getD, show x - px < x by omega]
  cases up with
  | none =>
    simp only [mpPredict]
    split
    · next h => exact hsmp h
    · rfl
  | some u =>
    simp only [mpPredict]
    split
    · next h => rw [hsmp h]
    · rfl

section Rows

variable {m px py w : Nat} (hm : m % 2 = 0) (hpx : 1 ≤ px) (hpy : 1 ≤ py)

theorem length_mpRowWords (m px : Nat) (row : List Nat) (up : Option (List Nat)) :
    (mpRowWords m px row up).length = row.length := by
  simp [mpRowWords, length_rangeFrom]

include hm hpx in
/-- A row comes back from its words, site by site from the left. -/
theorem mpRowBack_mpRowWords {row : List Nat} (up : Option (List Nat)) (hrow : ∀ v ∈ row, v < m) :
    mpRowBack m px up [] (mpRowWords m px row up) = row := by
  suffices hpart : ∀ n x, x + n = row.length → mpRowBack m px up (row.take x)
      ((rangeFrom x n).map fun x => mpFold m (smp row x) (mpPredict m px row up x)) = row from
    hpart row.length 0 (by omega)
  intro n
  induction n with
  | zero =>
    intro x hx
    simp [rangeFrom, mpRowBack, List.take_of_length_le (show row.length ≤ x by omega)]
  | succ n ih =>
    intro x hx
    have hlt : x < row.length := by omega
    have hsmp : smp row x = row[x] := by simp [smp, hlt]
    have hlen : (row.take x).length = x := by simp; omega
    rw [rangeFrom, List.map_cons, mpRowBack, hlen, mpPredict_take hpx,
      mpUnfold_mpFold _ hm (by rw [hsmp]; exact hrow _ (List.getElem_mem hlt)), hsmp, List.take_append_getElem hlt]
    exact ih (x + 1) (by omega)

include hpy in
/-- The row above lies among the rows before. -/
theorem rowUp_take {rows : List (List Nat)} {j : Nat} (hj : j ≤ rows.length) :
    rowUp (rows.take j) (rows.take j).length py = rowUp rows j py := by
  have hlen : (rows.take j).length = j := by simp; omega
  unfold rowUp
  rw [hlen]
  split
  · simp [List.getD_eq_getElem?_getD, show j - py < j by omega]
  · rfl

include hm hpx hpy in
/-- The rows of a plane come back from its words, one after another. -/
theorem mpBack_mpWords {rows : List (List Nat)} (tail : List Nat)
    (hrows : ∀ row ∈ rows, row.length = w ∧ ∀ v ∈ row, v < m) :
    mpBack m px py w rows.length [] (mpWords m px py rows ++ tail) = rows := by
  suffices hpart : ∀ n j, j + n = rows.length → mpBack m px py w n (rows.take j)
      ((rangeFrom j n).flatMap (fun y => mpRowWords m px (rows.getD y []) (rowUp rows y py)) ++ tail) = rows from
    hpart rows.length 0 (by omega)
  intro n
  induction n with
  | zero =>
    intro j hj
    simp [mpBack, List.take_of_length_le (show rows.length ≤ j by omega)]
  | succ n ih =>
    intro j hj
    have hlt : j < rows.length := by omega
    obtain ⟨hw, hval⟩ := hrows _ (List.getElem_mem hlt)
    have hget : rows.getD j [] = rows[j] := by simp [hlt]
    have hlen : (mpRowWords m px rows[j] (rowUp rows j py)).length = w := by rw [length_mpRowWords, hw]
    rw [rangeFrom, List.flatMap_cons, mpBack, rowUp_take hpy (by omega), List.append_assoc, hget,
      List.take_left' hlen, List.drop_left' hlen, mpRowBack_mpRowWords hm hpx _ hval, List.take_append_getElem hlt]
    exact ih (j + 1) (by omega)

include hm in
/-- Every word of a plane is below M. -/
theorem mem_mpWords_lt {rows : List (List Nat)} (hrows : ∀ row ∈ rows, ∀ v ∈ row, v < m) {z : Nat}
    (hz : z ∈ mpWords m px py rows) : z < m := by
  simp only [mpWords, mpRowWords, List.mem_flatMap, List.mem_map, mem_rangeFrom] at hz
  obtain ⟨y, ⟨-, hy⟩, x, ⟨-, hx⟩, rfl⟩ := hz
  have hy : y < rows.length := by omega
  have hget : rows.getD y [] = rows[y] := by simp [hy]
  rw [hget] at hx ⊢
  have hx : x < rows[y].length := by omega
  have hsmp : smp rows[y] x = rows[y][x] := by simp [smp, hx]
  exact mpFold_lt _ hm (by rw [hsmp]; exact hrows _ (List.getElem_mem hy) _ (List.getElem_mem hx))

/-- As many words as sites. -/
theorem length_mpWords {rows : List (List Nat)} (hrows : ∀ row ∈ rows, row.length = w) :
    (mpWords m px py rows).length = rows.length * w := by
  have hlen : ∀ y ∈ rangeFrom 0 rows.length, (mpRowWords m px (rows.getD y []) (rowUp rows y py)).length = w := by
    intro y hy
    have hy : y < rows.length := by have := mem_rangeFrom.mp hy; omega
    rw [length_mpRowWords, show rows.getD y [] = rows[y] by simp [hy]]
    exact hrows _ (List.getElem_mem hy)
  rw [mpWords, List.length_flatMap, List.map_congr_left hlen]
  simp [length_rangeFrom]

end Rows

/-! ## Planes (R114, R311) -/

theorem length_planeOf {g w : Nat} (k : Nat) {row : List Nat} (hg : 1 ≤ g) (hrow : row.length = w * g) :
    (planeOf g k row).length = w := by
  simp [planeOf, length_rangeFrom, hrow, Nat.mul_div_cancel _ (show 0 < g by omega)]

theorem smp_planeOf {g w x : Nat} (k : Nat) {row : List Nat} (hg : 1 ≤ g) (hrow : row.length = w * g) (hx : x < w) :
    smp (planeOf g k row) x = smp row (g * x + k) := by
  rw [planeOf, smp, hrow, Nat.mul_div_cancel _ (show 0 < g by omega), getD_map_rangeFrom _ _ hx]

/-- A plane holds samples of its row. -/
theorem mem_planeOf {g k v : Nat} {row : List Nat} (hk : k < g) (hv : v ∈ planeOf g k row) : v ∈ row := by
  simp only [planeOf, List.mem_map, mem_rangeFrom] at hv
  obtain ⟨x, ⟨-, hx⟩, rfl⟩ := hv
  have hlt : g * x + k < row.length := by
    have hle : g * (x + 1) ≤ g * (row.length / g) := Nat.mul_le_mul_left g (by omega)
    have := Nat.mul_div_le row.length g
    rw [Nat.mul_add] at hle
    omega
  rw [smp, List.getD_eq_getElem _ _ hlt]
  exact List.getElem_mem hlt

/-- Counting to `w * g` is counting to `g`, `w` times. -/
theorem flatMap_range_blocks {α : Type} (f : Nat → α) (g w : Nat) :
    ((List.range w).flatMap fun x => (List.range g).map fun k => f (g * x + k)) = (List.range (w * g)).map f := by
  induction w with
  | zero => simp
  | succ w ih =>
    rw [List.range_succ, List.flatMap_append, ih, Nat.succ_mul, List.range_add, List.map_append]
    simp [List.map_map, Function.comp_def, Nat.mul_comm]

/-- The planes of a row, woven, are the row. -/
theorem weave_planeOf {g w : Nat} {row : List Nat} (hg : 1 ≤ g) (hrow : row.length = w * g) :
    weave ((rangeFrom 0 g).map fun k => planeOf g k row) w = row := by
  have hsites : weave ((rangeFrom 0 g).map fun k => planeOf g k row) w
      = (List.range w).flatMap fun x => (List.range g).map fun k => smp row (g * x + k) := by
    simp only [weave, rangeFrom_eq_range', ← List.range_eq_range', List.map_map]
    refine List.flatMap_congr fun x hx => ?_
    refine List.map_congr_left fun k _ => ?_
    exact smp_planeOf k hg hrow (List.mem_range.mp hx)
  rw [hsites, flatMap_range_blocks, ← hrow]
  refine List.ext_getElem (by simp) fun i h1 h2 => ?_
  simp [smp, h2]

/-! ## Bands (R306) -/

theorem le_ceilDiv_mul (a : Nat) {b : Nat} (hb : 1 ≤ b) : a ≤ ceilDiv a b * b := by
  have h := Nat.div_add_mod (a + b - 1) b
  have hlt := Nat.mod_lt (a + b - 1) (show 0 < b by omega)
  have hcomm : ceilDiv a b * b = b * ((a + b - 1) / b) := Nat.mul_comm _ _
  omega

/-- The bands reach the last row. -/
theorem le_bands_mul_bandRows (h : Nat) {bands py : Nat} (hb : 1 ≤ bands) (hpy : 1 ≤ py) :
    h ≤ bands * bandRows h bands py := by
  calc h ≤ ceilDiv h bands * bands := le_ceilDiv_mul h hb
    _ ≤ bandRows h bands py * bands := Nat.mul_le_mul_right _ (le_ceilDiv_mul _ hpy)
    _ = bands * bandRows h bands py := Nat.mul_comm _ _

/-- A list cut into pieces of `k` and put together again. -/
theorem flatMap_cuts {α : Type} (l : List α) (k n : Nat) :
    ((rangeFrom 0 n).flatMap fun b => (l.drop (b * k)).take k) = l.take (n * k) := by
  induction n with
  | zero => simp [rangeFrom]
  | succ n ih => rw [rangeFrom_succ_last, List.flatMap_append, ih, Nat.succ_mul, List.take_add]; simp

/-- Piece `k` of pieces of `c` words, and what follows it. -/
theorem drop_flatMap_range {α : Type} (W : Nat → List α) {g c k : Nat} (hk : k < g)
    (hW : ∀ j, j < g → (W j).length = c) :
    ((rangeFrom 0 g).flatMap W).drop (k * c) = W k ++ (rangeFrom (k + 1) (g - k - 1)).flatMap W := by
  have hsplit : rangeFrom 0 g = rangeFrom 0 k ++ k :: rangeFrom (k + 1) (g - k - 1) := by
    rw [← rangeFrom, rangeFrom_eq_range', rangeFrom_eq_range', rangeFrom_eq_range']
    have := List.range'_append (s := 0) (m := k) (n := g - k - 1 + 1) (step := 1)
    rw [show g = k + (g - k - 1 + 1) by omega]
    simpa using this.symm
  have hlen : ((rangeFrom 0 k).flatMap W).length = k * c := by
    have hpiece : ∀ j ∈ rangeFrom 0 k, (W j).length = c := fun j hj => hW j (by have := mem_rangeFrom.mp hj; omega)
    rw [List.length_flatMap, List.map_congr_left hpiece]
    simp [length_rangeFrom]
  rw [hsplit, List.flatMap_append, List.drop_left' hlen, List.flatMap_cons]

/-! ## The record of a staged frame (R309, R311) -/

/-- A staged frame of a legal geometry: its rows fill it, and its samples fit its depth. -/
structure LegalFrame (f : StagedFrame) : Prop where
  px : 1 ≤ f.px ∧ f.px ≤ 8
  py : 1 ≤ f.py ∧ f.py ≤ 8
  depth : f.depth = 10 ∨ f.depth = 12 ∨ f.depth = 14 ∨ f.depth = 16
  planes : f.planes = 1 ∨ f.planes = 2
  width : 1 ≤ f.width
  height : f.rows.length = f.height
  rows : ∀ row ∈ f.rows, row.length = f.width * f.planes ∧ ∀ z ∈ row, z < 2 ^ f.depth

/-- The rows of band `b`. -/
def frameBand (f : StagedFrame) (bands b : Nat) : List (List Nat) :=
  (f.rows.drop (b * bandRows f.height bands f.py)).take (bandRows f.height bands f.py)

/-- The record of a frame cut into `bands` bands. -/
def recordOf (f : StagedFrame) (bands : Nat) : RawRecord := {
  fault := false, frameIndex := f.index, depth := f.depth, px := f.px, py := f.py, planes := f.planes
  width := f.width, height := f.height
  row0 := (rangeFrom 0 bands).map (· * bandRows f.height bands f.py)
  bands := (rangeFrom 0 bands).map (bandWords f bands) }

section Record

variable {f : StagedFrame} {bands b : Nat} (h : LegalFrame f) (hbands : 1 ≤ bands)
  (hfull : (bands - 1) * bandRows f.height bands f.py < f.height) (hb : b < bands)
include h

theorem LegalFrame.one_le_planes : 1 ≤ f.planes := by
  have := h.planes
  omega

theorem LegalFrame.depth_even : 2 ^ f.depth % 2 = 0 := by
  obtain hd | hd | hd | hd := h.depth <;> simp [hd]

theorem LegalFrame.depth_le : 2 ^ f.depth ≤ 65536 := by
  obtain hd | hd | hd | hd := h.depth <;> simp [hd]

theorem mem_frameBand {row : List Nat} (hrow : row ∈ frameBand f bands b) :
    row.length = f.width * f.planes ∧ ∀ z ∈ row, z < 2 ^ f.depth :=
  h.rows row (List.mem_of_mem_drop (List.mem_of_mem_take hrow))

/-- The rows of one plane of a band. -/
theorem mem_plane_frameBand {k : Nat} (hk : k < f.planes) {row : List Nat}
    (hrow : row ∈ (frameBand f bands b).map (planeOf f.planes k)) :
    row.length = f.width ∧ ∀ z ∈ row, z < 2 ^ f.depth := by
  obtain ⟨r, hr, rfl⟩ := List.mem_map.mp hrow
  obtain ⟨hlen, hval⟩ := mem_frameBand h hr
  exact ⟨length_planeOf k h.one_le_planes hlen, fun z hz => hval z (mem_planeOf hk hz)⟩

/-- The words of plane `k` of a band. -/
theorem bandWords_eq : bandWords f bands b = (rangeFrom 0 f.planes).flatMap fun k =>
    mpWords (2 ^ f.depth) f.px f.py ((frameBand f bands b).map (planeOf f.planes k)) := by
  unfold bandWords frameBand
  rw [List.take_of_length_le (show f.rows.length ≤ f.height by rw [h.height])]

theorem length_planeWords {k : Nat} (hk : k < f.planes) :
    (mpWords (2 ^ f.depth) f.px f.py ((frameBand f bands b).map (planeOf f.planes k))).length
      = (frameBand f bands b).length * f.width := by
  rw [length_mpWords fun row hrow => (mem_plane_frameBand h hk hrow).1, List.length_map]

theorem length_bandWords : (bandWords f bands b).length = (frameBand f bands b).length * f.width * f.planes := by
  have hplane : ∀ k ∈ rangeFrom 0 f.planes, (mpWords (2 ^ f.depth) f.px f.py
      ((frameBand f bands b).map (planeOf f.planes k))).length = (frameBand f bands b).length * f.width :=
    fun k hk => length_planeWords h (by have := mem_rangeFrom.mp hk; omega)
  rw [bandWords_eq h, List.length_flatMap, List.map_congr_left hplane]
  simp [length_rangeFrom, Nat.mul_comm]

theorem mem_bandWords_lt {z : Nat} (hz : z ∈ bandWords f bands b) : z < 65536 := by
  rw [bandWords_eq h, List.mem_flatMap] at hz
  obtain ⟨k, hk, hz⟩ := hz
  have hk : k < f.planes := by have := mem_rangeFrom.mp hk; omega
  have hlt := mem_mpWords_lt h.depth_even (fun row hrow => (mem_plane_frameBand h hk hrow).2) hz
  exact Nat.lt_of_lt_of_le hlt h.depth_le

/-- The inverse predictor gives back plane `k` of a band. -/
theorem mpBack_bandWords {k : Nat} (hk : k < f.planes) :
    mpBack (2 ^ f.depth) f.px f.py f.width (frameBand f bands b).length []
      ((bandWords f bands b).drop (k * (frameBand f bands b).length * f.width))
      = (frameBand f bands b).map (planeOf f.planes k) := by
  rw [bandWords_eq h, Nat.mul_assoc, drop_flatMap_range _ hk fun j hj => length_planeWords h hj]
  have := mpBack_mpWords h.depth_even h.px.1 h.py.1 (w := f.width)
    (rows := (frameBand f bands b).map (planeOf f.planes k))
    ((rangeFrom (k + 1) (f.planes - k - 1)).flatMap fun k =>
      mpWords (2 ^ f.depth) f.px f.py ((frameBand f bands b).map (planeOf f.planes k)))
    fun row hrow => mem_plane_frameBand h hk hrow
  rwa [List.length_map] at this

/-- Weaving the planes of a band gives its rows. -/
theorem weave_frameBand : ((rangeFrom 0 (frameBand f bands b).length).map fun y =>
    weave (((rangeFrom 0 f.planes).map fun k => (frameBand f bands b).map (planeOf f.planes k)).map fun p => p.getD y [])
      f.width) = frameBand f bands b := by
  refine List.ext_getElem (by simp [length_rangeFrom]) fun y h1 h2 => ?_
  have hget : ∀ k, ((frameBand f bands b).map (planeOf f.planes k)).getD y []
      = planeOf f.planes k (frameBand f bands b)[y] :=
    fun k => by simp [List.getD_eq_getElem?_getD, h2]
  simp only [List.getElem_map, List.map_map, Function.comp_def, rangeFrom_eq_range', List.getElem_range',
    Nat.zero_add, Nat.one_mul, hget]
  rw [← rangeFrom_eq_range']
  exact weave_planeOf h.one_le_planes (mem_frameBand h (List.getElem_mem h2)).1

include hbands hfull hb

/-- A band of the record is as long as its rows. -/
theorem recRows_recordOf : recRows (recordOf f bands) b = (frameBand f bands b).length
    ∧ (recordOf f bands).row0.getD b 0 < (recordOf f bands).row0.getD (b + 1) f.height := by
  have hreach := le_bands_mul_bandRows f.height hbands h.py.1
  have hstart : b * bandRows f.height bands f.py ≤ (bands - 1) * bandRows f.height bands f.py :=
    Nat.mul_le_mul_right _ (by omega)
  have hlen : (frameBand f bands b).length
      = min (bandRows f.height bands f.py) (f.height - b * bandRows f.height bands f.py) := by
    simp [frameBand, h.height]
  have hpos : 0 < bandRows f.height bands f.py := by
    refine Nat.pos_of_ne_zero fun h0 => ?_
    rw [h0] at hreach hfull
    omega
  simp only [recRows, recordOf, hlen, getD_map_rangeFrom _ _ hb]
  by_cases hlast : b + 1 < bands
  · have hnext : (b + 1) * bandRows f.height bands f.py ≤ (bands - 1) * bandRows f.height bands f.py :=
      Nat.mul_le_mul_right _ (by omega)
    rw [getD_map_rangeFrom _ _ hlast]
    rw [Nat.succ_mul] at hnext ⊢
    omega
  · have hn : bands = b + 1 := by omega
    rw [getD_map_rangeFrom_past _ _ (by omega)]
    rw [hn, Nat.succ_mul] at hreach
    rw [← hn] at hreach
    omega

end Record

/-- Settles O45: the fold is undone word by word, so the predictor is undone along each row, down each plane and band by
band, and the bands put together are the frame. -/
theorem recordIsLossless : Obligations.RecordIsLossless := by
  unfold Obligations.RecordIsLossless
  intro f bands v hb1 hb12 hpx1 hpx8 hpy1 hpy8 hdepth hplanes hwidth hheight hrows hfull hv
  have h : LegalFrame f := ⟨⟨hpx1, hpx8⟩, ⟨hpy1, hpy8⟩, hdepth, hplanes, hwidth, hheight, hrows⟩
  obtain rfl : v = recordOf f bands := hv
  have hcount : (recordOf f bands).bands.length = bands := by simp [recordOf, length_rangeFrom]
  have hband : ∀ b, b < bands → (recordOf f bands).bands.getD b [] = bandWords f bands b := fun b hb =>
    getD_map_rangeFrom _ _ hb
  refine ⟨?ok, ?rows⟩
  case ok =>
    have hbands : ∀ b ∈ rangeFrom 0 (recordOf f bands).bands.length,
        (decide ((recordOf f bands).row0.getD b 0 < (recordOf f bands).row0.getD (b + 1) (recordOf f bands).height)
          && ((recordOf f bands).bands.getD b []).length
            == recRows (recordOf f bands) b * (recordOf f bands).width * (recordOf f bands).planes
          && ((recordOf f bands).bands.getD b []).all fun z => decide (z < 65536)) = true := by
      intro b hb
      have hb : b < bands := by rw [hcount] at hb; have := mem_rangeFrom.mp hb; omega
      obtain ⟨hlen, hlt⟩ := recRows_recordOf h hb1 hfull hb
      rw [hband b hb, hlen]
      simp only [Bool.and_eq_true, decide_eq_true_eq, beq_iff_eq, List.all_eq_true]
      exact ⟨⟨hlt, length_bandWords h⟩, fun z hz => mem_bandWords_lt h hz⟩
    have hhead : (recordOf f bands).row0.head? = some 0 := by
      obtain ⟨n, rfl⟩ : ∃ n, bands = n + 1 := ⟨bands - 1, by omega⟩
      simp [recordOf, rangeFrom]
    have hfirst : (recordOf f bands).row0.length = bands := by simp [recordOf, length_rangeFrom]
    unfold recordOk
    rw [List.all_eq_true.mpr hbands, hhead, hfirst, hcount]
    simp [recordOf, hpx1, hpx8, hpy1, hpy8, hplanes, hwidth, hb12, or_assoc, hdepth]
  case rows =>
    calc recordRows (recordOf f bands)
        = (rangeFrom 0 bands).flatMap (frameBand f bands) := by
          unfold recordRows
          rw [hcount]
          refine List.flatMap_congr fun b hb => ?_
          have hb : b < bands := by have := mem_rangeFrom.mp hb; omega
          have hplane : ∀ k ∈ rangeFrom 0 f.planes,
              mpBack (2 ^ f.depth) f.px f.py f.width (frameBand f bands b).length []
                ((bandWords f bands b).drop (k * (frameBand f bands b).length * f.width))
              = (frameBand f bands b).map (planeOf f.planes k) := fun k hk =>
            mpBack_bandWords h (by have := mem_rangeFrom.mp hk; omega)
          rw [(recRows_recordOf h hb1 hfull hb).1, hband b hb]
          have hwoven := weave_frameBand (bands := bands) (b := b) h
          rw [← List.map_congr_left hplane] at hwoven
          exact hwoven
      _ = f.rows.take (bands * bandRows f.height bands f.py) := flatMap_cuts _ _ _
      _ = f.rows := List.take_of_length_le (by rw [hheight]; exact le_bands_mul_bandRows _ hb1 hpy1)

end Sys2Proof.Machine
end

section
/-! SUPPORT. Commands that answer, begin or wait, for any class; the sessions of the lossless engine (O46). -/

namespace Sys2Proof.Machine

open Sys2Proof

/-! ## Commands of any class -/

section Commands

variable {i : Instr} {sp : CmdSpec} {r : CmdRef} {c : Cmd} {s : State} {eff : Cmd → Dev → Dev} {e : Dev}
  {b : List Part} {st res : Nat}

/-- A clear command is of its row. -/
theorem Dev.clear_opc {d : Dev} (h : d.clear sp r c = true) : c.opc = sp.opc := by
  obtain ⟨-, -, -, hr, -⟩ := Dev.clear_iff.mp h
  unfold Dev.ready? at hr
  rw [Dev.clear_cmd h] at hr
  simp only [] at hr
  split at hr
  · next hrow => exact hrow.2.1
  · exact absurd hr (by simp)

/-- A command that completes on a state with a frame. -/
theorem cmd_finishes (hx : exec i s = lift (runCmd sp r eff) s) (hc : s.dev.clear sp r c = true)
    (he : eff c s.dev = e.finish r st res) (hk : Keeps b s.dev e) (hf : .fetch ∉ b) (hl : .link ∉ b) :
    exec i s = .next { s with dev := e.finish r st res } ∧ Answered s.dev (e.finish r st res) r st res
      ∧ Keeps (b ++ byDone) s.dev (e.finish r st res) :=
  blk_completes (runCmd_eq_runBlk sp r eff ▸ hx) hc rfl he hk hf hl

/-- A command that completes and changes nothing else. -/
theorem cmd_answers (hx : exec i s = lift (runCmd sp r eff) s) (hc : s.dev.clear sp r c = true)
    (he : eff c s.dev = s.dev.finish r st res) :
    ∃ t, exec i s = .next t ∧ Answered s.dev t.dev r st res ∧ Keeps byDone s.dev t.dev :=
  spkCmd_answers hx hc he

/-- A command that begins and waits. -/
theorem cmd_begins (hx : exec i s = lift (runCmd sp r eff) s) (hc : s.dev.clear sp r c = true)
    (he : eff c s.dev = e) (hk : Keeps b (s.dev.begin r) e) (hf : .fetch ∉ b) (hl : .link ∉ b) (ho : .out ∉ b) :
    exec i s = .next { s with dev := e } ∧ Begun s.dev e r c ∧ Keeps (b ++ [.fetch]) s.dev e :=
  blk_begins (runCmd_eq_runBlk sp r eff ▸ hx) hc rfl he hk hf hl ho

/-- A command that does not begin. -/
theorem cmd_waits (hx : exec i s = lift (runCmd sp r eff) s) (hc : s.dev.clear sp r c = true)
    (he : eff c s.dev = s.dev) : exec i s = .next s :=
  spkCmd_waits hx hc he

/-- The only command that is fetched is the only one after it has begun. -/
theorem Dev.begin_only {d : Dev} (hc : d.cmd? r = some c) (hcmds : d.hif.cmds = [c]) :
    (d.begin r).hif.cmds = [{ c with begun := true }] := by
  obtain ⟨hq, hi⟩ := Dev.cmd_ids hc
  simp [Dev.begin, hcmds, updFirst, hq, hi]

end Commands

/-! ## Sessions of the lossless engine -/

section Sessions

variable {d e : Dev} {b : List Part}

theorem Dev.setLse_keeps (d : Dev) (h : Nat) (v : Option LseSession) : Keeps [.lse] d (d.setLse h v) := by
  intro p hp
  cases p <;> simp_all [Part.same]

theorem Keeps.lseOpt (hk : Keeps b d e) (hb : .lse ∉ b) (h : Nat) : e.lse? h = d.lse? h := by
  have hlse : e.lse = d.lse := hk .lse hb
  unfold Dev.lse?
  rw [hlse]

theorem Keeps.rawOpt (hk : Keeps b d e) (hb : .lse ∉ b) (p : Nat) : e.raw? p = d.raw? p := by
  have hlse : e.lse = d.lse := hk .lse hb
  unfold Dev.raw?
  rw [hlse]

theorem Dev.finish_lse (d : Dev) (r : CmdRef) (st res : Nat) : (d.finish r st res).lse = d.lse :=
  d.finish_keeps r st res .lse (by decide)

theorem Dev.finish_lseRaw (d : Dev) (r : CmdRef) (st res : Nat) : (d.finish r st res).lse.raw = d.lse.raw := by
  rw [Dev.finish_lse]

theorem Dev.finish_lseSessions (d : Dev) (r : CmdRef) (st res : Nat) :
    (d.finish r st res).lse.sessions = d.lse.sessions := by
  rw [Dev.finish_lse]

theorem Dev.finish_lseOpt (d : Dev) (r : CmdRef) (st res h : Nat) : (d.finish r st res).lse? h = d.lse? h :=
  (d.finish_keeps r st res).lseOpt (by decide) h

theorem Dev.finish_rawOpt (d : Dev) (r : CmdRef) (st res p : Nat) : (d.finish r st res).raw? p = d.raw? p :=
  (d.finish_keeps r st res).rawOpt (by decide) p

theorem Dev.modRaw_some {p : Nat} {x : RawSession} (hx : d.raw? p = some x) (f : RawSession → RawSession) :
    d.modRaw p f = d.setRaw p (some (f x)) := by
  unfold Dev.modRaw
  rw [hx]

end Sessions

/-! ## LSE_OPEN and LSE_RAW_OPEN (R297, R304) -/

section Open

variable {s : State} {r : CmdRef} {c : Cmd}

theorem lseOpen_engineDown (hc : s.dev.clear specLseOpen r c = true) (hgone : s.dev.lseGone = true) :
    ∃ t, exec (.lseOpen r) s = .next t ∧ Answered s.dev t.dev r stEngineDown 0 ∧ Keeps byDone s.dev t.dev :=
  cmd_answers (by rw [exec, execLseOpen]) hc (if_pos hgone)

theorem lseOpen_opens (hc : s.dev.clear specLseOpen r c = true) (hgone : s.dev.lseGone = false) :
    ∃ t, exec (.lseOpen r) s = .next t ∧ t.pending = s.pending ∧ Answered s.dev t.dev r stSuccess 0
      ∧ t.dev.lse? c.handle = some {
          format := c.f 4 1 0, decomp := c.b 4 2, level := c.f 4 7 4, wlog := c.f 4 12 8, checksum := c.b 4 16
          workAddr := c.q 5, workLen := c.w 7 }
      ∧ (∀ h, h ≠ c.handle → t.dev.lse? h = s.dev.lse? h) ∧ t.dev.lse.raw = s.dev.lse.raw
      ∧ Keeps (.lse :: byDone) s.dev t.dev := by
  obtain ⟨hnext, ha, hk⟩ := cmd_finishes (i := .lseOpen r) (by rw [exec, execLseOpen]) hc
    (if_neg (ne_true_of_eq_false hgone)) (Dev.setLse_keeps _ _ _) (by decide) (by decide)
  refine ⟨_, hnext, rfl, ha, (Dev.finish_lseOpt _ _ _ _ _).trans (Dev.setLse_lseOpt _ _ _), fun h hne => ?_, ?_, hk⟩
  · exact (Dev.finish_lseOpt _ _ _ _ _).trans (Dev.setLse_lseOpt_ne _ _ _ hne)
  · exact Dev.finish_lseRaw _ _ _ _

theorem lseRawOpen_opens (hc : s.dev.clear specLseRawOpen r c = true) (hgone : s.dev.lseGone = false) :
    ∃ t, exec (.lseRawOpen r) s = .next t ∧ t.pending = s.pending ∧ Answered s.dev t.dev r stSuccess 0
      ∧ t.dev.raw? (c.f 4 1 0) = some {
          handle := c.handle, level := c.f 4 7 4, bands := c.f 4 11 8, wlog := c.f 4 16 12, checksum := c.b 4 24
          stage := c.q 5, slots := c.w 7 }
      ∧ (∀ p, p ≠ c.f 4 1 0 → t.dev.raw? p = s.dev.raw? p) ∧ Keeps (.lse :: byDone) s.dev t.dev := by
  obtain ⟨hnext, ha, hk⟩ := cmd_finishes (i := .lseRawOpen r) (by rw [exec, execLseRawOpen]) hc
    (if_neg (ne_true_of_eq_false hgone)) (Dev.setRaw_keeps _ _ _) (by decide) (by decide)
  exact ⟨_, hnext, rfl, ha, (Dev.finish_rawOpt _ _ _ _ _).trans (Dev.setRaw_rawOpt _ _ _),
    fun p hne => (Dev.finish_rawOpt _ _ _ _ _).trans (Dev.setRaw_rawOpt_ne _ _ _ hne), hk⟩

end Open

/-! ## LSE_RAW_BUFFER (R310) -/

section RawBuffer

variable {s : State} {r : CmdRef} {c : Cmd} {p : Nat} {x : RawSession}

/-- A buffer waits behind those of its session: at most 16 do. -/
def rawBufferCmd (r : CmdRef) (c : Cmd) (d : Dev) : Dev :=
  match d.rawPort c.handle with
  | none => d
  | some p =>
    if ((d.raw? p).any fun s => decide (16 ≤ s.bufs.length)) then d
    else (d.begin r).modRaw p fun s =>
      { s with bufs := s.bufs ++ [{ ref := r, a0 := c.q 5, dev := c.b 4 8, len := c.w 7 }] }

theorem exec_lseRawBuffer : exec (.lseRawBuffer r) s = lift (runCmd specLseRawBuffer r (rawBufferCmd r)) s := by
  rw [exec, execLseRawBuffer]
  rfl

variable (hc : s.dev.clear specLseRawBuffer r c = true) (hp : s.dev.rawPort c.handle = some p)
  (hx : s.dev.raw? p = some x)
include hc hp hx

theorem lseRawBuffer_full (hfull : 16 ≤ x.bufs.length) : exec (.lseRawBuffer r) s = .next s := by
  refine cmd_waits exec_lseRawBuffer hc ?_
  simp [rawBufferCmd, hp, hx, hfull]

theorem lseRawBuffer_begins (hroom : x.bufs.length < 16) :
    ∃ t, exec (.lseRawBuffer r) s = .next t ∧ t.pending = s.pending ∧ Begun s.dev t.dev r c
      ∧ t.dev.raw? p = some { x with bufs := x.bufs ++ [{ ref := r, a0 := c.q 5, dev := c.b 4 8, len := c.w 7 }] }
      ∧ (∀ q, q ≠ p → t.dev.raw? q = s.dev.raw? q) ∧ Keeps [.lse, .fetch] s.dev t.dev := by
  have hopen : (s.dev.begin r).raw? p = some x := hx
  have he : rawBufferCmd r c s.dev = (s.dev.begin r).setRaw p (some { x with
      bufs := x.bufs ++ [{ ref := r, a0 := c.q 5, dev := c.b 4 8, len := c.w 7 }] }) := by
    simp [rawBufferCmd, hp, hx, hroom, Dev.modRaw_some hopen]
  obtain ⟨hnext, hb, hk⟩ := cmd_begins exec_lseRawBuffer hc he (Dev.setRaw_keeps _ _ _) (by decide) (by decide) (by decide)
  exact ⟨_, hnext, rfl, hb, Dev.setRaw_rawOpt _ _ _, fun q hne => Dev.setRaw_rawOpt_ne _ _ _ hne, hk⟩

end RawBuffer

/-! ## LSE_CLOSE (R314) -/

section Close

variable {s : State} {d : Dev} {r : CmdRef} {c : Cmd} {h p : Nat}

theorem exec_lseClose : exec (.lseClose r) s = lift (runCmd specLseClose r (lseClose r)) s := by
  rw [exec, execLseClose]

/-- Where every fetched command is of another row than the jobs of streams, a session has no job left. -/
theorem Dev.lseEarly_no_jobs (hj : ∀ k ∈ d.hif.cmds, k.opc ≠ 3 ∧ k.opc ≠ 0x12) (closing : Option CmdRef) :
    d.lseEarly h closing = [] := by
  simp only [Dev.lseEarly, List.map_eq_nil_iff, List.filter_eq_nil_iff]
  intro k hk
  obtain ⟨h3, h12⟩ := hj k hk
  simp [h3, h12]

/-- A closing session without jobs is gone with the completion of its close. -/
theorem Dev.lseSettle_closes {x : LseSession} (hx : d.lse? h = some x) (hclosing : x.closing = some r)
    (hj : d.lseEarly h (some r) = []) : d.lseSettle h = (d.setLse h none).finish r stSuccess 0 := by
  simp [Dev.lseSettle, hx, hclosing, hj]

theorem Dev.lseSettle_open {x : LseSession} (hx : d.lse? h = some x) (hclosing : x.closing = none) :
    d.lseSettle h = d := by
  simp [Dev.lseSettle, hx, hclosing]

theorem lseClose_stream {x : LseSession} (hcmds : ∀ k ∈ (d.begin r).hif.cmds, k.opc ≠ 3 ∧ k.opc ≠ 0x12)
    (hraw : d.rawPort c.handle = none) (hx : d.lse? c.handle = some x) :
    lseClose r c d = (((d.begin r).setLse c.handle (some { x with closing := some r })).setLse c.handle none).finish r
      stSuccess 0 := by
  have hopen : (d.begin r).lse? c.handle = some x := hx
  have hnone : (d.begin r).rawPort c.handle = none := hraw
  simp only [lseClose, hnone, Dev.lseEarly_no_jobs hcmds, ite_self, Dev.finishAll, List.foldl_nil, hopen]
  exact Dev.lseSettle_closes (Dev.setLse_lseOpt _ _ _) rfl (Dev.lseEarly_no_jobs (by simpa using hcmds) _)

theorem lseClose_closes_stream {x : LseSession} (hc : s.dev.clear specLseClose r c = true)
    (hraw : s.dev.rawPort c.handle = none) (hx : s.dev.lse? c.handle = some x) (hcmds : s.dev.hif.cmds = [c]) :
    ∃ t, exec (.lseClose r) s = .next t ∧ t.pending = s.pending ∧ Answered s.dev t.dev r stSuccess 0
      ∧ t.dev.lse? c.handle = none ∧ (∀ h, h ≠ c.handle → t.dev.lse? h = s.dev.lse? h)
      ∧ t.dev.lse.raw = s.dev.lse.raw ∧ Keeps (.lse :: byDone) s.dev t.dev := by
  have hrow : ∀ k ∈ (s.dev.begin r).hif.cmds, k.opc ≠ 3 ∧ k.opc ≠ 0x12 := by
    have hopc : c.opc = 2 := Dev.clear_opc hc
    intro k hk
    rw [Dev.begin_only (Dev.clear_cmd hc) hcmds, List.mem_singleton] at hk
    rw [hk, show Cmd.opc { c with begun := true } = c.opc from rfl, hopc]
    decide
  obtain ⟨hnext, ha, hk⟩ := begunCmd_completes exec_lseClose hc (lseClose_stream hrow hraw hx)
    ((Dev.setLse_keeps _ _ _).trans (Dev.setLse_keeps _ _ _)) (by decide) (by decide)
  refine ⟨_, hnext, rfl, ha, (Dev.finish_lseOpt _ _ _ _ _).trans (Dev.setLse_lseOpt _ _ _), fun h hne => ?_, ?_, hk⟩
  · exact (Dev.finish_lseOpt _ _ _ _ _).trans
      ((Dev.setLse_lseOpt_ne _ _ _ hne).trans (Dev.setLse_lseOpt_ne _ _ _ hne))
  · exact Dev.finish_lseRaw _ _ _ _

/-- A closing raw session with nothing in staging and no buffer is gone with the completion of its close. -/
theorem Dev.rawSettle_closes {x : RawSession} (hx : d.raw? p = some x) (hclosing : x.closing = some r)
    (hring : x.ring = []) (hbufs : x.bufs = []) : d.rawSettle p = (d.setRaw p none).finish r stSuccess 0 := by
  simp [Dev.rawSettle, hx, hclosing, hring, hbufs, Dev.finishAll]

theorem lseClose_closes_raw {x : RawSession} (hc : s.dev.clear specLseClose r c = true)
    (hraw : s.dev.rawPort c.handle = some p) (hx : s.dev.raw? p = some x) (hring : x.ring = []) (hbufs : x.bufs = []) :
    ∃ t, exec (.lseClose r) s = .next t ∧ t.pending = s.pending ∧ Answered s.dev t.dev r stSuccess 0
      ∧ t.dev.raw? p = none ∧ t.dev.lse.sessions = s.dev.lse.sessions ∧ Keeps (.lse :: byDone) s.dev t.dev := by
  have hopen : (s.dev.begin r).raw? p = some x := hx
  have hport : (s.dev.begin r).rawPort c.handle = some p := hraw
  have he : lseClose r c s.dev
      = (((s.dev.begin r).setRaw p (some { x with closing := some r })).setRaw p none).finish r stSuccess 0 := by
    simp only [lseClose, hport, Dev.modRaw_some hopen]
    exact Dev.rawSettle_closes (Dev.setRaw_rawOpt _ _ _) rfl hring hbufs
  obtain ⟨hnext, ha, hk⟩ := begunCmd_completes exec_lseClose hc he
    ((Dev.setRaw_keeps _ _ _).trans (Dev.setRaw_keeps _ _ _)) (by decide) (by decide)
  exact ⟨_, hnext, rfl, ha, (Dev.finish_rawOpt _ _ _ _ _).trans (Dev.setRaw_rawOpt _ _ _),
    Dev.finish_lseSessions _ _ _ _, hk⟩

end Close

/-- Settles O46: each command by what it leaves of its session; a close settles at once where nothing of the session is
left. -/
theorem losslessSessions : Obligations.LosslessSessions := by
  unfold Obligations.LosslessSessions
  refine ⟨fun s r c hc => ⟨lseOpen_engineDown hc, lseOpen_opens hc⟩, fun s r c hc hgone => ?_,
    fun s r c p e hc hp hx => ⟨lseRawBuffer_full hc hp hx, lseRawBuffer_begins hc hp hx⟩,
    fun s r c hc => ⟨fun e => lseClose_closes_stream hc, fun p e => lseClose_closes_raw hc⟩⟩
  obtain ⟨t, hnext, hpend, ha, hraw, hother, hk⟩ := lseRawOpen_opens hc hgone
  exact ⟨t, _, hnext, hpend, ha, hraw, rfl, rfl, rfl, rfl, rfl, rfl, rfl, rfl, rfl, rfl, hother, hk⟩

end Sys2Proof.Machine
end

section
/-! SUPPORT. Events that end a command, for any class; the two-wire controllers: commands (O52), transfers (O53) and
bus state (O54). -/

namespace Sys2Proof.Machine

open Sys2Proof

/-! ## Events that end a command -/

/-- An event that ends a command on a state with a frame. -/
theorem event_finishes {i : Instr} {f : Dev → Dev} {s : State} {e : Dev} {b : List Part} {r : CmdRef} {st res : Nat}
    (hx : exec i s = lift f s) (hi : s.dev.idleMode = true) (he : f s.dev = e.finish r st res)
    (ha : s.dev.Answerable r) (hk : Keeps b s.dev e) (hf : .fetch ∉ b) (hl : .link ∉ b) :
    exec i s = .next { s with dev := e.finish r st res } ∧ Answered s.dev (e.finish r st res) r st res
      ∧ Keeps (b ++ byDone) s.dev (e.finish r st res) := by
  have hall : Keeps (b ++ byDone) s.dev (e.finish r st res) :=
    (hk.mono (List.subset_append_left _ _)).trans ((e.finish_keeps r st res).mono (List.subset_append_right _ _))
  exact ⟨event_effect hx hi he hall (by simp [hl, byDone]), ((ha.of_keeps hk hf).finish st res).before hk hf, hall⟩

/-! ## A controller's state -/

section Ctl

variable {d : Dev} {c z : Nat} {f : TwCtl → TwCtl}

@[simp] theorem Dev.modCtl_ctl (d : Dev) (c : Nat) (f : TwCtl → TwCtl) : (d.modCtl c f).ctl c = f (d.ctl c) :=
  Dev.setCtl_ctl _ _ _

theorem Dev.modCtl_ctl_ne (d : Dev) {c z : Nat} (f : TwCtl → TwCtl) (hne : z ≠ c) : (d.modCtl c f).ctl z = d.ctl z :=
  Dev.setCtl_ctl_ne _ _ _ hne

/-- A controller being read is not one being written through another part of the device. -/
theorem Keeps.ctl {b : List Part} {e : Dev} (hk : Keeps b d e) (hb : .tw ∉ b) (c : Nat) : e.ctl c = d.ctl c := by
  have htw : e.tw = d.tw := hk .tw hb
  unfold Dev.ctl
  rw [htw]

@[simp] theorem Dev.emit_ctl (d : Dev) (o : Out) (c : Nat) : (d.emit o).ctl c = d.ctl c :=
  (d.emit_keeps o).ctl (by decide) c

@[simp] theorem Dev.count_ctl (d : Dev) (o n c : Nat) : (d.count o n).ctl c = d.ctl c :=
  (d.count_keeps o n).ctl (by decide) c

@[simp] theorem Dev.finish_ctl (d : Dev) (r : CmdRef) (st res c : Nat) : (d.finish r st res).ctl c = d.ctl c :=
  (d.finish_keeps r st res).ctl (by decide) c

@[simp] theorem Dev.begin_ctl (d : Dev) (r : CmdRef) (c : Nat) : (d.begin r).ctl c = d.ctl c := rfl

/-- A controller that is not being disabled has nothing to settle (R402). -/
theorem Dev.twSettle_enabled (h : (d.ctl c).disabling = none) : d.twSettle c = d := by
  simp [Dev.twSettle, h]

end Ctl

/-! ## What the bus events leave of a controller (R389, R394, R395, R397) -/

section BusState

variable {s : State} {c : Fin 8}

/-- An event that changes the state of one controller only. -/
theorem event_modCtl {i : Instr} (f : TwCtl → TwCtl) (hx : exec i s = lift (fun d => d.modCtl c.val f) s)
    (hi : s.dev.idleMode = true) :
    ∃ t, exec i s = .next t ∧ t.dev.ctl c.val = f (s.dev.ctl c.val)
      ∧ (∀ k, k ≠ c.val → t.dev.ctl k = s.dev.ctl k) ∧ Keeps [.tw] s.dev t.dev :=
  ⟨_, event_effect hx hi rfl (Dev.modCtl_keeps _ _ _) (by decide), Dev.modCtl_ctl _ _ _,
    fun _ hne => Dev.modCtl_ctl_ne _ _ hne, Dev.modCtl_keeps _ _ _⟩

theorem sclReleased_stops (hi : s.dev.idleMode = true) (hheld : (s.dev.ctl c.val).sclHeld = true) :
    ∃ t, exec (.sclReleased c) s = .next t
      ∧ t.dev.ctl c.val = { s.dev.ctl c.val with sclHeld := false, scl := true }
      ∧ t.dev.out = s.dev.out ++ [.twStop c.val] ∧ (∀ k, k ≠ c.val → t.dev.ctl k = s.dev.ctl k)
      ∧ Keeps [.tw, .out] s.dev t.dev := by
  have hk : Keeps [.tw, .out] s.dev
      ((s.dev.emit (.twStop c.val)).modCtl c.val fun v => { v with sclHeld := false, scl := true }) :=
    ((Dev.emit_keeps _ _).mono (by simp)).trans ((Dev.modCtl_keeps _ _ _).mono (by simp))
  exact ⟨_, event_effect rfl hi (if_pos hheld) hk (by decide), by simp, rfl,
    fun _ hne => by rw [Dev.modCtl_ctl_ne _ _ hne, Dev.emit_ctl], hk⟩

end BusState

/-- Settles O54: every event changes the state of its controller only. -/
theorem twoWireBusState : Obligations.TwoWireBusState := by
  unfold Obligations.TwoWireBusState
  intro s c hi
  refine ⟨event_modCtl (fun v => { v with busBusy := false }) rfl hi,
    fun start => event_modCtl (fun v => { v with busBusy := start }) rfl hi, sclReleased_stops hi, fun hheld => ?_,
    fun hhold => ?_⟩
  · exact event_none rfl hi (if_neg (ne_true_of_eq_false hheld))
  · exact event_none rfl hi (if_neg hhold)

/-! ## TW_ENABLE (R401) -/

section Enable

variable {s : State} {r : CmdRef} {c : Cmd} {k : Option Nat}

theorem exec_twEnable : exec (.twEnable r k) s = lift (runCmd specTwEnable r (twEnable k r)) s := by
  rw [exec, execTwEnable]

theorem Dev.busClear_frees (d : Dev) (c : Nat) {n : Nat} (hn : n ≤ 9) :
    (d.busClear c (some n)).2 = (stSuccess, n) ∧ ((d.busClear c (some n)).1.ctl c).state = .enabled
      ∧ ((d.busClear c (some n)).1.ctl c).sda = true := by
  simp [Dev.busClear, hn]

theorem Dev.busClear_sticks (d : Dev) (c : Nat) :
    (d.busClear c none).2 = (stStuckLow, 9) ∧ ((d.busClear c none).1.ctl c).state = .stuck := by
  simp [Dev.busClear]

variable (hc : s.dev.clear specTwEnable r c = true) (hreset : s.dev.twInReset (c.f 4 2 0) = false)
include hc hreset

theorem twEnable_setupFault (hspeed : s.dev.fld (twReg (c.f 4 2 0) 0) 1 0 = 3) :
    ∃ t, exec (.twEnable r k) s = .next t ∧ Answered s.dev t.dev r stInvalidField 4 ∧ Keeps byDone s.dev t.dev :=
  cmd_answers exec_twEnable hc (by simp [twEnable, hreset, hspeed, Dev.setupFault])

theorem twEnable_answers (hspeed : s.dev.fld (twReg (c.f 4 2 0) 0) 1 0 ≠ 3) {st res : Nat}
    (hclear : (s.dev.busClear (c.f 4 2 0) k).2 = (st, res)) :
    ∃ t, exec (.twEnable r k) s = .next t ∧ t.pending = s.pending ∧ Answered s.dev t.dev r st res
      ∧ t.dev.ctl (c.f 4 2 0) = (s.dev.busClear (c.f 4 2 0) k).1.ctl (c.f 4 2 0)
      ∧ Keeps (.tw :: .ctrs :: byDone) s.dev t.dev := by
  have he : twEnable k r c s.dev = (s.dev.busClear (c.f 4 2 0) k).1.finish r st res := by
    simp [twEnable, hreset, hspeed, hclear]
  obtain ⟨hnext, ha, hk⟩ := cmd_finishes exec_twEnable hc he (s.dev.busClear_keeps (c.f 4 2 0) k) (by decide) (by decide)
  exact ⟨_, hnext, rfl, ha, Dev.finish_ctl _ _ _ _ _, hk.mono (by decide)⟩

end Enable

/-! ## TW_DISABLE (R402) -/

section Disable

variable {s : State} {d : Dev} {r : CmdRef} {c : Cmd} {n : Nat}

theorem exec_twDisable : exec (.twDisable r) s = lift (runCmd specTwDisable r (twDisable r)) s := by
  rw [exec, execTwDisable]

/-- No program is pending where no port has one. -/
theorem Dev.allProgs_nil_iff : d.allProgs = [] ↔ ∀ p ∈ rangeFrom 0 4, (d.port p).programs = [] := by
  simp [Dev.allProgs, List.flatMap_eq_nil_iff]

theorem Keeps.allProgs_nil {b : List Part} {e : Dev} (hk : Keeps b d e) (hb : .sni ∉ b) (h : d.allProgs = []) :
    e.allProgs = [] := by
  rw [Dev.allProgs_nil_iff] at h ⊢
  intro p hp
  rw [hk.port hb p]
  exact h p hp

/-- A controller that is being disabled, with nothing in hand, is disabled, and its disable completes. -/
theorem Dev.twSettle_disables (hdis : (d.ctl n).disabling = some r) (hcur : (d.ctl n).cur = none)
    (hxfers : (d.ctl n).xfers = []) (hprogs : d.allProgs = []) :
    d.twSettle n
      = (d.setCtl n { d.ctl n with state := .disabled, disabling := none, sclHeld := false, xfers := [] }).finish r
        stSuccess 0 := by
  simp [Dev.twSettle, hdis, hcur, hxfers, hprogs, Dev.finishAll]

theorem twDisable_quiet (hreset : s.dev.twInReset n = false) (hn : n = c.f 4 2 0)
    (hdis : (s.dev.ctl n).disabling = none) (hcur : (s.dev.ctl n).cur = none) (hxfers : (s.dev.ctl n).xfers = [])
    (hprogs : s.dev.allProgs = []) :
    ∃ e, twDisable r c s.dev = e.finish r stSuccess 0 ∧ (e.ctl n).state = .disabled ∧ (e.ctl n).sclHeld = false
      ∧ Keeps [.tw] (s.dev.begin r) e := by
  subst hn
  have hsettle := Dev.twSettle_disables (r := r)
    (d := (s.dev.begin r).modCtl (c.f 4 2 0) fun v => { v with disabling := some r }) (n := c.f 4 2 0)
    (by simp) (by simp [hcur]) (by simp [hxfers])
    (((Dev.modCtl_keeps _ _ _).allProgs_nil (by decide)) ((s.dev.begin_keeps r).allProgs_nil (by decide) hprogs))
  refine ⟨_, (?_ : twDisable r c s.dev = _).trans hsettle, by simp, by simp,
    (Dev.modCtl_keeps _ _ _).trans (Dev.modCtl_keeps _ _ fun v =>
      { v with state := .disabled, disabling := none, sclHeld := false, xfers := [] })⟩
  simp [twDisable, hreset, hdis]

theorem twDisable_disables (hc : s.dev.clear specTwDisable r c = true) (hreset : s.dev.twInReset (c.f 4 2 0) = false)
    (hdis : (s.dev.ctl (c.f 4 2 0)).disabling = none) (hcur : (s.dev.ctl (c.f 4 2 0)).cur = none)
    (hxfers : (s.dev.ctl (c.f 4 2 0)).xfers = []) (hprogs : s.dev.allProgs = []) :
    ∃ t, exec (.twDisable r) s = .next t ∧ t.pending = s.pending ∧ Answered s.dev t.dev r stSuccess 0
      ∧ (t.dev.ctl (c.f 4 2 0)).state = .disabled ∧ (t.dev.ctl (c.f 4 2 0)).sclHeld = false
      ∧ Keeps (.tw :: byDone) s.dev t.dev := by
  obtain ⟨e, he, hstate, hheld, hk⟩ := twDisable_quiet (r := r) hreset rfl hdis hcur hxfers hprogs
  obtain ⟨hnext, ha, hall⟩ := begunCmd_completes exec_twDisable hc he hk (by decide) (by decide)
  exact ⟨_, hnext, rfl, ha, by simpa using hstate, by simpa using hheld, hall⟩

end Disable

/-! ## TW_XFER (R390, R402) -/

section Xfer

variable {s : State} {r : CmdRef} {c : Cmd} {data : List Byte}

/-- Without a TW_DISABLE a transfer waits at its controller, or finds it off. -/
theorem twXfer_off (hc : s.dev.clear specTwXfer r c = true) (hoff : s.dev.twOff (c.f 4 2 0) = true) :
    ∃ t, exec (.twXfer r data) s = .next t ∧ Answered s.dev t.dev r stEngineDown 0 ∧ Keeps byDone s.dev t.dev :=
  cmd_answers rfl hc (if_pos (by simp [hoff]))

theorem twXfer_waits (hc : s.dev.clear specTwXfer r c = true) (hoff : s.dev.twOff (c.f 4 2 0) = false)
    (hdis : (s.dev.ctl (c.f 4 2 0)).disabling = none) :
    ∃ t, exec (.twXfer r data) s = .next t ∧ t.pending = s.pending ∧ Begun s.dev t.dev r c
      ∧ t.dev.ctl (c.f 4 2 0)
        = { s.dev.ctl (c.f 4 2 0) with xfers := (s.dev.ctl (c.f 4 2 0)).xfers ++ [newXfer c data s.dev] }
      ∧ Keeps [.tw, .fetch] s.dev t.dev := by
  obtain ⟨hnext, hb, hk⟩ := cmd_begins (i := .twXfer r data) rfl hc (if_neg (by simp [hoff, hdis]))
    (Dev.modCtl_keeps _ _ _) (by decide) (by decide) (by decide)
  exact ⟨_, hnext, rfl, hb, Dev.modCtl_ctl _ _ _, hk⟩

end Xfer

/-- Settles O52: the enable answers what its bus clear found; the disable of a quiet controller settles at once; a
transfer begins and waits. -/
theorem twoWireCommands : Obligations.TwoWireCommands := by
  unfold Obligations.TwoWireCommands
  refine ⟨fun s r c k hc hreset => ⟨twEnable_setupFault hc hreset, fun n hspeed hk hn => ?_, fun hspeed hk => ?_⟩,
    fun s r c hc => twDisable_disables hc, fun s r c data hc => ⟨twXfer_off hc, fun hoff hdis => ?_⟩⟩
  · subst hk
    obtain ⟨hclear, hstate, hsda⟩ := Dev.busClear_frees s.dev (c.f 4 2 0) hn
    obtain ⟨t, hnext, hpend, ha, hctl, hkeeps⟩ := twEnable_answers hc hreset hspeed hclear
    exact ⟨t, hnext, hpend, ha, hctl ▸ hstate, hctl ▸ hsda, hkeeps⟩
  · subst hk
    obtain ⟨hclear, hstate⟩ := Dev.busClear_sticks s.dev (c.f 4 2 0)
    obtain ⟨t, hnext, hpend, ha, hctl, hkeeps⟩ := twEnable_answers hc hreset hspeed hclear
    exact ⟨t, hnext, hpend, ha, hctl ▸ hstate, hkeeps⟩
  · obtain ⟨hq, hi⟩ := Dev.cmd_ids (Dev.clear_cmd hc)
    obtain ⟨t, hnext, hpend, hb, hctl, hk⟩ := twXfer_waits hc hoff hdis
    exact ⟨t, _, hnext, hpend, hb, hctl, by simp [newXfer, Cmd.ref, hq, hi], rfl, rfl, rfl, rfl, rfl, rfl, rfl, hk⟩

end Sys2Proof.Machine
end

section
/-! SUPPORT. Transfers on the two-wire bus (O53). -/

namespace Sys2Proof.Machine

open Sys2Proof

section Transfers

variable {d e : Dev} {c : Nat} {x : Xfer} {r : CmdRef} {st res : Nat}

@[simp] theorem Dev.modXfer_ctl (d : Dev) (c : Nat) (r : CmdRef) (f : Xfer → Xfer) :
    (d.modXfer c r f).ctl c = { d.ctl c with xfers := updFirst (fun x => x.ref == r) f (d.ctl c).xfers } :=
  Dev.modCtl_ctl _ _ _

theorem Dev.modXfer_keeps (d : Dev) (c : Nat) (r : CmdRef) (f : Xfer → Xfer) : Keeps [.tw] d (d.modXfer c r f) :=
  Dev.modCtl_keeps _ _ _

/-- The only transfer of a controller is found there. -/
theorem Dev.xfer_only (hx : (d.ctl c).xfers = [x]) : d.xfer? c x.ref = some x := by
  simp [Dev.xfer?, hx]

theorem updFirst_only (f : Xfer → Xfer) (x : Xfer) : updFirst (fun y => y.ref == x.ref) f [x] = [f x] := by
  simp [updFirst]

/-! ## Choice and START (R390) -/

/-- The only transfer that waits is the next transaction, where no program waits and its queue has the lock. -/
theorem Dev.twPick_only (hx : (d.ctl c).xfers = [x]) (hprogs : d.allProgs = []) (hdis : (d.ctl c).disabling = none)
    (hlock : d.lockLets c x.ref.qid = true) : d.twPick c = some (.xfer x.ref) := by
  have hpick : d.twXferPick c = some x := by
    cases hs : x.started <;> simp [Dev.twXferPick, hx, hlock, hdis, minBy, hs]
  simp [Dev.twPick, hprogs, minBy, hpick]

/-- The START of the only transfer: the controller is at work on it, and its bytes are on the bus. -/
theorem Dev.twStart_xfer (hx : (d.ctl c).xfers = [x]) (fresh : Bool) :
    ((d.twStart c (.xfer x.ref) fresh).ctl c).cur = some (.xfer x.ref)
      ∧ ((d.twStart c (.xfer x.ref) fresh).ctl c).hold = .running
      ∧ ((d.twStart c (.xfer x.ref) fresh).ctl c).xfers = [{ x with started := true }]
      ∧ Out.twStart c (d.xferBytes c x) ∈ (d.twStart c (.xfer x.ref) fresh).out
      ∧ Keeps [.tw, .out] d (d.twStart c (.xfer x.ref) fresh) := by
  refine ⟨by simp [Dev.twStart], by simp [Dev.twStart], by simp [Dev.twStart, hx, updFirst_only], ?_, ?_⟩
  · simp [Dev.twStart, Dev.workBytes, Dev.xfer_only hx, Dev.modXfer, Dev.modCtl, Dev.emit]
  · exact ((Dev.modCtl_keeps d c fun v => _).mono (by simp)).trans ((Dev.emit_keeps _ _).mono (by simp)) |>.trans
      ((Dev.modXfer_keeps _ _ _ _).mono (by simp))

theorem twStart_goes {s : State} {c : Fin 8} (hi : s.dev.idleMode = true) (hfree : s.dev.twFree c.val = true)
    (hcur : (s.dev.ctl c.val).cur = none) (hdis : (s.dev.ctl c.val).disabling = none)
    (hx : (s.dev.ctl c.val).xfers = [x]) (hprogs : s.dev.allProgs = []) (hlock : s.dev.lockLets c.val x.ref.qid = true) :
    ∃ t, exec (.twTransactionStart c) s = .next t ∧ (t.dev.ctl c.val).cur = some (.xfer x.ref)
      ∧ (t.dev.ctl c.val).hold = .running ∧ (t.dev.ctl c.val).xfers = [{ x with started := true }]
      ∧ Out.twStart c.val (s.dev.xferBytes c.val x) ∈ t.dev.out ∧ Keeps [.tw, .out] s.dev t.dev := by
  obtain ⟨hrun, hhold, hxfers, hout, hk⟩ := Dev.twStart_xfer hx true
  have he : s.dev.twNext c.val = s.dev.twStart c.val (.xfer x.ref) true := by
    simp [Dev.twNext, hfree, hcur, Dev.twPick_only hx hprogs hdis hlock]
  exact ⟨_, event_effect (f := fun d => d.twNext c.val) rfl hi he hk (by decide), hrun, hhold, hxfers, hout, hk⟩

/-- A controller that wakes while the bus is not free repeats its transaction later (R397). -/
theorem Dev.twNext_busy (h : d.twFree c = false) : d.twNext c = d := by
  simp [Dev.twNext, h]

/-- A controller may send a START as before, where its state and what it holds of the bus are as before. -/
theorem Dev.twFree_modCtl {f : TwCtl → TwCtl} (hstate : (f (d.ctl c)).state = (d.ctl c).state)
    (hbusy : (f (d.ctl c)).busBusy = (d.ctl c).busBusy) (hheld : (f (d.ctl c)).sclHeld = (d.ctl c).sclHeld) :
    (d.modCtl c f).twFree c = d.twFree c := by
  simp only [Dev.twFree, Dev.modCtl_ctl, hstate, hbusy, hheld]
  rfl

theorem wakeDelay_waits {s : State} {c : Fin 8} (hi : s.dev.idleMode = true) (hhold : (s.dev.ctl c.val).hold = .waking)
    (hfree : s.dev.twFree c.val = false) :
    ∃ t, exec (.wakeDelayExpiry c) s = .next t
      ∧ t.dev.ctl c.val = { s.dev.ctl c.val with hold := .lost } ∧ Keeps [.tw] s.dev t.dev := by
  have he : (if (s.dev.ctl c.val).hold = .waking then
        (s.dev.modCtl c.val fun v => { v with hold := .lost }).twNext c.val else s.dev)
      = s.dev.modCtl c.val fun v => { v with hold := .lost } := by
    rw [if_pos hhold]
    exact Dev.twNext_busy ((Dev.twFree_modCtl rfl rfl rfl).trans hfree)
  exact ⟨_, event_effect rfl hi he (Dev.modCtl_keeps _ _ _) (by decide), Dev.modCtl_ctl _ _ _, Dev.modCtl_keeps _ _ _⟩

/-! ## The end of a transfer (R394, R398, R400, Table 15-7) -/

/-- `e` is `d` with the only transfer of controller `c` delivered and gone. -/
structure Dev.XferGone (d e : Dev) (c : Nat) : Prop where
  ctl : e.ctl c = { d.ctl c with cur := none, hold := .running, xfers := [] }
  keeps : Keeps [.tw, .mem, .out] d e

@[simp] theorem Dev.writeBuf_ctl (d : Dev) (dev : Bool) (a : Nat) (bs : List Byte) (c : Nat) :
    (d.writeBuf dev a bs).ctl c = d.ctl c := (d.writeBuf_keeps dev a bs).ctl (by decide) c

/-- A transfer that is the only one of its controller completes and leaves it without work. -/
theorem Dev.xferEnd_only (hx : (d.ctl c).xfers = [x]) (hcur : (d.ctl c).cur = none) (hhold : (d.ctl c).hold = .running)
    (st : Nat) : ∃ e, d.xferEnd c x st = e.finish x.ref st (xferResult x) ∧ d.XferGone e c := by
  refine ⟨_, rfl, ?_, ?_⟩
  · split <;> simp [hx, hcur, hhold]
  · exact ((Keeps.refl _ _).ifElse ((d.writeBuf_keeps _ _ _).mono (by simp))).trans
      ((Dev.modCtl_keeps _ _ _).mono (by simp))

theorem Dev.xferEnd_unread (hgot : x.got = []) (d : Dev) (c st : Nat) :
    d.xferEnd c x st = (d.modCtl c fun v => { v with xfers := v.xfers.filter fun y => y.ref != x.ref }).finish x.ref st
      (xferResult x) := by
  simp [Dev.xferEnd, hgot]

/-- The only transfer of a controller that is not being disabled fails: it completes with the status. -/
theorem Dev.twFail_only (hx : (d.ctl c).xfers = [x]) (hdis : (d.ctl c).disabling = none) (st : Nat) :
    ∃ e, d.twFail c (.xfer x.ref) st = e.finish x.ref st (xferResult x) ∧ d.XferGone e c := by
  have hclear : ((d.twClear c).ctl c) = { d.ctl c with cur := none, hold := .running } := by simp [Dev.twClear]
  obtain ⟨e, he, hctl, hk⟩ := Dev.xferEnd_only (d := d.twClear c) (x := x) (by rw [hclear, ← hx]) (by rw [hclear])
    (by rw [hclear]) st
  rw [hclear] at hctl
  refine ⟨e, ?_, hctl, ((Dev.modCtl_keeps _ _ _).mono (by simp)).trans hk⟩
  have hxfer : (d.twClear c).xfer? c x.ref = some x := Dev.xfer_only (by rw [hclear, ← hx])
  simp only [Dev.twFail, hxfer, he]
  exact Dev.twSettle_enabled (by rw [Dev.finish_ctl, hctl, ← hdis])

/-- An event at which the only transfer of a controller fails, after it has been told what befell it. -/
theorem event_failsXfer {i : Instr} {f : Dev → Dev} {s : State} {g : Xfer → Xfer} (hx : exec i s = lift f s)
    (hi : s.dev.idleMode = true) (he : f s.dev = d.twFail c (.xfer x.ref) st) (hk : Keeps [.tw, .ctrs, .out] s.dev d)
    (hd : (d.ctl c).xfers = updFirst (fun y => y.ref == x.ref) g [x]) (hg : (g x).ref = x.ref)
    (hdis : (d.ctl c).disabling = none) (ha : s.dev.Answerable x.ref) :
    ∃ t res, exec i s = .next t ∧ Answered s.dev t.dev x.ref st res
      ∧ t.dev.ctl c = { d.ctl c with cur := none, hold := .running, xfers := [] } := by
  rw [← hg] at he ha ⊢
  obtain ⟨e, hfail, hctl, hgone⟩ := Dev.twFail_only (hd.trans (updFirst_only g x)) hdis st
  obtain ⟨hnext, hans, -⟩ := event_finishes (b := [.tw, .ctrs, .mem, .out]) hx hi (he.trans hfail) ha
    ((hk.mono (by simp)).trans (hgone.mono (by simp))) (by decide) (by decide)
  exact ⟨_, _, hnext, hans, (Dev.finish_ctl _ _ _ _ _).trans hctl⟩

end Transfers

/-! ## What befalls the transfer in hand -/

section InHand

variable {s : State} {c : Fin 8} {x : Xfer} (hi : s.dev.idleMode = true)
  (hcur : (s.dev.ctl c.val).cur = some (.xfer x.ref)) (hhold : (s.dev.ctl c.val).hold = .running)
  (hdis : (s.dev.ctl c.val).disabling = none) (hx : (s.dev.ctl c.val).xfers = [x])
include hi hcur hhold hdis hx

theorem busNack_fails (ha : s.dev.Answerable x.ref) {byte : Nat} (hbyte : 0 < byte) (acked : Nat) :
    ∃ t res, exec (.busNack c byte acked) s = .next t ∧ Answered s.dev t.dev x.ref stBusNack res
      ∧ (t.dev.ctl c.val).xfers = [] ∧ (t.dev.ctl c.val).cur = none := by
  have he : s.dev.twNack c.val byte acked
      = (((s.dev.emit (.twStop c.val)).count (twReg c.val 0x24) 1).modXfer c.val x.ref fun y => { y with
          loss := (byte, 0)
          written := y.written + min acked (((s.dev.emit (.twStop c.val)).count (twReg c.val 0x24) 1).sendLen c.val y)
          }).twFail c.val (.xfer x.ref) stBusNack := by
    simp [Dev.twNack, hcur, hhold, hbyte.ne']
  obtain ⟨t, res, hnext, hans, hctl⟩ := event_failsXfer (f := fun d => d.twNack c.val byte acked)
    (i := .busNack c byte acked) rfl hi he
    (((Dev.emit_keeps _ _).mono (by simp)).trans ((Dev.count_keeps _ _ _).mono (by simp)) |>.trans
      ((Dev.modXfer_keeps _ _ _ _).mono (by simp)))
    (by simp only [Dev.modXfer_ctl, Dev.count_ctl, Dev.emit_ctl, hx]; rfl) rfl (by simpa using hdis) ha
  exact ⟨t, res, hnext, hans, by rw [hctl], by rw [hctl]⟩

/-- A lost arbitration is counted and leaves the bus busy (R399). -/
def Dev.arbNoted (d : Dev) (c : Nat) : Dev := (d.count (twReg c 0x20) 1).modCtl c fun v => { v with busBusy := true }

theorem arbitrationLoss_fails (ha : s.dev.Answerable x.ref) (byte : Nat) (bit : Fin 8)
    (hleft : (s.dev.ctl c.val).arbLeft = 0) :
    ∃ t res, exec (.arbitrationLoss c byte bit) s = .next t ∧ Answered s.dev t.dev x.ref stArbLost res
      ∧ (t.dev.ctl c.val).xfers = [] ∧ (t.dev.ctl c.val).cur = none ∧ (t.dev.ctl c.val).busBusy = true := by
  have he : s.dev.twLost c.val byte bit.val
      = ((s.dev.arbNoted c.val).modXfer c.val x.ref fun y => { y with loss := (byte, bit.val) }).twFail c.val
        (.xfer x.ref) stArbLost := by
    simp [Dev.twLost, hcur, hhold, hleft, Dev.arbNoted]
  obtain ⟨t, res, hnext, hans, hctl⟩ := event_failsXfer (f := fun d => d.twLost c.val byte bit.val)
    (i := .arbitrationLoss c byte bit) rfl hi he
    (((Dev.count_keeps _ _ _).mono (by simp)).trans ((Dev.modCtl_keeps _ _ _).mono (by simp)) |>.trans
      ((Dev.modXfer_keeps _ _ _ _).mono (by simp)))
    (by simp only [Dev.modXfer_ctl, Dev.arbNoted, Dev.modCtl_ctl, Dev.count_ctl, hx]; rfl) rfl
    (by simpa [Dev.arbNoted] using hdis) ha
  exact ⟨t, res, hnext, hans, by rw [hctl], by rw [hctl], by rw [hctl]; simp [Dev.arbNoted]⟩

omit hdis hx in
theorem arbitrationLoss_repeats (byte : Nat) (bit : Fin 8) (hleft : 0 < (s.dev.ctl c.val).arbLeft) :
    ∃ t, exec (.arbitrationLoss c byte bit) s = .next t ∧ (t.dev.ctl c.val).hold = .lost
      ∧ (t.dev.ctl c.val).arbLeft = (s.dev.ctl c.val).arbLeft - 1 ∧ t.dev.hif.cmds = s.dev.hif.cmds
      ∧ Keeps [.tw, .ctrs] s.dev t.dev := by
  have he : s.dev.twLost c.val byte bit.val
      = ((s.dev.arbNoted c.val).modXfer c.val x.ref fun y => { y with
          loss := (byte, bit.val), attempts := y.attempts + 1 }).modCtl c.val fun v => { v with
          hold := .lost, arbLeft := v.arbLeft - 1 } := by
    simp [Dev.twLost, hcur, hhold, hleft, Dev.arbNoted]
  have hk : Keeps [.tw, .ctrs] s.dev (s.dev.twLost c.val byte bit.val) := by
    rw [he]
    exact ((Dev.count_keeps _ _ _).mono (by simp)).trans ((Dev.modCtl_keeps _ _ _).mono (by simp)) |>.trans
      ((Dev.modXfer_keeps _ _ _ _).mono (by simp)) |>.trans ((Dev.modCtl_keeps _ _ _).mono (by simp))
  have hcmds := (hk .fetch (by decide)).2.1
  refine ⟨_, event_effect (f := fun d => d.twLost c.val byte bit.val) rfl hi rfl hk (by decide), ?_, ?_, hcmds, hk⟩
  · simp [he]
  · simp [he, Dev.arbNoted]

theorem twStretch_fails {i : Instr} {f : Dev → Dev} {st acked : Nat} (hx' : exec i s = lift f s)
    (hf : f s.dev = s.dev.twStretch c.val acked st) (ha : s.dev.Answerable x.ref) :
    ∃ t res, exec i s = .next t ∧ Answered s.dev t.dev x.ref st res ∧ (t.dev.ctl c.val).sclHeld = true := by
  have he : s.dev.twStretch c.val acked st
      = ((((s.dev.count (twReg c.val 0x2C) 1)).modXfer c.val x.ref fun y => { y with
          written := y.written + min acked ((s.dev.count (twReg c.val 0x2C) 1).sendLen c.val y) }).modCtl c.val
          fun v => { v with sclHeld := true, scl := false }).twFail c.val (.xfer x.ref) st := by
    simp [Dev.twStretch, hcur, hhold]
  obtain ⟨t, res, hnext, hans, hctl⟩ := event_failsXfer hx' hi (hf.trans he)
    (((Dev.count_keeps _ _ _).mono (by simp)).trans ((Dev.modXfer_keeps _ _ _ _).mono (by simp)) |>.trans
      ((Dev.modCtl_keeps _ _ _).mono (by simp)))
    (by simp only [Dev.modCtl_ctl, Dev.modXfer_ctl, Dev.count_ctl, hx]; rfl) rfl (by simpa using hdis) ha
  exact ⟨t, res, hnext, hans, by rw [hctl]; simp⟩

/-- The state in which a transaction has just ended: STOP is on the bus and the transfer has become `y`. -/
def Dev.xferTold (d : Dev) (c : Nat) (y : Xfer) : Dev := ((d.emit (.twStop c)).twClear c).modXfer c y.ref fun _ => y

omit hi hcur hhold hdis hx in
/-- The last transaction of a plain write ends: all its bytes are written. -/
theorem Dev.xferStep_writes {e : TxEnd} (hstyle : s.dev.tgtSmbus c.val x.entry = false) (hop : x.op = 0)
    (hrlen : x.rlen = 0) (hgot : x.got = []) (hwlen : 0 < x.wlen) (hall : x.written + s.dev.chunk c.val x = x.wlen) :
    s.dev.xferStep c.val x e
      = ((s.dev.xferTold c.val { x with written := x.wlen, trunc := false, count := 0 }).xferEnd c.val
          { x with written := x.wlen, trunc := false, count := 0 } stSuccess).twSettle c.val := by
  have hn : ∀ n, s.dev.readLen c.val x n = 0 := by simp [Dev.readLen, hstyle, hop]
  simp [Dev.xferStep, Dev.xferTold, hn, hstyle, hop, hrlen, hgot, hall, hwlen.ne']

/-- A write that one transaction carries completes at its end with the bytes written (R392, R398). -/
theorem twEnd_completes (ha : s.dev.Answerable x.ref) {e : TxEnd} (hack : e.nack = none)
    (hstyle : s.dev.tgtSmbus c.val x.entry = false) (hop : x.op = 0) (hrlen : x.rlen = 0) (hgot : x.got = [])
    (hwlen : 0 < x.wlen) (hall : x.written + s.dev.chunk c.val x = x.wlen) :
    ∃ t, exec (.twTransactionEnd c e) s = .next t
      ∧ Answered s.dev t.dev x.ref stSuccess (xferResult { x with written := x.wlen, trunc := false, count := 0 })
      ∧ (t.dev.ctl c.val).xfers = [] ∧ (t.dev.ctl c.val).cur = none ∧ Keeps (.tw :: byDone) s.dev t.dev := by
  have he : s.dev.twEnd c.val e = s.dev.xferStep c.val x e := by
    simp [Dev.twEnd, hcur, hhold, hack, Dev.xfer_only hx]
  have hend := Dev.xferEnd_unread (x := { x with written := x.wlen, trunc := false, count := 0 }) hgot
    (s.dev.xferTold c.val { x with written := x.wlen, trunc := false, count := 0 }) c.val stSuccess
  generalize hy : ({ x with written := x.wlen, trunc := false, count := 0 } : Xfer) = y at *
  have hr : y.ref = x.ref := by rw [← hy]
  have hctl : ((s.dev.xferTold c.val y).modCtl c.val fun v =>
      { v with xfers := v.xfers.filter fun z => z.ref != y.ref }).ctl c.val
      = { s.dev.ctl c.val with cur := none, hold := .running, xfers := [] } := by
    simp [Dev.xferTold, Dev.twClear, hx, hr, updFirst_only]
  have hsteps : s.dev.twEnd c.val e = ((s.dev.xferTold c.val y).modCtl c.val fun v =>
      { v with xfers := v.xfers.filter fun z => z.ref != y.ref }).finish x.ref stSuccess (xferResult y) := by
    rw [he, Dev.xferStep_writes hstyle hop hrlen hgot hwlen hall, hy, hend, hr]
    exact Dev.twSettle_enabled (by rw [Dev.finish_ctl, ← hr, hctl, ← hdis])
  obtain ⟨hnext, hans, hk⟩ := event_finishes (b := [.tw, .out]) (f := fun d => d.twEnd c.val e)
    (i := .twTransactionEnd c e) rfl hi hsteps ha
    (((Dev.emit_keeps _ _).mono (by simp)).trans ((Dev.modCtl_keeps _ _ _).mono (by simp)) |>.trans
      ((Dev.modXfer_keeps _ _ _ _).mono (by simp)) |>.trans ((Dev.modCtl_keeps _ _ _).mono (by simp)))
    (by decide) (by decide)
  refine ⟨_, hnext, hans, ?_, ?_, hk.mono (by decide)⟩ <;> rw [Dev.finish_ctl, hctl]

end InHand

/-- Settles O53: a transaction starts, and ends, fails or waits, by what befalls the only transfer of a controller. -/
theorem twoWireTransfers : Obligations.TwoWireTransfers := by
  unfold Obligations.TwoWireTransfers
  refine ⟨fun s c x hi hfree hcur hdis hx hprogs hlock => twStart_goes hi hfree hcur hdis hx hprogs hlock,
    fun s c x k e hi hcur hhold hdis hx hk hfail hlive hheard hops => ?_,
    fun s c k hi hhold _ hfree => wakeDelay_waits hi hhold hfree⟩
  have ha : s.dev.Answerable x.ref := ⟨hops, ⟨k, hk, hfail⟩, hlive, hheard⟩
  refine ⟨twEnd_completes hi hcur hhold hdis hx ha, fun byte acked hbyte => ?_, fun byte bit hleft => ?_,
    fun byte bit hleft => ?_, fun acked hon => ?_, fun acked hclass => ?_⟩
  · exact busNack_fails hi hcur hhold hdis hx ha hbyte acked
  · exact arbitrationLoss_fails hi hcur hhold hdis hx ha byte bit hleft
  · obtain ⟨t, hnext, hlost, harb, hcmds, hkeeps⟩ := arbitrationLoss_repeats hi hcur hhold byte bit hleft
    exact ⟨t, hnext, hlost, harb, by rw [Dev.cmd?, hcmds]; exact hk, hkeeps⟩
  · exact twStretch_fails hi hcur hhold hdis hx rfl (if_pos hon) ha
  · exact twStretch_fails hi hcur hhold hdis hx rfl (if_pos hclass) ha

end Sys2Proof.Machine
end

section
/-! SUPPORT. Requests, decisions, data phases and starvation at the memory hub (O40). -/

namespace Sys2Proof.Machine

open Sys2Proof

/-! ## The least of a list by a key -/

section Least

variable {α : Type}

/-- One step of the search for the first element of least key. -/
def leastStep (key : α → Nat) (b : Option α) (r : α) : Option α :=
  match b with
  | none => some r
  | some b => if key r < key b then some r else some b

theorem leastStep_foldl_some (key : α → Nat) (rs : List α) (b : α) :
    ∃ r, rs.foldl (leastStep key) (some b) = some r ∧ (r = b ∨ r ∈ rs) ∧ key r ≤ key b ∧ ∀ q ∈ rs, key r ≤ key q := by
  induction rs generalizing b with
  | nil => exact ⟨b, rfl, .inl rfl, le_rfl, by simp⟩
  | cons a rs ih =>
    by_cases hlt : key a < key b
    · obtain ⟨r, hr, hmem, hle, hall⟩ := ih a
      refine ⟨r, by simpa [leastStep, hlt] using hr, .inr ?_, by omega, ?_⟩
      · exact List.mem_cons.mpr hmem
      · simpa using ⟨hle, hall⟩
    · obtain ⟨r, hr, hmem, hle, hall⟩ := ih b
      refine ⟨r, by simpa [leastStep, hlt] using hr, hmem.imp_right (List.mem_cons_of_mem _), hle, ?_⟩
      simpa using ⟨by omega, hall⟩

theorem leastStep_foldl (key : α → Nat) {rs : List α} (h : rs ≠ []) :
    ∃ r ∈ rs, rs.foldl (leastStep key) none = some r ∧ ∀ q ∈ rs, key r ≤ key q := by
  obtain ⟨a, rs, rfl⟩ := List.exists_cons_of_ne_nil h
  obtain ⟨r, hr, hmem, hle, hall⟩ := leastStep_foldl_some key rs a
  refine ⟨r, ?_, by simpa [leastStep] using hr, by simpa using ⟨hle, hall⟩⟩
  exact List.mem_cons.mpr hmem

end Least

section Hub

variable {s : State} {d : Dev} {p : Fin 38} {k : Fin 12}

theorem Dev.setArb_keeps (d : Dev) (k : Nat) (v : Arb) : Keeps [.hub] d (d.setArb k v) := d.hub_keeps _

theorem Keeps.arb {b : List Part} {e : Dev} (hk : Keeps b d e) (hb : .hub ∉ b) (k : Nat) : e.arb k = d.arb k := by
  have hhub : e.hub = d.hub := hk .hub hb
  unfold Dev.arb
  rw [hhub]

/-! ## Requests (R407, R415) -/

theorem transferRequest_none {a len : Nat} {w : Bool} (hi : s.dev.idleMode = true)
    (h : s.dev.hubBusy p.val = true ∨ s.dev.transferOk p.val k.val a len = false) :
    exec (.transferRequest p k a len w) s = .next s := by
  refine event_none (f := fun d => d.hubRequest p.val k.val a len w) rfl hi ?_
  obtain hbusy | hbad := h
  · simp [Dev.hubRequest, hbusy]
  · simp [Dev.hubRequest, hbad]

theorem transferRequest_raises {a len : Nat} {w : Bool} (hi : s.dev.idleMode = true)
    (hbusy : s.dev.hubBusy p.val = false) (hok : s.dev.transferOk p.val k.val a len = true)
    (hroom : (s.dev.arb k.val).credits + (if w then len / 64 else 0) ≤ hubCredits k.val) :
    ∃ t, exec (.transferRequest p k a len w) s = .next t
      ∧ t.dev.arb k.val = { s.dev.arb k.val with
          credits := (s.dev.arb k.val).credits + (if w then len / 64 else 0)
          reqs := (s.dev.arb k.val).reqs ++ [{
            port := p.val, addr := a, len := len, write := w, starve := s.dev.fld (0x10100 + 4 * p.val) 31 16 }] }
      ∧ (∀ j, j ≠ k.val → t.dev.arb j = s.dev.arb j) ∧ Keeps [.hub] s.dev t.dev := by
  have hlt : ¬ hubCredits k.val < (s.dev.arb k.val).credits + (if w then len / 64 else 0) := by omega
  refine ⟨_, event_effect (f := fun d => d.hubRequest p.val k.val a len w) rfl hi ?_ (Dev.setArb_keeps _ _ _) (by decide),
    Dev.setArb_arb _ _ _, fun j hne => Dev.setArb_arb_ne _ _ _ hne, Dev.setArb_keeps _ _ _⟩
  simp [Dev.hubRequest, hbusy, hok, hlt, Dev.hubPort]

/-! ## Decisions (R414, R417, R418, R421) -/

theorem arbiterDecision_none (hi : s.dev.idleMode = true)
    (h : (s.dev.arb k.val).reqs = [] ∨ (s.dev.arb k.val).next.isSome = true) :
    exec (.arbiterDecision k) s = .next s := by
  refine event_none (f := fun d => d.decide1 k.val) rfl hi ?_
  obtain hempty | hnext := h
  · simp [Dev.decide1, hempty]
  · simp [Dev.decide1, hnext]

theorem bitsOf_lt (v hi lo : Nat) : bitsOf v hi lo < 2 ^ (hi + 1 - lo) := Nat.mod_lt _ (by positivity)

theorem roundFrom_lt (last p : Nat) : roundFrom last p < 38 := Nat.mod_lt _ (by decide)

/-- What a decision compares: the level first, and within it the distance round the ring from the last winner. -/
def Dev.arbKey (d : Dev) (v : Arb) (q : HubReq) : Nat :=
  d.hubPort q.port 1 0 * 64 + roundFrom (SMap.get 0 v.last (d.hubPort q.port 1 0)) q.port

/-- `r` goes before `q`, or is of its level and not further round the ring. -/
def Dev.GoesBefore (d : Dev) (v : Arb) (r q : HubReq) : Prop :=
  d.hubPort r.port 1 0 ≤ d.hubPort q.port 1 0
    ∧ (d.hubPort r.port 1 0 = d.hubPort q.port 1 0 →
        roundFrom (SMap.get 0 v.last (d.hubPort r.port 1 0)) r.port
          ≤ roundFrom (SMap.get 0 v.last (d.hubPort r.port 1 0)) q.port)

theorem Dev.goesBefore_of_arbKey {v : Arb} {r q : HubReq} (h : d.arbKey v r ≤ d.arbKey v q) : d.GoesBefore v r q := by
  unfold Dev.arbKey at h
  have hr := roundFrom_lt (SMap.get 0 v.last (d.hubPort r.port 1 0)) r.port
  have hq := roundFrom_lt (SMap.get 0 v.last (d.hubPort q.port 1 0)) q.port
  refine ⟨by omega, fun heq => ?_⟩
  rw [← heq] at h
  omega

theorem Dev.winner_eq (d : Dev) (v : Arb) (rs : List HubReq) :
    d.winner v rs = rs.foldl (leastStep (d.arbKey v)) none := by
  unfold Dev.winner
  congr
  funext b r
  cases b <;> rfl

/-- A decision among requests of which one is not masked takes one of those that goes before the others. -/
theorem Dev.winner_among {v : Arb} (h : ∃ q ∈ v.reqs, d.masked v q.port = false) :
    ∃ r ∈ v.reqs, d.masked v r.port = false ∧ d.winner v (v.reqs.filter fun r => !d.masked v r.port) = some r
      ∧ ∀ q ∈ v.reqs, d.masked v q.port = false → d.GoesBefore v r q := by
  obtain ⟨q, hq, hmask⟩ := h
  have hne : v.reqs.filter (fun r => !d.masked v r.port) ≠ [] :=
    List.ne_nil_of_mem (List.mem_filter.mpr ⟨hq, by simp [hmask]⟩)
  obtain ⟨r, hr, hwin, hall⟩ := leastStep_foldl (d.arbKey v) hne
  rw [← Dev.winner_eq] at hwin
  obtain ⟨hmem, hopen⟩ := List.mem_filter.mp hr
  refine ⟨r, hmem, by simpa using hopen, hwin, fun q hq hm => Dev.goesBefore_of_arbKey (hall q ?_)⟩
  exact List.mem_filter.mpr ⟨hq, by simp [hm]⟩

/-- A grant takes the request from those that wait, and makes its port the last winner of its level. -/
theorem Dev.countGrant_takes (d : Dev) (v : Arb) (r : HubReq) :
    (d.countGrant v r).reqs = v.reqs.filter (· != r) ∧ (d.countGrant v r).owner = v.owner
      ∧ SMap.get 0 (d.countGrant v r).last (d.hubPort r.port 1 0) = r.port + 1 := by
  unfold Dev.countGrant
  split <;> simp only [] <;> split <;> simp [SMap.get_put_same]

/-- The state in which `r` has been decided at destination `k`. -/
def Dev.granted (d : Dev) (k : Nat) (r : HubReq) : Dev :=
  if (d.arb k).owner.isSome then d.setArb k { d.countGrant (d.arb k) r with next := some r }
  else (d.setArb k { d.countGrant (d.arb k) r with owner := some r }).emit (.hubGrant k r.port)

theorem Dev.granted_keeps (d : Dev) (k : Nat) (r : HubReq) : Keeps [.hub, .out] d (d.granted k r) := by
  unfold Dev.granted
  split
  · exact (d.setArb_keeps _ _).mono (by simp)
  · exact ((d.setArb_keeps _ _).mono (by simp)).trans ((Dev.emit_keeps _ _).mono (by simp))

theorem Dev.decide1_grants {k : Nat} (hnext : (d.arb k).next = none)
    (h : ∃ q ∈ (d.arb k).reqs, d.masked (d.arb k) q.port = false) :
    ∃ r ∈ (d.arb k).reqs, d.masked (d.arb k) r.port = false ∧ d.decide1 k = d.granted k r
      ∧ ∀ q ∈ (d.arb k).reqs, d.masked (d.arb k) q.port = false → d.GoesBefore (d.arb k) r q := by
  obtain ⟨r, hr, hopen, hwin, hall⟩ := Dev.winner_among h
  refine ⟨r, hr, hopen, ?_, hall⟩
  have hne : (d.arb k).reqs ≠ [] := List.ne_nil_of_mem hr
  have hsome : ((d.arb k).reqs.all fun q => d.masked (d.arb k) q.port) = false := by
    rw [List.all_eq_false]
    exact ⟨r, hr, by simp [hopen]⟩
  simp [Dev.decide1, hne, hnext, hsome, hwin, Dev.granted]

theorem Dev.granted_ne {r : HubReq} {k j : Nat} (hne : j ≠ k) : (d.granted k r).arb j = d.arb j := by
  unfold Dev.granted
  split
  · exact Dev.setArb_arb_ne _ _ _ hne
  · exact ((Dev.emit_keeps _ _).arb (by decide) j).trans (Dev.setArb_arb_ne _ _ _ hne)

/-- An idle destination takes the transfer decided at once (R417). -/
theorem Dev.granted_idle {r : HubReq} {k : Nat} (h : (d.arb k).owner = none) :
    (d.granted k r).arb k = { d.countGrant (d.arb k) r with owner := some r }
      ∧ (d.granted k r).out = d.out ++ [.hubGrant k r.port] := by
  unfold Dev.granted
  rw [h]
  exact ⟨((Dev.emit_keeps _ _).arb (by decide) k).trans (Dev.setArb_arb _ _ _), rfl⟩

/-- A busy destination takes it next. -/
theorem Dev.granted_busy {r o : HubReq} {k : Nat} (h : (d.arb k).owner = some o) :
    (d.granted k r).arb k = { d.countGrant (d.arb k) r with next := some r } ∧ (d.granted k r).out = d.out := by
  unfold Dev.granted
  rw [h]
  exact ⟨Dev.setArb_arb _ _ _, rfl⟩

theorem Dev.granted_takes (d : Dev) (k : Nat) (r : HubReq) :
    ((d.granted k r).arb k).reqs = (d.arb k).reqs.filter (· != r)
      ∧ SMap.get 0 ((d.granted k r).arb k).last (d.hubPort r.port 1 0) = r.port + 1 := by
  obtain ⟨hreqs, -, hlast⟩ := d.countGrant_takes (d.arb k) r
  cases h : (d.arb k).owner with
  | none => rw [(Dev.granted_idle h).1]; exact ⟨hreqs, hlast⟩
  | some o => rw [(Dev.granted_busy h).1]; exact ⟨hreqs, hlast⟩

theorem arbiterDecision_grants (hi : s.dev.idleMode = true) (hnext : (s.dev.arb k.val).next = none)
    (h : ∃ q ∈ (s.dev.arb k.val).reqs, s.dev.masked (s.dev.arb k.val) q.port = false) :
    ∃ r ∈ (s.dev.arb k.val).reqs, s.dev.masked (s.dev.arb k.val) r.port = false
      ∧ exec (.arbiterDecision k) s = .next { s with dev := s.dev.granted k.val r }
      ∧ ∀ q ∈ (s.dev.arb k.val).reqs, s.dev.masked (s.dev.arb k.val) q.port = false →
          s.dev.GoesBefore (s.dev.arb k.val) r q := by
  obtain ⟨r, hr, hopen, he, hall⟩ := Dev.decide1_grants hnext h
  exact ⟨r, hr, hopen,
    event_effect (f := fun d => d.decide1 k.val) rfl hi he (Dev.granted_keeps _ _ _) (by decide), hall⟩

/-! ## Data phases (R410 to R412, R417, R419) -/

/-- What is known of a destination at the end of its data phase. -/
def arbEnded (v : Arb) (r : HubReq) : Arb :=
  { v with owner := v.next, next := none, credits := v.credits - (if r.write then r.len / 64 else 0) }

/-- The transfer decided next begins. -/
def Dev.phaseNext (d : Dev) (k : Nat) (n : Option HubReq) : Dev :=
  match n with
  | some n => d.emit (.hubGrant k n.port)
  | none => d

theorem Dev.phaseEnd_owned {r : HubReq} {k : Nat} (h : (d.arb k).owner = some r) (ecc link : Nat) (un : Option Nat) :
    d.phaseEnd k ecc link un
      = ((d.setArb k (arbEnded (d.arb k) r)).eccNote k r ecc link un).phaseNext k (d.arb k).next := by
  cases hn : (d.arb k).next with
  | none => simp only [Dev.phaseEnd, h, hn, arbEnded, Dev.phaseNext]
  | some n => simp only [Dev.phaseEnd, h, hn, arbEnded, Dev.phaseNext]

theorem Dev.phaseNext_out (d : Dev) (k : Nat) (n : Option HubReq) :
    (d.phaseNext k n).out = d.out ++ (n.map fun n => Out.hubGrant k n.port).toList := by
  cases n with
  | none => exact (List.append_nil _).symm
  | some n => rfl

theorem Dev.phaseNext_keeps (d : Dev) (k : Nat) (n : Option HubReq) : Keeps [.out] d (d.phaseNext k n) := by
  cases n with
  | none => exact .refl _ _
  | some n => exact d.emit_keeps _

/-- Errors that are all corrected are counted, and no more (R410). -/
theorem Dev.eccNote_counts (d : Dev) (k : Nat) (r : HubReq) (ecc link : Nat) :
    Keeps [.ctrs] d (d.eccNote k r ecc link none) := by
  unfold Dev.eccNote
  simp only []
  refine Keeps.ifElse (.refl _ _) ?_
  have hlink : Keeps [.ctrs] d (if link = 0 then d else d.count 0x10048 link) :=
    Keeps.ifElse (.refl _ _) (d.count_keeps _ _)
  exact Keeps.ifElse hlink (Keeps.ifElse (.refl _ _) (Dev.count_keeps _ _ _))

theorem dataPhaseEnd_ends {r : HubReq} (hi : s.dev.idleMode = true) (hown : (s.dev.arb k.val).owner = some r)
    (ecc link : Nat) :
    ∃ t, exec (.dataPhaseEnd k ecc link none) s = .next t ∧ t.dev.arb k.val = arbEnded (s.dev.arb k.val) r
      ∧ t.dev.out = s.dev.out ++ ((s.dev.arb k.val).next.map fun n => Out.hubGrant k.val n.port).toList
      ∧ (∀ j, j ≠ k.val → t.dev.arb j = s.dev.arb j) ∧ Keeps [.hub, .out, .ctrs] s.dev t.dev := by
  have hnote := (s.dev.setArb k.val (arbEnded (s.dev.arb k.val) r)).eccNote_counts k.val r ecc link
  have hnext := Dev.phaseNext_keeps ((s.dev.setArb k.val (arbEnded (s.dev.arb k.val) r)).eccNote k.val r ecc link none) k.val
    (s.dev.arb k.val).next
  have harb : ∀ j, (s.dev.phaseEnd k.val ecc link none).arb j
      = (s.dev.setArb k.val (arbEnded (s.dev.arb k.val) r)).arb j := by
    intro j
    rw [Dev.phaseEnd_owned hown, hnext.arb (by decide), hnote.arb (by decide)]
  have hk : Keeps [.hub, .out, .ctrs] s.dev (s.dev.phaseEnd k.val ecc link none) := by
    rw [Dev.phaseEnd_owned hown]
    exact ((Dev.setArb_keeps _ _ _).mono (by simp)).trans (hnote.mono (by simp)) |>.trans (hnext.mono (by simp))
  refine ⟨_, event_effect (f := fun d => d.phaseEnd k.val ecc link none) rfl hi rfl hk (by decide),
    (harb k.val).trans (Dev.setArb_arb _ _ _), ?_, fun j hne => (harb j).trans (Dev.setArb_arb_ne _ _ _ hne), hk⟩
  have hout := hnote .out (by decide)
  simp only [Part.same] at hout
  rw [Dev.phaseEnd_owned hown, Dev.phaseNext_out, hout]
  rfl

/-- An uncorrectable read of LPDDR5X leaves its address, and is counted and logged (R411, R412). -/
theorem Dev.eccNote_uncorrectable {k : Nat} {r : HubReq} (hk : k < 8) (hr : r.write = false) (d : Dev)
    (ecc link a : Nat) :
    (d.eccNote k r ecc link (some a)).hub = { d.hub with lastAddr := a }
      ∧ Keeps (.hub :: byPost) d (d.eccNote k r ecc link (some a)) := by
  have hle : ¬ 8 ≤ k := by omega
  have hcount : ∀ (e : Dev) o n, Keeps [.ctrs] e (if o = 0 then e else e.count n o) := fun e o n =>
    Keeps.ifElse (.refl _ _) (e.count_keeps _ _)
  have heq : ∃ e, Keeps [.ctrs] d e ∧ d.eccNote k r ecc link (some a)
      = (({ e with hub := { e.hub with lastAddr := a } }).count 0x10044 1).log 2 0x003 0 a 1 0 := by
    refine ⟨_, ?_, by simp only [Dev.eccNote, if_neg hle, hr]; rfl⟩
    exact (hcount d link 0x10048).trans (Keeps.ifElse (.refl _ _) (Dev.count_keeps _ _ _))
  obtain ⟨e, he, heq⟩ := heq
  rw [heq]
  refine ⟨(Dev.log_keeps _ _ _ _ _ _ _ _ _ .hub (by decide)).trans ?_, ?_⟩
  · rw [Dev.count_hub, he .hub (by decide)]
  · exact (he.mono (by decide)).trans ((e.hub_keeps _).mono (by decide)) |>.trans
      ((Dev.count_keeps _ _ _).mono (by decide)) |>.trans ((Dev.log_keeps _ _ _ _ _ _ _ _ _).mono (by decide))

theorem dataPhaseEnd_keepsAddress {r : HubReq} (hi : s.dev.idleMode = true) (hown : (s.dev.arb k.val).owner = some r)
    (hlp : k.val < 8) (hr : r.write = false) (ecc link a : Nat) :
    ∃ t, exec (.dataPhaseEnd k ecc link (some a)) s = .next t ∧ t.dev.hub.lastAddr = a
      ∧ (t.dev.arb k.val).owner = (s.dev.arb k.val).next ∧ Keeps (.hub :: byPost) s.dev t.dev := by
  obtain ⟨hhub, hnote⟩ := Dev.eccNote_uncorrectable hlp hr (s.dev.setArb k.val (arbEnded (s.dev.arb k.val) r)) ecc link a
  have hnext := Dev.phaseNext_keeps
    ((s.dev.setArb k.val (arbEnded (s.dev.arb k.val) r)).eccNote k.val r ecc link (some a)) k.val (s.dev.arb k.val).next
  have he := Dev.phaseEnd_owned hown ecc link (some a)
  have hk : Keeps (.hub :: byPost) s.dev (s.dev.phaseEnd k.val ecc link (some a)) := by
    rw [he]
    exact ((Dev.setArb_keeps _ _ _).mono (by simp)).trans hnote |>.trans (hnext.mono (by decide))
  have hend : (s.dev.phaseEnd k.val ecc link (some a)).hub
      = { (s.dev.setArb k.val (arbEnded (s.dev.arb k.val) r)).hub with lastAddr := a } := by
    rw [he]
    exact (hnext .hub (by decide)).trans hhub
  refine ⟨_, event_effect (f := fun d => d.phaseEnd k.val ecc link (some a)) rfl hi rfl hk (by decide), ?_, ?_, hk⟩
  · exact congrArg HubB.lastAddr hend
  · have harb : (s.dev.phaseEnd k.val ecc link (some a)).arb k.val = arbEnded (s.dev.arb k.val) r := by
      unfold Dev.arb
      rw [hend]
      exact Dev.setArb_arb _ _ _
    exact congrArg Arb.owner harb

/-! ## Starvation (R422) -/

theorem starveTimer_none (hi : s.dev.idleMode = true)
    (h : ∀ e ∈ s.dev.hub.arbs, ∀ q ∈ e.2.reqs, q.port = p.val → q.starve = 0) :
    exec (.starveTimerExpiry p) s = .next s := by
  refine event_none (f := fun d => d.starve p.val) rfl hi (if_neg ?_)
  simpa using h

/-- What a register keeps of a value with a bit set. -/
theorem testBit_or_mod {v b : Nat} (hb : b < 32) : ((v ||| 2 ^ b) % 4294967296).testBit b = true := by
  rw [show 4294967296 = 2 ^ 32 from rfl, Nat.testBit_mod_two_pow]
  simp [hb]

/-- A port that starves has its bit set, and no other register changes. -/
theorem Dev.starve_sets {p : Nat} (h : ∃ e ∈ d.hub.arbs, ∃ q ∈ e.2.reqs, q.port = p ∧ q.starve ≠ 0) :
    ((d.starve p).reg (0x10020 + p / 32 * 4)).testBit (p % 32) = true
      ∧ (∀ o, o ≠ 0x10020 + p / 32 * 4 → (d.starve p).reg o = d.reg o) ∧ Keeps (.regs :: byPost) d (d.starve p) := by
  have hcount := d.count_keeps 0x1004C 1
  have hstarves : (d.hub.arbs.any fun e => e.2.reqs.any fun r => r.port == p && r.starve != 0) = true := by
    simpa using h
  simp only [Dev.starve, hstarves, if_true]
  split
  · next hset => exact ⟨hset, fun o _ => hcount.reg (by decide) o, hcount.mono (by decide)⟩
  · have hlog : ∀ e : Dev, Keeps byPost e (if e.fld 0x10000 0 0 = 1 then e.log 1 0x002 p 0 1 0 else e) := by
      intro e
      split
      · exact e.log_keeps _ _ _ _ _ _ _ _
      · exact .refl _ _
    refine ⟨?_, fun o hne => ?_, ?_⟩
    · rw [(hlog _).reg (by decide), Dev.setReg_reg]
      exact testBit_or_mod (Nat.mod_lt _ (by decide))
    · rw [(hlog _).reg (by decide), Dev.setReg_reg_ne _ _ hne, hcount.reg (by decide)]
    · exact (hcount.mono (by decide)).trans ((Dev.setReg_keeps _ _ _).mono (by simp)) |>.trans
        ((hlog _).mono (by decide))

/-! ## HUB_SET_PORT (R425) -/

theorem cmdField_lt (c : Cmd) (i hi lo : Nat) : c.f i hi lo < 2 ^ (hi + 1 - lo) := bitsOf_lt _ _ _

/-- The register of a port holds STARVE_T, QUOTA and LEVEL. -/
theorem bitsOf_hubPort {t q l : Nat} (ht : t < 65536) (hq : q < 256) (hl : l < 4) :
    bitsOf ((t * 65536 + q * 256 + l) % 4294967296) 1 0 = l
      ∧ bitsOf ((t * 65536 + q * 256 + l) % 4294967296) 15 8 = q
      ∧ bitsOf ((t * 65536 + q * 256 + l) % 4294967296) 31 16 = t := by
  simp only [bitsOf, Nat.reduceAdd, Nat.reduceSub, Nat.reducePow]
  omega

theorem hubSetPort_sets {r : CmdRef} {c : Cmd} (hc : s.dev.clear specHubSetPort r c = true) :
    ∃ t, exec (.hubSetPort r) s = .next t ∧ t.pending = s.pending ∧ Answered s.dev t.dev r stSuccess 0
      ∧ t.dev.hubPort (c.f 4 5 0) 1 0 = c.f 5 1 0 ∧ t.dev.hubPort (c.f 4 5 0) 15 8 = c.f 4 15 8
      ∧ t.dev.hubPort (c.f 4 5 0) 31 16 = c.f 4 31 16
      ∧ (∀ o, o ≠ 0x10100 + 4 * c.f 4 5 0 → t.dev.reg o = s.dev.reg o) ∧ Keeps (.regs :: byDone) s.dev t.dev := by
  obtain ⟨hnext, ha, hk⟩ := cmd_finishes (i := .hubSetPort r) rfl hc rfl (Dev.setReg_keeps _ _ _) (by decide) (by decide)
  have hreg := (Dev.finish_keeps (s.dev.setReg (0x10100 + 4 * c.f 4 5 0)
    (c.f 4 31 16 * 65536 + c.f 4 15 8 * 256 + c.f 5 1 0)) r stSuccess 0).reg (by decide)
  obtain ⟨hlevel, hquota, hstarve⟩ := bitsOf_hubPort (cmdField_lt c 4 31 16) (cmdField_lt c 4 15 8) (cmdField_lt c 5 1 0)
  refine ⟨_, hnext, rfl, ha, ?_, ?_, ?_, fun o hne => (hreg o).trans (Dev.setReg_reg_ne _ _ hne), hk⟩
  · rwa [Dev.hubPort, Dev.fld, hreg, Dev.setReg_reg]
  · rwa [Dev.hubPort, Dev.fld, hreg, Dev.setReg_reg]
  · rwa [Dev.hubPort, Dev.fld, hreg, Dev.setReg_reg]

end Hub

/-- Settles O40: requests and credits, the winner of a decision by level and round, data phases, starvation, and the
register of a port. -/
theorem hubArbitration : Obligations.HubArbitration := by
  unfold Obligations.HubArbitration
  refine ⟨fun s p k a len w hi => ⟨transferRequest_none hi, transferRequest_raises hi⟩,
    fun s k hi => ⟨arbiterDecision_none hi, fun hnext h => ?_⟩,
    fun s k ecc link un r hi hown => ⟨fun hun => ?_, fun a hun hlp hr => ?_⟩,
    fun s p hi => ⟨starveTimer_none hi, fun h => ?_⟩, fun s r c hc => hubSetPort_sets hc⟩
  · obtain ⟨r, hr, hopen, hx, hall⟩ := arbiterDecision_grants hi hnext h
    obtain ⟨hreqs, hlast⟩ := s.dev.granted_takes k.val r
    have howner := (s.dev.countGrant_takes (s.dev.arb k.val) r).2.1
    refine ⟨_, r, hx, hr, hopen, hall, hreqs, hlast, fun hidle => ?_, fun o hbusy => ?_,
      fun j hne => Dev.granted_ne hne, Dev.granted_keeps _ _ _⟩
    · obtain ⟨harb, hout⟩ := Dev.granted_idle (r := r) hidle
      exact ⟨congrArg Arb.owner harb, hout⟩
    · obtain ⟨harb, hout⟩ := Dev.granted_busy (r := r) hbusy
      exact ⟨(congrArg Arb.owner harb).trans (howner.trans hbusy), congrArg Arb.next harb, hout⟩
  · exact hun ▸ dataPhaseEnd_ends hi hown ecc link
  · exact hun ▸ dataPhaseEnd_keepsAddress hi hown hlp hr ecc link a
  · obtain ⟨hbit, hother, hk⟩ := Dev.starve_sets h
    exact ⟨_, event_effect (f := fun d => d.starve p.val) rfl hi rfl hk (by decide), hbit, hother, hk⟩

end Sys2Proof.Machine
end

section
/-! SUPPORT. The debug port: accesses of the Debug Module, the core, memory spaces, token points and unlocking (O60). -/

namespace Sys2Proof.Machine

open Sys2Proof

section Port

variable {s : State} {d e x : Dev}

/-! ## Frames -/

@[simp] theorem Dev.modDbg_dbg (d : Dev) (f : DbgB → DbgB) : (d.modDbg f).dbg = f d.dbg := rfl

theorem Dev.modDbg_keeps (d : Dev) (f : DbgB → DbgB) : Keeps [.dbg] d (d.modDbg f) := d.dbg_keeps _

/-- Only OMS changes, where its log does not. -/
theorem Dev.oms_keeps (d : Dev) {o : OmsB} (hlog : o.log = d.oms.log) (hseq : o.logSeq = d.oms.logSeq)
    (hperiod : o.period = d.oms.period) (hsup : o.suppressed = d.oms.suppressed) :
    Keeps [.oms] d { d with oms := o } := by
  intro p hp
  cases p <;> simp_all [Part.same]

theorem Dev.mem_keeps (d : Dev) (m : MemB) : Keeps [.mem] d { d with mem := m } := by
  intro p hp
  cases p <;> simp_all [Part.same]

/-! ## One access of a Debug Module register (R475, Table 18-8) -/

/-- The access is seen at its time. -/
def Dev.dmSeen (d : Dev) : Dev := d.modDbg fun b => { b with last := some d.now }

/-- The answer of an access waits for the next one. -/
def Dev.dmAnswer (d : Dev) (status data : Nat) : Dev := d.modDbg fun b => { b with status := status, data := data }

theorem Dev.dmSeen_class (d : Dev) : d.dmSeen.dmClass = d.dmClass := rfl

theorem Dev.dmAnswer_keeps (d : Dev) (st v : Nat) : Keeps [.dbg] d (d.dmAnswer st v) := d.modDbg_keeps _

variable {a v op k : Nat}

theorem Dev.dmDo_idle (h1 : op ≠ 1) (h2 : op ≠ 2) :
    d.dmDo a v op = d.dmSeen.modDbg fun b => { b with status := 0 } := by
  simp only [Dev.dmDo, if_pos (⟨h1, h2⟩ : op ≠ 1 ∧ op ≠ 2)]
  rfl

theorem not_idle (h : op = 1 ∨ op = 2) : ¬ (op ≠ 1 ∧ op ≠ 2) := by omega

theorem Dev.dmDo_error (h : op = 1 ∨ op = 2) (hn : dmNeeds a (op == 2) = none) :
    d.dmDo a v op = d.dmSeen.dmAnswer 12 0 := by
  simp only [Dev.dmDo, if_neg (not_idle h), hn]
  rfl

theorem Dev.dmDo_denied (h : op = 1 ∨ op = 2) (hn : dmNeeds a (op == 2) = some k) (hk : d.dmClass < k) :
    d.dmDo a v op = d.dmSeen.dmAnswer 8 0 := by
  have hlow : d.dmSeen.dmClass < k := hk
  simp only [Dev.dmDo, if_neg (not_idle h), hn]
  exact if_pos hlow

theorem Dev.dmDo_read (hn : dmNeeds a false = some k) (hk : k ≤ d.dmClass) :
    d.dmDo a v 1 = (d.dmSeen.dmRead a).2.2.dmAnswer (d.dmSeen.dmRead a).1 (d.dmSeen.dmRead a).2.1 := by
  have hhigh : ¬ d.dmSeen.dmClass < k := Nat.not_lt.mpr hk
  have h2 : ((1 : Nat) == 2) = false := rfl
  simp only [Dev.dmDo, if_neg (not_idle (.inl rfl)), h2, hn]
  exact (if_neg hhigh).trans (if_pos trivial)

theorem Dev.dmDo_write (hn : dmNeeds a true = some k) (hk : k ≤ d.dmClass) :
    d.dmDo a v 2 = (d.dmSeen.dmWrite a v).2.dmAnswer (d.dmSeen.dmWrite a v).1 0 := by
  have hhigh : ¬ d.dmSeen.dmClass < k := Nat.not_lt.mpr hk
  have h2 : ((2 : Nat) == 2) = true := rfl
  simp only [Dev.dmDo, if_neg (not_idle (.inr rfl)), h2, hn]
  exact (if_neg hhigh).trans (if_neg (by decide))

/-! ## What no access changes -/

/-- What an access of a Debug Module register may touch. -/
def byDm : List Part := [.dbg, .oms, .mem, .recd]

/-- `e` is `d` after work of the Debug Module: the TAP and the time of the access are as before. -/
structure Dev.DmSame (d e : Dev) : Prop where
  ir : e.dbg.ir = d.dbg.ir
  last : e.dbg.last = d.dbg.last
  keeps : Keeps byDm d e

theorem Dev.DmSame.refl (d : Dev) : d.DmSame d := ⟨rfl, rfl, .refl _ _⟩

theorem Dev.DmSame.trans (h : d.DmSame e) (k : e.DmSame x) : d.DmSame x :=
  ⟨k.ir.trans h.ir, k.last.trans h.last, h.keeps.trans k.keeps⟩

theorem Dev.DmSame.modDbg (d : Dev) {f : DbgB → DbgB} (hir : (f d.dbg).ir = d.dbg.ir)
    (hlast : (f d.dbg).last = d.dbg.last) : d.DmSame (d.modDbg f) :=
  ⟨hir, hlast, (d.modDbg_keeps f).mono (by decide)⟩

/-- Work outside the debug block. -/
theorem Dev.DmSame.of_keeps {b : List Part} (hk : Keeps b d e) (hb : b ⊆ [.oms, .mem, .recd]) : d.DmSame e := by
  have hdbg : e.dbg = d.dbg := hk .dbg fun h => absurd (hb h) (by decide)
  exact ⟨by rw [hdbg], by rw [hdbg], hk.mono (fun p hp => List.mem_cons_of_mem _ (hb hp))⟩

theorem Dev.DmSame.ite {c : Prop} [Decidable c] (h : d.DmSame e) (k : d.DmSame x) : d.DmSame (if c then e else x) := by
  split
  · exact h
  · exact k

/-! ## Memory spaces (R477) -/

theorem Dev.opaqueWord_keeps (d : Dev) (m : Mem) (a n : Nat) : Keeps [] d (d.opaqueWord m a n).2 := by
  unfold Dev.opaqueWord
  split
  · exact .refl _ _
  · exact d.draw_keeps

theorem Dev.lpddrWord_keeps (d : Dev) (a : Nat) : Keeps [] d (d.lpddrWord a).2 := by
  unfold Dev.lpddrWord
  split
  · exact d.draw_keeps
  · exact .refl _ _

theorem Dev.mramWord_keeps (d : Dev) (a : Nat) : Keeps [] d (d.mramWord a).2 := by
  unfold Dev.mramWord
  split
  · exact .refl _ _
  · split
    · exact d.draw_keeps
    · exact d.opaqueWord_keeps _ _ _

/-- A read of a memory space draws free values at most. -/
theorem Dev.spaceRead_keeps (d : Dev) (a : Nat) : Keeps [] d (d.spaceRead a).2 := by
  unfold Dev.spaceRead
  split
  · exact d.lpddrWord_keeps a
  · exact .refl _ _
  · exact d.opaqueWord_keeps _ _ _
  · split
    · exact .refl _ _
    · split
      · exact d.opaqueWord_keeps _ _ _
      · exact d.draw_keeps
  · exact d.mramWord_keeps a

theorem Dev.noteWrote_same (d : Dev) (a n : Nat) : d.DmSame (d.noteWrote a n) := .modDbg d rfl rfl

theorem Dev.spaceWrite_same (d : Dev) (a v : Nat) : d.DmSame (d.spaceWrite a v) := by
  have hmem : ∀ m : MemB, d.DmSame { d with mem := m } := fun m => .of_keeps (d.mem_keeps m) (by decide)
  unfold Dev.spaceWrite
  simp only []
  split
  · exact hmem _
  · exact hmem _
  · exact (hmem _).trans (Dev.noteWrote_same _ _ _)
  · exact (hmem _).trans (Dev.noteWrote_same _ _ _)
  · refine .ite ?_ (.ite ?_ (.ite (hmem _) (.ite ?_ ((hmem _).trans (Dev.noteWrote_same _ _ _)))))
    · exact .of_keeps (b := [.oms]) (by intro p hp; cases p <;> simp_all [Part.same, Dev.spoilRecord]) (by decide)
    · exact .of_keeps (d.oms_keeps rfl rfl rfl rfl) (by decide)
    · exact .of_keeps (b := [.recd]) (by intro p hp; cases p <;> simp_all [Part.same, Dev.spoilMarkers]) (by decide)

/-- Where MEM_ADDR stands after an access. -/
def Dev.memMoved (d : Dev) : Dev := d.modDbg fun b => { b with memAddr := (b.memAddr + 4) % two32 }

theorem Dev.memAccess_same (d : Dev) (w : Bool) (v : Nat) : d.DmSame (d.memAccess w v).2.2 := by
  have hnext : ∀ e : Dev, e.DmSame e.memMoved := fun e => .modDbg e rfl rfl
  unfold Dev.memAccess
  simp only []
  split
  · exact .refl d
  · split
    · exact .refl d
    · split
      · exact .refl d
      · cases w with
        | false => exact (Dev.DmSame.of_keeps (d.spaceRead_keeps _) (by simp)).trans (hnext _)
        | true => exact (d.spaceWrite_same _ _).trans (hnext _)

/-! ## Accesses of every register -/

/-- A choice between two answers leaves what both leave. -/
theorem Dev.DmSame.answer {c : Prop} [Decidable c] {y z : Nat × Nat × Dev} (h : d.DmSame y.2.2) (k : d.DmSame z.2.2) :
    d.DmSame (if c then y else z).2.2 := by
  split
  · exact h
  · exact k

theorem Dev.DmSame.written {c : Prop} [Decidable c] {y z : Nat × Dev} (h : d.DmSame y.2) (k : d.DmSame z.2) :
    d.DmSame (if c then y else z).2 := by
  split
  · exact h
  · exact k

/-- A read changes only what MEM_DATA and UNLOCK_DATA move on. -/
theorem Dev.dmRead_same (d : Dev) (a : Nat) : d.DmSame (d.dmRead a).2.2 := by
  unfold Dev.dmRead
  simp only []
  repeat' apply Dev.DmSame.answer
  any_goals exact .refl d
  · exact d.memAccess_same _ _
  · dsimp only
    exact .modDbg d rfl rfl

theorem Dev.coreLeaves_same (d : Dev) : d.DmSame d.coreLeaves := by
  have hfree : d.DmSame { d with free := d.free + 32 } :=
    .of_keeps (b := []) (by intro p hp; cases p <;> simp_all [Part.same]) (by simp)
  unfold Dev.coreLeaves
  exact hfree.trans (.modDbg _ rfl rfl)

theorem Dev.coreHalt_same (d : Dev) (cause index : Nat) : d.DmSame (d.coreHalt cause index) :=
  d.coreLeaves_same.trans (.modDbg _ rfl rfl)

theorem Dev.coreCtl_same (d : Dev) (v : Nat) : d.DmSame (d.coreCtl v) :=
  .ite (.ite (.refl d) (d.coreHalt_same _ _)) (.ite (.modDbg d rfl rfl) (.ite (d.coreHalt_same _ _) (.refl d)))

theorem Dev.thaw_same (d : Dev) : d.DmSame d.thaw := ⟨rfl, rfl, (d.dbg_keeps _).mono (by decide)⟩

theorem Dev.tokCtl_same (d : Dev) (v : Nat) : d.DmSame (d.tokCtl v).2 := by
  unfold Dev.tokCtl
  refine .written (.refl d) (.written ?_ (.written ?_ ?_)) <;> dsimp only
  · exact d.thaw_same.trans (.modDbg _ rfl rfl)
  · exact .modDbg d rfl rfl
  · exact .modDbg d rfl rfl

theorem Dev.freshNonce_keeps (d : Dev) : Keeps [.oms] d d.freshNonce.2 :=
  (d.draw_keeps.mono (by simp)).trans (Dev.oms_keeps _ rfl rfl rfl rfl)

theorem Dev.tapChallenge_same (d : Dev) : d.DmSame d.tapChallenge := by
  unfold Dev.tapChallenge
  exact (Dev.DmSame.of_keeps d.freshNonce_keeps (by decide)).trans (.modDbg _ rfl rfl)

theorem Dev.unlockCtl_same (d : Dev) (v : Nat) : d.DmSame (d.unlockCtl v) := by
  unfold Dev.unlockCtl
  exact (Dev.DmSame.ite d.tapChallenge_same (.refl d)).trans (.modDbg _ rfl rfl)

theorem Dev.dmWrite_same (d : Dev) (a v : Nat) : d.DmSame (d.dmWrite a v).2 := by
  unfold Dev.dmWrite
  simp only []
  repeat' with_reducible apply Dev.DmSame.written
  any_goals dsimp only
  any_goals exact .refl d
  any_goals exact .modDbg d rfl rfl
  · exact d.coreCtl_same v
  · exact d.memAccess_same _ _
  · exact d.tokCtl_same v
  · exact d.unlockCtl_same v

theorem Dev.dmAnswer_same (d : Dev) (st v : Nat) : d.DmSame (d.dmAnswer st v) := .modDbg d rfl rfl

/-- After an access, the TAP is as before, and the access has its time. -/
theorem Dev.dmDo_same (d : Dev) (a v op : Nat) : d.dmSeen.DmSame (d.dmDo a v op) := by
  have hread := d.dmSeen.dmRead_same a
  have hwrite := d.dmSeen.dmWrite_same a v
  have hanswer : ∀ (y : Dev) st w, y.DmSame (y.dmAnswer st w) := fun y => y.dmAnswer_same
  unfold Dev.dmDo
  simp only []
  split
  · exact .modDbg _ rfl rfl
  · split
    · exact .modDbg _ rfl rfl
    · split
      · exact .modDbg _ rfl rfl
      · split
        · exact hread.trans (hanswer _ _ _)
        · exact hwrite.trans (hanswer _ _ _)

theorem Dev.dmDo_keeps (d : Dev) (a v op : Nat) : Keeps byDm d (d.dmDo a v op) :=
  ((d.modDbg_keeps _).mono (by decide)).trans (d.dmDo_same a v op).keeps

end Port

end Sys2Proof.Machine
end

section
/-! SUPPORT. What the debug port answers and does (O60). -/

namespace Sys2Proof.Machine

open Sys2Proof

section Tap

variable {s : State} {d : Dev} {a v op k : Nat}

/-! ## The TAP (R474, R475) -/

theorem event_dbg {i : Instr} {f : DbgB → DbgB} (hx : exec i s = lift (fun d => d.modDbg f) s)
    (hi : s.dev.idleMode = true) :
    ∃ t, exec i s = .next t ∧ t.dev.dbg = f s.dev.dbg ∧ Keeps [.dbg] s.dev t.dev :=
  ⟨_, event_effect hx hi rfl (Dev.modDbg_keeps _ _) (by decide), rfl, Dev.modDbg_keeps _ _⟩

theorem Dev.tap_keeps (d : Dev) (ir bits v : Nat) : Keeps [.dbg, .out] d (d.tap ir bits v) :=
  ((d.modDbg_keeps _).mono (by simp)).trans ((Dev.emit_keeps _ _).mono (by simp))

theorem event_tap {i : Instr} {ir bits v : Nat} (hx : exec i s = lift (fun d => d.tap ir bits v) s)
    (hi : s.dev.idleMode = true) :
    ∃ t, exec i s = .next t ∧ t.dev.dbg = { s.dev.dbg with ir := ir } ∧ t.dev.out = s.dev.out ++ [.tdo bits v]
      ∧ Keeps [.dbg, .out] s.dev t.dev :=
  ⟨_, event_effect hx hi rfl (Dev.tap_keeps _ _ _ _) (by decide), rfl, rfl, Dev.tap_keeps _ _ _ _⟩

/-- The answer of the access before has been shifted out. -/
def Dev.dmShifted (d : Dev) : Dev :=
  d.draw.2.tap 0x10 48 (d.draw.1 % 256 * 2 ^ 40 + d.dbg.data * 256 + d.dbg.status)

theorem Dev.dmShifted_keeps (d : Dev) : Keeps [.dbg, .out] d d.dmShifted :=
  (d.draw_keeps.mono (by simp)).trans (Dev.tap_keeps _ _ _ _)

theorem Dev.dmShifted_seen (d : Dev) :
    d.dmShifted.dmSeen.dbg = { d.dbg with ir := 0x10, last := some d.now } := rfl

theorem Dev.dmShifted_seen_keeps (d : Dev) : Keeps [.dbg, .out] d d.dmShifted.dmSeen :=
  d.dmShifted_keeps.trans ((Dev.modDbg_keeps _ _).mono (by simp))

theorem Dev.dmShifted_class (d : Dev) : d.dmShifted.dmClass = d.dmClass := rfl

theorem exec_dmAccess (hi : s.dev.idleMode = true) (a : BitVec 8) (v : Word) (op : BitVec 4) :
    exec (.dmAccess a v op) s = .next { s with dev := s.dev.dmShifted.dmDo a.toNat v.toNat op.toNat } :=
  event_effect (f := fun d => d.dmShifted.dmDo a.toNat v.toNat op.toNat) (b := .out :: byDm) rfl hi rfl
    ((s.dev.dmShifted_keeps.mono (by decide)).trans ((Dev.dmDo_keeps _ _ _ _).mono (by decide))) (by decide)

theorem Dev.dmShifted_do (d : Dev) (a v op : Nat) :
    (d.dmShifted.dmDo a v op).dbg.ir = 0x10 ∧ (d.dmShifted.dmDo a v op).dbg.last = some d.now
      ∧ (d.dmShifted.dmDo a v op).out
        = d.out ++ [.tdo 48 (d.draw.1 % 256 * 2 ^ 40 + d.dbg.data * 256 + d.dbg.status)] := by
  have hsame := d.dmShifted.dmDo_same a v op
  exact ⟨hsame.ir, hsame.last, hsame.keeps .out (by decide)⟩

/-- An answer right after the access has been seen. -/
theorem Dev.dmShifted_answer {e : Dev} {st w : Nat} (he : e = d.dmShifted.dmSeen.dmAnswer st w) :
    e.dbg = { d.dbg with ir := 0x10, last := some d.now, status := st, data := w } ∧ Keeps [.dbg, .out] d e := by
  subst he
  exact ⟨rfl, d.dmShifted_seen_keeps.trans ((Dev.dmAnswer_keeps _ _ _).mono (by simp))⟩

/-- LC_STS reads the time of its own access. -/
theorem Dev.dmDo_lcSts (d : Dev) (v : Nat) : d.dmDo 0 v 1 = d.dmSeen.dmAnswer 0 d.dmSeen.lcSts :=
  Dev.dmDo_read (k := 0) rfl (Nat.zero_le _)

theorem Dev.dmDo_coreSts (hclass : d.dmClass = 2) (v : Nat) : d.dmDo 5 v 1 = d.dmSeen.dmAnswer 0 d.dmSeen.coreSts :=
  Dev.dmDo_read (k := 2) rfl hclass.ge

theorem Dev.dmDo_corePc (hclass : d.dmClass = 2) (hhalted : d.dbg.halted = true) (v : Nat) :
    d.dmDo 6 v 2 = (d.dmSeen.modDbg fun b => { b with pc := v }).dmAnswer 0 0 := by
  have hset : d.dmSeen.dmWrite 6 v = (0, d.dmSeen.modDbg fun b => { b with pc := v }) := if_pos hhalted
  rw [Dev.dmDo_write (k := 2) rfl hclass.ge, hset]

/-! ## The core (R476) -/

theorem event_dm {i : Instr} {a v op : Nat} {e : Dev} {b : List Part} (hx : exec i s = lift (fun d => d.dmDo a v op) s)
    (hi : s.dev.idleMode = true) (he : s.dev.dmDo a v op = e) (hk : Keeps b s.dev e) (hb : .link ∉ b) :
    exec i s = .next { s with dev := e } := event_effect hx hi he hk hb

/-- An access that is answered and does nothing else. -/
theorem event_dmAnswer {i : Instr} {st w : Nat} (hx : exec i s = lift (fun d => d.dmDo a v op) s)
    (hi : s.dev.idleMode = true) (he : s.dev.dmDo a v op = s.dev.dmSeen.dmAnswer st w) :
    ∃ t, exec i s = .next t ∧ t.dev.dbg = { s.dev.dbg with last := some s.dev.now, status := st, data := w }
      ∧ Keeps [.dbg] s.dev t.dev := by
  have hk : Keeps [.dbg] s.dev (s.dev.dmSeen.dmAnswer st w) := (Dev.modDbg_keeps _ _).trans (Dev.modDbg_keeps _ _)
  exact ⟨_, event_effect hx hi he hk (by decide), rfl, hk⟩

/-- A write of CORE_CTL in class FULL. -/
theorem Dev.dmDo_coreCtl (hclass : d.dmClass = 2) (v : Nat) : d.dmDo 4 v 2 = (d.dmSeen.coreCtl v).dmAnswer 0 0 :=
  Dev.dmDo_write (k := 2) rfl hclass.ge

theorem Dev.coreLeaves_keeps (d : Dev) : Keeps [.dbg] d d.coreLeaves := by
  intro p hp
  cases p <;> simp_all [Part.same, Dev.coreLeaves]

theorem Dev.coreHalt_keeps (d : Dev) (cause index : Nat) : Keeps [.dbg] d (d.coreHalt cause index) :=
  d.coreLeaves_keeps.trans (Dev.modDbg_keeps _ _)

theorem core_denied (hi : s.dev.idleMode = true) (hclass : s.dev.dmClass < 2) {i : Instr}
    (h : i = .halt ∨ i = .resume ∨ i = .step) :
    ∃ t, exec i s = .next t ∧ t.dev.dbg = { s.dev.dbg with last := some s.dev.now, status := 8, data := 0 }
      ∧ Keeps [.dbg] s.dev t.dev := by
  have hdenied : ∀ v, s.dev.dmDo 4 v 2 = s.dev.dmSeen.dmAnswer 8 0 := fun v =>
    Dev.dmDo_denied (k := 2) (.inr rfl) rfl hclass
  obtain rfl | rfl | rfl := h
  · exact event_dmAnswer rfl hi (hdenied 1)
  · exact event_dmAnswer rfl hi (hdenied 2)
  · exact event_dmAnswer rfl hi (hdenied 4)

/-- A write of CORE_CTL leaves the core as `coreCtl` does, and is answered. -/
theorem event_coreCtl {i : Instr} {v : Nat} (hx : exec i s = lift (fun d => d.dmDo 4 v 2) s)
    (hi : s.dev.idleMode = true) (hclass : s.dev.dmClass = 2) {e : Dev} (he : s.dev.dmSeen.coreCtl v = e)
    (hk : Keeps [.dbg] s.dev.dmSeen e) :
    ∃ t, exec i s = .next t ∧ t.dev.dbg = { e.dbg with status := 0, data := 0 } ∧ Keeps [.dbg] s.dev t.dev := by
  have hall : Keeps [.dbg] s.dev (e.dmAnswer 0 0) := ((Dev.modDbg_keeps _ _).trans hk).trans (Dev.modDbg_keeps _ _)
  exact ⟨_, event_effect hx hi ((Dev.dmDo_coreCtl hclass v).trans (congrArg (Dev.dmAnswer · 0 0) he)) hall (by decide),
    rfl, hall⟩

theorem halt_halts (hi : s.dev.idleMode = true) (hclass : s.dev.dmClass = 2) :
    ∃ t, exec .halt s = .next t ∧ t.dev.dbg.halted = true ∧ t.dev.dbg.status = 0
      ∧ (s.dev.dbg.halted = false → t.dev.dbg.cause = 1) ∧ Keeps [.dbg] s.dev t.dev := by
  cases hh : s.dev.dbg.halted with
  | true =>
    obtain ⟨t, hnext, hdbg, hk⟩ := event_coreCtl (i := .halt) (v := 1) rfl hi hclass (if_pos hh) (.refl _ _)
    exact ⟨t, hnext, by rw [hdbg]; exact hh, by rw [hdbg], by simp, hk⟩
  | false =>
    obtain ⟨t, hnext, hdbg, hk⟩ := event_coreCtl (i := .halt) (v := 1) rfl hi hclass
      (if_neg (ne_true_of_eq_false hh)) (Dev.coreHalt_keeps _ 1 0)
    exact ⟨t, hnext, by rw [hdbg]; rfl, by rw [hdbg], fun _ => by rw [hdbg]; rfl, hk⟩

theorem resume_resumes (hi : s.dev.idleMode = true) (hclass : s.dev.dmClass = 2) :
    ∃ t, exec .resume s = .next t ∧ t.dev.dbg = { s.dev.dbg with
        halted := false, cause := 0, index := 0, last := some s.dev.now, status := 0, data := 0 }
      ∧ Keeps [.dbg] s.dev t.dev := by
  obtain ⟨t, hnext, hdbg, hk⟩ := event_coreCtl (i := .resume) (v := 2) rfl hi hclass rfl (Dev.modDbg_keeps _ _)
  exact ⟨t, hnext, hdbg, hk⟩

theorem step_steps (hi : s.dev.idleMode = true) (hclass : s.dev.dmClass = 2) :
    ∃ t, exec .step s = .next t ∧ t.dev.dbg.halted = s.dev.dbg.halted ∧ t.dev.dbg.status = 0
      ∧ (s.dev.dbg.halted = true → t.dev.dbg.cause = 2) ∧ Keeps [.dbg] s.dev t.dev := by
  cases hh : s.dev.dbg.halted with
  | true =>
    obtain ⟨t, hnext, hdbg, hk⟩ := event_coreCtl (i := .step) (v := 4) rfl hi hclass
      (if_pos (⟨rfl, hh⟩ : Nat.testBit 4 2 = true ∧ _)) (Dev.coreHalt_keeps _ 2 0)
    exact ⟨t, hnext, by rw [hdbg]; rfl, by rw [hdbg], fun _ => by rw [hdbg]; rfl, hk⟩
  | false =>
    obtain ⟨t, hnext, hdbg, hk⟩ := event_coreCtl (i := .step) (v := 4) rfl hi hclass
      (if_neg (fun h : Nat.testBit 4 2 = true ∧ _ => absurd h.2 (ne_true_of_eq_false hh))) (.refl _ _)
    exact ⟨t, hnext, by rw [hdbg]; exact hh, by rw [hdbg], by simp, hk⟩

/-! ## Breakpoints and watchpoints -/

/-- What a hit of a breakpoint does. -/
def Dev.breakpoint (d : Dev) (i : Nat) : Dev :=
  if d.dbg.halted || !(SMap.get 0 d.dbg.bp i).testBit 0 then d
  else (d.coreHalt 3 i).modDbg fun b => { b with pc := SMap.get 0 d.dbg.bp i - SMap.get 0 d.dbg.bp i % 2 }

theorem exec_breakpointHit (i : Fin 8) : exec (.breakpointHit i) s = lift (fun d => d.breakpoint i.val) s := by
  rw [exec, execBreakpointHit]
  rfl

/-- What a hit of a watchpoint does. -/
def Dev.watchpoint (d : Dev) (i : Nat) : Dev :=
  if d.dbg.halted || SMap.get 0 d.dbg.wpCtl i % 4 = 0 then d else d.coreHalt 4 i

theorem exec_watchpointHit (i : Fin 4) : exec (.watchpointHit i) s = lift (fun d => d.watchpoint i.val) s := by
  rw [exec, execWatchpointHit]
  simp [Dev.watchpoint]

theorem breakpoint_none (hi : s.dev.idleMode = true) (i : Fin 8)
    (h : s.dev.dbg.halted = true ∨ (SMap.get 0 s.dev.dbg.bp i.val).testBit 0 = false) :
    exec (.breakpointHit i) s = .next s :=
  event_none (exec_breakpointHit i) hi (if_pos (by simpa using h))

theorem Dev.breakpoint_halts {i : Nat} (hh : d.dbg.halted = false) (hb : (SMap.get 0 d.dbg.bp i).testBit 0 = true) :
    d.breakpoint i
      = (d.coreHalt 3 i).modDbg fun b => { b with pc := SMap.get 0 d.dbg.bp i - SMap.get 0 d.dbg.bp i % 2 } :=
  if_neg (by simp [hh, hb])

theorem Dev.breakpoint_keeps (d : Dev) (i : Nat) : Keeps [.dbg] d (d.breakpoint i) :=
  Keeps.ifElse (.refl _ _) ((Dev.coreHalt_keeps d 3 i).trans (Dev.modDbg_keeps _ _))

theorem breakpoint_stops (hi : s.dev.idleMode = true) (i : Fin 8) (hh : s.dev.dbg.halted = false)
    (hb : (SMap.get 0 s.dev.dbg.bp i.val).testBit 0 = true) :
    ∃ t, exec (.breakpointHit i) s = .next t ∧ t.dev.dbg.halted = true ∧ t.dev.dbg.cause = 3
      ∧ t.dev.dbg.index = i.val ∧ t.dev.dbg.pc + 1 = SMap.get 0 s.dev.dbg.bp i.val ∧ Keeps [.dbg] s.dev t.dev := by
  have hodd : SMap.get 0 s.dev.dbg.bp i.val % 2 = 1 := by simpa [Nat.testBit_zero] using hb
  have he := Dev.breakpoint_halts hh hb
  refine ⟨_, event_effect (exec_breakpointHit i) hi rfl (Dev.breakpoint_keeps _ _) (by decide), ?_, ?_, ?_, ?_,
    Dev.breakpoint_keeps _ _⟩
  · rw [he]; rfl
  · rw [he]; rfl
  · rw [he]; rfl
  · rw [he, Dev.modDbg_dbg]
    simp only []
    omega

theorem watchpoint_none (hi : s.dev.idleMode = true) (i : Fin 4)
    (h : s.dev.dbg.halted = true ∨ SMap.get 0 s.dev.dbg.wpCtl i.val % 4 = 0) :
    exec (.watchpointHit i) s = .next s :=
  event_none (exec_watchpointHit i) hi (if_pos (by simpa using h))

theorem watchpoint_stops (hi : s.dev.idleMode = true) (i : Fin 4) (hh : s.dev.dbg.halted = false)
    (hw : SMap.get 0 s.dev.dbg.wpCtl i.val % 4 ≠ 0) :
    ∃ t, exec (.watchpointHit i) s = .next t ∧ t.dev.dbg.halted = true ∧ t.dev.dbg.cause = 4
      ∧ t.dev.dbg.index = i.val ∧ Keeps [.dbg] s.dev t.dev := by
  have he : s.dev.watchpoint i.val = s.dev.coreHalt 4 i.val := if_neg (by simp [hh, hw])
  exact ⟨_, event_effect (exec_watchpointHit i) hi he (Dev.coreHalt_keeps _ _ _) (by decide), rfl, rfl, rfl,
    Dev.coreHalt_keeps _ _ _⟩

end Tap

end Sys2Proof.Machine
end

section
/-! SUPPORT. Memory spaces, token points and unlocking over the TAP (O60). -/

namespace Sys2Proof.Machine

open Sys2Proof

section Memory

variable {s : State} {d : Dev} {a v n : Nat}

/-! ## MEM_DATA (R477) -/

theorem Dev.dmDo_memRead (hclass : d.dmClass = 2) (v : Nat) :
    d.dmDo 0x23 v 1 = (d.dmSeen.memAccess false 0).2.2.dmAnswer (d.dmSeen.memAccess false 0).1
      (d.dmSeen.memAccess false 0).2.1 :=
  Dev.dmDo_read (k := 1) rfl (by omega)

theorem Dev.dmDo_memWrite (hclass : d.dmClass = 2) (v : Nat) :
    d.dmDo 0x23 v 2 = (d.dmSeen.memAccess true v).2.2.dmAnswer (d.dmSeen.memAccess true v).1 0 :=
  Dev.dmDo_write (k := 2) rfl hclass.ge

/-- Outside every space MEM_DATA answers error. -/
theorem Dev.memAccess_outside (h : d.spaceSize = none ∨ ∃ n, d.spaceSize = some n ∧ n < d.dmAddr + 4) (w : Bool)
    (v : Nat) : d.memAccess w v = (12, 0, d) := by
  obtain hnone | ⟨n, hsize, hlt⟩ := h
  · simp [Dev.memAccess, hnone]
  · simp [Dev.memAccess, hsize, hlt]

theorem memData_outside (hi : s.dev.idleMode = true) (hclass : s.dev.dmClass = 2)
    (h : s.dev.spaceSize = none ∨ ∃ n, s.dev.spaceSize = some n ∧ n < s.dev.dmAddr + 4) (w : Bool) (v : Word) :
    ∃ t, exec (.memData w v) s = .next t
      ∧ t.dev.dbg = { s.dev.dbg with last := some s.dev.now, status := 12, data := 0 } ∧ Keeps [.dbg] s.dev t.dev := by
  have hout := Dev.memAccess_outside (d := s.dev.dmSeen) h
  cases w with
  | false => exact event_dmAnswer rfl hi (by rw [if_neg Bool.false_ne_true, Dev.dmDo_memRead hclass, hout])
  | true => exact event_dmAnswer rfl hi (by rw [if_pos rfl, Dev.dmDo_memWrite hclass, hout])

/-- In class FULL the memories of the first three spaces are read and written. -/
theorem Dev.memAccess_inside (hclass : d.dmClass = 2) (hsize : d.spaceSize = some n) (hin : d.dmAddr + 4 ≤ n)
    (hspace : d.dbg.memSpace < 3) (v : Nat) :
    d.memAccess false v = (0, (d.spaceRead d.dmAddr).1, (d.spaceRead d.dmAddr).2.memMoved)
      ∧ d.memAccess true v = (0, 0, (d.spaceWrite d.dmAddr v).memMoved) := by
  have hlt : ¬ n < d.dmAddr + 4 := by omega
  have h4 : ¬ d.dbg.memSpace = 4 := by omega
  constructor
  · simp [Dev.memAccess, hsize, hlt, Dev.spaceReach, hclass, Dev.memMoved]
  · simp [Dev.memAccess, hsize, hlt, Dev.spaceReach, hclass, h4, Dev.memMoved]

theorem Dev.spaceRead_lpddr (hspace : d.dbg.memSpace = 0) (hctx : overlaps (a, 4) d.ctxRange = false) :
    (d.spaceRead a).1 = leNat (Mem.rdN d.mem.lpddr a 4) := by
  simp [Dev.spaceRead, hspace, Dev.lpddrWord, hctx]

theorem Dev.spaceRead_scan (hspace : d.dbg.memSpace = 1) :
    (d.spaceRead a).1 = leNat (Mem.rdN d.mem.scan a 4) := by
  simp [Dev.spaceRead, hspace]

theorem Dev.spaceRead_sram (hspace : d.dbg.memSpace = 2) (hwrote : d.wroteAt a 4 = true) :
    (d.spaceRead a).1 = leNat (Mem.rdN d.mem.sram a 4) := by
  simp [Dev.spaceRead, hspace, Dev.opaqueWord, hwrote]

/-- A write of one of the first three spaces: that memory, and the note of a write of SRAM. -/
theorem Dev.spaceWrite_low (hspace : d.dbg.memSpace < 3) (a v : Nat) :
    (d.spaceWrite a v).dbg.memAddr = d.dbg.memAddr ∧ (d.spaceWrite a v).dbg.memAddrHi = d.dbg.memAddrHi
      ∧ Keeps [.dbg, .mem] d (d.spaceWrite a v)
      ∧ (d.dbg.memSpace = 0 → (d.spaceWrite a v).mem
          = { d.mem with lpddr := Mem.wrN d.mem.lpddr a (leBytes 4 v) })
      ∧ (d.dbg.memSpace = 1 → (d.spaceWrite a v).mem
          = { d.mem with scan := Mem.wrN d.mem.scan a (leBytes 4 v) })
      ∧ (d.dbg.memSpace = 2 → (d.spaceWrite a v).mem
          = { d.mem with sram := Mem.wrN d.mem.sram a (leBytes 4 v) }) := by
  have hmem : ∀ m : MemB, Keeps [.dbg, .mem] d { d with mem := m } := fun m => (d.mem_keeps m).mono (by simp)
  obtain h | h | h : d.dbg.memSpace = 0 ∨ d.dbg.memSpace = 1 ∨ d.dbg.memSpace = 2 := by omega
  · simpa [Dev.spaceWrite, h] using hmem _
  · simpa [Dev.spaceWrite, h] using hmem _
  · have hnote : ∀ e : Dev, Keeps [.dbg, .mem] e (e.noteWrote a 4) := fun e => (e.modDbg_keeps _).mono (by simp)
    simpa [Dev.spaceWrite, h, Dev.noteWrote] using (hmem _).trans (hnote _)

theorem memData_reads (hi : s.dev.idleMode = true) (hclass : s.dev.dmClass = 2) (hsize : s.dev.spaceSize = some n)
    (hin : s.dev.dmAddr + 4 ≤ n) (hspace : s.dev.dbg.memSpace < 3) (v : Word) :
    ∃ t, exec (.memData false v) s = .next t ∧ t.dev.dbg.status = 0
      ∧ t.dev.dbg.memAddr = (s.dev.dbg.memAddr + 4) % 4294967296 ∧ t.dev.dbg.memAddrHi = s.dev.dbg.memAddrHi
      ∧ t.dev.dbg.data = (s.dev.dmSeen.spaceRead s.dev.dmAddr).1 ∧ Keeps [.dbg] s.dev t.dev := by
  have hread := s.dev.dmSeen.spaceRead_keeps s.dev.dmAddr
  have hdbg : (s.dev.dmSeen.spaceRead s.dev.dmAddr).2.dbg = s.dev.dmSeen.dbg := hread .dbg (by simp)
  have he : s.dev.dmDo 0x23 v.toNat 1
      = (s.dev.dmSeen.spaceRead s.dev.dmAddr).2.memMoved.dmAnswer 0 (s.dev.dmSeen.spaceRead s.dev.dmAddr).1 := by
    rw [Dev.dmDo_memRead hclass, (Dev.memAccess_inside (d := s.dev.dmSeen) hclass hsize hin hspace 0).1]
    rfl
  have hk : Keeps [.dbg] s.dev
      ((s.dev.dmSeen.spaceRead s.dev.dmAddr).2.memMoved.dmAnswer 0 (s.dev.dmSeen.spaceRead s.dev.dmAddr).1) :=
    ((Dev.modDbg_keeps _ _).trans (hread.mono (by simp))).trans ((Dev.modDbg_keeps _ _).trans (Dev.modDbg_keeps _ _))
  refine ⟨_, event_effect (f := fun d => d.dmDo 0x23 v.toNat 1) rfl hi he hk (by decide), rfl, ?_, ?_, rfl, hk⟩
  · simp only [Dev.dmAnswer, Dev.memMoved, Dev.modDbg_dbg, hdbg]
    rfl
  · simp only [Dev.dmAnswer, Dev.memMoved, Dev.modDbg_dbg, hdbg]
    rfl

theorem memData_writes (hi : s.dev.idleMode = true) (hclass : s.dev.dmClass = 2) (hsize : s.dev.spaceSize = some n)
    (hin : s.dev.dmAddr + 4 ≤ n) (hspace : s.dev.dbg.memSpace < 3) (v : Word) :
    ∃ t, exec (.memData true v) s = .next t ∧ t.dev.dbg.status = 0
      ∧ t.dev.dbg.memAddr = (s.dev.dbg.memAddr + 4) % 4294967296 ∧ t.dev.dbg.memAddrHi = s.dev.dbg.memAddrHi
      ∧ t.dev.mem = (s.dev.dmSeen.spaceWrite s.dev.dmAddr v.toNat).mem ∧ Keeps [.dbg, .mem] s.dev t.dev := by
  obtain ⟨haddr, hhi, hwrite, -⟩ := Dev.spaceWrite_low (d := s.dev.dmSeen) hspace s.dev.dmAddr v.toNat
  have he : s.dev.dmDo 0x23 v.toNat 2 = (s.dev.dmSeen.spaceWrite s.dev.dmAddr v.toNat).memMoved.dmAnswer 0 0 := by
    rw [Dev.dmDo_memWrite hclass, (Dev.memAccess_inside (d := s.dev.dmSeen) hclass hsize hin hspace v.toNat).2]
    rfl
  have hmod : ∀ (d : Dev) f, Keeps [.dbg, .mem] d (d.modDbg f) := fun d f => (d.modDbg_keeps f).mono (by simp)
  have hk : Keeps [.dbg, .mem] s.dev ((s.dev.dmSeen.spaceWrite s.dev.dmAddr v.toNat).memMoved.dmAnswer 0 0) :=
    ((hmod _ _).trans hwrite).trans ((hmod _ _).trans (hmod _ _))
  refine ⟨_, event_effect (f := fun d => d.dmDo 0x23 v.toNat 2) rfl hi he hk (by decide), rfl, ?_, ?_, rfl, hk⟩
  · simp only [Dev.dmAnswer, Dev.memMoved, Dev.modDbg_dbg, haddr]
    rfl
  · simp only [Dev.dmAnswer, Dev.memMoved, Dev.modDbg_dbg, hhi]
    rfl

end Memory

/-! ## Token points (R478) -/

section Points

variable {s : State} {d : Dev} {v n : Nat}

theorem Dev.dmDo_tokCtl (hclass : d.dmClass = 2) (v : Nat) :
    d.dmDo 0x30 v 2 = (d.dmSeen.tokCtl v).2.dmAnswer (d.dmSeen.tokCtl v).1 0 :=
  Dev.dmDo_write (k := 2) rfl hclass.ge

theorem freeze_unknown (hi : s.dev.idleMode = true) (hclass : s.dev.dmClass = 2) {v : Word}
    (hpoint : pointOk (bitsOf v.toNat 7 0) = false) :
    ∃ t, exec (.freeze v) s = .next t
      ∧ t.dev.dbg = { s.dev.dbg with last := some s.dev.now, status := 12, data := 0 } ∧ Keeps [.dbg] s.dev t.dev := by
  have herr : s.dev.dmSeen.tokCtl v.toNat = (12, s.dev.dmSeen) := if_pos (by simp [hpoint])
  exact event_dmAnswer (a := 0x30) (v := v.toNat) (op := 2) rfl hi (by rw [Dev.dmDo_tokCtl hclass, herr])

theorem Dev.tokCtl_thaws (hpoint : pointOk (bitsOf v 7 0) = true) (hfreeze : v.testBit 8 = false) :
    d.tokCtl v = (0, d.thaw.modDbg fun b => { b with point := bitsOf v 7 0 }) := by
  simp [Dev.tokCtl, hpoint, hfreeze]

theorem Dev.tokCtl_releases (hpoint : pointOk (bitsOf v 7 0) = true) (hfreeze : v.testBit 8 = true)
    (hfrozen : d.dbg.frozen = true) (hsame : d.dbg.point = bitsOf v 7 0) :
    d.tokCtl v = (0, d.modDbg fun b => { b with credits := b.credits + bitsOf v 31 16 }) := by
  simp [Dev.tokCtl, hpoint, hfreeze, hfrozen, hsame]

theorem Dev.tokCtl_freezes (hpoint : pointOk (bitsOf v 7 0) = true) (hfreeze : v.testBit 8 = true)
    (hother : ¬ (d.dbg.frozen = true ∧ d.dbg.point = bitsOf v 7 0)) :
    d.tokCtl v = (0, d.modDbg fun b => { b with
      frozen := true, point := bitsOf v 7 0, credits := bitsOf v 31 16, released := 0, waits := false }) := by
  simp [Dev.tokCtl, hpoint, hfreeze, hother]

/-- A write of TOK_CTL that is answered: what it leaves of the debug block. -/
theorem event_tokCtl {i : Instr} {e : Dev} (hx : exec i s = lift (fun d => d.dmDo 0x30 v 2) s)
    (hi : s.dev.idleMode = true) (hclass : s.dev.dmClass = 2) (he : s.dev.dmSeen.tokCtl v = (0, e))
    (hk : Keeps [.dbg] s.dev.dmSeen e) :
    ∃ t, exec i s = .next t ∧ t.dev.dbg = { e.dbg with status := 0, data := 0 } ∧ Keeps [.dbg] s.dev t.dev := by
  have hall : Keeps [.dbg] s.dev (e.dmAnswer 0 0) := ((Dev.modDbg_keeps _ _).trans hk).trans (Dev.modDbg_keeps _ _)
  exact ⟨_, event_effect hx hi (by rw [Dev.dmDo_tokCtl hclass, he]) hall (by decide), rfl, hall⟩

theorem freeze_sets (hi : s.dev.idleMode = true) (hclass : s.dev.dmClass = 2) {v : Word}
    (hpoint : pointOk (bitsOf v.toNat 7 0) = true) :
    ∃ t, exec (.freeze v) s = .next t ∧ t.dev.dbg.status = 0 ∧ t.dev.dbg.point = bitsOf v.toNat 7 0
      ∧ t.dev.dbg.frozen = v.toNat.testBit 8
      ∧ (v.toNat.testBit 8 = true → t.dev.dbg.credits
          = bitsOf v.toNat 31 16 + if s.dev.dbg.frozen = true ∧ s.dev.dbg.point = bitsOf v.toNat 7 0
            then s.dev.dbg.credits else 0)
      ∧ Keeps [.dbg] s.dev t.dev := by
  have hx : exec (.freeze v) s = lift (fun d => d.dmDo 0x30 v.toNat 2) s := rfl
  cases hfreeze : v.toNat.testBit 8 with
  | false =>
    obtain ⟨t, hnext, hdbg, hk⟩ := event_tokCtl hx hi hclass (Dev.tokCtl_thaws hpoint hfreeze)
      ((Dev.dbg_keeps _ _).trans (Dev.modDbg_keeps _ _))
    exact ⟨t, hnext, by rw [hdbg], by rw [hdbg]; rfl, by rw [hdbg]; rfl, by simp, hk⟩
  | true =>
    by_cases hsame : s.dev.dbg.frozen = true ∧ s.dev.dbg.point = bitsOf v.toNat 7 0
    · obtain ⟨t, hnext, hdbg, hk⟩ := event_tokCtl hx hi hclass (Dev.tokCtl_releases hpoint hfreeze hsame.1 hsame.2)
        (Dev.modDbg_keeps _ _)
      refine ⟨t, hnext, by rw [hdbg], by rw [hdbg]; exact hsame.2, by rw [hdbg]; exact hsame.1, fun _ => ?_, hk⟩
      rw [hdbg, if_pos hsame, Nat.add_comm]
      rfl
    · obtain ⟨t, hnext, hdbg, hk⟩ := event_tokCtl hx hi hclass (Dev.tokCtl_freezes hpoint hfreeze hsame)
        (Dev.modDbg_keeps _ _)
      refine ⟨t, hnext, by rw [hdbg], by rw [hdbg]; rfl, by rw [hdbg]; rfl, fun _ => ?_, hk⟩
      rw [hdbg, if_neg hsame]
      rfl

theorem pointOk_lt {p : Nat} (h : pointOk p = true) : p < 256 := by
  simp only [pointOk, Bool.or_eq_true, Bool.and_eq_true, decide_eq_true_eq, beq_iff_eq] at h
  omega

/-- What RELEASE writes names the frozen point, holds it, and lets `n` more tokens cross. -/
theorem release_fields {p : Nat} (hp : p < 256) (n : Nat) :
    bitsOf (p + 256 + n % 65536 * 65536) 7 0 = p ∧ (p + 256 + n % 65536 * 65536).testBit 8 = true
      ∧ bitsOf (p + 256 + n % 65536 * 65536) 31 16 = n % 65536 := by
  refine ⟨?_, ?_, ?_⟩
  · simp only [bitsOf, Nat.reduceAdd, Nat.reduceSub, Nat.reducePow]
    omega
  · rw [Nat.testBit_eq_decide_div_mod_eq, decide_eq_true_eq]
    simp only [Nat.reducePow]
    omega
  · simp only [bitsOf, Nat.reduceAdd, Nat.reduceSub, Nat.reducePow]
    omega

/-- What RELEASE does. -/
def Dev.release (d : Dev) (n : Nat) : Dev :=
  if d.dbg.frozen then d.dmDo 0x30 (d.dbg.point + 256 + n % 65536 * 65536) 2 else d

theorem exec_release : exec (.release n) s = lift (fun d => d.release n) s := by
  rw [exec, execRelease]
  rfl

theorem release_thawed (hi : s.dev.idleMode = true) (hfrozen : s.dev.dbg.frozen = false) :
    exec (.release n) s = .next s :=
  event_none exec_release hi (if_neg (ne_true_of_eq_false hfrozen))

theorem release_adds (hi : s.dev.idleMode = true) (hfrozen : s.dev.dbg.frozen = true) (hclass : s.dev.dmClass = 2)
    (hpoint : pointOk s.dev.dbg.point = true) :
    ∃ t, exec (.release n) s = .next t ∧ t.dev.dbg = { s.dev.dbg with
        credits := s.dev.dbg.credits + n % 65536, last := some s.dev.now, status := 0, data := 0 }
      ∧ Keeps [.dbg] s.dev t.dev := by
  obtain ⟨hp, hbit, hn⟩ := release_fields (pointOk_lt hpoint) n
  have htok := Dev.tokCtl_releases (d := s.dev.dmSeen) (hp.symm ▸ hpoint) hbit hfrozen hp.symm
  rw [hn] at htok
  have hk : Keeps [.dbg] s.dev
      ((s.dev.dmSeen.modDbg fun b => { b with credits := b.credits + n % 65536 }).dmAnswer 0 0) :=
    (Dev.modDbg_keeps _ _).trans ((Dev.modDbg_keeps _ _).trans (Dev.modDbg_keeps _ _))
  refine ⟨_, event_effect exec_release hi (((if_pos hfrozen).trans (Dev.dmDo_tokCtl hclass _)).trans ?_) hk (by decide),
    rfl, hk⟩
  rw [htok]

end Points

end Sys2Proof.Machine
end

section
/-! SUPPORT. Unlock checks, and unlocking over the TAP; the debug port as a whole (O60). -/

namespace Sys2Proof.Machine

open Sys2Proof

section Unlock

variable {d : Dev} {m key : Nat} {ok : Bool} {tag : Option Nat}

/-! ## The check of an answer (R472, R473) -/

/-- What OMS keeps but its log. -/
theorem Keeps.omsRest {b : List Part} {e : Dev} (hk : Keeps b d e) (hb : .oms ∉ b) :
    Machine.omsRest e.oms = Machine.omsRest d.oms := hk .oms hb

/-- The nonce that a check leaves: a signature check uses it up. -/
def Dev.nonceSpent (d : Dev) (m : Nat) : Dev := if m = 0 then { d with oms := { d.oms with nonce := none } } else d

theorem Dev.nonceSpent_oms (d : Dev) (m : Nat) :
    (d.nonceSpent m).oms = { d.oms with nonce := if m = 0 then none else d.oms.nonce } := by
  by_cases hm : m = 0 <;> simp [Dev.nonceSpent, hm]

theorem Dev.nonceSpent_keeps (d : Dev) (m : Nat) : Keeps [.oms] d (d.nonceSpent m) := by
  unfold Dev.nonceSpent
  split
  · exact d.oms_keeps rfl rfl rfl rfl
  · exact .refl _ _

theorem Dev.authFail_keeps (d : Dev) (counts : Bool) (tag : Option Nat) :
    Keeps (.oms :: byPost) d (d.authFail counts tag) := by
  have homs := d.oms_keeps
    (o := { d.oms with authFails := if counts then min 8 (d.oms.authFails + 1) else d.oms.authFails }) rfl rfl rfl rfl
  exact (homs.mono (by simp)).trans ((Dev.log_keeps _ _ _ _ _ _ _ _ _).mono (List.subset_cons_self _ _))

theorem Dev.authFail_oms (d : Dev) (counts : Bool) (tag : Option Nat) :
    Machine.omsRest (d.authFail counts tag).oms
      = { Machine.omsRest d.oms with authFails := if counts then min 8 (d.oms.authFails + 1) else d.oms.authFails } :=
  (Dev.log_keeps _ _ _ _ _ _ _ _ _).omsRest (by decide)

/-- A failed check: what OMS keeps of it. -/
structure Dev.CheckFailed (d e : Dev) (m fails : Nat) : Prop where
  unlock : e.oms.unlock = d.oms.unlock
  fails : e.oms.authFails = fails
  nonce : m = 0 → e.oms.nonce = none
  keeps : Keeps (.oms :: byPost) d e

/-- An answer that passes grants its class. -/
structure Dev.CheckPassed (d e : Dev) (m : Nat) : Prop where
  unlock : e.oms.unlock = max d.oms.unlock (2 - m)
  fails : e.oms.authFails = d.oms.authFails
  nonce : m = 0 → e.oms.nonce = none
  keeps : Keeps (.oms :: byPost) d e

theorem Dev.authFail_failed (d : Dev) (m : Nat) (counts : Bool) (tag : Option Nat) :
    d.CheckFailed ((d.nonceSpent m).authFail counts tag) m
      (if counts then min 8 (d.oms.authFails + 1) else d.oms.authFails) := by
  have hrest := (d.nonceSpent m).authFail_oms counts tag
  rw [Dev.nonceSpent_oms] at hrest
  have hunlock := congrArg OmsB.unlock hrest
  have hfails := congrArg OmsB.authFails hrest
  have hnonce := congrArg OmsB.nonce hrest
  exact ⟨hunlock, hfails, fun hm => hnonce.trans (if_pos hm),
    ((d.nonceSpent_keeps m).mono (by simp)).trans (Dev.authFail_keeps _ _ _)⟩

theorem Dev.unlockCheck_open (h : d.oms.lifecycle < 2) : d.unlockCheck m key ok tag = (some 2, d) := if_pos h

variable (hlife : 2 ≤ d.oms.lifecycle)
include hlife

theorem Dev.unlockCheck_locked (hfails : 8 ≤ d.oms.authFails) :
    ∃ e, d.unlockCheck m key ok tag = (none, e) ∧ d.CheckFailed e m 8 := by
  have hmin : min 8 (d.oms.authFails + 1) = 8 := by omega
  have hfails' : 8 ≤ (d.nonceSpent m).oms.authFails := by rw [Dev.nonceSpent_oms]; exact hfails
  refine ⟨(d.nonceSpent m).authFail true tag, ?_, hmin ▸ d.authFail_failed m true tag⟩
  exact (if_neg (Nat.not_lt.mpr hlife)).trans (if_pos hfails')

/-- An answer counts as a failure unless it is a signature without a nonce. -/
theorem Dev.unlockCheck_fails (hfails : d.oms.authFails < 8)
    (hbad : ok = false ∨ (m = 0 ∧ d.oms.nonce = none) ∨ (m ≠ 0 ∧ d.oms.pwdHash = 0)) :
    ∃ e, d.unlockCheck m key ok tag = (none, e)
      ∧ d.CheckFailed e m (if m = 0 ∧ d.oms.nonce = none then d.oms.authFails else d.oms.authFails + 1) := by
  have hfails' : ¬ 8 ≤ (d.nonceSpent m).oms.authFails := by rw [Dev.nonceSpent_oms]; exact Nat.not_le.mpr hfails
  have hpwd : (d.nonceSpent m).oms.pwdHash = d.oms.pwdHash := by rw [Dev.nonceSpent_oms]
  have hpass : (ok && if m = 0 then d.oms.nonce.isSome else (d.nonceSpent m).oms.pwdHash != 0) = false := by
    rw [hpwd]
    obtain h | ⟨h, hn⟩ | ⟨h, hp⟩ := hbad
    · simp [h]
    · simp [h, hn]
    · simp [h, hp]
  have hcount : (if (m != 0 || d.oms.nonce.isSome) = true then min 8 (d.oms.authFails + 1) else d.oms.authFails)
      = if m = 0 ∧ d.oms.nonce = none then d.oms.authFails else d.oms.authFails + 1 := by
    have hmin : min 8 (d.oms.authFails + 1) = d.oms.authFails + 1 := by omega
    by_cases hm : m = 0 <;> cases hn : d.oms.nonce <;> simp [hm, hmin]
  refine ⟨(d.nonceSpent m).authFail (m != 0 || d.oms.nonce.isSome) tag, ?_, hcount ▸ d.authFail_failed m _ tag⟩
  exact (if_neg (Nat.not_lt.mpr hlife)).trans ((if_neg hfails').trans (if_neg (ne_true_of_eq_false hpass)))

theorem Dev.unlockCheck_passes (hfails : d.oms.authFails < 8) (hok : ok = true)
    (hgood : if m = 0 then d.oms.nonce.isSome = true else d.oms.pwdHash ≠ 0) :
    ∃ e, d.unlockCheck m key ok tag = (some (2 - m), e) ∧ d.CheckPassed e m := by
  have hfails' : ¬ 8 ≤ (d.nonceSpent m).oms.authFails := by rw [Dev.nonceSpent_oms]; exact Nat.not_le.mpr hfails
  have hpwd : (d.nonceSpent m).oms.pwdHash = d.oms.pwdHash := by rw [Dev.nonceSpent_oms]
  have hpass : (ok && if m = 0 then d.oms.nonce.isSome else (d.nonceSpent m).oms.pwdHash != 0) = true := by
    rw [hpwd, hok]
    split at hgood
    · next h => simp [h, hgood]
    · next h => simp [h, hgood]
  have hlog := fun e : Dev => e.log_keeps 1 0x050 (2 - m + m * 256 + key * 512) 0 14 0 ones64 tag
  have hunlock := Dev.oms_keeps (d.nonceSpent m)
    (o := { (d.nonceSpent m).oms with unlock := max (d.nonceSpent m).oms.unlock (2 - m) }) rfl rfl rfl rfl
  have hrest := (hlog { d.nonceSpent m with oms := { (d.nonceSpent m).oms with
    unlock := max (d.nonceSpent m).oms.unlock (2 - m) } }).omsRest (by decide)
  refine ⟨_, (if_neg (Nat.not_lt.mpr hlife)).trans ((if_neg hfails').trans (if_pos hpass)), ?_, ?_, fun hm => ?_,
    ((d.nonceSpent_keeps m).mono (by simp)).trans (hunlock.mono (by simp)) |>.trans ((hlog _).mono (by simp))⟩
  · refine (congrArg OmsB.unlock hrest).trans ?_
    simp only [Machine.omsRest, Dev.nonceSpent_oms]
  · refine (congrArg OmsB.authFails hrest).trans ?_
    simp only [Machine.omsRest, Dev.nonceSpent_oms]
  · refine (congrArg OmsB.nonce hrest).trans ?_
    simp only [Machine.omsRest, Dev.nonceSpent_oms, if_pos hm]

end Unlock

/-! ## CHALLENGE and CHECK over the TAP (R479) -/

section TapUnlock

variable {s : State} {d : Dev}

theorem Dev.dmDo_unlockCtl (d : Dev) (v : Nat) : d.dmDo 0x40 v 2 = (d.dmSeen.unlockCtl v).dmAnswer 0 0 :=
  Dev.dmDo_write (k := 0) rfl (Nat.zero_le _)

/-- METHOD and KEY as UNLOCK_CTL holds them. -/
theorem bitsOf_how {h : Nat} (hh : h < 4) : bitsOf (1 + h * 2) 2 1 = h ∧ bitsOf (8 + h * 2) 2 1 = h := by
  simp only [bitsOf, Nat.reduceAdd, Nat.reduceSub, Nat.reducePow]
  omega

theorem testBit_challenge {h : Nat} (hh : h < 4) :
    (1 + h * 2).testBit 0 = true ∧ (1 + h * 2).testBit 3 = false ∧ (8 + h * 2).testBit 0 = false
      ∧ (8 + h * 2).testBit 3 = true := by
  have cases : ∀ h < 4, (1 + h * 2).testBit 0 = true ∧ (1 + h * 2).testBit 3 = false
    ∧ (8 + h * 2).testBit 0 = false ∧ (8 + h * 2).testBit 3 = true := by decide
  exact cases h hh

theorem challenge_draws (hi : s.dev.idleMode = true) (hhow : s.dev.dbg.how < 4) :
    ∃ t n, exec .challenge s = .next t ∧ t.dev.oms = { s.dev.oms with nonce := some n }
      ∧ t.dev.dbg.outBytes = leBytes 32 n ++ leBytes 8 s.dev.oms.deviceId ∧ t.dev.dbg.inBytes = []
      ∧ t.dev.dbg.sts = 0 ∧ Keeps [.dbg, .oms] s.dev t.dev := by
  obtain ⟨hnonce, hcheck, -⟩ := testBit_challenge hhow
  have he : s.dev.dmDo 0x40 (1 + s.dev.dbg.how * 2) 2 = (s.dev.dmSeen.tapChallenge.modDbg fun b => { b with
      how := bitsOf (1 + s.dev.dbg.how * 2) 2 1 }).dmAnswer 0 0 := by
    rw [Dev.dmDo_unlockCtl]
    simp only [Dev.unlockCtl, hnonce, hcheck, if_true, Bool.false_eq_true, if_false]
  have hmod : ∀ (d : Dev) f, Keeps [.dbg, .oms] d (d.modDbg f) := fun d f => (d.modDbg_keeps f).mono (by simp)
  have hfresh : Keeps [.dbg, .oms] s.dev.dmSeen s.dev.dmSeen.tapChallenge :=
    (s.dev.dmSeen.freshNonce_keeps.mono (by simp)).trans (hmod _ _)
  have hk : Keeps [.dbg, .oms] s.dev ((s.dev.dmSeen.tapChallenge.modDbg fun b => { b with
      how := bitsOf (1 + s.dev.dbg.how * 2) 2 1 }).dmAnswer 0 0) :=
    ((hmod _ _).trans hfresh).trans ((hmod _ _).trans (hmod _ _))
  exact ⟨_, _, event_effect (f := fun d => d.dmDo 0x40 (1 + d.dbg.how * 2) 2) rfl hi he hk (by decide), rfl, rfl, rfl,
    rfl, hk⟩

/-- The state in which a CHECK evaluates the bytes written since. -/
def Dev.checkAsked (d : Dev) : Dev := d.dmDo 0x40 (8 + d.dbg.how * 2) 2

theorem Dev.checkAsked_eq (hhow : d.dbg.how < 4) :
    d.checkAsked = (d.dmSeen.modDbg fun b => { b with how := d.dbg.how, sts := 1 }).dmAnswer 0 0 := by
  obtain ⟨-, -, hnonce, hcheck⟩ := testBit_challenge hhow
  rw [Dev.checkAsked, Dev.dmDo_unlockCtl]
  simp only [Dev.unlockCtl, hnonce, hcheck, if_true, Bool.false_eq_true, if_false, (bitsOf_how hhow).2]

theorem Dev.checkAsked_keeps (hhow : d.dbg.how < 4) : Keeps [.dbg] d d.checkAsked := by
  rw [Dev.checkAsked_eq hhow]
  exact (Dev.modDbg_keeps _ _).trans ((Dev.modDbg_keeps _ _).trans (Dev.modDbg_keeps _ _))

/-- The bytes of an answer are taken. -/
def Dev.answerTaken (d : Dev) : Dev := d.modDbg fun b => { b with inBytes := [] }

/-- What UNLOCK_STS reports of a check. -/
def Dev.checkDone (d : Dev) (sts : Nat) : Dev := d.modDbg fun b => { b with sts := sts }

theorem Dev.tapCheck_locked (hlife : 2 ≤ d.oms.lifecycle) (hfails : 8 ≤ d.oms.authFails) (ok : Bool) :
    d.tapCheck ok = (d.answerTaken.unlockCheck (d.dbg.how % 2) (d.dbg.how / 2) false).2.checkDone 4 :=
  if_pos ⟨hlife, hfails⟩

/-- The answer has the length of its METHOD. -/
def Dev.answerFull (d : Dev) : Bool := d.dbg.inBytes.length == if d.dbg.how % 2 = 1 then 16 else 7856

theorem Dev.tapCheck_granted (h : ¬ (2 ≤ d.oms.lifecycle ∧ 8 ≤ d.oms.authFails)) {ok : Bool} {cls : Nat} {e : Dev}
    (he : d.answerTaken.unlockCheck (d.dbg.how % 2) (d.dbg.how / 2) (ok && d.answerFull) = (some cls, e)) :
    d.tapCheck ok = e.checkDone 2 := by
  have hgo : ¬ (2 ≤ d.answerTaken.oms.lifecycle ∧ 8 ≤ d.answerTaken.oms.authFails) := h
  refine (if_neg hgo).trans ?_
  erw [he]
  rfl

theorem Dev.tapCheck_refused (h : ¬ (2 ≤ d.oms.lifecycle ∧ 8 ≤ d.oms.authFails)) {ok : Bool} {e : Dev}
    (he : d.answerTaken.unlockCheck (d.dbg.how % 2) (d.dbg.how / 2) (ok && d.answerFull) = (none, e)) :
    d.tapCheck ok = e.checkDone 3 := by
  have hgo : ¬ (2 ≤ d.answerTaken.oms.lifecycle ∧ 8 ≤ d.answerTaken.oms.authFails) := h
  refine (if_neg hgo).trans ?_
  erw [he]
  rfl

/-- A check leaves UNLOCK_STS, and the bytes of the answer are taken. -/
structure Dev.Checked (d e : Dev) (sts : Nat) : Prop where
  sts : e.dbg.sts = sts
  taken : e.dbg.inBytes = []
  keeps : Keeps (.dbg :: .oms :: byPost) d e

theorem Dev.checked_of_keeps {e : Dev} (hk : Keeps (.oms :: byPost) d.answerTaken e) (sts : Nat) :
    d.Checked (e.checkDone sts) sts := by
  have hdbg : e.dbg = d.answerTaken.dbg := hk .dbg (by decide)
  refine ⟨rfl, ?_, ((Dev.modDbg_keeps _ _).mono (by simp)).trans (hk.mono (by simp)) |>.trans
    ((Dev.modDbg_keeps _ _).mono (by simp))⟩
  simp only [Dev.checkDone, Dev.modDbg_dbg, hdbg]
  rfl

theorem Dev.checkAsked_seen (hhow : d.dbg.how < 4) :
    d.checkAsked.oms = d.oms ∧ d.checkAsked.dbg.how = d.dbg.how ∧ d.checkAsked.answerFull = d.answerFull := by
  rw [Dev.checkAsked_eq hhow]
  exact ⟨rfl, rfl, rfl⟩

theorem Dev.tapCheck_open (h : d.oms.lifecycle < 2) (ok : Bool) : d.Checked (d.tapCheck ok) 2 := by
  rw [Dev.tapCheck_granted (by omega) (Dev.unlockCheck_open (d := d.answerTaken) h)]
  exact Dev.checked_of_keeps (.refl _ _) 2

theorem Dev.tapCheck_lockedOut (hlife : 2 ≤ d.oms.lifecycle) (hfails : 8 ≤ d.oms.authFails) (ok : Bool) :
    d.Checked (d.tapCheck ok) 4 ∧ (d.tapCheck ok).oms.unlock = d.oms.unlock := by
  obtain ⟨e, he, hfailed⟩ := Dev.unlockCheck_locked (d := d.answerTaken) (m := d.dbg.how % 2) (key := d.dbg.how / 2)
    (ok := false) (tag := none) hlife hfails
  rw [Dev.tapCheck_locked hlife hfails, he]
  exact ⟨Dev.checked_of_keeps hfailed.keeps 4, hfailed.unlock⟩

theorem Dev.tapCheck_fails (hlife : 2 ≤ d.oms.lifecycle) (hfails : d.oms.authFails < 8) {ok : Bool}
    (hbad : (ok && d.answerFull) = false ∨ (d.dbg.how % 2 = 0 ∧ d.oms.nonce = none)
      ∨ (d.dbg.how % 2 ≠ 0 ∧ d.oms.pwdHash = 0)) :
    d.Checked (d.tapCheck ok) 3 ∧ (d.tapCheck ok).oms.unlock = d.oms.unlock := by
  obtain ⟨e, he, hfailed⟩ := Dev.unlockCheck_fails (d := d.answerTaken) (m := d.dbg.how % 2) (key := d.dbg.how / 2)
    (ok := ok && d.answerFull) (tag := none) hlife hfails hbad
  rw [Dev.tapCheck_refused (by omega) he]
  exact ⟨Dev.checked_of_keeps hfailed.keeps 3, hfailed.unlock⟩

theorem Dev.tapCheck_passes (hlife : 2 ≤ d.oms.lifecycle) (hfails : d.oms.authFails < 8) {ok : Bool}
    (hok : (ok && d.answerFull) = true)
    (hgood : if d.dbg.how % 2 = 0 then d.oms.nonce.isSome = true else d.oms.pwdHash ≠ 0) :
    d.Checked (d.tapCheck ok) 2 ∧ (d.tapCheck ok).oms.unlock = max d.oms.unlock (2 - d.dbg.how % 2)
      ∧ (d.dbg.how % 2 = 0 → (d.tapCheck ok).oms.nonce = none) := by
  obtain ⟨e, he, hpassed⟩ := Dev.unlockCheck_passes (d := d.answerTaken) (m := d.dbg.how % 2) (key := d.dbg.how / 2)
    (ok := ok && d.answerFull) (tag := none) hlife hfails hok hgood
  rw [Dev.tapCheck_granted (by omega) he]
  exact ⟨Dev.checked_of_keeps hpassed.keeps 2, hpassed.unlock, hpassed.nonce⟩

theorem Dev.tapCheck_checked (d : Dev) (ok : Bool) : ∃ sts, d.Checked (d.tapCheck ok) sts := by
  by_cases hlife : d.oms.lifecycle < 2
  · exact ⟨2, Dev.tapCheck_open hlife ok⟩
  rw [Nat.not_lt] at hlife
  by_cases hfails : 8 ≤ d.oms.authFails
  · exact ⟨4, (Dev.tapCheck_lockedOut hlife hfails ok).1⟩
  rw [Nat.not_le] at hfails
  by_cases hbad : (ok && d.answerFull) = false ∨ (d.dbg.how % 2 = 0 ∧ d.oms.nonce = none)
      ∨ (d.dbg.how % 2 ≠ 0 ∧ d.oms.pwdHash = 0)
  · exact ⟨3, (Dev.tapCheck_fails hlife hfails hbad).1⟩
  · simp only [not_or, Bool.not_eq_false, not_and] at hbad
    obtain ⟨hok, hnonce, hpwd⟩ := hbad
    refine ⟨2, (Dev.tapCheck_passes hlife hfails hok ?_).1⟩
    split
    · next hm => exact Option.isSome_iff_ne_none.mpr (hnonce hm)
    · next hm => exact hpwd hm

theorem check_goes (hi : s.dev.idleMode = true) (hhow : s.dev.dbg.how < 4) (ok : Bool) :
    exec (.check ok) s = .next { s with dev := s.dev.checkAsked.tapCheck ok }
      ∧ (s.dev.checkAsked.tapCheck ok).dbg.inBytes = []
      ∧ Keeps (.dbg :: .oms :: byPost) s.dev (s.dev.checkAsked.tapCheck ok) := by
  obtain ⟨sts, hchecked⟩ := s.dev.checkAsked.tapCheck_checked ok
  have hk : Keeps (.dbg :: .oms :: byPost) s.dev (s.dev.checkAsked.tapCheck ok) :=
    ((Dev.checkAsked_keeps hhow).mono (by simp)).trans hchecked.keeps
  exact ⟨event_effect (f := fun d => d.checkAsked.tapCheck ok) rfl hi rfl hk (by decide), hchecked.taken, hk⟩

end TapUnlock

/-! ## The debug port (O60) -/

section Whole

variable {s : State} (hi : s.dev.idleMode = true)
include hi

/-- The answers of DM_ACCESS, register by register. -/
theorem dmAccess_answers (a : BitVec 8) (v : Word) (op : BitVec 4) :
    ∃ t x, exec (.dmAccess a v op) s = .next t ∧ t.pending = s.pending ∧ t.dev.dbg.ir = 0x10 ∧ x < 256
      ∧ t.dev.dbg.last = some s.dev.now
      ∧ t.dev.out = s.dev.out ++ [.tdo 48 (x * 2 ^ 40 + s.dev.dbg.data * 256 + s.dev.dbg.status)]
      ∧ (op.toNat ≠ 1 → op.toNat ≠ 2 → t.dev.dbg.status = 0 ∧ Keeps [.dbg, .out] s.dev t.dev)
      ∧ (op.toNat = 1 ∨ op.toNat = 2 →
        (dmNeeds a.toNat (op.toNat == 2) = none →
          t.dev.dbg = { s.dev.dbg with ir := 0x10, last := some s.dev.now, status := 12, data := 0 }
          ∧ Keeps [.dbg, .out] s.dev t.dev)
        ∧ (∀ k, dmNeeds a.toNat (op.toNat == 2) = some k → s.dev.dmClass < k →
          t.dev.dbg = { s.dev.dbg with ir := 0x10, last := some s.dev.now, status := 8, data := 0 }
          ∧ Keeps [.dbg, .out] s.dev t.dev))
      ∧ (op.toNat = 1 → a.toNat = 0 → t.dev.dbg.status = 0 ∧ t.dev.dbg.data = t.dev.lcSts
          ∧ Keeps [.dbg, .out] s.dev t.dev)
      ∧ (op.toNat = 1 → a.toNat = 5 → s.dev.dmClass = 2 → t.dev.dbg.status = 0
          ∧ t.dev.dbg.data = s.dev.coreSts ∧ Keeps [.dbg, .out] s.dev t.dev)
      ∧ (op.toNat = 2 → a.toNat = 6 → s.dev.dmClass = 2 → s.dev.dbg.halted = true → t.dev.dbg.pc = v.toNat
          ∧ t.dev.dbg.status = 0 ∧ Keeps [.dbg, .out] s.dev t.dev) := by
  obtain ⟨hir, hlast, hout⟩ := s.dev.dmShifted_do a.toNat v.toNat op.toNat
  have hseen := s.dev.dmShifted_seen_keeps
  have hmod : ∀ (d : Dev) f, Keeps [.dbg, .out] d (d.modDbg f) := fun d f => (d.modDbg_keeps f).mono (by simp)
  refine ⟨_, _, exec_dmAccess hi a v op, rfl, hir, Nat.mod_lt _ (by decide), hlast, hout, fun h1 h2 => ?_,
    fun h => ⟨fun hn => Dev.dmShifted_answer (Dev.dmDo_error h hn), fun k hn hk =>
      Dev.dmShifted_answer (Dev.dmDo_denied h hn hk)⟩, fun hop ha => ?_, fun hop ha hclass => ?_,
    fun hop ha hclass hhalted => ?_⟩
  · rw [Dev.dmDo_idle h1 h2]
    exact ⟨rfl, hseen.trans (hmod _ _)⟩
  · rw [hop, ha, Dev.dmDo_lcSts]
    exact ⟨rfl, rfl, hseen.trans (hmod _ _)⟩
  · rw [hop, ha, Dev.dmDo_coreSts (d := s.dev.dmShifted) hclass]
    exact ⟨rfl, rfl, hseen.trans (hmod _ _)⟩
  · rw [hop, ha, Dev.dmDo_corePc (d := s.dev.dmShifted) hclass hhalted]
    exact ⟨rfl, rfl, (hseen.trans (hmod _ _)).trans (hmod _ _)⟩

theorem memData_accesses (hclass : s.dev.dmClass = 2) {n : Nat} (hsize : s.dev.spaceSize = some n)
    (hin : s.dev.dmAddr + 4 ≤ n) (hspace : s.dev.dbg.memSpace < 3) (w : Bool) (v : Word) :
    ∃ t, exec (.memData w v) s = .next t ∧ t.dev.dbg.status = 0
      ∧ t.dev.dbg.memAddr = (s.dev.dbg.memAddr + 4) % 4294967296 ∧ t.dev.dbg.memAddrHi = s.dev.dbg.memAddrHi
      ∧ (w = false → Keeps [.dbg] s.dev t.dev
        ∧ (s.dev.dbg.memSpace = 0 → overlaps (s.dev.dmAddr, 4) s.dev.ctxRange = false →
            t.dev.dbg.data = leNat (Mem.rdN s.dev.mem.lpddr s.dev.dmAddr 4))
        ∧ (s.dev.dbg.memSpace = 1 → t.dev.dbg.data = leNat (Mem.rdN s.dev.mem.scan s.dev.dmAddr 4))
        ∧ (s.dev.dbg.memSpace = 2 → s.dev.wroteAt s.dev.dmAddr 4 = true →
            t.dev.dbg.data = leNat (Mem.rdN s.dev.mem.sram s.dev.dmAddr 4)))
      ∧ (w = true → Keeps [.dbg, .mem] s.dev t.dev
        ∧ (s.dev.dbg.memSpace = 0 → t.dev.mem = { s.dev.mem with
            lpddr := Mem.wrN s.dev.mem.lpddr s.dev.dmAddr (leBytes 4 v.toNat) })
        ∧ (s.dev.dbg.memSpace = 1 → t.dev.mem = { s.dev.mem with
            scan := Mem.wrN s.dev.mem.scan s.dev.dmAddr (leBytes 4 v.toNat) })
        ∧ (s.dev.dbg.memSpace = 2 → t.dev.mem = { s.dev.mem with
            sram := Mem.wrN s.dev.mem.sram s.dev.dmAddr (leBytes 4 v.toNat) })) := by
  cases w with
  | false =>
    obtain ⟨t, hnext, hst, haddr, hhi, hdata, hk⟩ := memData_reads hi hclass hsize hin hspace v
    exact ⟨t, hnext, hst, haddr, hhi, fun _ => ⟨hk, fun h0 hctx => hdata.trans (Dev.spaceRead_lpddr h0 hctx),
      fun h1 => hdata.trans (Dev.spaceRead_scan h1), fun h2 hw => hdata.trans (Dev.spaceRead_sram h2 hw)⟩,
      fun h => absurd h (by decide)⟩
  | true =>
    obtain ⟨t, hnext, hst, haddr, hhi, hmem, hk⟩ := memData_writes hi hclass hsize hin hspace v
    obtain ⟨-, -, -, hlpddr, hscan, hsram⟩ := Dev.spaceWrite_low (d := s.dev.dmSeen) hspace s.dev.dmAddr v.toNat
    exact ⟨t, hnext, hst, haddr, hhi, fun h => absurd h (by decide), fun _ => ⟨hk, fun h0 => hmem.trans (hlpddr h0),
      fun h1 => hmem.trans (hscan h1), fun h2 => hmem.trans (hsram h2)⟩⟩

theorem check_answers (hhow : s.dev.dbg.how < 4) (ok : Bool) :
    ∃ t, exec (.check ok) s = .next t ∧ t.dev.dbg.inBytes = [] ∧ Keeps (.dbg :: .oms :: byPost) s.dev t.dev
      ∧ (s.dev.oms.lifecycle < 2 → t.dev.dbg.sts = 2)
      ∧ (2 ≤ s.dev.oms.lifecycle → 8 ≤ s.dev.oms.authFails → t.dev.dbg.sts = 4 ∧ t.dev.oms.unlock = s.dev.oms.unlock)
      ∧ (2 ≤ s.dev.oms.lifecycle → s.dev.oms.authFails < 8 → ok = false →
          t.dev.dbg.sts = 3 ∧ t.dev.oms.unlock = s.dev.oms.unlock)
      ∧ (2 ≤ s.dev.oms.lifecycle → s.dev.oms.authFails < 8 → ok = true → s.dev.dbg.how % 2 = 0 →
          s.dev.oms.nonce.isSome = true → s.dev.dbg.inBytes.length = 7856 →
          t.dev.dbg.sts = 2 ∧ t.dev.oms.unlock = max s.dev.oms.unlock 2 ∧ t.dev.oms.nonce = none)
      ∧ (2 ≤ s.dev.oms.lifecycle → s.dev.oms.authFails < 8 → ok = true → s.dev.dbg.how % 2 = 1 →
          s.dev.oms.pwdHash ≠ 0 → s.dev.dbg.inBytes.length = 16 →
          t.dev.dbg.sts = 2 ∧ t.dev.oms.unlock = max s.dev.oms.unlock 1) := by
  obtain ⟨hnext, htaken, hk⟩ := check_goes hi hhow ok
  obtain ⟨homs, hh, hfull⟩ := Dev.checkAsked_seen hhow
  refine ⟨_, hnext, htaken, hk, ?_⟩
  rw [← homs, ← hh]
  refine ⟨fun hlife => (Dev.tapCheck_open hlife ok).sts, fun hlife hfails => ?_, fun hlife hfails hok => ?_,
    fun hlife hfails hok hm hnonce hlen => ?_, fun hlife hfails hok hm hpwd hlen => ?_⟩
  · obtain ⟨hchecked, hunlock⟩ := Dev.tapCheck_lockedOut hlife hfails ok
    exact ⟨hchecked.sts, hunlock⟩
  · obtain ⟨hchecked, hunlock⟩ := Dev.tapCheck_fails hlife hfails (ok := ok) (.inl (by simp [hok]))
    exact ⟨hchecked.sts, hunlock⟩
  · have hwhole : (ok && s.dev.checkAsked.answerFull) = true := by
      rw [hfull, hok, Dev.answerFull, hlen, ← hh, hm]
      decide
    obtain ⟨hchecked, hunlock, hspent⟩ := Dev.tapCheck_passes hlife hfails hwhole (by rw [if_pos hm]; exact hnonce)
    exact ⟨hchecked.sts, by rw [hunlock, hm], hspent hm⟩
  · have hwhole : (ok && s.dev.checkAsked.answerFull) = true := by
      rw [hfull, hok, Dev.answerFull, hlen, ← hh, hm]
      decide
    obtain ⟨hchecked, hunlock, -⟩ := Dev.tapCheck_passes hlife hfails hwhole (by rw [if_neg (by omega)]; exact hpwd)
    exact ⟨hchecked.sts, by rw [hunlock, hm]⟩

end Whole

/-- Settles O60: the port by its instructions; a Debug Module access by its register and the class it needs. -/
theorem debugPort : Obligations.DebugPort := by
  unfold Obligations.DebugPort
  intro s hi
  refine ⟨⟨event_dbg (f := fun b => { b with ir := 0 }) rfl hi,
      event_dbg (f := fun b => { b with ir := 2 }) rfl hi, event_tap rfl hi, event_tap rfl hi⟩, dmAccess_answers hi,
    fun hclass i h => core_denied hi hclass h,
    fun hclass => ⟨halt_halts hi hclass, resume_resumes hi hclass, step_steps hi hclass⟩,
    fun i => ⟨breakpoint_none hi i, breakpoint_stops hi i⟩, fun i => ⟨watchpoint_none hi i, watchpoint_stops hi i⟩,
    fun w v hclass => ⟨fun h => memData_outside hi hclass h w v, fun n hsize hin hspace =>
      memData_accesses hi hclass hsize hin hspace w v⟩,
    fun v hclass => ⟨freeze_unknown hi hclass, freeze_sets hi hclass⟩,
    fun n => ⟨release_thawed hi, release_adds hi⟩, fun hhow => ⟨challenge_draws hi hhow, check_answers hi hhow⟩⟩

end Sys2Proof.Machine
end

section
/-! SUPPORT. The commands of class 0x0D while firmware or ROM serves them (O59): service, restarts, updates, engine
code. -/

namespace Sys2Proof.Machine

open Sys2Proof

/-! ## A reset of OMS leaves a change of mode alone (R39, R103) -/

section Restart

variable (d : Dev)

theorem Dev.grant_ends (n : Nat) (r : CmdRef) (since : Nat) : d.OnlyEnds (d.grant n r since) := by
  unfold Dev.grant
  simp only []
  split
  · exact (d.setLock_ends _ _).finish _ _ _
  · exact (d.setLock_ends _ _).finish _ _ _

theorem Dev.grantNext_ends (n : Nat) : d.OnlyEnds (d.grantNext n) := by
  unfold Dev.grantNext
  simp only []
  split
  · exact (d.setLock_ends _ _).trans (Dev.grant_ends _ _ _ _)
  · exact .refl d

theorem Dev.twSettle_ends (c : Nat) : d.OnlyEnds (d.twSettle c) := by
  unfold Dev.twSettle
  simp only []
  split
  · exact .refl d
  · split
    · exact .refl d
    · exact (((d.modCtl_keeps c fun _ => _).onlyEnds rfl).finishAll _ _ _).finish _ _ _

theorem Dev.twCut_ends (c st : Nat) : d.OnlyEnds (d.twCut c (some st)) := by
  unfold Dev.twCut
  cases (d.ctl c).cur with
  | none => exact .refl d
  | some k =>
    have hoff : d.OnlyEnds ((if (d.ctl c).hold = .running then d.emit (.twStop c) else d).twClear c) :=
      (((Dev.OnlyEnds.refl d).emit _).ite (.refl d)).keeps (Dev.modCtl_keeps _ _ _) rfl
    simp only []
    generalize (if (d.ctl c).hold = .running then d.emit (.twStop c) else d).twClear c = e at hoff ⊢
    refine hoff.trans (.trans ?_ (Dev.twSettle_ends _ _))
    cases k with
    | xfer r => exact ((Dev.modCtl_keeps _ _ _).onlyEnds rfl).finish _ _ _
    | prog p r =>
      simp only []
      split
      · exact .refl _
      · exact ((((Dev.modPort_keeps _ _ _).onlyEnds rfl).keeps (Dev.modPort_keeps _ _ _) rfl).finish _ _ _).trans
          (Dev.refill_ends _ _)

theorem Dev.forceRelease_ends (n cause st : Nat) (tag : Option Nat) :
    d.OnlyEnds (d.forceRelease n cause (some st) tag) := by
  have hlog := (Dev.OnlyEnds.refl d).log 1 0x001 (n + cause * 256 + ownerCode (d.lock n).owner * 65536) 0 0 0 ones64 tag
  unfold Dev.forceRelease
  simp only []
  split
  · exact .refl d
  · exact ((hlog.trans ((Dev.twCut_ends _ _ _).ite (.refl _))).trans (Dev.setLock_ends _ _ _)).trans
      (Dev.grantNext_ends _ _)

theorem Dev.forceAll_ends (own : LockOwner → Bool) (cause st : Nat) (tag : Option Nat) :
    d.OnlyEnds (d.forceAll own cause (some st) tag) :=
  (Dev.OnlyEnds.refl d).foldl (fun e n => (e.forceRelease_ends n cause st tag).ite (.refl e)) _

theorem Dev.endUnlock_modeChange : d.endUnlock.hif.modeChange = d.hif.modeChange := by
  unfold Dev.endUnlock
  simp only []
  split <;> rfl

theorem Dev.omsReset_modeChange (latch : Nat) : (d.omsReset latch).hif.modeChange = d.hif.modeChange := by
  unfold Dev.omsReset
  simp only []
  rw [Dev.endUnlock_modeChange, (Dev.forceAll_ends _ _ _ _ _).mode]
  exact (Dev.finishAll_keeps { d with eng := { d.eng with load := none } } _ _ _).modeChange (by decide)

end Restart

/-! ## Who serves (R465, R480) -/

section Service

variable {i : Instr} {sp : CmdSpec} {r : CmdRef} {c : Cmd} {s : State} {eff : Cmd → Dev → Dev} {e : Dev}
  {b : List Part} {st res : Nat}

/-- What a command of class 0x0D does, by who serves it. -/
def mgmtEff (r : CmdRef) (eff : Cmd → Dev → Dev) (c : Cmd) (d : Dev) : Dev :=
  if d.dbg.halted || !(d.boot.firmware || d.held) || d.mgmtHeld c then d
  else if d.held && !romServes c then d.finish r stEngineDown 0
  else eff c d

theorem mgmtCmd_eq (sp : CmdSpec) (r : CmdRef) (eff : Cmd → Dev → Dev) :
    mgmtCmd sp r eff = runCmd sp r (mgmtEff r eff) := rfl

theorem mgmtEff_served {d : Dev} (hs : d.served c = true) : mgmtEff r eff c d = eff c d := by
  simp only [Dev.served, Bool.and_eq_true, Bool.or_eq_true, Bool.not_eq_true'] at hs
  obtain ⟨⟨hrun, hturn⟩, hserver⟩ := hs
  have hserver' : (d.boot.firmware || d.held) = true := by
    obtain h | ⟨h, -⟩ := hserver <;> simp [h]
  have hrom : (d.held && !romServes c) = false := by
    obtain h | ⟨-, h⟩ := hserver
    · simp [Dev.held, h]
    · simp [h]
  simp [mgmtEff, hrun, hturn, hserver', hrom]

variable (hx : exec i s = lift (mgmtCmd sp r eff) s) (hc : s.dev.clear sp r c = true) (hs : s.dev.served c = true)
include hx hc hs

theorem mgmt_answers (he : eff c s.dev = s.dev.finish r st res) :
    ∃ t, exec i s = .next t ∧ Answered s.dev t.dev r st res ∧ Keeps byDone s.dev t.dev :=
  cmd_answers (hx.trans (by rw [mgmtCmd_eq])) hc ((mgmtEff_served hs).trans he)

theorem mgmt_finishes (he : eff c s.dev = e.finish r st res) (hk : Keeps b s.dev e) (hf : .fetch ∉ b) (hl : .link ∉ b) :
    exec i s = .next { s with dev := e.finish r st res } ∧ Answered s.dev (e.finish r st res) r st res
      ∧ Keeps (b ++ byDone) s.dev (e.finish r st res) :=
  cmd_finishes (hx.trans (by rw [mgmtCmd_eq])) hc ((mgmtEff_served hs).trans he) hk hf hl

/-- A command that completes and then restarts the core where its bit 2 asks for it (R461, R462). -/
theorem mgmt_restarts (he : eff c s.dev = if c.b 4 2 then (e.finish r st res).omsReset 0 else e.finish r st res)
    (hk : Keeps b s.dev e) (hf : .fetch ∉ b) (hl : .link ∉ b) :
    ∃ t, exec i s = .next t ∧ t.pending = s.pending ∧ Answered s.dev (e.finish r st res) r st res
      ∧ Keeps (b ++ byDone) s.dev (e.finish r st res)
      ∧ t.dev = if c.b 4 2 then (e.finish r st res).omsReset 0 else e.finish r st res := by
  have hall : Keeps (b ++ byDone) s.dev (e.finish r st res) :=
    (hk.mono (List.subset_append_left _ _)).trans ((e.finish_keeps r st res).mono (List.subset_append_right _ _))
  have hmode : (eff c s.dev).hif.modeChange = s.dev.hif.modeChange := by
    have hfin := hall.modeChange (by simp [hl, byDone])
    rw [he]
    split
    · rw [Dev.omsReset_modeChange, hfin]
    · exact hfin
  have hnext : exec i s = .next { s with dev := eff c s.dev } := by
    rw [hx, mgmtCmd_eq, lift_clear hc (by rw [mgmtEff_served hs]; exact hmode), mgmtEff_served hs]
  exact ⟨_, hnext, rfl, (((Dev.clear_answerable hc).of_keeps hk hf).finish st res).before hk hf, hall, he⟩

end Service

/-! ## MGMT_UPDATE_STAGE (R460) -/

section Stage

variable {s : State} {d : Dev} {r : CmdRef} {c : Cmd} {k : Container} {ok : Bool} {sl : Option Bool}

theorem Dev.putSlot_keeps (d : Dev) (sl : Option Bool) (v : FlashSlot) : Keeps [.oms] d (d.putSlot sl v) := by
  unfold Dev.putSlot
  split <;> exact d.oms_keeps rfl rfl rfl rfl

/-- A container that verifies but for its version. -/
theorem Dev.checkFirmware_version (hmagic : k.magicOk = true) (hkind : k.kind = 1) (hgood : d.containerOk k = true) :
    d.checkFirmware k = if k.version < d.oms.counter then 3 else 0 := by
  simp [Dev.checkFirmware, hmagic, hkind, hgood]

theorem kind_of_fits (hfits : kindFits k sl = true) (hsl : sl.isSome = true) : k.kind = 1 := by
  simpa [kindFits, hsl] using hfits

variable (hc : s.dev.clear specStage r c = true) (hs : s.dev.served c = true)
include hc hs

theorem stage_wrongKind (hmagic : k.magicOk = true) (hlay : k.layoutOk = true)
    (hfits : kindFits k (s.dev.stageSlot (c.f 4 1 0)) = false) :
    ∃ t, exec (.mgmtUpdateStage r k ok) s = .next t ∧ Answered s.dev t.dev r stInvalidField 4
      ∧ Keeps byDone s.dev t.dev :=
  mgmt_answers rfl hc hs (by simp [stage, hmagic, hlay, hfits])

theorem stage_unauthentic
    (h : k.magicOk = false ∨ kindFits k (s.dev.stageSlot (c.f 4 1 0)) = true ∧ s.dev.containerOk k = false) :
    ∃ t, exec (.mgmtUpdateStage r k ok) s = .next t ∧ Answered s.dev t.dev r stAuthFailed 0
      ∧ Keeps byDone s.dev t.dev := by
  refine mgmt_answers rfl hc hs ?_
  obtain hmagic | ⟨hfits, hbad⟩ := h
  · simp [stage, hmagic]
  · simp [stage, hfits, hbad]

variable (hmagic : k.magicOk = true) (hfits : kindFits k (s.dev.stageSlot (c.f 4 1 0)) = true)
  (hgood : s.dev.containerOk k = true)
include hmagic hfits hgood

theorem stage_rollback (hsl : (s.dev.stageSlot (c.f 4 1 0)).isSome = true) (hold : k.version < s.dev.oms.counter) :
    ∃ t, exec (.mgmtUpdateStage r k ok) s = .next t ∧ Answered s.dev t.dev r stRollback 0 ∧ Keeps byDone s.dev t.dev := by
  have hcheck := Dev.checkFirmware_version hmagic (kind_of_fits hfits hsl) hgood
  rw [if_pos hold] at hcheck
  exact mgmt_answers rfl hc hs (by simp [stage, hmagic, hfits, hgood, hsl, hcheck])

theorem stage_writes (hnew : (s.dev.stageSlot (c.f 4 1 0)).isSome = true →
      s.dev.oms.counter ≤ k.version ∧ s.dev.oms.flash = true) :
    ∃ t, exec (.mgmtUpdateStage r k ok) s = .next t ∧ t.pending = s.pending
      ∧ (ok = true → Answered s.dev t.dev r stSuccess (k.version % 128 + k.components % 256 * 256)
        ∧ t.dev.oms = (s.dev.putSlot (s.dev.stageSlot (c.f 4 1 0)) (.image k)).oms)
      ∧ (ok = false → Answered s.dev t.dev r stMediaError 0
        ∧ t.dev.oms = (s.dev.putSlot (s.dev.stageSlot (c.f 4 1 0)) .broken).oms)
      ∧ Keeps (.oms :: byDone) s.dev t.dev := by
  have hback : ((s.dev.stageSlot (c.f 4 1 0)).isSome && s.dev.checkFirmware k == 3) = false := by
    cases hsl : (s.dev.stageSlot (c.f 4 1 0)).isSome with
    | false => rfl
    | true => simp [Dev.checkFirmware_version hmagic (kind_of_fits hfits hsl) hgood, Nat.not_lt.mpr (hnew hsl).1]
  have hflash : ((s.dev.stageSlot (c.f 4 1 0)).isSome && !s.dev.oms.flash) = false := by
    cases hsl : (s.dev.stageSlot (c.f 4 1 0)).isSome with
    | false => rfl
    | true => simp [(hnew hsl).2]
  have heff : ∀ ok, stage k ok r c s.dev = if ok then
      (s.dev.putSlot (s.dev.stageSlot (c.f 4 1 0)) (.image k)).finish r stSuccess
        (k.version % 128 + k.components % 256 * 256)
      else (s.dev.putSlot (s.dev.stageSlot (c.f 4 1 0)) .broken).finish r stMediaError 0 := by
    intro ok
    simp only [stage, hmagic, hfits, hgood, hback, hflash, Bool.not_true, Bool.and_false, Bool.or_self,
      Bool.false_eq_true, if_false]
  have homs : ∀ (d : Dev) st res, (d.finish r st res).oms = d.oms := by simp
  cases ok with
  | true =>
    obtain ⟨hnext, ha, hk⟩ := mgmt_finishes (i := .mgmtUpdateStage r k true) rfl hc hs (heff true)
      (Dev.putSlot_keeps _ _ _) (by decide) (by decide)
    exact ⟨_, hnext, rfl, fun _ => ⟨ha, homs _ _ _⟩, fun h => absurd h (by decide), hk⟩
  | false =>
    obtain ⟨hnext, ha, hk⟩ := mgmt_finishes (i := .mgmtUpdateStage r k false) rfl hc hs (heff false)
      (Dev.putSlot_keeps _ _ _) (by decide) (by decide)
    exact ⟨_, hnext, rfl, fun h => absurd h (by decide), fun _ => ⟨ha, homs _ _ _⟩, hk⟩

end Stage

/-! ## MGMT_UPDATE_ACTIVATE (R461) -/

section Activate

variable {s : State} {d : Dev} {r : CmdRef} {c : Cmd}

theorem Dev.bootRecord_keeps (d : Dev) {f : OmsB → OmsB} (hlog : (f d.oms).log = d.oms.log)
    (hseq : (f d.oms).logSeq = d.oms.logSeq) (hperiod : (f d.oms).period = d.oms.period)
    (hsup : (f d.oms).suppressed = d.oms.suppressed) : Keeps [.oms] d (d.bootRecord f) :=
  d.oms_keeps hlog hseq hperiod hsup

theorem activateRecord_bootRecord_keeps (d : Dev) (c : Cmd) : Keeps [.oms] d (d.bootRecord (activateRecord c)) := by
  apply Dev.bootRecord_keeps <;> unfold activateRecord <;> simp only [] <;> split <;> rfl

variable (hc : s.dev.clear specActivate r c = true) (hs : s.dev.served c = true) (hflash : s.dev.oms.flash = true)
include hc hs hflash

theorem activate_verified (hgood : (s.dev.verifySlot (c.b 4 0)).1 = 0) :
    ∃ t u, exec (.mgmtUpdateActivate r) s = .next t ∧ t.pending = s.pending
      ∧ Answered s.dev u r stSuccess (c.b 4 0).toNat
      ∧ u.oms = (if c.b 4 1 = false ∧ c.b 4 0 = s.dev.oms.active then s.dev.oms
          else (s.dev.bootRecord (activateRecord c)).oms)
      ∧ Keeps (.oms :: byDone) s.dev u ∧ t.dev = if c.b 4 2 then u.omsReset 0 else u := by
  have hk : Keeps [.oms] s.dev (if (!c.b 4 1 && c.b 4 0 == s.dev.oms.active) = true then s.dev
      else s.dev.bootRecord (activateRecord c)) := Keeps.ifElse (.refl _ _) (activateRecord_bootRecord_keeps _ _)
  obtain ⟨t, hnext, hpend, ha, hall, hdev⟩ := mgmt_restarts (i := .mgmtUpdateActivate r) (st := stSuccess)
    (res := (c.b 4 0).toNat) rfl hc hs (by simp [activate, hflash, hgood]) hk (by decide) (by decide)
  refine ⟨t, _, hnext, hpend, ha, ?_, hall, hdev⟩
  rw [(Dev.finish_keeps _ r _ _).oms (by decide) (by decide)]
  rw [apply_ite Dev.oms]
  simp

theorem activate_refuses (hbad : (s.dev.verifySlot (c.b 4 0)).1 ≠ 0) :
    ∃ t, exec (.mgmtUpdateActivate r) s = .next t
      ∧ Answered s.dev t.dev r (if (s.dev.verifySlot (c.b 4 0)).1 = 3 then stRollback else stAuthFailed) 0
      ∧ Keeps byDone s.dev t.dev := by
  refine mgmt_answers rfl hc hs ?_
  by_cases h3 : (s.dev.verifySlot (c.b 4 0)).1 = 3
  · simp [activate, hflash, h3]
  · simp [activate, hflash, h3, hbad]

end Activate

end Sys2Proof.Machine
end

section
/-! SUPPORT. Confirmation, engine code, the log, reports, unlocking and the lifecycle (O59). -/

namespace Sys2Proof.Machine

open Sys2Proof

theorem Dev.finish_oms (d : Dev) (r : CmdRef) (st res : Nat) : (d.finish r st res).oms = d.oms :=
  (d.finish_keeps r st res).oms (by decide) (by decide)

/-- A log entry leaves all of OMS but the log. -/
theorem Dev.log_omsRest (d : Dev) (sev code a b page inst frame : Nat) (tag : Option Nat) :
    Machine.omsRest (d.log sev code a b page inst frame tag).oms = Machine.omsRest d.oms :=
  (d.log_keeps sev code a b page inst frame tag).omsRest (by decide)

theorem Dev.internalError_ends (d : Dev) (r : CmdRef) :
    ∃ e, d.internalError r = e.finish r stInternal 0 ∧ Keeps byPost d e :=
  ⟨_, rfl, (d.draw_keeps.mono (by simp)).trans (Dev.log_keeps _ _ _ _ _ _ _ _ _)⟩

/-! ## MGMT_UPDATE_CONFIRM (R462) -/

section Confirm

variable {s : State} {d : Dev} {r : CmdRef} {c : Cmd} {ok : Bool}

/-- The end of a trial touches the boot record and the log. -/
theorem Dev.endTrial_keeps (d : Dev) (reject : Bool) (tag : Option Nat) :
    Keeps (.oms :: byPost) d (d.endTrial reject tag) := by
  have hrec : ∀ (e : Dev) {f : OmsB → OmsB}, Keeps [.oms] e (e.bootRecord f) → Keeps (.oms :: byPost) e (e.bootRecord f) :=
    fun e _ h => h.mono (by simp)
  unfold Dev.endTrial
  split
  · exact .refl _ _
  · split
    · exact ((Dev.log_keeps _ _ _ _ _ _ _ _ _).mono (List.subset_cons_self _ _)).trans
        (hrec _ (Dev.bootRecord_keeps _ rfl rfl rfl rfl))
    · split
      · exact hrec _ (Dev.bootRecord_keeps _ rfl rfl rfl rfl)
      · exact .refl _ _

/-- What the end of a trial leaves of OMS: the counter and the running container always, everything without a trial; and
of a tried slot no trial, no timer, and the slot that is ACTIVE. -/
theorem Dev.endTrial_oms (d : Dev) (reject : Bool) (tag : Option Nat) :
    (d.endTrial reject tag).oms.counter = d.oms.counter ∧ (d.endTrial reject tag).oms.running = d.oms.running
      ∧ (d.oms.trial = 0 → Machine.omsRest (d.endTrial reject tag).oms = Machine.omsRest d.oms)
      ∧ (d.oms.trial = 2 → (d.endTrial reject tag).oms.trial = 0 ∧ (d.endTrial reject tag).oms.timer = none
          ∧ (d.endTrial reject tag).oms.active = if reject then d.oms.active else d.boot.slotB) := by
  have hlog := d.log_omsRest 1 0x041 ((!d.oms.active).toNat + 512) 0 14 0 ones64 tag
  have hcounter := congrArg OmsB.counter hlog
  have hrunning := congrArg OmsB.running hlog
  have hactive := congrArg OmsB.active hlog
  simp only [Machine.omsRest] at hcounter hrunning hactive
  unfold Dev.endTrial
  by_cases h0 : d.oms.trial = 0
  · simp [h0]
  · cases reject with
    | true => simp [h0, Dev.bootRecord, hcounter, hrunning, hactive]
    | false => by_cases h2 : d.oms.trial = 2 <;> simp [h0, h2, Dev.bootRecord]

/-- The trial has ended. -/
def Dev.trialEnded (d : Dev) (c : Cmd) : Dev := d.endTrial (c.b 4 1) (some c.tag)

theorem Dev.trialEnded_version (d : Dev) (c : Cmd) :
    (d.trialEnded c).oms.counter = d.oms.counter ∧ (d.trialEnded c).runVersion = d.runVersion := by
  obtain ⟨hcounter, hrunning, -⟩ := d.endTrial_oms (c.b 4 1) (some c.tag)
  exact ⟨hcounter, by unfold Dev.runVersion; rw [Dev.trialEnded, hrunning]⟩

variable (hc : s.dev.clear specConfirm r c = true) (hs : s.dev.served c = true)
include hc hs

/-- Without a raise of COUNTER a confirmation ends the trial only. -/
theorem confirm_keepsCounter (h : c.b 4 1 = true ∨ c.b 4 0 = false ∨ s.dev.runVersion ≤ s.dev.oms.counter) :
    ∃ t u, exec (.mgmtUpdateConfirm r ok) s = .next t ∧ t.pending = s.pending
      ∧ Answered s.dev u r stSuccess s.dev.oms.counter ∧ u.oms.counter = s.dev.oms.counter
      ∧ (s.dev.oms.trial = 0 → Machine.omsRest u.oms = Machine.omsRest s.dev.oms)
      ∧ (s.dev.oms.trial = 2 → u.oms.trial = 0 ∧ u.oms.timer = none
          ∧ u.oms.active = if c.b 4 1 then s.dev.oms.active else s.dev.boot.slotB)
      ∧ Keeps (.oms :: .fetch :: byPost) s.dev u ∧ t.dev = if c.b 4 2 then u.omsReset 0 else u := by
  obtain ⟨hcounter, hversion⟩ := s.dev.trialEnded_version c
  have hstay : (c.b 4 1 || !c.b 4 0 || decide ((s.dev.trialEnded c).runVersion ≤ (s.dev.trialEnded c).oms.counter))
      = true := by
    rw [hcounter, hversion]
    obtain h | h | h := h <;> simp [h]
  have he : confirm ok r c s.dev = if c.b 4 2 then ((s.dev.trialEnded c).finish r stSuccess s.dev.oms.counter).omsReset 0
      else (s.dev.trialEnded c).finish r stSuccess s.dev.oms.counter := by
    rw [← hcounter]
    exact if_pos hstay
  obtain ⟨t, hnext, hpend, ha, hk, hdev⟩ := mgmt_restarts (i := .mgmtUpdateConfirm r ok) rfl hc hs he
    (s.dev.endTrial_keeps _ _) (by decide) (by decide)
  obtain ⟨-, -, h0, h2⟩ := s.dev.endTrial_oms (c.b 4 1) (some c.tag)
  refine ⟨t, _, hnext, hpend, ha, ?_, fun h => ?_, fun h => ?_, hk.mono (by decide), hdev⟩
  · rw [Dev.finish_oms, hcounter]
  · rw [Dev.finish_oms]
    exact h0 h
  · rw [Dev.finish_oms]
    exact h2 h

variable (hkeep : c.b 4 1 = false) (hraise : c.b 4 0 = true) (hnew : s.dev.oms.counter < s.dev.runVersion)
include hkeep hraise hnew

omit hc hs in
theorem confirm_raises_eq : confirm ok r c s.dev = if ok then
    if c.b 4 2 then ((({ s.dev.trialEnded c with oms := { (s.dev.trialEnded c).oms with counter := s.dev.runVersion } }).log
      0 0x042 s.dev.runVersion 0 14 0 ones64 (some c.tag)).finish r stSuccess s.dev.runVersion).omsReset 0
    else ((({ s.dev.trialEnded c with oms := { (s.dev.trialEnded c).oms with counter := s.dev.runVersion } }).log
      0 0x042 s.dev.runVersion 0 14 0 ones64 (some c.tag)).finish r stSuccess s.dev.runVersion)
    else ({ (s.dev.trialEnded c).draw.2 with oms := { (s.dev.trialEnded c).draw.2.oms with
      counter := s.dev.oms.counter
        + (s.dev.trialEnded c).draw.1 % (s.dev.runVersion - s.dev.oms.counter) } }).internalError r := by
  obtain ⟨hcounter, hversion⟩ := s.dev.trialEnded_version c
  have hgo : (c.b 4 1 || !c.b 4 0 || decide ((s.dev.trialEnded c).runVersion ≤ (s.dev.trialEnded c).oms.counter))
      = false := by
    rw [hcounter, hversion]
    simp [hkeep, hraise, hnew]
  rw [← hcounter, ← hversion]
  exact if_neg (ne_true_of_eq_false hgo)

theorem confirm_raises :
    ∃ t u, exec (.mgmtUpdateConfirm r true) s = .next t ∧ Answered s.dev u r stSuccess s.dev.runVersion
      ∧ u.oms.counter = s.dev.runVersion ∧ Keeps (.oms :: .fetch :: byPost) s.dev u
      ∧ t.dev = if c.b 4 2 then u.omsReset 0 else u := by
  have hset := Dev.oms_keeps (s.dev.trialEnded c)
    (o := { (s.dev.trialEnded c).oms with counter := s.dev.runVersion }) rfl rfl rfl rfl
  have hlog := Dev.log_keeps
    { s.dev.trialEnded c with oms := { (s.dev.trialEnded c).oms with counter := s.dev.runVersion } } 0 0x042
    s.dev.runVersion 0 14 0 ones64 (some c.tag)
  have hk := ((s.dev.endTrial_keeps (c.b 4 1) (some c.tag)).trans (hset.mono (by simp))).trans
    (hlog.mono (List.subset_cons_self _ _))
  obtain ⟨t, hnext, hpend, ha, hall, hdev⟩ := mgmt_restarts (i := .mgmtUpdateConfirm r true) rfl hc hs
    ((confirm_raises_eq hkeep hraise hnew).trans (if_pos rfl)) hk (by decide) (by decide)
  refine ⟨t, _, hnext, ha, ?_, hall.mono (by decide), hdev⟩
  rw [Dev.finish_oms]
  exact congrArg OmsB.counter (hlog.omsRest (by decide))

theorem confirm_fuseFails :
    ∃ t, exec (.mgmtUpdateConfirm r false) s = .next t ∧ Answered s.dev t.dev r stInternal 0
      ∧ s.dev.oms.counter ≤ t.dev.oms.counter ∧ t.dev.oms.counter < s.dev.runVersion
      ∧ Keeps (.oms :: .fetch :: byPost) s.dev t.dev := by
  have hset := Dev.oms_keeps (s.dev.trialEnded c).draw.2
    (o := { (s.dev.trialEnded c).draw.2.oms with
      counter := s.dev.oms.counter + (s.dev.trialEnded c).draw.1 % (s.dev.runVersion - s.dev.oms.counter) })
    rfl rfl rfl rfl
  obtain ⟨e, he, herr⟩ := Dev.internalError_ends
    { (s.dev.trialEnded c).draw.2 with oms := { (s.dev.trialEnded c).draw.2.oms with
      counter := s.dev.oms.counter + (s.dev.trialEnded c).draw.1 % (s.dev.runVersion - s.dev.oms.counter) } } r
  have hk := ((s.dev.endTrial_keeps (c.b 4 1) (some c.tag)).trans
    ((Dev.draw_keeps (s.dev.trialEnded c)).mono (by simp))).trans (hset.mono (by simp)) |>.trans
    (herr.mono (List.subset_cons_self _ _))
  obtain ⟨hnext, ha, hall⟩ := mgmt_finishes (i := .mgmtUpdateConfirm r false) rfl hc hs
    (((confirm_raises_eq hkeep hraise hnew).trans (if_neg (by decide))).trans he) hk (by decide) (by decide)
  have hcounter : e.oms.counter
      = s.dev.oms.counter + (s.dev.trialEnded c).draw.1 % (s.dev.runVersion - s.dev.oms.counter) :=
    congrArg OmsB.counter (herr.omsRest (by decide))
  have hlt := Nat.mod_lt (s.dev.trialEnded c).draw.1 (Nat.sub_pos_of_lt hnew)
  refine ⟨_, hnext, ha, ?_, ?_, hall.mono (by decide)⟩
  · rw [Dev.finish_oms, hcounter]
    exact Nat.le_add_right _ _
  · rw [Dev.finish_oms, hcounter]
    omega

end Confirm

end Sys2Proof.Machine
end

section
/-! SUPPORT. Engine code, the log, reports, unlocking and the lifecycle: class 0x0D as a whole (O59). -/

namespace Sys2Proof.Machine

open Sys2Proof

/-! ## MGMT_ENGINE_LOAD (R464) -/

section Load

variable {s : State} {d : Dev} {r : CmdRef} {c : Cmd} {ok : Bool}

/-- An engine has this code. -/
def Dev.codeTaken (d : Dev) (e : Nat) (v : EngCode) : Dev :=
  { d with oms := { d.oms with code := SMap.put {} d.oms.code e v } }

theorem Dev.codeTaken_keeps (d : Dev) (e : Nat) (v : EngCode) : Keeps [.oms] d (d.codeTaken e v) :=
  d.oms_keeps rfl rfl rfl rfl

theorem Dev.codeTaken_noCode (d : Dev) (e : Nat) (v : EngCode) : (d.codeTaken e v).noCode e = (v.src == 255) := by
  simp [Dev.noCode, Dev.codeTaken, SMap.get_put_same]

/-- The code of an engine in a container, as the device takes it. -/
def Dev.codeOf (d : Dev) (b : Container) (g : Nat) : EngCode :=
  { src := d.boot.slotB.toNat, signer := b.signer, version := b.version, digest := g }

theorem Dev.takeCode_takes {e g : Nat} {b : Container} (hrun : d.oms.running = some b)
    (hcode : Container.code? b e = some g) : d.takeCode e true = d.codeTaken e (d.codeOf b g) := by
  simp [Dev.takeCode, hrun, hcode, Dev.codeTaken, Dev.codeOf]

/-- An engine whose code is not there, or fails its digest, has none, and the log says so. -/
theorem Dev.takeCode_fails {e : Nat} (h : ok = false ∨ d.runCode e = none) :
    d.takeCode e ok
      = (d.codeTaken e {}).log 2 0x005 e 0 14 0 ones64 none := by
  cases ok with
  | false => rfl
  | true =>
    have hnone : d.runCode e = none := h.resolve_left (by decide)
    have hcode : (d.oms.running.bind fun c => (Container.code? c e).map fun g =>
        d.codeOf c g) = none := by
      cases hrun : d.oms.running with
      | none => rfl
      | some b =>
        rw [Dev.runCode, hrun] at hnone
        simpa using hnone
    simp only [Dev.codeOf] at hcode
    simp [Dev.takeCode, hcode, Dev.codeTaken]

variable (hc : s.dev.clear specEngineLoad r c = true) (hs : s.dev.served c = true)
include hc hs

theorem engineLoad_down (hoff : s.dev.loadOff (c.f 4 2 0) = true) :
    ∃ t, exec (.mgmtEngineLoad r ok) s = .next t ∧ Answered s.dev t.dev r stEngineDown 0 ∧ Keeps byDone s.dev t.dev :=
  mgmt_answers rfl hc hs (if_pos hoff)

variable (hon : s.dev.loadOff (c.f 4 2 0) = false) (hfree : s.dev.eng.load = none)
include hon hfree

theorem engineLoad_busy (hpending : s.dev.pendingCtx (c.f 4 2 0) = true) (hforce : c.b 4 8 = false) :
    ∃ t, exec (.mgmtEngineLoad r ok) s = .next t ∧ Answered s.dev t.dev r stEngineBusy 0 ∧ Keeps byDone s.dev t.dev :=
  mgmt_answers rfl hc hs (by simp [engineLoad, hon, hfree, hpending, hforce])

theorem engineLoad_current (hgo : s.dev.pendingCtx (c.f 4 2 0) = false ∨ c.b 4 8 = true)
    (hcurrent : s.dev.codeCurrent (c.f 4 2 0) = true) :
    ∃ t, exec (.mgmtEngineLoad r ok) s = .next t ∧ Answered s.dev t.dev r stSuccess 0 ∧ Keeps byDone s.dev t.dev := by
  have hpass : (s.dev.pendingCtx (c.f 4 2 0) && !c.b 4 8) = false := by
    obtain h | h := hgo <;> simp [h]
  refine mgmt_answers rfl hc hs ?_
  simp only [engineLoad, hon, hfree, hpass, hcurrent, Option.isSome_none, Bool.false_eq_true, if_false, if_true]

variable (hidle : s.dev.pendingCtx (c.f 4 2 0) = false) (hstale : s.dev.codeCurrent (c.f 4 2 0) = false)
  (hforce : c.b 4 8 = false)
include hidle hstale hforce

omit hc hs in
theorem engineLoad_takes : engineLoad ok r c s.dev = if (s.dev.takeCode (c.f 4 2 0) ok).noCode (c.f 4 2 0) then
    (s.dev.takeCode (c.f 4 2 0) ok).finish r stInternal 0 else (s.dev.takeCode (c.f 4 2 0) ok).finish r stSuccess 1 := by
  simp only [engineLoad, hon, hfree, hidle, hstale, hforce, Option.isSome_none, Bool.false_and, Bool.false_eq_true,
    if_false]

theorem engineLoad_loads {b : Container} {g : Nat} (hrun : s.dev.oms.running = some b)
    (hcode : Container.code? b (c.f 4 2 0) = some g) :
    ∃ t, exec (.mgmtEngineLoad r true) s = .next t ∧ t.pending = s.pending ∧ Answered s.dev t.dev r stSuccess 1
      ∧ SMap.get {} t.dev.oms.code (c.f 4 2 0)
          = { src := s.dev.boot.slotB.toNat, signer := b.signer, version := b.version, digest := g }
      ∧ (∀ j, j ≠ c.f 4 2 0 → SMap.get {} t.dev.oms.code j = SMap.get {} s.dev.oms.code j)
      ∧ Keeps (.oms :: byDone) s.dev t.dev := by
  have htake := Dev.takeCode_takes hrun hcode
  have hhas : (s.dev.takeCode (c.f 4 2 0) true).noCode (c.f 4 2 0) = false := by
    rw [htake, Dev.codeTaken_noCode]
    cases hslot : s.dev.boot.slotB <;> simp [Dev.codeOf, hslot]
  have he : engineLoad true r c s.dev
      = (s.dev.codeTaken (c.f 4 2 0) (s.dev.codeOf b g)).finish r stSuccess 1 := by
    rw [engineLoad_takes hon hfree hidle hstale hforce, if_neg (ne_true_of_eq_false hhas), htake]
  obtain ⟨hnext, ha, hk⟩ := mgmt_finishes (i := .mgmtEngineLoad r true) rfl hc hs he (Dev.codeTaken_keeps _ _ _)
    (by decide) (by decide)
  refine ⟨_, hnext, rfl, ha, ?_, fun j hne => ?_, hk⟩
  · rw [Dev.finish_oms]
    exact SMap.get_put_same _ _ _ _
  · rw [Dev.finish_oms]
    exact SMap.get_put_ne _ _ _ hne

theorem engineLoad_fails (h : ok = false ∨ s.dev.runCode (c.f 4 2 0) = none) :
    ∃ t, exec (.mgmtEngineLoad r ok) s = .next t ∧ Answered s.dev t.dev r stInternal 0
      ∧ t.dev.noCode (c.f 4 2 0) = true ∧ Keeps (.oms :: .fetch :: byPost) s.dev t.dev := by
  have htake := Dev.takeCode_fails h
  have hlog := Dev.log_keeps (s.dev.codeTaken (c.f 4 2 0) {}) 2 0x005 (c.f 4 2 0) 0 14 0 ones64 none
  have hnone : (s.dev.takeCode (c.f 4 2 0) ok).noCode (c.f 4 2 0) = true := by
    have hcode := congrArg OmsB.code (hlog.omsRest (by decide))
    simp only [Machine.omsRest] at hcode
    rw [htake, Dev.noCode, hcode]
    exact Dev.codeTaken_noCode _ _ _
  have he : engineLoad ok r c s.dev = (s.dev.takeCode (c.f 4 2 0) ok).finish r stInternal 0 := by
    rw [engineLoad_takes hon hfree hidle hstale hforce, if_pos hnone]
  have hk : Keeps (.oms :: byPost) s.dev (s.dev.takeCode (c.f 4 2 0) ok) := by
    rw [htake]
    exact ((Dev.codeTaken_keeps _ _ _).mono (by simp)).trans (hlog.mono (List.subset_cons_self _ _))
  obtain ⟨hnext, ha, hall⟩ := mgmt_finishes (i := .mgmtEngineLoad r ok) rfl hc hs he hk (by decide) (by decide)
  refine ⟨_, hnext, ha, ?_, hall.mono (by decide)⟩
  rwa [Dev.noCode, Dev.finish_oms]

end Load

/-! ## MGMT_LOG_READ and MGMT_ATTEST (R468, R470) -/

section Read

variable {s : State} {d : Dev} {r : CmdRef} {c : Cmd}

/-- A count is from 1 to 4,096. -/
theorem Dev.clear_logRead_count (hc : d.clear specLogRead r c = true) : 0 < c.f 5 12 0 ∧ c.f 5 12 0 ≤ 4096 := by
  obtain ⟨-, -, hoffs⟩ := Dev.clear_offs hc
  obtain ⟨-, hcount⟩ := List.append_eq_nil_iff.mp hoffs
  have hbad := off_eq_nil_iff.mp hcount
  simp only [Bool.or_eq_false_iff, beq_eq_false_iff_ne, decide_eq_false_iff_not] at hbad
  omega

/-- Entries are written one after another, 64 bytes each. -/
def Dev.logOut (d : Dev) (a : Nat) (es : List LogEntry) : Dev :=
  es.zipIdx.foldl (fun (d : Dev) x => d.writeFields false (a + 64 * x.2) 64 (LogEntry.flds x.1)) d

theorem Dev.logOut_keeps (d : Dev) (a : Nat) (es : List LogEntry) : Keeps [.out] d (d.logOut a es) :=
  Keeps.foldl _ (fun e _ => e.writeHost_keeps _ _ _) _ _

theorem Dev.writeHost_mem (d : Dev) (a len : Nat) (body : List Fld) :
    Out.hostFields a len body ∈ (d.writeFields false a len body).out := List.mem_append_right _ (List.mem_singleton_self _)

theorem Dev.writeHost_outGrows (d : Dev) (a len : Nat) (body : List Fld) :
    d.OutGrows (d.writeFields false a len body) := d.emit_outGrows _

theorem Dev.logOut_first (d : Dev) (a : Nat) (e : LogEntry) (es : List LogEntry) :
    Out.hostFields a 64 (LogEntry.flds e) ∈ (d.logOut a (e :: es)).out := by
  have hgrows : ∀ (l : List (LogEntry × Nat)) (x : Dev), x.OutGrows
      (l.foldl (fun (d : Dev) x => d.writeFields false (a + 64 * x.2) 64 (LogEntry.flds x.1)) x) := fun l x =>
    List.foldlRecOn l _ (.refl x) fun y hy b _ => hy.trans (y.writeHost_outGrows _ _ _)
  unfold Dev.logOut
  rw [List.zipIdx_cons, List.foldl_cons]
  exact hgrows _ _ (d.writeHost_mem a 64 _)

variable (hs : s.dev.served c = true)
include hs

theorem logRead_answers (hc : s.dev.clear specLogRead r c = true) :
    ∃ t n, exec (.mgmtLogRead r) s = .next t ∧ t.pending = s.pending ∧ Answered s.dev t.dev r stSuccess n
      ∧ n % two32 = ((s.dev.logFrom (c.w 4)).take (c.f 5 12 0)).length % two32
      ∧ (∀ x xs, s.dev.logFrom (c.w 4) = x :: xs → n / two32 = x.seq
          ∧ Out.hostFields (c.q 6) 64 (LogEntry.flds x) ∈ t.dev.out)
      ∧ Keeps byDone s.dev t.dev := by
  obtain ⟨hpos, hmax⟩ := Dev.clear_logRead_count hc
  obtain ⟨n, hn⟩ := Nat.exists_eq_succ_of_ne_zero hpos.ne'
  cases hlog : s.dev.logFrom (c.w 4) with
  | nil =>
    obtain ⟨hnext, ha, hk⟩ := mgmt_finishes (i := .mgmtLogRead r) (e := s.dev.draw.2) (st := stSuccess)
      (res := s.dev.draw.1 % two32 * two32) rfl hc hs (by simp [logRead, hlog]) s.dev.draw_keeps (by decide) (by decide)
    exact ⟨_, _, hnext, rfl, ha, by simp, by simp, hk⟩
  | cons x xs =>
    have htake : (x :: xs).take (c.f 5 12 0) = x :: xs.take n := by rw [hn, List.take_succ_cons]
    obtain ⟨hnext, ha, hk⟩ := mgmt_finishes (i := .mgmtLogRead r)
      (e := s.dev.logOut (c.q 6) ((x :: xs).take (c.f 5 12 0))) (st := stSuccess)
      (res := ((x :: xs).take (c.f 5 12 0)).length + x.seq * two32) rfl hc hs
      (by simp only [logRead, hlog]; rw [htake]; rfl) (Dev.logOut_keeps _ _ _) (by decide) (by decide)
    have hlen : ((x :: xs).take (c.f 5 12 0)).length < two32 :=
      (List.length_take_le _ _).trans_lt (hmax.trans_lt (by decide))
    refine ⟨_, _, hnext, rfl, ha, by simp, fun y ys hys => ?_, hk.mono (by decide)⟩
    obtain ⟨rfl, rfl⟩ := List.cons.inj hys
    refine ⟨?_, Dev.finish_outGrows _ _ _ _ ?_⟩
    · rw [Nat.add_mul_div_right _ _ (by decide), Nat.div_eq_of_lt hlen, Nat.zero_add]
    · rw [htake]
      exact Dev.logOut_first _ _ _ _

theorem attest_writes (hc : s.dev.clear specAttest r c = true) :
    ∃ t, exec (.mgmtAttest r) s = .next t ∧ t.pending = s.pending ∧ Answered s.dev t.dev r stSuccess 25504
      ∧ Out.hostFields (c.q 12) 25504 (s.dev.reportHead c ++ s.dev.measures) ∈ t.dev.out ∧ Keeps byDone s.dev t.dev := by
  obtain ⟨hnext, ha, hk⟩ := mgmt_finishes (i := .mgmtAttest r)
    (e := (s.dev.writeFields false (c.q 12) 25504 (s.dev.reportHead c ++ s.dev.measures)).undefBuf false (c.q 12 + 8416)
      17088) (b := [.out]) rfl hc hs rfl ((Dev.writeHost_keeps _ _ _ _).trans (Dev.emit_keeps _ _)) (by decide)
    (by decide)
  exact ⟨_, hnext, rfl, ha, Dev.finish_outGrows _ _ _ _ (Dev.emit_outGrows _ _ (Dev.writeHost_mem _ _ _ _)),
    hk.mono (by decide)⟩

end Read

/-! ## Unlocking (R472, R473) -/

section Unlocking

variable {s : State} {r : CmdRef} {c : Cmd} (hs : s.dev.served c = true)
include hs

theorem challenge_answers (hc : s.dev.clear specChallenge r c = true) :
    ∃ t n, exec (.mgmtUnlockChallenge r) s = .next t ∧ t.pending = s.pending ∧ Answered s.dev t.dev r stSuccess 0
      ∧ t.dev.oms = { s.dev.oms with nonce := some n }
      ∧ Out.hostFields (c.q 5) 40 [⟨0, 32, n⟩, ⟨32, 8, s.dev.oms.deviceId⟩] ∈ t.dev.out
      ∧ Keeps (.oms :: byDone) s.dev t.dev := by
  obtain ⟨hnext, ha, hk⟩ := mgmt_finishes (i := .mgmtUnlockChallenge r) (b := [.oms, .out])
    (e := s.dev.freshNonce.2.writeFields false (c.q 5) 40 [⟨0, 32, s.dev.freshNonce.1⟩, ⟨32, 8, s.dev.oms.deviceId⟩])
    rfl hc hs rfl ((s.dev.freshNonce_keeps.mono (by simp)).trans ((Dev.writeHost_keeps _ _ _ _).mono (by simp)))
    (by decide) (by decide)
  exact ⟨_, _, hnext, rfl, ha, Dev.finish_oms _ _ _ _, Dev.finish_outGrows _ _ _ _ (Dev.writeHost_mem _ _ _ _),
    hk.mono (by decide)⟩

/-- What an answer gets. -/
def answer (ok : Bool) (r : CmdRef) (c : Cmd) (d : Dev) : Dev :=
  match d.unlockCheck (c.f 4 0 0) (c.f 4 1 1) ok (some c.tag) with
  | (some cls, d) => d.finish r stSuccess cls
  | (none, d) => d.finish r stAuthFailed 0

omit hs in
theorem exec_answer (ok : Bool) :
    exec (.mgmtUnlockAnswer r ok) s = lift (mgmtCmd specAnswer r (answer ok r)) s := by
  rw [exec, execMgmtUnlockAnswer]
  rfl

variable (hc : s.dev.clear specAnswer r c = true) {ok : Bool}
include hc

theorem answer_open (hlife : s.dev.oms.lifecycle < 2) :
    ∃ t, exec (.mgmtUnlockAnswer r ok) s = .next t ∧ Answered s.dev t.dev r stSuccess 2 ∧ Keeps byDone s.dev t.dev :=
  mgmt_answers (exec_answer ok) hc hs (by rw [answer, Dev.unlockCheck_open hlife])

variable (hlife : 2 ≤ s.dev.oms.lifecycle)
include hlife

theorem answer_passes (hfails : s.dev.oms.authFails < 8)
    (hgood : if c.f 4 0 0 = 0 then s.dev.oms.nonce.isSome = true else s.dev.oms.pwdHash ≠ 0) :
    ∃ t, exec (.mgmtUnlockAnswer r true) s = .next t ∧ t.pending = s.pending
      ∧ Answered s.dev t.dev r stSuccess (2 - c.f 4 0 0)
      ∧ t.dev.oms.unlock = max s.dev.oms.unlock (2 - c.f 4 0 0)
      ∧ t.dev.oms.authFails = s.dev.oms.authFails ∧ (c.f 4 0 0 = 0 → t.dev.oms.nonce = none)
      ∧ Keeps (.oms :: .fetch :: byPost) s.dev t.dev := by
  obtain ⟨e, he, hpassed⟩ := Dev.unlockCheck_passes (m := c.f 4 0 0) (key := c.f 4 1 1) (tag := some c.tag) hlife hfails
    rfl hgood
  obtain ⟨hnext, ha, hk⟩ := mgmt_finishes (exec_answer true) hc hs (by rw [answer, he]) hpassed.keeps (by decide)
    (by decide)
  refine ⟨_, hnext, rfl, ha, ?_, ?_, fun hm => ?_, hk.mono (by decide)⟩
  · rw [Dev.finish_oms, hpassed.unlock]
  · rw [Dev.finish_oms, hpassed.fails]
  · rw [Dev.finish_oms, hpassed.nonce hm]

omit hlife in
/-- An answer that fails, by what its check leaves. -/
theorem answer_refused {e : Dev} {n : Nat}
    (he : s.dev.unlockCheck (c.f 4 0 0) (c.f 4 1 1) ok (some c.tag) = (none, e))
    (hfailed : s.dev.CheckFailed e (c.f 4 0 0) n) :
    ∃ t, exec (.mgmtUnlockAnswer r ok) s = .next t ∧ Answered s.dev t.dev r stAuthFailed 0
      ∧ t.dev.oms.unlock = s.dev.oms.unlock ∧ (c.f 4 0 0 = 0 → t.dev.oms.nonce = none)
      ∧ t.dev.oms.authFails = n ∧ Keeps (.oms :: .fetch :: byPost) s.dev t.dev := by
  obtain ⟨hnext, ha, hk⟩ := mgmt_finishes (exec_answer ok) hc hs (by rw [answer, he]) hfailed.keeps (by decide)
    (by decide)
  refine ⟨_, hnext, ha, ?_, fun hm => ?_, ?_, hk.mono (by decide)⟩
  · rw [Dev.finish_oms, hfailed.unlock]
  · rw [Dev.finish_oms, hfailed.nonce hm]
  · rw [Dev.finish_oms, hfailed.fails]

theorem answer_fails (h : 8 ≤ s.dev.oms.authFails ∨ ok = false ∨ c.f 4 0 0 = 0 ∧ s.dev.oms.nonce = none) :
    ∃ t, exec (.mgmtUnlockAnswer r ok) s = .next t ∧ Answered s.dev t.dev r stAuthFailed 0
      ∧ t.dev.oms.unlock = s.dev.oms.unlock ∧ (c.f 4 0 0 = 0 → t.dev.oms.nonce = none)
      ∧ (s.dev.oms.authFails < 8 → t.dev.oms.authFails
          = if c.f 4 0 0 = 0 ∧ s.dev.oms.nonce = none then s.dev.oms.authFails else s.dev.oms.authFails + 1)
      ∧ (8 ≤ s.dev.oms.authFails → t.dev.oms.authFails = 8)
      ∧ Keeps (.oms :: .fetch :: byPost) s.dev t.dev := by
  obtain hlocked | hfails := Nat.lt_or_ge s.dev.oms.authFails 8 |>.symm
  · obtain ⟨e, he, hfailed⟩ := Dev.unlockCheck_locked (m := c.f 4 0 0) (key := c.f 4 1 1) (ok := ok)
      (tag := some c.tag) hlife hlocked
    obtain ⟨t, hnext, ha, hunlock, hnonce, hn, hk⟩ := answer_refused hs hc he hfailed
    exact ⟨t, hnext, ha, hunlock, hnonce, fun h => absurd h (Nat.not_lt.mpr hlocked), fun _ => hn, hk⟩
  · have hbad : ok = false ∨ (c.f 4 0 0 = 0 ∧ s.dev.oms.nonce = none) ∨ (c.f 4 0 0 ≠ 0 ∧ s.dev.oms.pwdHash = 0) :=
      (h.resolve_left (Nat.not_le.mpr hfails)).imp_right .inl
    obtain ⟨e, he, hfailed⟩ := Dev.unlockCheck_fails (m := c.f 4 0 0) (key := c.f 4 1 1) (ok := ok)
      (tag := some c.tag) hlife hfails hbad
    obtain ⟨t, hnext, ha, hunlock, hnonce, hn, hk⟩ := answer_refused hs hc he hfailed
    exact ⟨t, hnext, ha, hunlock, hnonce, fun _ => hn, fun h => absurd h (Nat.not_le.mpr hfails), hk⟩

end Unlocking

/-! ## MGMT_LIFECYCLE_ADVANCE (R471) -/

section Lifecycle

variable {s : State} {d : Dev} {r : CmdRef} {c : Cmd} {b : List Byte}

theorem exec_lifecycle (ok : Bool) : exec (.mgmtLifecycleAdvance r b ok) s
    = lift (mgmtCmd specLifecycle r fun _ d => lifecycle b ok r d) s := by
  rw [exec, execMgmtLifecycleAdvance]

/-- A block without an offending byte goes one state on from BLANK or DEVELOPMENT. -/
theorem lifeFuses_next (h : d.lifeBad b = []) : (lifeFuses b d.oms).lifecycle = d.oms.lifecycle + 1 := by
  have hlow : d.oms.lifecycle < 2 := by
    simp only [Dev.lifeBad, List.append_eq_nil_iff] at h
    obtain ⟨⟨hfirst, -⟩, -⟩ := h
    by_contra hge
    simp [bad, Nat.not_lt.mp hge] at hfirst
  obtain h0 | h1 : d.oms.lifecycle = 0 ∨ d.oms.lifecycle = 1 := by omega
  · simp [lifeFuses, h0]
  · simp [lifeFuses, h1]

theorem Dev.fused_keeps (d : Dev) (b : List Byte) : Keeps [.oms] d { d with oms := lifeFuses b d.oms } := by
  apply Dev.oms_keeps <;> unfold lifeFuses <;> split <;> rfl

theorem lifecycle_sound (h : d.lifeBad b = []) (ok : Bool) : lifecycle b ok r d = if ok then
    (({ d with oms := lifeFuses b d.oms }).log 1 0x052 (lifeFuses b d.oms).lifecycle 0 14 0 ones64
      (({ d with oms := lifeFuses b d.oms }).tagOf r)).finish r stSuccess (lifeFuses b d.oms).lifecycle
    else d.internalError r := by
  have hnone : minOff (blkOffs 5 (d.lifeBad b)) = none := minOff_eq_none_iff.mpr (by rw [h]; rfl)
  cases ok <;> simp [lifecycle, hnone]

variable (hc : s.dev.clear specLifecycle r c = true) (hs : s.dev.served c = true) (hblk : s.dev.lifeBad b = [])
include hc hs hblk

theorem lifecycle_advances :
    ∃ t, exec (.mgmtLifecycleAdvance r b true) s = .next t ∧ t.pending = s.pending
      ∧ Answered s.dev t.dev r stSuccess (s.dev.oms.lifecycle + 1)
      ∧ t.dev.oms.lifecycle = s.dev.oms.lifecycle + 1
      ∧ Machine.omsRest t.dev.oms = Machine.omsRest (lifeFuses b s.dev.oms)
      ∧ Keeps (.oms :: .fetch :: byPost) s.dev t.dev := by
  have hlog := Dev.log_keeps { s.dev with oms := lifeFuses b s.dev.oms } 1 0x052 (lifeFuses b s.dev.oms).lifecycle 0 14 0
    ones64 (({ s.dev with oms := lifeFuses b s.dev.oms }).tagOf r)
  have hrest := hlog.omsRest (by decide)
  obtain ⟨hnext, ha, hk⟩ := mgmt_finishes (exec_lifecycle true) hc hs ((lifecycle_sound hblk true).trans (if_pos rfl))
    (((Dev.fused_keeps _ b).mono (by simp)).trans (hlog.mono (List.subset_cons_self .oms _))) (by decide) (by decide)
  refine ⟨_, hnext, rfl, ?_, ?_, ?_, hk.mono (by decide)⟩
  · rw [← lifeFuses_next hblk]
    exact ha
  · rw [Dev.finish_oms]
    exact (congrArg OmsB.lifecycle hrest).trans (lifeFuses_next hblk)
  · rw [Dev.finish_oms]
    exact hrest

theorem lifecycle_fuseFails :
    ∃ t, exec (.mgmtLifecycleAdvance r b false) s = .next t ∧ Answered s.dev t.dev r stInternal 0
      ∧ Keeps (.fetch :: byPost) s.dev t.dev := by
  obtain ⟨e, he, herr⟩ := s.dev.internalError_ends r
  obtain ⟨hnext, ha, hk⟩ := mgmt_finishes (exec_lifecycle false) hc hs
    (((lifecycle_sound hblk false).trans (if_neg (by decide))).trans he) herr (by decide) (by decide)
  exact ⟨_, hnext, ha, hk.mono (by decide)⟩

end Lifecycle

/-! ## The log period (R467) -/

section Period

variable {s : State} {d e : Dev}

theorem Dev.rereadHead_oms (d : Dev) (n : Nat) : (d.rereadHead n).oms = d.oms := by
  unfold Dev.rereadHead
  simp only []
  split <;> rfl

theorem Dev.putRecord_oms (d : Dev) (n : Nat) (rc : Rec) : (d.putRecord n rc).oms = d.oms := by
  unfold Dev.putRecord
  simp only []
  split <;> split <;> simp

/-- The post of an entry's record leaves OMS alone, but for the entry of a ring that its re-read HEAD faults. -/
theorem Dev.postLog_oms (d : Dev) (l : LogEntry) :
    (d.postLog l).oms = d.oms
      ∨ ∃ x : Dev, x.oms = d.oms ∧ ∃ a b, (d.postLog l).oms = (x.logEntry 2 0x073 ones64 0 0 none a b).1.oms := by
  unfold Dev.postLog
  split
  · exact .inl rfl
  · next n _ =>
    split
    · exact .inl (Dev.putRecord_oms _ _ _)
    · split
      · exact .inl rfl
      · simp only []
        split
        · exact .inl ((Dev.putRecord_oms _ _ _).trans (Dev.rereadHead_oms _ _))
        · split
          · refine .inr ⟨_, d.rereadHead_oms n, n + 6 * 4096 + 4 * 65536, (d.rereadHead n).ringSlot n, ?_⟩
            split <;> rfl
          · exact .inl (Dev.rereadHead_oms _ _)

/-- The log as it is retained: the oldest entries go beyond its slots. -/
def logKept (l : List LogEntry) : List LogEntry :=
  if l.length ≤ Config.logSlots then l else l.drop (l.length - Config.logSlots)

/-- The newest entries stay. -/
theorem logKept_newest (l : List LogEntry) {new : List LogEntry} (h : new.length ≤ Config.logSlots) :
    ∃ l', logKept (l ++ new) = l' ++ new := by
  unfold logKept
  split
  · exact ⟨l, rfl⟩
  · refine ⟨l.drop ((l ++ new).length - Config.logSlots), List.drop_append_of_le_length ?_⟩
    rw [List.length_append]
    omega

/-- Below the rate of a second an entry is appended (R467). -/
theorem Dev.logEntry_appends (h : d.oms.period < Config.logPerSecond) (sev code frame page inst : Nat)
    (tag : Option Nat) (a b : Nat) :
    d.logEntry sev code frame page inst tag a b
      = ((d.appendLog sev code frame page inst tag a b).1, some (d.appendLog sev code frame page inst tag a b).2) :=
  if_neg fun hfull => absurd hfull.1 (Nat.not_le.mpr h)

theorem Dev.appendLog_oms (d : Dev) (sev code frame page inst : Nat) (tag : Option Nat) (a b : Nat) :
    (d.appendLog sev code frame page inst tag a b).1.oms.log
        = logKept (d.oms.log ++ [(d.appendLog sev code frame page inst tag a b).2])
      ∧ (d.appendLog sev code frame page inst tag a b).1.oms.suppressed = d.oms.suppressed
      ∧ (d.appendLog sev code frame page inst tag a b).1.oms.period = d.oms.period + 1 := ⟨rfl, rfl, rfl⟩

/-- The first entry of a second stays in the log, and suppresses none. -/
theorem Dev.log_first (h : d.oms.period = 0) (sev code a b page inst frame : Nat) (tag : Option Nat) :
    (d.appendLog sev code frame page inst tag a b).2 ∈ (d.log sev code a b page inst frame tag).oms.log
      ∧ (d.log sev code a b page inst frame tag).oms.suppressed = d.oms.suppressed := by
  obtain ⟨hlog, hsup, hperiod⟩ := d.appendLog_oms sev code frame page inst tag a b
  obtain ⟨l, hl⟩ := logKept_newest d.oms.log (new := [(d.appendLog sev code frame page inst tag a b).2])
    (by simp [Config.logSlots])
  rw [hl] at hlog
  have heq : d.log sev code a b page inst frame tag = (d.appendLog sev code frame page inst tag a b).1.postLog
      (d.appendLog sev code frame page inst tag a b).2 := by
    unfold Dev.log
    rw [Dev.logEntry_appends (by rw [h]; decide)]
  rw [heq]
  obtain hsame | ⟨x, hx, m, n, hpost⟩ := Dev.postLog_oms (d.appendLog sev code frame page inst tag a b).1
    (d.appendLog sev code frame page inst tag a b).2
  · rw [hsame, hlog]
    exact ⟨List.mem_append_right _ (List.mem_singleton_self _), hsup⟩
  · rw [← hx] at hlog hsup hperiod
    rw [hpost, Dev.logEntry_appends (by rw [hperiod, h]; decide)]
    obtain ⟨hlog', hsup', -⟩ := x.appendLog_oms 2 0x073 ones64 0 0 none m n
    rw [hlog, List.append_assoc] at hlog'
    obtain ⟨l', hl'⟩ := logKept_newest l (new := [(d.appendLog sev code frame page inst tag a b).2]
      ++ [(x.appendLog 2 0x073 ones64 0 0 none m n).2]) (by simp [Config.logSlots])
    refine ⟨?_, hsup'.trans hsup⟩
    rw [hlog', hl']
    simp

/-- A new period begins. -/
def Dev.periodBegun (d : Dev) : Dev := { d with oms := { d.oms with period := 0, suppressed := 0 } }

theorem Dev.periodBegun_keeps (d : Dev) : Keeps [.log] d d.periodBegun := by
  intro p hp
  cases p <;> simp_all [Part.same, Dev.periodBegun, Machine.omsRest]

theorem logPeriod_reports (hi : s.dev.idleMode = true) :
    ∃ t, exec .logPeriod s = .next t ∧ t.pending = s.pending ∧ t.dev.oms.suppressed = 0
      ∧ (s.dev.oms.suppressed = 0 → t.dev.oms = { s.dev.oms with period := 0 } ∧ Keeps [.log] s.dev t.dev)
      ∧ (s.dev.oms.suppressed ≠ 0 → (∃ e ∈ t.dev.oms.log, e.code = 0x060 ∧ e.arg0 = satW 32 s.dev.oms.suppressed)
          ∧ Keeps byPost s.dev t.dev) := by
  by_cases h : s.dev.oms.suppressed = 0
  · have he : s.dev.logPeriod = s.dev.periodBegun := if_pos h
    refine ⟨_, event_effect (f := Dev.logPeriod) rfl hi he (Dev.periodBegun_keeps _) (by decide), rfl, rfl,
      fun _ => ⟨?_, Dev.periodBegun_keeps _⟩, fun hne => absurd h hne⟩
    simp only [Dev.periodBegun, ← h]
  · have he : s.dev.logPeriod = s.dev.periodBegun.log 1 0x060 (satW 32 s.dev.oms.suppressed) 0 14 0 := if_neg h
    obtain ⟨hmem, hsup⟩ := Dev.log_first (d := s.dev.periodBegun) rfl 1 0x060 (satW 32 s.dev.oms.suppressed) 0 14 0 ones64
      none
    have hk := (s.dev.periodBegun_keeps.mono (by decide)).trans
      (s.dev.periodBegun.log_keeps 1 0x060 (satW 32 s.dev.oms.suppressed) 0 14 0 ones64 none)
    exact ⟨_, event_effect (f := Dev.logPeriod) rfl hi he hk (by decide), rfl, hsup, fun h0 => absurd h0 h,
      fun _ => ⟨⟨_, hmem, rfl, rfl⟩, hk⟩⟩

end Period

/-- Settles O59: each command by what it finds, while firmware or ROM serves it; a restart comes after its completion. -/
theorem management : Obligations.Management := by
  unfold Obligations.Management
  refine ⟨fun s r c k ok sl hc hs hsl => ?stage, fun s r c hc hs hflash =>
      ⟨activate_verified hc hs hflash, activate_refuses hc hs hflash⟩,
    fun s r c ok hc hs => ⟨confirm_keepsCounter hc hs, fun hkeep hraise hnew => ?confirm⟩,
    fun s r c ok e hc hs he => ?load, fun s r c hc hs => logRead_answers hs hc, fun s r c hc hs => attest_writes hs hc,
    fun s r c hc hs => challenge_answers hs hc,
    fun s r c ok hc hs => ⟨answer_open hs hc, fun hlife => ⟨fun hfails hok hgood => ?_, answer_fails hs hc hlife⟩⟩,
    fun s r c b ok hc hs hblk => ⟨fun hok => ?_, fun hok => ?_⟩, fun s hi => logPeriod_reports hi⟩
  case stage =>
    subst hsl
    exact ⟨stage_wrongKind hc hs, stage_unauthentic hc hs, fun hmagic hfits hgood =>
      ⟨stage_rollback hc hs hmagic hfits hgood, stage_writes hc hs hmagic hfits hgood⟩⟩
  case confirm =>
    exact ⟨fun hok => hok ▸ confirm_raises hc hs hkeep hraise hnew,
      fun hok => hok ▸ confirm_fuseFails hc hs hkeep hraise hnew⟩
  case load =>
    subst he
    refine ⟨engineLoad_down hc hs, fun hon hfree => ⟨engineLoad_busy hc hs hon hfree, engineLoad_current hc hs hon hfree,
      fun hidle hstale hforce => ⟨fun b g hok hrun hcode => ?_, engineLoad_fails hc hs hon hfree hidle hstale hforce⟩⟩⟩
    exact hok ▸ engineLoad_loads hc hs hon hfree hidle hstale hforce hrun hcode
  · exact hok ▸ answer_passes hs hc hlife hfails hgood
  · exact hok ▸ lifecycle_advances hc hs hblk
  · exact hok ▸ lifecycle_fuseFails hc hs hblk

end Sys2Proof.Machine
end

section
/-! SUPPORT. Rasters, their registers and the transmitters they drive; SCO_START, SCO_STOP and SCO_RESTART (O50). -/

namespace Sys2Proof.Machine

open Sys2Proof

section Rasters

variable {d e : Dev} {b : List Part}

/-! ## What a change elsewhere leaves of the rasters -/

theorem Keeps.raster (hk : Keeps b d e) (hb : .sco ∉ b) (k : Nat) : e.raster k = d.raster k := by
  have hsco : e.sco = d.sco := hk .sco hb
  unfold Dev.raster
  rw [hsco]

/-- A raster's settings come from whether it is the standby raster, from what it has latched, and from the straps. -/
theorem Dev.rcfg_congr {k : Nat} (hboot : e.boot = d.boot) (hks : (e.raster k).ks = (d.raster k).ks)
    (hl : (e.raster k).latched = (d.raster k).latched) : e.rcfg k = d.rcfg k := by
  unfold Dev.rcfg
  congr 1
  funext o
  simp only [Dev.scoReg, hboot, hks, hl]

theorem Keeps.rcfg (hk : Keeps b d e) (hb : .sco ∉ b) (hboot : .boot ∉ b) (k : Nat) : e.rcfg k = d.rcfg k :=
  Dev.rcfg_congr (hk .boot hboot) (by rw [hk.raster hb]) (by rw [hk.raster hb])

theorem Keeps.urPolicy (hk : Keeps b d e) (hb : .sco ∉ b) (hboot : .boot ∉ b) : e.urPolicy = d.urPolicy := by
  simp only [Dev.urPolicy, Dev.running, hk.raster hb, hk.rcfg hb hboot]

theorem Dev.finish_raster (d : Dev) (r : CmdRef) (st res k : Nat) : (d.finish r st res).raster k = d.raster k :=
  (d.finish_keeps r st res).raster (by decide) k

/-- A raster set twice is what it was set to last. -/
theorem Dev.setRaster_twice (d : Dev) (k j : Nat) (v w : Raster) :
    ((d.setRaster k v).setRaster k w).raster j = (d.setRaster k w).raster j := by
  by_cases h : j = k
  · subst h; simp
  · simp [Dev.setRaster_raster_ne _ _ _ h]

/-! ## Training changes transmitters, not rasters (R346, R347) -/

theorem Dev.dpEvent_keeps (d : Dev) (j ev : Nat) : Keeps byPost d (d.dpEvent j ev) := d.post_keeps _ _ _ _ _ _ _

theorem Dev.dpTrain_rasters (d : Dev) (j : Nat) : (d.dpTrain j).sco.rasters = d.sco.rasters := by
  have hset : ∀ v o ev, (((d.setDp j v).emit o).dpEvent j ev).sco.rasters = d.sco.rasters := fun v o ev => by
    have hsco : (((d.setDp j v).emit o).dpEvent j ev).sco = ((d.setDp j v).emit o).sco :=
      Dev.dpEvent_keeps _ j ev .sco (by decide)
    rw [hsco]
    rfl
  unfold Dev.dpTrain
  split
  · rfl
  · simp only []
    split
    · rfl
    · split <;> exact hset _ _ _

theorem Dev.dpTrain_raster (d : Dev) (j k : Nat) : (d.dpTrain j).raster k = d.raster k := by
  unfold Dev.raster
  rw [Dev.dpTrain_rasters]

theorem Dev.dpTrainOf_keeps (d : Dev) (k : Nat) : Keeps (.sco :: byPost) d (d.dpTrainOf k) :=
  Keeps.foldl _ (fun e _ => (Keeps.refl _ e).ifThen (e.dpTrain_keeps _)) _ _

theorem Dev.dpTrainOf_raster (d : Dev) (k j : Nat) : (d.dpTrainOf k).raster j = d.raster j := by
  unfold Dev.dpTrainOf
  refine List.foldlRecOn (motive := fun e : Dev => e.raster j = d.raster j) _ _ rfl fun e he n _ => ?_
  split
  · rw [Dev.dpTrain_raster, he]
  · exact he

end Rasters

/-! ## SCO_START (R365) -/

section Start

variable {d : Dev} {s : State} {r : CmdRef} {c : Cmd}

theorem rangeFrom_append (a m n : Nat) : rangeFrom a (m + n) = rangeFrom a m ++ rangeFrom (a + m) n := by
  induction m generalizing a with
  | zero => simp [rangeFrom]
  | succ m ih => simpa [rangeFrom, Nat.succ_add, Nat.add_assoc, Nat.add_comm 1 m] using ih (a + 1)

/-- A range around one of its members. -/
theorem rangeFrom_around {i n : Nat} (h : i < n) :
    rangeFrom 0 n = rangeFrom 0 i ++ i :: rangeFrom (i + 1) (n - i - 1) := by
  obtain ⟨m, rfl⟩ : ∃ m, n = i + (m + 1) := ⟨n - i - 1, by omega⟩
  rw [rangeFrom_append, Nat.zero_add, show i + (m + 1) - i - 1 = m by omega]
  rfl

/-- Register `i` of the page as SCO_START latches it. -/
theorem Dev.scoLatch_reg (d : Dev) (k : Nat) {i : Nat} (hi : i < 9) :
    (SMap.get 0 (d.scoLatch k) (4 * i)).toNat = d.reg (0x90000 + 0x100 * k + 4 * i) % 4294967296 := by
  unfold Dev.scoLatch
  rw [rangeFrom_around hi, List.foldl_append, List.foldl_cons, SMap.get_foldl_put_ne, SMap.get_put_same, BitVec.toNat_ofNat]
  intro x hx
  have := (mem_rangeFrom.mp hx).1
  omega

/-- Raster `k` as SCO_START makes it. -/
def Dev.rasterStarted (d : Dev) (k : Nat) : Raster :=
  { run := true, ks := false, latched := d.scoLatch k, locked := d.fld (0x90000 + 0x100 * k) 31 30 == 0
    reports := (d.raster k).reports }

/-- The raster runs, and its transmitters are trained. -/
def Dev.scoStarted (d : Dev) (k : Nat) : Dev := (d.setRaster k (d.rasterStarted k)).dpTrainOf k

theorem Dev.scoStarted_raster (d : Dev) (k : Nat) : (d.scoStarted k).raster k = d.rasterStarted k :=
  (Dev.dpTrainOf_raster _ _ _).trans (Dev.setRaster_raster _ _ _)

theorem Dev.scoStarted_raster_ne (d : Dev) {k j : Nat} (hne : j ≠ k) : (d.scoStarted k).raster j = d.raster j :=
  (Dev.dpTrainOf_raster _ _ _).trans (Dev.setRaster_raster_ne _ _ _ hne)

theorem Dev.scoStarted_keeps (d : Dev) (k : Nat) : Keeps (.sco :: byPost) d (d.scoStarted k) :=
  ((d.setRaster_keeps k _).mono (by decide)).trans (Dev.dpTrainOf_keeps _ _)

/-- A set that fails a check leaves its code, and is a set-up fault. -/
theorem scoStart_failed (r : CmdRef)
    (hne : d.scoErr (c.f 4 1 0) (rasterCfg fun o => d.reg (0x90000 + 0x100 * c.f 4 1 0 + o)) ≠ 0) :
    scoStart r c d = (d.setRaster (c.f 4 1 0) { d.raster (c.f 4 1 0) with
      cfgErr := d.scoErr (c.f 4 1 0) (rasterCfg fun o => d.reg (0x90000 + 0x100 * c.f 4 1 0 + o)) }).finish r
        stInvalidField 4 := by
  unfold scoStart
  simp only []
  rw [Dev.setupFault]

variable {k : Nat} (hc : s.dev.clear specScoStart r c = true) (hk : k = c.f 4 1 0)
include hc hk

theorem scoStart_fails (herr : s.dev.scoErr k (rasterCfg fun o => s.dev.reg (0x90000 + 0x100 * k + o)) ≠ 0) :
    ∃ t, exec (.scoStart r) s = .next t ∧ Answered s.dev t.dev r stInvalidField 4
      ∧ t.dev.raster k = { s.dev.raster k with
          cfgErr := s.dev.scoErr k (rasterCfg fun o => s.dev.reg (0x90000 + 0x100 * k + o)) }
      ∧ (∀ j, j ≠ k → t.dev.raster j = s.dev.raster j) ∧ Keeps (.sco :: byDone) s.dev t.dev := by
  subst hk
  have he := scoStart_failed (d := s.dev) (c := c) r herr
  obtain ⟨hnext, ha, hkeeps⟩ := cmd_finishes (i := .scoStart r) (by rw [exec, execScoStart]) hc he
    (Dev.setRaster_keeps _ _ _) (by decide) (by decide)
  exact ⟨_, hnext, ha, (Dev.finish_raster _ _ _ _ _).trans (Dev.setRaster_raster _ _ _),
    fun j hne => (Dev.finish_raster _ _ _ _ _).trans (Dev.setRaster_raster_ne _ _ _ hne), hkeeps⟩

theorem scoStart_starts (herr : s.dev.scoErr k (rasterCfg fun o => s.dev.reg (0x90000 + 0x100 * k + o)) = 0) :
    ∃ t, exec (.scoStart r) s = .next t ∧ t.pending = s.pending
      ∧ Answered s.dev t.dev r stSuccess (slotGranules (t.dev.rcfg k) + if t.dev.urPolicy then 65536 else 0)
      ∧ t.dev.raster k = s.dev.rasterStarted k ∧ (∀ j, j ≠ k → t.dev.raster j = s.dev.raster j)
      ∧ Keeps (.sco :: .fetch :: byPost) s.dev t.dev := by
  subst hk
  have he : scoStart r c s.dev
      = (s.dev.scoStarted (c.f 4 1 0)).finish r stSuccess ((s.dev.scoStarted (c.f 4 1 0)).startResult (c.f 4 1 0)) := by
    unfold scoStart
    simp only [herr]
    rfl
  obtain ⟨hnext, ha, hkeeps⟩ := cmd_finishes (i := .scoStart r) (by rw [exec, execScoStart]) hc he
    (s.dev.scoStarted_keeps _) (by decide) (by decide)
  have hdone := (s.dev.scoStarted (c.f 4 1 0)).finish_keeps r stSuccess
    ((s.dev.scoStarted (c.f 4 1 0)).startResult (c.f 4 1 0))
  refine ⟨_, hnext, rfl, ?_, (Dev.finish_raster _ _ _ _ _).trans (Dev.scoStarted_raster _ _),
    fun j hne => (Dev.finish_raster _ _ _ _ _).trans (Dev.scoStarted_raster_ne _ hne), hkeeps.mono (by decide)⟩
  rw [hdone.rcfg (by decide) (by decide), hdone.urPolicy (by decide) (by decide)]
  rw [show (if (s.dev.scoStarted (c.f 4 1 0)).urPolicy = true then 65536 else 0)
    = (s.dev.scoStarted (c.f 4 1 0)).urPolicy.toNat * 65536 by cases (s.dev.scoStarted (c.f 4 1 0)).urPolicy <;> rfl]
  exact ha

end Start

/-! ## SCO_STOP and SCO_RESTART (R366) -/

section StopRestart

variable {d : Dev} {s : State} {r : CmdRef} {c : Cmd} {k : Nat}

/-- Raster `k` at rest. -/
def Dev.rasterRested (d : Dev) (k : Nat) : Dev :=
  d.setRaster k { run := false, ks := false, cfgErr := (d.raster k).cfgErr, reports := (d.raster k).reports }

/-- A stop without restarts that wait completes the command that asked for it, with the last frame's number where there
was a frame. -/
theorem Dev.rasterStop_answers (hstop : (d.raster k).stopRef = some r) (hnone : (d.raster k).restarts = []) :
    ∃ e res, d.rasterStop k = e.finish r stSuccess res
      ∧ ((d.raster k).began = true → res = ((d.raster k).count + 4294967295) % 4294967296)
      ∧ e.raster k = (d.rasterRested k).raster k ∧ (∀ j, e.raster j = (d.rasterRested k).raster j)
      ∧ Keeps [.sco] d e := by
  have hset := Dev.setRaster_keeps d k
    { run := false, ks := false, cfgErr := (d.raster k).cfgErr, reports := (d.raster k).reports }
  cases hb : (d.raster k).began with
  | true =>
    exact ⟨d.rasterRested k, _, by simp [Dev.rasterStop, hstop, hnone, hb, Dev.rasterRested, Dev.finishAll, two32],
      fun _ => rfl, rfl, fun _ => rfl, hset⟩
  | false =>
    have hdraw := (d.rasterRested k).draw_keeps
    exact ⟨(d.rasterRested k).draw.2, (d.rasterRested k).draw.1 % two32,
      by simp [Dev.rasterStop, hstop, hnone, hb, Dev.rasterRested, Dev.finishAll],
      fun h => absurd h (by decide), hdraw.raster (by decide) _, hdraw.raster (by decide),
      hset.trans (hdraw.mono (by decide))⟩

/-- The stop of raster `k` waits for its frame. -/
def Dev.rasterStopping (d : Dev) (r : CmdRef) (k : Nat) : Dev :=
  (d.begin r).setRaster k { d.raster k with stopRef := some r }

theorem Dev.rasterStopping_raster (d : Dev) (r : CmdRef) (k : Nat) :
    (d.rasterStopping r k).raster k = { d.raster k with stopRef := some r } := Dev.setRaster_raster _ _ _

theorem scoStop_stops (hc : s.dev.clear specScoStop r c = true) (hk : k = c.f 4 1 0)
    (hnow : c.b 4 8 = true ∨ (s.dev.raster k).active = false) (hnone : (s.dev.raster k).restarts = []) :
    ∃ t res, exec (.scoStop r) s = .next t ∧ t.pending = s.pending ∧ Answered s.dev t.dev r stSuccess res
      ∧ ((s.dev.raster k).began = true → res = ((s.dev.raster k).count + 4294967295) % 4294967296)
      ∧ (t.dev.raster k).run = false ∧ (t.dev.raster k).reports = (s.dev.raster k).reports
      ∧ (∀ j, j ≠ k → t.dev.raster j = s.dev.raster j) ∧ Keeps (.sco :: byDone) s.dev t.dev := by
  subst hk
  have hold := s.dev.rasterStopping_raster r (c.f 4 1 0)
  obtain ⟨e, res, hstop, hres, hrest, hall, hk⟩ := Dev.rasterStop_answers (d := s.dev.rasterStopping r (c.f 4 1 0))
    (k := c.f 4 1 0) (r := r) (by rw [hold]) (by rw [hold]; exact hnone)
  have he : scoStop r c s.dev = e.finish r stSuccess res := (if_pos (by simpa using hnow)).trans hstop
  obtain ⟨hnext, ha, hkeeps⟩ := begunCmd_completes (i := .scoStop r) (by rw [exec, execScoStop]) hc he
    ((Dev.setRaster_keeps _ _ _).trans hk) (by decide) (by decide)
  rw [hold] at hres
  rw [Dev.rasterRested, Dev.setRaster_raster, hold] at hrest
  refine ⟨_, res, hnext, rfl, ha, hres, ?_, ?_, fun j hne => ?_, hkeeps⟩
  · rw [Dev.finish_raster, hrest]
  · rw [Dev.finish_raster, hrest]
  · rw [Dev.finish_raster, hall, Dev.rasterRested, Dev.setRaster_raster_ne _ _ _ hne]
    exact Dev.setRaster_raster_ne _ _ _ hne

theorem scoStop_waits (hc : s.dev.clear specScoStop r c = true) (hk : k = c.f 4 1 0) (hnow : c.b 4 8 = false)
    (hactive : (s.dev.raster k).active = true) :
    ∃ t, exec (.scoStop r) s = .next t ∧ Begun s.dev t.dev r c
      ∧ t.dev.raster k = { s.dev.raster k with stopRef := some r }
      ∧ (∀ j, j ≠ k → t.dev.raster j = s.dev.raster j) ∧ Keeps [.sco, .fetch] s.dev t.dev := by
  subst hk
  have he : scoStop r c s.dev = s.dev.rasterStopping r (c.f 4 1 0) :=
    if_neg (by rw [hnow]; simpa using hactive)
  obtain ⟨hnext, hb, hk⟩ := cmd_begins (i := .scoStop r) (by rw [exec, execScoStop]) hc he
    (Dev.setRaster_keeps _ _ _) (by decide) (by decide) (by decide)
  exact ⟨_, hnext, hb, Dev.rasterStopping_raster _ _ _, fun j hne => Dev.setRaster_raster_ne _ _ _ hne, hk⟩

theorem scoRestart_waits {blk : List Byte} (hc : s.dev.clear specScoRestart r c = true) (hk : k = c.f 4 1 0)
    (hgood : s.dev.scoBlkBad k (s.dev.blockOf false 0 64 blk) = []) :
    ∃ t, exec (.scoRestart r blk) s = .next t ∧ t.pending = s.pending ∧ Begun s.dev t.dev r c
      ∧ t.dev.raster k = { s.dev.raster k with
          restarts := (s.dev.raster k).restarts ++ [{ ref := r, bytes := s.dev.blockOf false 0 64 blk }] }
      ∧ (∀ j, j ≠ k → t.dev.raster j = s.dev.raster j) ∧ Keeps [.sco, .fetch] s.dev t.dev := by
  subst hk
  obtain ⟨hnext, hb, hk⟩ := blk_begins (i := .scoRestart r blk) (by rw [exec, execScoRestart]) hc hgood rfl
    (Dev.setRaster_keeps _ _ _) (by decide) (by decide) (by decide)
  exact ⟨_, hnext, rfl, hb, Dev.setRaster_raster _ _ _, fun j hne => Dev.setRaster_raster_ne _ _ _ hne, hk⟩

end StopRestart

end Sys2Proof.Machine
end

section
/-! SUPPORT. The events of a raster: its reader binds, a line leaves, a frame is reported, its lock source changes (O50). -/

namespace Sys2Proof.Machine

open Sys2Proof

/-! ## The reader binds (R352, R353) -/

section Bind

variable {d : Dev} {k : Nat}

theorem rasterShows_count (c : RasterCfg) (slots : Bool) (r : Raster) : (rasterShows c slots r).count = r.count := by
  unfold rasterShows
  split
  · rfl
  · split
    · split <;> rfl
    · split <;> rfl

/-- Without slots a generator is shown. -/
theorem rasterShows_generator (c : RasterCfg) (r : Raster) :
    (rasterShows c false r).shows = if c.content = 2 then .bars else .black := rfl

/-- The newest published slot. -/
theorem rasterShows_published {c : RasterCfg} {r : Raster} {p : Writer} (hchase : c.chase = false) (hpub : r.pub = some p) :
    rasterShows c true r
      = { r with shows := .slot p.slot p.serial p.index, front := p.slot, bound := some p, pub := none
                 repeated := false } := by
  simp [rasterShows, hchase, hpub]

/-- The slot before again. -/
theorem rasterShows_again {c : RasterCfg} {r : Raster} {p : Writer} (hchase : c.chase = false) (hpub : r.pub = none)
    (hbound : r.bound = some p) :
    rasterShows c true r = { r with shows := .slot p.slot p.serial p.index, repeated := true } := by
  simp [rasterShows, hchase, hpub, hbound]

/-- Whether a raster's frames come from slots. -/
def Dev.fromSlots (d : Dev) (k : Nat) : Bool :=
  (d.rcfg k).content == 0 || ((d.raster k).ks && k == 0 && d.boot.pilotReady)

/-- What raster `k` shows next. -/
def Dev.nextShown (d : Dev) (k : Nat) : Raster := rasterShows (d.rcfg k) (d.fromSlots k) (d.raster k)

/-- Raster `k` with its reader bound. -/
def Dev.rasterBound (d : Dev) (k : Nat) : Raster :=
  { d.nextShown k with
    active := true, line := 0, count := ((d.nextShown k).count + 1) % two32, began := true, policy := d.urPolicy, under := 0
    blank := false, ecc := false, lead := none, crcSdi := [], crcDp := [] }

theorem Dev.readerBind_binds (hnone : (d.raster k).restarts = []) : d.readerBind k = d.setRaster k (d.rasterBound k) := by
  have hrestarts : d.rasterRestarts k = d := by simp [Dev.rasterRestarts, hnone]
  unfold Dev.readerBind
  rw [hrestarts]
  rfl

theorem Dev.spkRestarts_keeps (d : Dev) (n : Nat) : Keeps [.spk] d (d.spkRestarts n) := by
  unfold Dev.spkRestarts
  simp only []
  split
  · exact .refl _ _
  · exact Dev.setSpk_keeps _ _ _

theorem Dev.rasterBind_none (h : (d.raster k).run = false ∨ d.boot.refDone = false ∨ (d.raster k).active = true) :
    d.rasterBind k = d := if_pos (by rcases h with h | h | h <;> simp [h])

theorem Dev.rasterBind_binds (hrun : (d.raster k).run = true) (href : d.boot.refDone = true)
    (hidle : (d.raster k).active = false) (hnone : (d.raster k).restarts = []) :
    Keeps [.spk] (d.setRaster k (d.rasterBound k)) (d.rasterBind k) := by
  have hgoes : ¬ (!(d.raster k).run || !d.boot.refDone || (d.raster k).active) = true := by simp [hrun, href, hidle]
  unfold Dev.rasterBind
  simp only []
  rw [if_neg hgoes, Dev.readerBind_binds hnone]
  exact Keeps.foldl _ (fun e _ => (Keeps.refl _ e).ifThen (e.spkRestarts_keeps _)) _ _

theorem Dev.fromSlots_generator (hks : (d.raster k).ks = false) (hc : (d.rcfg k).content ≠ 0) :
    d.fromSlots k = false := by
  simp [Dev.fromSlots, hks, hc]

theorem Dev.fromSlots_slots (hc : (d.rcfg k).content = 0) : d.fromSlots k = true := by simp [Dev.fromSlots, hc]

end Bind

section BindEvent

variable {s : State} {k : Fin 4} {v : Raster} {g : RasterCfg}

theorem readerBind_binds (hi : s.dev.idleMode = true) (hv : v = s.dev.raster k.val) (hg : g = s.dev.rcfg k.val)
    (hrun : v.run = true) (href : s.dev.boot.refDone = true) (hidle : v.active = false) (hnone : v.restarts = []) :
    ∃ t w, exec (.rasterReaderBind k) s = .next t ∧ w = t.dev.raster k.val ∧ w.active = true ∧ w.line = 0
      ∧ w.count = (v.count + 1) % 4294967296 ∧ w.policy = s.dev.urPolicy
      ∧ (v.ks = false → g.content = 1 → w.shows = .black) ∧ (v.ks = false → g.content = 2 → w.shows = .bars)
      ∧ (∀ p, v.ks = false → g.content = 0 → g.chase = false → v.pub = some p →
          w.shows = .slot p.slot p.serial p.index ∧ w.front = p.slot ∧ w.pub = none ∧ w.repeated = false)
      ∧ (∀ p, v.ks = false → g.content = 0 → g.chase = false → v.pub = none → v.bound = some p →
          w.shows = .slot p.slot p.serial p.index ∧ w.repeated = true)
      ∧ (∀ j, j ≠ k.val → t.dev.raster j = s.dev.raster j) ∧ Keeps [.sco, .spk] s.dev t.dev := by
  subst hv hg
  have hbind := Dev.rasterBind_binds hrun href hidle hnone
  have hall : Keeps [.sco, .spk] s.dev (s.dev.rasterBind k.val) :=
    ((Dev.setRaster_keeps _ _ _).mono (by decide)).trans (hbind.mono (by decide))
  refine ⟨_, s.dev.rasterBound k.val, event_effect (f := fun d => d.rasterBind k.val) rfl hi rfl hall (by decide),
    ((hbind.raster (by decide) _).trans (Dev.setRaster_raster _ _ _)).symm, rfl, rfl, ?count, rfl, fun hks hc => ?black,
    fun hks hc => ?bars, fun p _ hc hchase hpub => ?published, fun p _ hc hchase hpub hbound => ?again,
    fun j hne => (hbind.raster (by decide) j).trans (Dev.setRaster_raster_ne _ _ _ hne), hall⟩
  case count =>
    simp only [Dev.rasterBound, Dev.nextShown, rasterShows_count, two32]
  case black =>
    simp only [Dev.rasterBound, Dev.nextShown, Dev.fromSlots_generator hks (by rw [hc]; decide), rasterShows_generator, hc]
    rfl
  case bars =>
    simp only [Dev.rasterBound, Dev.nextShown, Dev.fromSlots_generator hks (by rw [hc]; decide), rasterShows_generator, hc]
    rfl
  case published =>
    simp only [Dev.rasterBound, Dev.nextShown, Dev.fromSlots_slots hc, rasterShows_published hchase hpub, and_self]
  case again =>
    simp only [Dev.rasterBound, Dev.nextShown, Dev.fromSlots_slots hc, rasterShows_again hchase hpub hbound, and_self]

end BindEvent

/-! ## A line leaves (R355, R356) -/

/-- What a line of raster `v` leaves alone. -/
structure SameFrame (v w : Raster) : Prop where
  ks : w.ks = v.ks
  latched : w.latched = v.latched
  count : w.count = v.count
  active : w.active = v.active
  shows : w.shows = v.shows
  reports : w.reports = v.reports
  stopRef : w.stopRef = v.stopRef

theorem SameFrame.trans {v w x : Raster} (h : SameFrame v w) (k : SameFrame w x) : SameFrame v x :=
  ⟨k.ks.trans h.ks, k.latched.trans h.latched, k.count.trans h.count, k.active.trans h.active, k.shows.trans h.shows,
    k.reports.trans h.reports, k.stopRef.trans h.stopRef⟩

/-- The lines of raster `k` change nothing but that raster, and parts of `b`. -/
structure Dev.LineStep (b : List Part) (k : Nat) (d e : Dev) : Prop where
  same : SameFrame (d.raster k) (e.raster k)
  others : ∀ j, j ≠ k → e.raster j = d.raster j
  keeps : Keeps b d e

section Line

variable {b : List Part} {d e f : Dev} {k y : Nat}

theorem Dev.LineStep.trans (h : d.LineStep b k e) (g : e.LineStep b k f) : d.LineStep b k f :=
  ⟨h.same.trans g.same, fun j hne => (g.others j hne).trans (h.others j hne), h.keeps.trans g.keeps⟩

theorem Dev.LineStep.rcfg (h : d.LineStep b k e) (hb : .boot ∉ b) : e.rcfg k = d.rcfg k :=
  Dev.rcfg_congr (h.keeps .boot hb) h.same.ks h.same.latched

theorem Dev.LineStep.mono {a : List Part} (h : d.LineStep a k e) (hab : a ⊆ b) : d.LineStep b k e :=
  ⟨h.same, h.others, h.keeps.mono hab⟩

/-- A step that keeps the rasters. -/
theorem Keeps.lineStep (h : Keeps b d e) (hb : .sco ∉ b) (k : Nat) : d.LineStep b k e :=
  ⟨by rw [h.raster hb]; exact ⟨rfl, rfl, rfl, rfl, rfl, rfl, rfl⟩, fun j _ => h.raster hb j, h⟩

theorem Dev.setRaster_lineStep {v : Raster} (h : SameFrame (d.raster k) v) : d.LineStep [.sco] k (d.setRaster k v) :=
  ⟨by rw [Dev.setRaster_raster]; exact h, fun _ hne => Dev.setRaster_raster_ne _ _ _ hne, Dev.setRaster_keeps _ _ _⟩

/-- The row that leaves, where the raster shows black and no read of this frame has failed. -/
theorem Dev.rasterRead_black {bad : Option Nat} {ecc : Nat} (hblack : (d.raster k).shows = .black)
    (hblank : (d.raster k).blank = false) :
    (d.rasterRead k y bad ecc).1
      = List.replicate (d.rcfg k).hact (blackOf (d.rcfg k).bits (d.rcfg k).full ((d.rcfg k).samp == 2)) := by
  simp [Dev.rasterRead, hblack, hblank, Dev.firstLost, Dev.rasterSource]

theorem Dev.rasterRead_step (d : Dev) (k y : Nat) (bad : Option Nat) (ecc : Nat) :
    d.LineStep [.sco, .ctrs] k (d.rasterRead k y bad ecc).2 := by
  have hset : ∀ (e : Dev) (v : Raster), Keeps [.ctrs] d e → SameFrame (d.raster k) v →
      d.LineStep [.sco, .ctrs] k (e.setRaster k v) := fun e v he hv =>
    ⟨by rw [Dev.setRaster_raster]; exact hv,
      fun j hne => (Dev.setRaster_raster_ne _ _ _ hne).trans (he.raster (by decide) j),
      (he.mono (by decide)).trans ((Dev.setRaster_keeps _ _ _).mono (by decide))⟩
  unfold Dev.rasterRead
  refine hset _ _ ?_ ⟨rfl, rfl, rfl, rfl, rfl, rfl, rfl⟩
  exact (((Keeps.refl _ _).ifThen (Dev.count_keeps _ _ _)).ifThen (Dev.count_keeps _ _ _)).ifThen (Dev.count_keeps _ _ _)

/-- Line 0 is the frame start (R354). -/
def Dev.lineStart (d : Dev) (k : Nat) : Dev :=
  if (d.raster k).line = 0 then
    d.setRaster k { d.raster k with
      time := d.now, policy := d.urPolicy
      dpUp := (rangeFrom 0 2).foldl (fun m j => m + if (d.dpTx j).trained then 2 ^ j else 0) 0 }
  else d

theorem Dev.lineStart_step (d : Dev) (k : Nat) : d.LineStep [.sco] k (d.lineStart k) := by
  unfold Dev.lineStart
  split
  · exact Dev.setRaster_lineStep ⟨rfl, rfl, rfl, rfl, rfl, rfl, rfl⟩
  · exact ⟨⟨rfl, rfl, rfl, rfl, rfl, rfl, rfl⟩, fun _ _ => rfl, .refl _ _⟩

theorem Dev.lineStart_blank (d : Dev) (k : Nat) : ((d.lineStart k).raster k).blank = (d.raster k).blank := by
  unfold Dev.lineStart
  split
  · rw [Dev.setRaster_raster]
  · rfl

/-- What leaves with line `y`: the row, and a second one where the raster drives DisplayPort. -/
def lineOut (k y dpOut : Nat) (row dp : List (Nat × Nat × Nat)) : List Out :=
  .rasterLine k y row :: (if dpOut = 0 then [] else [.dpLine k y dp])

/-- Row `row` of line `y`, as `dp` on DisplayPort, is in the CRCs. -/
def Dev.lineSummed (d : Dev) (k y : Nat) (row dp : List (Nat × Nat × Nat)) : Dev :=
  d.setRaster k { d.raster k with
    line := y + 1, crcSdi := crcRow true row (d.raster k).crcSdi
    crcDp := crcRow ((d.rcfg k).samp == 0 && !(d.raster k).ks) dp (d.raster k).crcDp }

/-- Line `y` has been read, and its row `row` leaves, as `dp` on DisplayPort. -/
def Dev.lineSent (d : Dev) (k y : Nat) (row dp : List (Nat × Nat × Nat)) : Dev :=
  let e := (d.lineSummed k y row dp).emit (.rasterLine k y row)
  if (d.rcfg k).dp = 0 then e else e.emit (.dpLine k y dp)

theorem Dev.lineSent_out (d : Dev) (k y : Nat) (row dp : List (Nat × Nat × Nat)) :
    (d.lineSent k y row dp).out = d.out ++ lineOut k y (d.rcfg k).dp row dp := by
  unfold Dev.lineSent lineOut
  split <;> simp [Dev.emit, Dev.lineSummed]

/-- The row leaves the rasters alone. -/
theorem Dev.lineSent_keeps (d : Dev) (k y : Nat) (row dp : List (Nat × Nat × Nat)) :
    Keeps [.out] (d.lineSummed k y row dp) (d.lineSent k y row dp) :=
  (Dev.emit_keeps _ _).ifElse (Dev.emit_keeps _ _)

theorem Dev.lineSent_line (d : Dev) (k y : Nat) (row dp : List (Nat × Nat × Nat)) :
    ((d.lineSent k y row dp).raster k).line = y + 1 := by
  rw [(d.lineSent_keeps k y row dp).raster (by decide), Dev.lineSummed, Dev.setRaster_raster]

theorem Dev.lineSent_step (d : Dev) (k y : Nat) (row dp : List (Nat × Nat × Nat)) :
    d.LineStep [.sco, .out] k (d.lineSent k y row dp) := by
  have hsum : d.LineStep [.sco] k (d.lineSummed k y row dp) :=
    Dev.setRaster_lineStep ⟨rfl, rfl, rfl, rfl, rfl, rfl, rfl⟩
  exact (hsum.mono (by decide)).trans (((d.lineSent_keeps k y row dp).lineStep (by decide) k).mono (by decide))

/-- What leaves with the next line of raster `k`. -/
def Dev.nextRow (d : Dev) (k : Nat) (bad : Option Nat) (ecc : Nat) : List (Nat × Nat × Nat) :=
  ((d.lineStart k).rasterRead k (d.raster k).line bad ecc).1

/-- Raster `k` once its next line has left. -/
def Dev.lineRead (d : Dev) (k : Nat) (bad : Option Nat) (ecc : Nat) : Dev :=
  ((d.lineStart k).rasterRead k (d.raster k).line bad ecc).2

def Dev.nextDpRow (d : Dev) (k : Nat) (bad : Option Nat) (ecc : Nat) : List (Nat × Nat × Nat) :=
  (d.lineRead k bad ecc).dpRow k (d.nextRow k bad ecc)

def Dev.lineLeft (d : Dev) (k : Nat) (bad : Option Nat) (ecc : Nat) : Dev :=
  (d.lineRead k bad ecc).lineSent k (d.raster k).line (d.nextRow k bad ecc) (d.nextDpRow k bad ecc)

variable (d k) (bad : Option Nat) (ecc : Nat)

theorem Dev.lineRead_step : d.LineStep [.sco, .ctrs] k (d.lineRead k bad ecc) :=
  ((d.lineStart_step k).mono (by decide)).trans (Dev.rasterRead_step _ _ _ _ _)

theorem Dev.lineLeft_step : d.LineStep [.sco, .ctrs, .out] k (d.lineLeft k bad ecc) :=
  ((d.lineRead_step k bad ecc).mono (by decide)).trans ((Dev.lineSent_step _ _ _ _ _).mono (by decide))

theorem Dev.lineLeft_out :
    (d.lineLeft k bad ecc).out
      = d.out ++ lineOut k (d.raster k).line (d.rcfg k).dp (d.nextRow k bad ecc) (d.nextDpRow k bad ecc) := by
  have hread := d.lineRead_step k bad ecc
  have hout : (d.lineRead k bad ecc).out = d.out := hread.keeps .out (by decide)
  rw [Dev.lineLeft, Dev.lineSent_out, hout, hread.rcfg (by decide)]

theorem Dev.rasterLine_eq :
    d.rasterLine k bad ecc = if (d.rcfg k).vact ≤ (d.raster k).line + 1 then (d.lineLeft k bad ecc).rasterEnd k
      else d.lineLeft k bad ecc := by
  rw [← (d.lineRead_step k bad ecc).rcfg (by decide) (k := k)]
  rfl

variable {d k} {bad ecc}

theorem Dev.nextRow_black (hblack : (d.raster k).shows = .black) (hblank : (d.raster k).blank = false) :
    d.nextRow k bad ecc
      = List.replicate (d.rcfg k).hact (blackOf (d.rcfg k).bits (d.rcfg k).full ((d.rcfg k).samp == 2)) := by
  rw [← (d.lineStart_step k).rcfg (by decide)]
  exact Dev.rasterRead_black ((d.lineStart_step k).same.shows.trans hblack) ((d.lineStart_blank k).trans hblank)

theorem Dev.nextDpRow_same (hks : (d.raster k).ks = false) : d.nextDpRow k bad ecc = d.nextRow k bad ecc := by
  have hks' := (d.lineRead_step k bad ecc).same.ks.trans hks
  simp [Dev.nextDpRow, Dev.dpRow, hks']

theorem Dev.nextDpRow_black (hks : (d.raster k).ks = true) (hblack : (d.raster k).shows = .black) :
    d.nextDpRow k bad ecc = List.replicate (d.rcfg k).hact (blackOf 10 false true) := by
  have hread := d.lineRead_step k bad ecc
  simp [Dev.nextDpRow, Dev.dpRow, hread.same.ks.trans hks, hread.same.shows.trans hblack, hread.rcfg]

/-! ## The last line, and what a line starts (R209, R360) -/

theorem Dev.rasterEnd_keeps (d : Dev) (k : Nat) : Keeps [.sco, .ctrs] d (d.rasterEnd k) :=
  (((Dev.setRaster_keeps _ _ _).mono (by decide)).ifThen ((Dev.count_keeps _ _ _).mono (by decide))).trans
    ((Keeps.refl _ _).ifThen ((Dev.count_keeps _ _ _).mono (by decide)))

theorem Dev.rasterEnd_raster (d : Dev) (k : Nat) :
    (d.rasterEnd k).raster k
      = { d.raster k with
          active := false, crash := false, reports := (d.raster k).reports ++ [d.frameRep k] } := by
  have hcount : ∀ (e : Dev) o n, (e.count o n).raster k = e.raster k := fun e o n =>
    (e.count_keeps o n).raster (by decide) k
  unfold Dev.rasterEnd
  simp only []
  split
  · rw [hcount]; split
    · rw [hcount, Dev.setRaster_raster]
    · rw [Dev.setRaster_raster]
  · split
    · rw [hcount, Dev.setRaster_raster]
    · rw [Dev.setRaster_raster]

theorem Dev.paceSpks_keeps (d : Dev) (k : Nat) : Keeps [.spk] d (d.paceSpks k) :=
  Keeps.foldl _ (fun e _ => (Keeps.refl _ e).ifThen (e.modSpk_keeps _ _)) _ _

/-- Line 0 has paced the sprockets. -/
def Dev.linePaced (d : Dev) (k : Nat) : Dev := if (d.raster k).line = 0 then d.paceSpks k else d

theorem Dev.linePaced_keeps (d : Dev) (k : Nat) : Keeps [.spk] d (d.linePaced k) :=
  (Keeps.refl _ d).ifThen (d.paceSpks_keeps k)

/-- Without a stop that waits, a line of an active raster is that line alone. -/
theorem Dev.rasterStep_line (hrun : (d.raster k).run = true) (hact : (d.raster k).active = true) {e : Dev}
    (he : (d.linePaced k).rasterLine k bad ecc = e)
    (hgoes : (e.raster k).active = true ∨ (e.raster k).stopRef = none) : d.rasterStep k bad ecc = e := by
  have hstop : ¬ (!(e.raster k).active && (e.raster k).stopRef.isSome) = true := by
    rcases hgoes with h | h <;> simp [h]
  subst he
  exact (if_neg (by simp [hrun, hact])).trans (if_neg hstop)

end Line

section LineEvent

variable {s : State} {k : Fin 4} {v : Raster} {g : RasterCfg}

theorem rasterLine_none (hi : s.dev.idleMode = true)
    (h : (s.dev.raster k.val).run = false ∨ (s.dev.raster k.val).active = false) (b : Option Nat) (n : Nat) :
    exec (.rasterLine k b n) s = .next s :=
  event_none (f := fun d => d.rasterStep k.val b n) rfl hi (if_pos (by rcases h with h | h <;> simp [h]))

variable (hi : s.dev.idleMode = true) (hv : v = s.dev.raster k.val) (hg : g = s.dev.rcfg k.val) (hrun : v.run = true)
  (hact : v.active = true) (b : Option Nat) (n : Nat)
include hi hv hg hrun hact

theorem rasterLine_next (hline : v.line + 1 < g.vact) :
    ∃ t row dp, exec (.rasterLine k b n) s = .next t ∧ (t.dev.raster k.val).line = v.line + 1
      ∧ (t.dev.raster k.val).active = true
      ∧ t.dev.out = s.dev.out ++ .rasterLine k.val v.line row :: (if g.dp = 0 then [] else [.dpLine k.val v.line dp])
      ∧ (v.ks = false → dp = row)
      ∧ (v.ks = true → v.shows = .black → dp = List.replicate g.hact (blackOf 10 false true))
      ∧ (v.shows = .black → v.blank = false → row = List.replicate g.hact (blackOf g.bits g.full (g.samp == 2)))
      ∧ (∀ j, j ≠ k.val → t.dev.raster j = s.dev.raster j) ∧ Keeps [.sco, .spk, .ctrs, .out] s.dev t.dev := by
  have hpace := s.dev.linePaced_keeps k.val
  have hout : (s.dev.linePaced k.val).out = s.dev.out := hpace .out (by decide)
  rw [← hpace.raster (by decide)] at hv
  rw [← hpace.rcfg (by decide) (by decide)] at hg
  have hleft := (s.dev.linePaced k.val).lineLeft_step k.val b n
  subst hv hg
  have hstep : s.dev.rasterStep k.val b n = (s.dev.linePaced k.val).lineLeft k.val b n :=
    Dev.rasterStep_line (by rw [← hpace.raster (by decide)]; exact hrun) (by rw [← hpace.raster (by decide)]; exact hact)
      ((Dev.rasterLine_eq _ _ _ _).trans (if_neg (by omega))) (.inl (hleft.same.active.trans hact))
  have hall := (hpace.mono (b := [.sco, .spk, .ctrs, .out]) (by decide)).trans (hleft.keeps.mono (by decide))
  exact ⟨_, _, _, event_effect (f := fun d => d.rasterStep k.val b n) rfl hi hstep hall (by decide),
    Dev.lineSent_line _ _ _ _ _, hleft.same.active.trans hact, (Dev.lineLeft_out _ _ _ _).trans (by rw [hout]; rfl),
    Dev.nextDpRow_same, Dev.nextDpRow_black, Dev.nextRow_black,
    fun j hne => (hleft.others j hne).trans (hpace.raster (by decide) j), hall⟩

theorem rasterLine_last (hline : g.vact ≤ v.line + 1) (hstop : v.stopRef = none) :
    ∃ t row dp f, exec (.rasterLine k b n) s = .next t ∧ (t.dev.raster k.val).active = false
      ∧ t.dev.out = s.dev.out ++ .rasterLine k.val v.line row :: (if g.dp = 0 then [] else [.dpLine k.val v.line dp])
      ∧ (t.dev.raster k.val).reports = v.reports ++ [f]
      ∧ f.out = (v.count + 4294967295) % 4294967296 ∧ f.report = g.report
      ∧ Keeps [.sco, .spk, .ctrs, .out] s.dev t.dev := by
  have hpace := s.dev.linePaced_keeps k.val
  have hout : (s.dev.linePaced k.val).out = s.dev.out := hpace .out (by decide)
  rw [← hpace.raster (by decide)] at hv
  rw [← hpace.rcfg (by decide) (by decide)] at hg
  have hleft := (s.dev.linePaced k.val).lineLeft_step k.val b n
  subst hv hg
  have hend := ((s.dev.linePaced k.val).lineLeft k.val b n).rasterEnd_keeps k.val
  have hraster := ((s.dev.linePaced k.val).lineLeft k.val b n).rasterEnd_raster k.val
  have hstep : s.dev.rasterStep k.val b n = ((s.dev.linePaced k.val).lineLeft k.val b n).rasterEnd k.val :=
    Dev.rasterStep_line (by rw [← hpace.raster (by decide)]; exact hrun) (by rw [← hpace.raster (by decide)]; exact hact)
      ((Dev.rasterLine_eq _ _ _ _).trans (if_pos hline)) (.inr (by rw [hraster]; exact hleft.same.stopRef.trans hstop))
  have hall := ((hpace.mono (b := [.sco, .spk, .ctrs, .out]) (by decide)).trans (hleft.keeps.mono (by decide))).trans
    (hend.mono (by decide))
  refine ⟨_, _, _, ((s.dev.linePaced k.val).lineLeft k.val b n).frameRep k.val,
    event_effect (f := fun d => d.rasterStep k.val b n) rfl hi hstep hall (by decide), by rw [hraster],
    (hend .out (by decide)).trans ((Dev.lineLeft_out _ _ _ _).trans (by rw [hout]; rfl)), ?_, ?_, ?_, hall⟩
  · rw [hraster, hleft.same.reports]
  · simp only [Dev.frameRep, hleft.same.count, two32]
  · simp only [Dev.frameRep, hleft.rcfg (by decide)]

end LineEvent

/-! ## FRAME_OUT, and the lock source (R344, R359, R360) -/

section Report

variable {s : State} {d : Dev} {k : Fin 4} {v : Raster} {f : FrameRep} {fs : List FrameRep} {pins : List PinCrc}

theorem frameOut_none (hi : s.dev.idleMode = true) (hv : v = s.dev.raster k.val) (h : v.reports = []) :
    exec (.frameOut k pins) s = .next s :=
  event_none (f := fun d => d.frameOut k.val pins) rfl hi (by simp [Dev.frameOut, ← hv, h])

/-- The report has been taken, and a mismatch counted. -/
def Dev.reportTaken (d : Dev) (k : Nat) (f : FrameRep) (fs : List FrameRep) (pins : List PinCrc) : Dev :=
  let e := d.setRaster k { d.raster k with reports := fs }
  if mismatchOf f pins = 0 then e else e.count (0x90070 + 0x100 * k) 1

theorem Dev.reportTaken_keeps (d : Dev) (k : Nat) (f : FrameRep) (fs : List FrameRep) (pins : List PinCrc) :
    Keeps [.sco, .ctrs] d (d.reportTaken k f fs pins) := by
  unfold Dev.reportTaken
  simp only []
  split
  · exact (Dev.setRaster_keeps _ _ _).mono (by decide)
  · exact ((Dev.setRaster_keeps _ _ _).mono (by decide)).trans ((Dev.count_keeps _ _ _).mono (by decide))

theorem Dev.reportTaken_raster (d : Dev) (k : Nat) (f : FrameRep) (fs : List FrameRep) (pins : List PinCrc) :
    (d.reportTaken k f fs pins).raster k = { d.raster k with reports := fs } := by
  unfold Dev.reportTaken
  simp only []
  split
  · exact Dev.setRaster_raster _ _ _
  · rw [(Dev.count_keeps _ _ _).raster (by decide), Dev.setRaster_raster]

theorem Dev.frameOut_takes {k : Nat} (h : (d.raster k).reports = f :: fs) :
    d.frameOut k pins = if f.report then
        ({ d.reportTaken k f fs pins with free := (d.reportTaken k f fs pins).free + 6 }).post 0x2001 2 f.index 9 k
          (frameOutBody (d.reportTaken k f fs pins).free k f pins) f.time
      else d.reportTaken k f fs pins := by
  simp only [Dev.frameOut, h]
  rfl

theorem frameOut_counts (hi : s.dev.idleMode = true) (hv : v = s.dev.raster k.val) (h : v.reports = f :: fs)
    (hquiet : f.report = false) :
    ∃ t, exec (.frameOut k pins) s = .next t ∧ t.dev.raster k.val = { v with reports := fs }
      ∧ (mismatchOf f pins = 0 → t.dev.ctrs = s.dev.ctrs)
      ∧ (mismatchOf f pins ≠ 0 → t.dev.ctrs = (s.dev.count (0x90070 + 0x100 * k.val) 1).ctrs)
      ∧ Keeps [.sco, .ctrs] s.dev t.dev := by
  subst hv
  have he : s.dev.frameOut k.val pins = s.dev.reportTaken k.val f fs pins :=
    (Dev.frameOut_takes h).trans (if_neg (by simp [hquiet]))
  have hk := s.dev.reportTaken_keeps k.val f fs pins
  refine ⟨_, event_effect (f := fun d => d.frameOut k.val pins) rfl hi he hk (by decide),
    Dev.reportTaken_raster _ _ _ _ _, fun h0 => ?_, fun hne => ?_, hk⟩
  · simp [Dev.reportTaken, h0]
  · simp [Dev.reportTaken, hne, Dev.count]

theorem frameOut_posts (hi : s.dev.idleMode = true) (hv : v = s.dev.raster k.val) (h : v.reports = f :: fs)
    (hreport : f.report = true) {n : Nat} (hn : s.dev.ringOf 2 = some n) (hfits : s.dev.fits n 2 = true) :
    ∃ t slot rc, exec (.frameOut k pins) s = .next t ∧ t.dev.raster k.val = { v with reports := fs }
      ∧ Out.record n slot rc ∈ t.dev.out ∧ rc.type = 0x2001 ∧ rc.frame = f.index ∧ rc.page = 9 ∧ rc.inst = k.val
      ∧ rc.time = ltsForm f.time ∧ Keeps (.sco :: byPost) s.dev t.dev := by
  subst hv
  have he := (Dev.frameOut_takes (pins := pins) h).trans (if_pos hreport)
  have hk := s.dev.reportTaken_keeps k.val f fs pins
  have hraster := s.dev.reportTaken_raster k.val f fs pins
  generalize s.dev.reportTaken k.val f fs pins = e at he hk hraster
  have hdraw : Keeps [] e { e with free := e.free + 6 } := by
    intro p _
    cases p <;> simp [Part.same]
  have hpost := Dev.post_keeps { e with free := e.free + 6 } 0x2001 2 f.index 9 k.val (frameOutBody e.free k.val f pins)
    f.time
  have hrings : ({ e with free := e.free + 6 } : Dev).hif.rings = s.dev.hif.rings := hk .rings (by decide)
  obtain ⟨slot, gap, ph, q, hrec⟩ := Dev.post_record_as_given (d := { e with free := e.free + 6 }) 0x2001 2 f.index 9 k.val
    (frameOutBody e.free k.val f pins) f.time ((Dev.ringOf_congr hrings _).trans hn)
    ((Dev.fits_congr hrings _ _).trans hfits)
  have hall := ((hk.mono (b := .sco :: byPost) (by decide)).trans (hdraw.mono (by simp))).trans (hpost.mono (by simp))
  exact ⟨_, slot, _, event_effect (f := fun d => d.frameOut k.val pins) rfl hi he hall (by decide),
    (hpost.raster (by decide) _).trans hraster, hrec, rfl, rfl, rfl, rfl, rfl, hall⟩

/-- The source of raster `k` is gone (R344). -/
def Dev.lockLost (d : Dev) (k : Nat) : Dev :=
  if (d.raster k).run && (d.rcfg k).lock != 0 then d.setRaster k { d.raster k with locked := false } else d

theorem exec_lockSourceLost : exec (.lockSourceLost k) s = lift (fun d => d.lockLost k.val) s := by
  rw [exec, execLockSourceLost]
  rfl

/-- The source of raster `k` is back (R344). -/
def Dev.lockRegained (d : Dev) (k lines : Nat) : Dev :=
  if (d.raster k).run && (d.rcfg k).lock != 0 && !(d.raster k).locked then
    d.setRaster k { d.raster k with locked := true, crash := (d.raster k).crash || decide (1 < lines) }
  else d

theorem exec_lockSourceRegained (lines : Nat) :
    exec (.lockSourceRegained k lines) s = lift (fun d => d.lockRegained k.val lines) s := by
  rw [exec, execLockSourceRegained]
  rfl

theorem lockSourceLost_clears (hi : s.dev.idleMode = true) (hv : v = s.dev.raster k.val) (hrun : v.run = true)
    (hlock : (s.dev.rcfg k.val).lock ≠ 0) :
    ∃ t, exec (.lockSourceLost k) s = .next t ∧ t.dev.raster k.val = { v with locked := false }
      ∧ (∀ j, j ≠ k.val → t.dev.raster j = s.dev.raster j) ∧ Keeps [.sco] s.dev t.dev := by
  subst hv
  have hk := s.dev.setRaster_keeps k.val { s.dev.raster k.val with locked := false }
  exact ⟨_, event_effect exec_lockSourceLost hi
    (if_pos (by simp [hrun, hlock])) hk (by decide), Dev.setRaster_raster _ _ _,
    fun j hne => Dev.setRaster_raster_ne _ _ _ hne, hk⟩

theorem lockSourceRegained_locks (hi : s.dev.idleMode = true) (hv : v = s.dev.raster k.val) (hrun : v.run = true)
    (hlock : (s.dev.rcfg k.val).lock ≠ 0) (e : Nat) (hlost : v.locked = false) :
    ∃ t, exec (.lockSourceRegained k e) s = .next t
      ∧ t.dev.raster k.val = { v with locked := true, crash := v.crash || decide (1 < e) }
      ∧ (∀ j, j ≠ k.val → t.dev.raster j = s.dev.raster j) ∧ Keeps [.sco] s.dev t.dev := by
  subst hv
  have hk := s.dev.setRaster_keeps k.val { s.dev.raster k.val with
    locked := true, crash := (s.dev.raster k.val).crash || decide (1 < e) }
  exact ⟨_, event_effect (exec_lockSourceRegained e) hi
    (if_pos (by simp [hrun, hlock, hlost])) hk (by decide), Dev.setRaster_raster _ _ _,
    fun j hne => Dev.setRaster_raster_ne _ _ _ hne, hk⟩

end Report

/-- Settles O50: a raster's commands by what they find, and its events along the life of a frame. -/
theorem rastersRun : Obligations.RastersRun := by
  unfold Obligations.RastersRun
  refine ⟨fun s r c k hc hk => ⟨scoStart_fails hc hk, fun herr => ?start⟩,
    fun s r c k hc hk => ⟨scoStop_stops hc hk, scoStop_waits hc hk⟩, fun s r c blk k hc hk => scoRestart_waits hc hk,
    fun s k v g hi hv hg => ⟨fun h => ?_, readerBind_binds hi hv hg, fun h => ?_,
      fun b n hrun hact => rasterLine_next hi hv hg hrun hact b n,
      fun b n hrun hact => rasterLine_last hi hv hg hrun hact b n, fun _ => frameOut_none hi hv,
      fun _ _ _ => frameOut_counts hi hv, fun _ _ _ _ h hrep hn => frameOut_posts hi hv h hrep hn, fun hrun hlock => ?_⟩⟩
  case start =>
    obtain ⟨t, hnext, hpend, ha, hraster, hothers, hkeeps⟩ := scoStart_starts hc hk herr
    refine ⟨t, hnext, hpend, ha, ?_⟩
    rw [hraster]
    exact ⟨rfl, rfl, rfl, rfl, rfl, fun i hi => Dev.scoLatch_reg _ _ hi, hothers, hkeeps⟩
  · subst hv
    exact event_none (f := fun d => d.rasterBind k.val) rfl hi (Dev.rasterBind_none h)
  · subst hv
    exact rasterLine_none hi h
  · subst hg
    exact ⟨lockSourceLost_clears hi hv hrun hlock, lockSourceRegained_locks hi hv hrun hlock⟩

end Sys2Proof.Machine
end

section
/-! SUPPORT. DisplayPort transmitters: training, hot plug and DP_AUX (O51). -/

namespace Sys2Proof.Machine

open Sys2Proof

/-! ## What the setting of a link comes from (R346, R347) -/

/-- The settings of the rasters, their straps and the set-up registers are the same. -/
structure Dev.SameSets (d e : Dev) : Prop where
  boot : e.boot = d.boot
  regs : e.regs = d.regs
  run : ∀ k, (e.raster k).run = (d.raster k).run
  ks : ∀ k, (e.raster k).ks = (d.raster k).ks
  latched : ∀ k, (e.raster k).latched = (d.raster k).latched

/-- The setting that training of transmitter `j` picks for raster `k` and a sink. -/
def Dev.dpChoice (d : Dev) (j k : Nat) (sink : SinkFacts) : Option (Nat × Nat) :=
  (if (d.raster k).ks then dpStandby else dpLowest) ((dpSettings (d.rcfg k) (d.dpBpp k)
    (min (d.fld (0x90800 + 0x20 * j) 5 4) sink.maxLanes)
    (min (d.fld (0x90800 + 0x20 * j) 2 0) sink.maxRate)).filter fun x => !sink.failing.contains x)

section Sets

variable {d e f : Dev} {b : List Part}

theorem Keeps.sameSets (hk : Keeps b d e) (hboot : .boot ∉ b) (hregs : .regs ∉ b)
    (h : e.sco.rasters = d.sco.rasters) : d.SameSets e := by
  have hr : ∀ k, e.raster k = d.raster k := fun k => by unfold Dev.raster; rw [h]
  exact ⟨hk .boot hboot, hk .regs hregs, fun k => by rw [hr], fun k => by rw [hr], fun k => by rw [hr]⟩

theorem Dev.SameSets.trans (h : d.SameSets e) (k : e.SameSets f) : d.SameSets f :=
  ⟨k.boot.trans h.boot, k.regs.trans h.regs, fun i => (k.run i).trans (h.run i), fun i => (k.ks i).trans (h.ks i),
    fun i => (k.latched i).trans (h.latched i)⟩

theorem Dev.SameSets.rcfg (h : d.SameSets e) (k : Nat) : e.rcfg k = d.rcfg k :=
  Dev.rcfg_congr h.boot (h.ks k) (h.latched k)

theorem Dev.SameSets.dpRaster (h : d.SameSets e) (j : Nat) : e.dpRaster j = d.dpRaster j := by
  simp only [Dev.dpRaster, Dev.scoReg, h.run, h.ks, h.latched, h.boot]

theorem Dev.SameSets.dpChoice (h : d.SameSets e) (j k : Nat) (sink : SinkFacts) :
    e.dpChoice j k sink = d.dpChoice j k sink := by
  simp only [Dev.dpChoice, Dev.dpBpp, h.rcfg, h.ks, Dev.fld, Dev.reg, h.regs]

theorem Dev.setDp_sameSets (d : Dev) (j : Nat) (v : DpTx) : d.SameSets (d.setDp j v) :=
  (d.setDp_keeps j v).sameSets (by decide) (by decide) rfl

end Sets

/-! ## Training (R346) -/

section Train

variable {d : Dev} {j k : Nat}

theorem Keeps.dpTx {b : List Part} {e : Dev} (hk : Keeps b d e) (hb : .sco ∉ b) (j : Nat) : e.dpTx j = d.dpTx j := by
  have hsco : e.sco = d.sco := hk .sco hb
  unfold Dev.dpTx
  rw [hsco]

/-- A link is set or taken down: the transmitter, the pins, and LINK_EVENT. -/
def Dev.dpSet (d : Dev) (j : Nat) (v : DpTx) (lanes rate ev : Nat) : Dev :=
  ((d.setDp j v).emit (.dpLink j lanes rate)).dpEvent j ev

section Set

variable (d j) (v : DpTx) (lanes rate ev : Nat)

theorem Dev.dpSet_keeps : Keeps (.sco :: byPost) d (d.dpSet j v lanes rate ev) :=
  (((Dev.setDp_keeps _ _ _).mono (by decide)).trans ((Dev.emit_keeps _ _).mono (by decide))).trans
    ((Dev.dpEvent_keeps _ _ _).mono (by decide))

theorem Dev.dpSet_dpTx : (d.dpSet j v lanes rate ev).dpTx j = v := by
  rw [Dev.dpSet, (Dev.dpEvent_keeps _ _ _).dpTx (by decide), (Dev.emit_keeps _ _).dpTx (by decide), Dev.setDp_dpTx]

theorem Dev.dpSet_out : Out.dpLink j lanes rate ∈ (d.dpSet j v lanes rate ev).out :=
  Dev.post_outGrows _ _ _ _ _ _ _ _ (List.mem_append_right _ (List.mem_singleton.mpr rfl))

theorem Dev.dpSet_rasters : (d.dpSet j v lanes rate ev).sco.rasters = d.sco.rasters := by
  have hsco : (d.dpSet j v lanes rate ev).sco = ((d.setDp j v).emit (.dpLink j lanes rate)).sco :=
    Dev.dpEvent_keeps _ j ev .sco (by decide)
  rw [hsco]
  rfl

end Set

theorem Dev.dpTrain_undriven (h : d.dpRaster j = none) : d.dpTrain j = d := by
  unfold Dev.dpTrain
  simp only [h]

theorem Dev.dpTrain_links {e : Nat × Nat} (h : d.dpRaster j = some k) (hhpd : (d.dpTx j).hpd = true)
    (he : d.dpChoice j k (d.dpTx j).sink = some e) :
    d.dpTrain j = d.dpSet j { d.dpTx j with trained := true, lanes := e.1, rate := e.2 } (2 ^ e.1) e.2 3 := by
  unfold Dev.dpChoice at he
  unfold Dev.dpTrain Dev.dpSet
  cases hks : (d.raster k).ks <;> simp_all

theorem Dev.dpTrain_fails (h : d.dpRaster j = some k) (hhpd : (d.dpTx j).hpd = true)
    (he : d.dpChoice j k (d.dpTx j).sink = none) :
    d.dpTrain j = d.dpSet j { d.dpTx j with trained := false, lanes := 0, rate := 0 } 0 0 4 := by
  unfold Dev.dpChoice at he
  unfold Dev.dpTrain Dev.dpSet
  cases hks : (d.raster k).ks <;> simp_all

end Train

/-! ## HPD (R347) -/

section Plug

variable {s : State} {d : Dev} {j : Fin 2} {sink : SinkFacts}

/-- The sink of transmitter `j` is there, and has been read. -/
def Dev.sinkRead (d : Dev) (j : Nat) (sink : SinkFacts) : Dev :=
  (d.setDp j { d.dpTx j with hpd := true, sink := sink }).dpEvent j 1

theorem Dev.sinkRead_keeps (d : Dev) (j : Nat) (sink : SinkFacts) : Keeps (.sco :: byPost) d (d.sinkRead j sink) :=
  ((Dev.setDp_keeps _ _ _).mono (by decide)).trans ((Dev.dpEvent_keeps _ _ _).mono (by decide))

theorem Dev.sinkRead_dpTx (d : Dev) (j : Nat) (sink : SinkFacts) :
    (d.sinkRead j sink).dpTx j = { d.dpTx j with hpd := true, sink := sink } := by
  rw [Dev.sinkRead, (Dev.dpEvent_keeps _ _ _).dpTx (by decide), Dev.setDp_dpTx]

theorem Dev.sinkRead_rasters (d : Dev) (j : Nat) (sink : SinkFacts) :
    (d.sinkRead j sink).sco.rasters = d.sco.rasters := by
  have hsco : (d.sinkRead j sink).sco = (d.setDp j { d.dpTx j with hpd := true, sink := sink }).sco :=
    Dev.dpEvent_keeps _ j 1 .sco (by decide)
  rw [hsco]
  rfl

theorem Dev.sinkRead_sameSets (d : Dev) (j : Nat) (sink : SinkFacts) : d.SameSets (d.sinkRead j sink) :=
  (d.sinkRead_keeps j sink).sameSets (by decide) (by decide) (d.sinkRead_rasters j sink)

theorem Dev.hpdUp_trains {j : Nat} (h : (d.dpTx j).hpd = false) : d.hpdUp j sink = (d.sinkRead j sink).dpTrain j :=
  if_neg (by simp [h])

theorem hpdAssert_none (hi : s.dev.idleMode = true) (h : (s.dev.dpTx j.val).hpd = true) :
    exec (.hpdAssert j sink) s = .next s :=
  event_none (f := fun d => d.hpdUp j.val sink) rfl hi (if_pos h)

theorem hpdAssert_undriven (hi : s.dev.idleMode = true) (h : (s.dev.dpTx j.val).hpd = false)
    (hnone : s.dev.dpRaster j.val = none) :
    ∃ t, exec (.hpdAssert j sink) s = .next t
      ∧ t.dev.dpTx j.val = { s.dev.dpTx j.val with hpd := true, sink := sink }
      ∧ t.dev.sco.rasters = s.dev.sco.rasters ∧ Keeps (.sco :: byPost) s.dev t.dev := by
  have he : s.dev.hpdUp j.val sink = s.dev.sinkRead j.val sink := (Dev.hpdUp_trains h).trans
    (Dev.dpTrain_undriven (((s.dev.sinkRead_sameSets _ _).dpRaster _).trans hnone))
  exact ⟨_, event_effect (f := fun d => d.hpdUp j.val sink) rfl hi he (s.dev.sinkRead_keeps _ _) (by decide),
    Dev.sinkRead_dpTx _ _ _, Dev.sinkRead_rasters _ _ _, s.dev.sinkRead_keeps _ _⟩

theorem hpdAssert_trains {k : Nat} {e : Nat × Nat} (hi : s.dev.idleMode = true) (h : (s.dev.dpTx j.val).hpd = false)
    (hk : s.dev.dpRaster j.val = some k) (he : s.dev.dpChoice j.val k sink = some e) :
    ∃ t, exec (.hpdAssert j sink) s = .next t
      ∧ t.dev.dpTx j.val = { hpd := true, trained := true, lanes := e.1, rate := e.2, sink := sink }
      ∧ Out.dpLink j.val (2 ^ e.1) e.2 ∈ t.dev.out ∧ t.dev.sco.rasters = s.dev.sco.rasters
      ∧ Keeps (.sco :: byPost) s.dev t.dev := by
  have hsame := s.dev.sinkRead_sameSets j.val sink
  have htx := s.dev.sinkRead_dpTx j.val sink
  have htrain := (Dev.hpdUp_trains (sink := sink) h).trans (Dev.dpTrain_links ((hsame.dpRaster _).trans hk) (by rw [htx])
    (by rw [htx]; exact (hsame.dpChoice _ _ _).trans he))
  rw [htx] at htrain
  have hall := (s.dev.sinkRead_keeps j.val sink).trans (Dev.dpSet_keeps _ j.val
    { hpd := true, trained := true, lanes := e.1, rate := e.2, sink := sink } (2 ^ e.1) e.2 3)
  exact ⟨_, event_effect (f := fun d => d.hpdUp j.val sink) rfl hi htrain hall (by decide), Dev.dpSet_dpTx _ _ _ _ _ _,
    Dev.dpSet_out _ _ _ _ _ _, (Dev.dpSet_rasters _ _ _ _ _ _).trans (Dev.sinkRead_rasters _ _ _), hall⟩

/-! ## The link is down for the frames under way -/

/-- Transmitters that carry a frame, without `j`. -/
def dpCleared (j u : Nat) : Nat := if u.testBit j then u - 2 ^ j else u

theorem dpCleared_testBit (j u : Nat) : (dpCleared j u).testBit j = false := by
  unfold dpCleared
  split
  · next h =>
    rw [Nat.testBit_eq_decide_div_mod_eq, decide_eq_true_eq] at h
    have hsub : (u - 2 ^ j) / 2 ^ j = u / 2 ^ j - 1 := by simpa using Nat.sub_mul_div u (2 ^ j) 1
    rw [Nat.testBit_eq_decide_div_mod_eq, hsub, decide_eq_false_iff_not]
    omega
  · next h => simpa using h

theorem dpCleared_twice (j u : Nat) : dpCleared j (dpCleared j u) = dpCleared j u :=
  if_neg (by simp [dpCleared_testBit])

/-- Transmitter `j` does not carry the frame of raster `k` any more. -/
def Dev.dpDropOf (j : Nat) (d : Dev) (k : Nat) : Dev :=
  if (d.raster k).dpUp.testBit j then d.setRaster k { d.raster k with dpUp := (d.raster k).dpUp - 2 ^ j } else d

theorem Dev.dpDropOf_raster (d : Dev) (j k z : Nat) :
    (d.dpDropOf j k).raster z
      = if z = k then { d.raster z with dpUp := dpCleared j (d.raster z).dpUp } else d.raster z := by
  unfold Dev.dpDropOf dpCleared
  by_cases hz : z = k
  · subst hz
    split <;> simp
  · rw [if_neg hz]
    split
    · exact Dev.setRaster_raster_ne _ _ _ hz
    · rfl

theorem Dev.dpDrop_foldl (j : Nat) (ks : List Nat) (d : Dev) (z : Nat) :
    (ks.foldl (Dev.dpDropOf j) d).raster z
      = if z ∈ ks then { d.raster z with dpUp := dpCleared j (d.raster z).dpUp } else d.raster z := by
  induction ks generalizing d with
  | nil => rfl
  | cons k ks ih =>
    rw [List.foldl_cons, ih, Dev.dpDropOf_raster]
    by_cases hz : z = k <;> by_cases hm : z ∈ ks <;> simp [hz, hm, dpCleared_twice]

theorem Dev.dpDrop_raster (d : Dev) (j k : Nat) :
    (d.dpDrop j).raster k
      = if k ∈ rangeFrom 0 4 then { d.raster k with dpUp := dpCleared j (d.raster k).dpUp } else d.raster k :=
  Dev.dpDrop_foldl j _ d k

theorem Dev.dpDrop_keeps (d : Dev) (j : Nat) : Keeps [.sco] d (d.dpDrop j) :=
  Keeps.foldl _ (fun e _ => (Keeps.refl _ e).ifThen (Dev.setRaster_keeps _ _ _)) _ _

theorem Dev.dpDrop_sameSets (d : Dev) (j : Nat) : d.SameSets (d.dpDrop j) := by
  have hk := d.dpDrop_keeps j
  refine ⟨hk .boot (by decide), hk .regs (by decide), fun k => ?_, fun k => ?_, fun k => ?_⟩ <;>
    rw [Dev.dpDrop_raster] <;> split <;> rfl

/-- HPD is gone. -/
def Dev.hpdDown (d : Dev) (j : Nat) : Dev :=
  if !(d.dpTx j).hpd then d else
  (d.dpDrop j).dpSet j { d.dpTx j with hpd := false, trained := false, lanes := 0, rate := 0 } 0 0 2

theorem exec_hpdDeassert : exec (.hpdDeassert j) s = lift (fun d => d.hpdDown j.val) s := by
  rw [exec, execHpdDeassert]
  rfl

theorem hpdDeassert_none (hi : s.dev.idleMode = true) (h : (s.dev.dpTx j.val).hpd = false) :
    exec (.hpdDeassert j) s = .next s :=
  event_none exec_hpdDeassert hi (if_pos (by simp [h]))

theorem hpdDeassert_drops (hi : s.dev.idleMode = true) (h : (s.dev.dpTx j.val).hpd = true) :
    ∃ t, exec (.hpdDeassert j) s = .next t ∧ (t.dev.dpTx j.val).hpd = false ∧ (t.dev.dpTx j.val).trained = false
      ∧ Out.dpLink j.val 0 0 ∈ t.dev.out ∧ (∀ k, k < 4 → (t.dev.raster k).dpUp.testBit j.val = false)
      ∧ Keeps (.sco :: byPost) s.dev t.dev := by
  have hset := (s.dev.dpDrop j.val).dpSet_keeps j.val
    { s.dev.dpTx j.val with hpd := false, trained := false, lanes := 0, rate := 0 } 0 0 2
  have hall := ((s.dev.dpDrop_keeps j.val).mono (by decide)).trans hset
  refine ⟨_, event_effect exec_hpdDeassert hi (if_neg (by simp [h])) hall (by decide), by rw [Dev.dpSet_dpTx],
    by rw [Dev.dpSet_dpTx], Dev.dpSet_out _ _ _ _ _ _, fun k hk => ?_, hall⟩
  have hraster : ∀ (e : Dev) v l r ev, (e.dpSet j.val v l r ev).raster k = e.raster k := fun e v l r ev => by
    unfold Dev.raster
    rw [Dev.dpSet_rasters]
  rw [hraster, Dev.dpDrop_raster, if_pos (mem_rangeFrom.mpr ⟨Nat.zero_le _, by omega⟩)]
  exact dpCleared_testBit _ _

/-- The link status has been read. -/
def Dev.hpdStatus (d : Dev) (j : Nat) (lost : Bool) (sink : SinkFacts) : Dev :=
  if !(d.dpTx j).hpd || !lost then d else ((d.dpDrop j).setDp j { d.dpTx j with sink := sink }).dpTrain j

theorem exec_hpdIrq {lost : Bool} : exec (.hpdIrq j lost sink) s = lift (fun d => d.hpdStatus j.val lost sink) s := by
  rw [exec, execHpdIrq]
  rfl

theorem hpdIrq_none {lost : Bool} (hi : s.dev.idleMode = true) (h : (s.dev.dpTx j.val).hpd = false ∨ lost = false) :
    exec (.hpdIrq j lost sink) s = .next s :=
  event_none exec_hpdIrq hi (if_pos (by rcases h with h | h <;> simp [h]))

theorem hpdIrq_fails {k : Nat} (hi : s.dev.idleMode = true) (h : (s.dev.dpTx j.val).hpd = true)
    (hk : s.dev.dpRaster j.val = some k) (he : s.dev.dpChoice j.val k sink = none) :
    ∃ t, exec (.hpdIrq j true sink) s = .next t ∧ (t.dev.dpTx j.val).trained = false
      ∧ (t.dev.dpTx j.val).hpd = true ∧ Out.dpLink j.val 0 0 ∈ t.dev.out ∧ Keeps (.sco :: byPost) s.dev t.dev := by
  have hread : Keeps [.sco] s.dev ((s.dev.dpDrop j.val).setDp j.val { s.dev.dpTx j.val with sink := sink }) :=
    (s.dev.dpDrop_keeps j.val).trans (Dev.setDp_keeps _ _ _)
  have hsame := (s.dev.dpDrop_sameSets j.val).trans
    (Dev.setDp_sameSets _ j.val { s.dev.dpTx j.val with sink := sink })
  have htx : ((s.dev.dpDrop j.val).setDp j.val { s.dev.dpTx j.val with sink := sink }).dpTx j.val
      = { s.dev.dpTx j.val with sink := sink } := Dev.setDp_dpTx _ _ _
  have htrain := Dev.dpTrain_fails ((hsame.dpRaster _).trans hk) (by rw [htx]; exact h)
    (by rw [htx]; exact (hsame.dpChoice _ _ _).trans he)
  rw [htx] at htrain
  have hall := (hread.mono (by decide)).trans (Dev.dpSet_keeps _ j.val
    { s.dev.dpTx j.val with trained := false, lanes := 0, rate := 0, sink := sink } 0 0 4)
  exact ⟨_, event_effect exec_hpdIrq hi ((if_neg (by simp [h])).trans htrain) hall (by decide), by rw [Dev.dpSet_dpTx],
    by rw [Dev.dpSet_dpTx]; exact h, Dev.dpSet_out _ _ _ _ _ _, hall⟩

end Plug

/-! ## DP_AUX (R366) -/

section Aux

variable {s : State} {r : CmdRef} {c : Cmd} (hc : s.dev.clear specDpAux r c = true)
include hc

theorem dpAux_noSink (k : Option Nat) (h : (s.dev.dpTx (c.f 4 0 0)).hpd = false) :
    ∃ t, exec (.dpAux r k) s = .next t ∧ Answered s.dev t.dev r stLinkDown 0 ∧ Keeps byDone s.dev t.dev :=
  cmd_answers rfl hc (if_pos (by simp [h]))

variable (h : (s.dev.dpTx (c.f 4 0 0)).hpd = true)
include h

theorem dpAux_nacked :
    ∃ t, exec (.dpAux r none) s = .next t ∧ Answered s.dev t.dev r stBusNack 0 ∧ Keeps byDone s.dev t.dev := by
  obtain ⟨hnext, ha, hk⟩ := cmd_finishes (i := .dpAux r none) rfl hc (if_neg (by simp [h])) (Dev.emit_keeps _ _)
    (by decide) (by decide)
  exact ⟨_, hnext, ha, hk.mono (by decide)⟩

/-- What a read leaves of its buffer is the sink's (log entry 5). -/
def Dev.auxMoved (d : Dev) (c : Cmd) (n : Nat) : Dev :=
  let e := d.emit (.dpAux (c.f 4 0 0) (c.f 5 19 0) [])
  if c.f 4 2 2 = 0 then e.undefBuf false (c.q 6) n else e

omit hc h in
theorem Dev.auxMoved_keeps (d : Dev) (c : Cmd) (n : Nat) : Keeps [.out] d (d.auxMoved c n) :=
  (Dev.emit_keeps _ _).ifThen (Dev.emit_keeps _ _)

theorem dpAux_moves {n : Nat} (hn : n ≤ c.f 4 12 8 + 1) :
    ∃ t, exec (.dpAux r (some n)) s = .next t ∧ t.pending = s.pending ∧ Answered s.dev t.dev r stSuccess n
      ∧ (c.f 4 2 2 = 0 → Out.hostUndef (c.q 6) n ∈ t.dev.out) ∧ Keeps byDone s.dev t.dev := by
  have he : dpAux r (some n) c s.dev = (s.dev.auxMoved c n).finish r stSuccess n := by
    unfold dpAux
    simp only [h, Nat.min_eq_left hn]
    rfl
  obtain ⟨hnext, ha, hk⟩ := cmd_finishes (i := .dpAux r (some n)) rfl hc he (Dev.auxMoved_keeps _ _ _) (by decide)
    (by decide)
  refine ⟨_, hnext, rfl, ha, fun hread => Dev.finish_outGrows _ _ _ _ ?_, hk.mono (by decide)⟩
  simp [Dev.auxMoved, hread, Dev.undefBuf, Dev.emit]

end Aux

end Sys2Proof.Machine
end

section
/-! SUPPORT. SDI inputs: start, stop, lock, frames and their loss; display outputs and SDI inputs as a whole (O51). -/

namespace Sys2Proof.Machine

open Sys2Proof

/-! ## Inputs -/

section Inputs

variable {d e : Dev} {b : List Part}

theorem Dev.setSdi_keeps (d : Dev) (i : Nat) (v : SdiIn) : Keeps [.sco] d (d.setSdi i v) := by
  intro p hp
  cases p <;> simp_all [Part.same, Dev.setSdi]

theorem Keeps.sdiIn (hk : Keeps b d e) (hb : .sco ∉ b) (i : Nat) : e.sdiIn i = d.sdiIn i := by
  have hsco : e.sco = d.sco := hk .sco hb
  unfold Dev.sdiIn
  rw [hsco]

theorem Dev.finish_sdiIn (d : Dev) (r : CmdRef) (st res i : Nat) : (d.finish r st res).sdiIn i = d.sdiIn i :=
  (d.finish_keeps r st res).sdiIn (by decide) i

theorem Dev.sdiEvent_keeps (d : Dev) (i ev : Nat) (f : SdiFormat) : Keeps byPost d (d.sdiEvent i ev f) :=
  d.post_keeps _ _ _ _ _ _ _

/-! ## Without statistics units nothing measures an input (R224) -/

variable {i index : Nat}

theorem Dev.sdiRecord_no_units (h : d.stu.units = []) (state : Nat) (locked : Bool) (f : SdiFrame) (x : Nat) :
    d.sdiRecord i index state locked f x = d :=
  if_pos (by simp [Dev.stuUnit, h, SMap.get])

theorem Dev.scopeBegin_no_units (h : d.stu.units = []) (kind id : Nat) : d.scopeBegin kind id index = d := by
  rw [Dev.scopeBegin, Dev.scopesOf_none h]
  rfl

theorem Dev.scopeSdiCancel_no_units (h : d.stu.units = []) (flags x rows : Nat) (sel : Nat → Bool) :
    d.scopeSdiCancel i index flags x rows sel = d := by
  rw [Dev.scopeSdiCancel, Dev.scopesOf_none h]
  rfl

theorem Dev.scopeEnd_no_units (h : d.stu.units = []) (kind id : Nat) (p : Pic) (prog src flags x : Nat) :
    d.scopeEnd kind id index p prog src flags x = d := by
  rw [Dev.scopeEnd, Dev.scopesOf_none h]
  rfl

end Inputs

/-! ## SDI_IN_START and SDI_IN_STOP (R362, R366) -/

section Commands

variable {s : State} {r : CmdRef} {c : Cmd}

/-- The effect of SDI_IN_START. -/
def sdiInStart (r : CmdRef) (c : Cmd) (d : Dev) : Dev :=
  if d.pwr.disabled.contains 55 then d.finish r stEngineDown 0
  else if d.sdiCfgBad (c.f 4 0 0) then d.setupFault r
  else (d.setSdi (c.f 4 0 0) { d.sdiIn (c.f 4 0 0) with
    run := true, stopping := false, want := d.sdiWant (c.f 4 0 0)
    auto := (d.reg (0x90C00 + 0x40 * c.f 4 0 0)).testBit 0, lastIndex := none }).finish r stSuccess 0

theorem exec_sdiInStart : exec (.sdiInStart r) s = lift (runCmd specSdiInStart r (sdiInStart r)) s := by
  rw [exec, execSdiInStart]
  rfl

theorem bitsOf_bit (v b : Nat) : (bitsOf v b b == 1) = v.testBit b := by
  simp [bitsOf, Nat.testBit_eq_decide_div_mod_eq]
  rfl

theorem sdiInStart_engineDown (hc : s.dev.clear specSdiInStart r c = true)
    (hoff : s.dev.pwr.disabled.contains 55 = true) :
    ∃ t, exec (.sdiInStart r) s = .next t ∧ Answered s.dev t.dev r stEngineDown 0 ∧ Keeps byDone s.dev t.dev :=
  cmd_answers exec_sdiInStart hc (if_pos hoff)

theorem sdiInStart_fails {i : Nat} (hi : i = c.f 4 0 0) (hc : s.dev.clear specSdiInStart r c = true)
    (hon : s.dev.pwr.disabled.contains 55 = false) (hbad : s.dev.sdiCfgBad i = true) :
    ∃ t, exec (.sdiInStart r) s = .next t ∧ Answered s.dev t.dev r stInvalidField 4 ∧ Keeps byDone s.dev t.dev := by
  subst hi
  exact cmd_answers exec_sdiInStart hc ((if_neg (ne_true_of_eq_false hon)).trans (if_pos hbad))

theorem sdiInStart_runs {i : Nat} (hi : i = c.f 4 0 0) (hc : s.dev.clear specSdiInStart r c = true)
    (hon : s.dev.pwr.disabled.contains 55 = false) (hgood : s.dev.sdiCfgBad i = false) :
    ∃ t, exec (.sdiInStart r) s = .next t ∧ t.pending = s.pending ∧ Answered s.dev t.dev r stSuccess 0
      ∧ t.dev.sdiIn i = { s.dev.sdiIn i with
          run := true, stopping := false, auto := s.dev.fld (0x90C00 + 0x40 * i) 0 0 == 1, lastIndex := none
          want := ⟨s.dev.fld (0x90C00 + 0x40 * i) 10 4, s.dev.fld (0x90C00 + 0x40 * i) 19 16,
            s.dev.fld (0x90C00 + 0x40 * i) 13 12, 0⟩ }
      ∧ (∀ k, k ≠ i → t.dev.sdiIn k = s.dev.sdiIn k) ∧ Keeps (.sco :: byDone) s.dev t.dev := by
  subst hi
  obtain ⟨hnext, ha, hk⟩ := cmd_finishes exec_sdiInStart hc
    ((if_neg (ne_true_of_eq_false hon)).trans (if_neg (ne_true_of_eq_false hgood))) (Dev.setSdi_keeps _ _ _) (by decide)
    (by decide)
  refine ⟨_, hnext, rfl, ha, ?_, fun k hne => (Dev.finish_sdiIn _ _ _ _ _).trans (Dev.setSdi_sdiIn_ne _ _ _ hne), hk⟩
  have hauto : (s.dev.fld (0x90C00 + 0x40 * c.f 4 0 0) 0 0 == 1) = (s.dev.reg (0x90C00 + 0x40 * c.f 4 0 0)).testBit 0 :=
    bitsOf_bit _ 0
  rw [Dev.finish_sdiIn, Dev.setSdi_sdiIn, hauto]
  rfl

/-- The effect of SDI_IN_STOP. -/
def sdiInStop (r : CmdRef) (c : Cmd) (d : Dev) : Dev :=
  (d.sdiHalt (c.f 4 0 0)).finish r stSuccess ((d.sdiIn (c.f 4 0 0)).lastIndex.getD ones64)

theorem exec_sdiInStop : exec (.sdiInStop r) s = lift (runCmd specSdiInStop r (sdiInStop r)) s := by
  rw [exec, execSdiInStop]
  rfl

theorem sdiInStop_stops {i : Nat} (hi : i = c.f 4 0 0) (hc : s.dev.clear specSdiInStop r c = true) :
    ∃ t, exec (.sdiInStop r) s = .next t ∧ t.pending = s.pending
      ∧ Answered s.dev t.dev r stSuccess ((s.dev.sdiIn i).lastIndex.getD ones64)
      ∧ (t.dev.sdiIn i).run = false ∧ (t.dev.sdiIn i).locked = false
      ∧ (t.dev.sdiIn i).nextIndex = (s.dev.sdiIn i).nextIndex
      ∧ (∀ k, k ≠ i → t.dev.sdiIn k = s.dev.sdiIn k) ∧ Keeps (.sco :: byDone) s.dev t.dev := by
  subst hi
  obtain ⟨hnext, ha, hk⟩ := cmd_finishes exec_sdiInStop hc rfl (Dev.setSdi_keeps _ _ _) (by decide) (by decide)
  have hin : ∀ k, ((s.dev.sdiHalt (c.f 4 0 0)).finish r stSuccess
      ((s.dev.sdiIn (c.f 4 0 0)).lastIndex.getD ones64)).sdiIn k = (s.dev.sdiHalt (c.f 4 0 0)).sdiIn k :=
    Dev.finish_sdiIn _ _ _ _
  refine ⟨_, hnext, rfl, ha, ?_, ?_, ?_, fun k hne => (hin k).trans (Dev.setSdi_sdiIn_ne _ _ _ hne), hk⟩ <;>
    rw [hin, Dev.sdiHalt, Dev.setSdi_sdiIn]

end Commands

/-! ## Lock, and its loss (R362, R363) -/

section Lock

variable {s : State} {i : Fin 2} {v : SdiIn} (hi : s.dev.idleMode = true) (hv : v = s.dev.sdiIn i.val)
include hi hv

theorem sdiInputLock_stopped (f : SdiFormat) (h : v.run = false) : exec (.sdiInputLock i f) s = .next s := by
  subst hv
  exact event_none (f := fun d => d.sdiLock i.val f) rfl hi (if_pos (by simp [h]))

theorem sdiInputLock_locks (f : SdiFormat) (hrun : v.run = true) (hfree : v.locked = false) :
    ∃ t, exec (.sdiInputLock i f) s = .next t
      ∧ t.dev.sdiIn i.val = { v with locked := true, format := f, want := if v.auto then f else v.want }
      ∧ (∀ k, k ≠ i.val → t.dev.sdiIn k = s.dev.sdiIn k) ∧ Keeps (.sco :: byPost) s.dev t.dev := by
  subst hv
  have he : s.dev.sdiLock i.val f = (s.dev.setSdi i.val { s.dev.sdiIn i.val with
      locked := true, format := f
      want := if (s.dev.sdiIn i.val).auto then f else (s.dev.sdiIn i.val).want }).sdiEvent i.val 5 f := by
    unfold Dev.sdiLock
    simp [hrun, hfree]
  have hevent := (s.dev.setSdi i.val { s.dev.sdiIn i.val with
      locked := true, format := f
      want := if (s.dev.sdiIn i.val).auto then f else (s.dev.sdiIn i.val).want }).sdiEvent_keeps i.val 5 f
  have hk := ((Dev.setSdi_keeps _ _ _).mono (by decide)).trans (hevent.mono (b := .sco :: byPost) (by decide))
  exact ⟨_, event_effect (f := fun d => d.sdiLock i.val f) rfl hi he hk (by decide),
    (hevent.sdiIn (by decide) _).trans (Dev.setSdi_sdiIn _ _ _),
    fun k hne => (hevent.sdiIn (by decide) _).trans (Dev.setSdi_sdiIn_ne _ _ _ hne), hk⟩

theorem sdiInputLost_none (h : v.run = false ∨ v.locked = false) (part : Option SdiFrame) :
    exec (.sdiInputLost ⟨i, part⟩) s = .next s := by
  subst hv
  exact event_none (f := fun d => d.sdiLost i.val part) rfl hi (if_pos (by rcases h with h | h <;> simp [h]))

omit hi hv in
/-- The frame under way takes its index. -/
theorem Dev.sdiBreak_no_units {d : Dev} (h : d.stu.units = []) (i : Nat) (locked : Bool) (part : Option SdiFrame) :
    (d.sdiBreak i locked part).sdiIn i
        = { d.sdiIn i with nextIndex := if part.isSome then (d.sdiIn i).nextIndex + 1 else (d.sdiIn i).nextIndex }
      ∧ (∀ k, k ≠ i → (d.sdiBreak i locked part).sdiIn k = d.sdiIn k) ∧ Keeps [.sco] d (d.sdiBreak i locked part) := by
  cases part with
  | none => exact ⟨rfl, fun _ _ => rfl, .refl _ _⟩
  | some f =>
    have hset : (d.setSdi i { d.sdiIn i with nextIndex := (d.sdiIn i).nextIndex + 1 }).stu.units = [] := h
    have he : d.sdiBreak i locked (some f) = d.setSdi i { d.sdiIn i with nextIndex := (d.sdiIn i).nextIndex + 1 } := by
      simp only [Dev.sdiBreak, Dev.sdiStatsCancel, Dev.sdiRecord_no_units hset, Dev.scopeBegin_no_units hset,
        Dev.scopeSdiCancel_no_units hset, ite_self]
    rw [he]
    exact ⟨Dev.setSdi_sdiIn _ _ _, fun k hne => Dev.setSdi_sdiIn_ne _ _ _ hne, Dev.setSdi_keeps _ _ _⟩

omit hi hv in
/-- The loss of lock is counted and posted. -/
def Dev.sdiCut (d : Dev) (i : Nat) (part : Option SdiFrame) (f : SdiFormat) : Dev :=
  ((d.sdiBreak i false part).count (0x90C18 + 0x40 * i) 1).sdiEvent i 6 f

omit hi hv in
theorem Dev.sdiCut_keeps (d : Dev) (i : Nat) (part : Option SdiFrame) (f : SdiFormat) :
    Keeps byPost (d.sdiBreak i false part) (d.sdiCut i part f) :=
  ((Dev.count_keeps _ _ _).mono (by decide)).trans (Dev.sdiEvent_keeps _ _ _ _)

theorem sdiInputLost_unlocks (hrun : v.run = true) (hlock : v.locked = true) (hunits : s.dev.stu.units = [])
    (part : Option SdiFrame) :
    ∃ t, exec (.sdiInputLost ⟨i, part⟩) s = .next t
      ∧ t.dev.sdiIn i.val = { v with
          locked := false, nextIndex := if part.isSome then v.nextIndex + 1 else v.nextIndex }
      ∧ (∀ k, k ≠ i.val → t.dev.sdiIn k = s.dev.sdiIn k) ∧ Keeps (.sco :: byPost) s.dev t.dev := by
  obtain ⟨hin, hothers, hbreak⟩ := Dev.sdiBreak_no_units hunits i.val false part
  have hcut := s.dev.sdiCut_keeps i.val part v.format
  subst hv
  have he : s.dev.sdiLost i.val part = (s.dev.sdiCut i.val part (s.dev.sdiIn i.val).format).setSdi i.val
      { (s.dev.sdiCut i.val part (s.dev.sdiIn i.val).format).sdiIn i.val with locked := false } :=
    if_neg (by simp [hrun, hlock])
  have hk := ((hbreak.mono (b := .sco :: byPost) (by decide)).trans (hcut.mono (by decide))).trans
    ((Dev.setSdi_keeps _ i.val { (s.dev.sdiCut i.val part (s.dev.sdiIn i.val).format).sdiIn i.val with
      locked := false }).mono (by decide))
  refine ⟨_, event_effect (f := fun d => d.sdiLost i.val part) rfl hi he hk (by decide), ?_, fun k hne => ?_, hk⟩
  · rw [Dev.setSdi_sdiIn, hcut.sdiIn (by decide), hin]
  · rw [Dev.setSdi_sdiIn_ne _ _ _ hne, hcut.sdiIn (by decide), hothers k hne]

end Lock

/-! ## Whole frames (R362, R363) -/

section Frames

variable {d : Dev} {i index : Nat} {f : SdiFrame}

/-- Sprocket `n` takes input `i`. -/
def Dev.takesSdi (d : Dev) (i n : Nat) : Bool := d.spkRunning n && (d.skc n).kind == 4 && (d.skc n).id == i

/-- A frame of input `i` as a sprocket takes it. -/
def Dev.sdiArrival (d : Dev) (i index : Nat) (f : SdiFrame) : SpkFrame := {
  index := index, input := .sdi i f.format.bits (f.format.sampling == 0) f.pixels, expStart := d.sdiStart f }

/-- The frame goes to sprocket `n` where it takes the input. -/
def Dev.sdiGive (i index : Nat) (f : SdiFrame) (d : Dev) (n : Nat) : Dev :=
  if d.takesSdi i n then d.modSpk n fun s => { s with arrivals := s.arrivals ++ [d.sdiArrival i index f] } else d

theorem Dev.sdiDeliver_eq (d : Dev) (i index : Nat) (f : SdiFrame) :
    d.sdiDeliver i index f = (rangeFrom 0 8).foldl (Dev.sdiGive i index f) d := rfl

theorem Dev.takesSdi_congr {e : Dev} {n : Nat} (h : e.spkOf n = d.spkOf n) : e.takesSdi i n = d.takesSdi i n := by
  simp only [Dev.takesSdi, Dev.spkRunning, Dev.skc, h]

theorem Dev.sdiGive_spkOf_ne {n z : Nat} (hne : z ≠ n) : (d.sdiGive i index f n).spkOf z = d.spkOf z := by
  unfold Dev.sdiGive
  split
  · exact Dev.setSpk_spkOf_ne _ _ _ hne
  · rfl

theorem Dev.sdiGive_foldl_ne {n : Nat} (ns : List Nat) (d : Dev) (h : n ∉ ns) :
    (ns.foldl (Dev.sdiGive i index f) d).spkOf n = d.spkOf n := by
  induction ns generalizing d with
  | nil => rfl
  | cons m ns ih =>
    rw [List.mem_cons, not_or] at h
    obtain ⟨hne, hns⟩ := h
    exact (ih _ hns).trans (Dev.sdiGive_spkOf_ne hne)

/-- A sprocket that does not take the input is left alone. -/
theorem Dev.sdiDeliver_other {n : Nat} (h : d.takesSdi i n = false) :
    (d.sdiDeliver i index f).spkOf n = d.spkOf n := by
  rw [Dev.sdiDeliver_eq]
  refine List.foldlRecOn (motive := fun e : Dev => e.spkOf n = d.spkOf n) _ _ rfl fun e he m _ => ?_
  by_cases hm : n = m
  · subst hm
    rw [Dev.sdiGive, if_neg (ne_true_of_eq_false ((Dev.takesSdi_congr he).trans h))]
    exact he
  · exact (Dev.sdiGive_spkOf_ne hm).trans he

theorem Dev.sdiDeliver_taker {n : Nat} (hn : n < 8) (h : d.takesSdi i n = true) :
    ∃ x, (d.sdiDeliver i index f).spkOf n = { d.spkOf n with arrivals := (d.spkOf n).arrivals ++ [x] }
      ∧ x.index = index := by
  have hbefore := Dev.sdiGive_foldl_ne (i := i) (index := index) (f := f) (n := n) (rangeFrom 0 n) d
    (fun hm => by have := (mem_rangeFrom.mp hm).2; omega)
  rw [Dev.sdiDeliver_eq, rangeFrom_around hn, List.foldl_append, List.foldl_cons,
    Dev.sdiGive_foldl_ne _ _ (fun hm => by have := (mem_rangeFrom.mp hm).1; omega), Dev.sdiGive,
    if_pos ((Dev.takesSdi_congr hbefore).trans h), Dev.modSpk, Dev.setSpk_spkOf, hbefore]
  exact ⟨_, rfl, rfl⟩

theorem Dev.sdiDeliver_keeps (d : Dev) (i index : Nat) (f : SdiFrame) : Keeps [.spk] d (d.sdiDeliver i index f) :=
  Keeps.foldl _ (fun e _ => (Keeps.refl _ e).ifThen (e.modSpk_keeps _ _)) _ _

/-- The frame takes the next index; a frame that fits is the last one delivered. -/
def Dev.sdiTake (d : Dev) (i : Nat) (ok : Bool) : Dev :=
  d.setSdi i { d.sdiIn i with
    nextIndex := (d.sdiIn i).nextIndex + 1
    lastIndex := if ok then some (d.sdiIn i).nextIndex else (d.sdiIn i).lastIndex }

theorem Dev.sdiTake_keeps (d : Dev) (i : Nat) (ok : Bool) : Keeps [.sco] d (d.sdiTake i ok) := Dev.setSdi_keeps _ _ _

theorem Dev.sdiFrame_no_units (hrun : (d.sdiIn i).run = true) (hlock : (d.sdiIn i).locked = true)
    (hunits : d.stu.units = []) :
    d.sdiFrame i f = if d.sdiFits i f then (d.sdiTake i (d.sdiFits i f)).sdiDeliver i (d.sdiIn i).nextIndex f
      else (d.sdiTake i (d.sdiFits i f)).count (0x90C14 + 0x40 * i) 1 := by
  have hset : (d.sdiTake i (d.sdiFits i f)).stu.units = [] := hunits
  have hdeliver : ((d.sdiTake i (d.sdiFits i f)).sdiDeliver i (d.sdiIn i).nextIndex f).stu.units = [] :=
    (congrArg StuB.units (Dev.sdiDeliver_keeps _ _ _ _ .stu (by decide))).trans hset
  have he : d.sdiFrame i f = if d.sdiFits i f then
        (((((d.sdiTake i (d.sdiFits i f)).sdiStats i (d.sdiIn i).nextIndex f (d.sdiStart f)).sdiDeliver i
          (d.sdiIn i).nextIndex f).scopeBegin 1 i (d.sdiIn i).nextIndex).scopeSdiCancel i (d.sdiIn i).nextIndex 64
          (d.sdiStart f) 0 f.outrun.toNat.testBit).scopeEnd 1 i (d.sdiIn i).nextIndex (sdiPic f) 0 (7 + i) 0
          (d.sdiStart f)
      else ((d.sdiTake i (d.sdiFits i f)).sdiStats i (d.sdiIn i).nextIndex f (d.sdiStart f)).count (0x90C14 + 0x40 * i) 1 :=
    if_neg (by simp [hrun, hlock])
  rw [he, Dev.sdiStats, Dev.sdiRecord_no_units hset, Dev.scopeBegin_no_units hdeliver,
    Dev.scopeSdiCancel_no_units hdeliver, Dev.scopeEnd_no_units hdeliver]

end Frames

/-- An event goes on, to the state that its effect leaves. -/
theorem event_goes {i : Instr} {f : Dev → Dev} {s : State} {e : Dev} {b : List Part} (hx : exec i s = lift f s)
    (hi : s.dev.idleMode = true) (he : f s.dev = e) (hk : Keeps b s.dev e) (hb : .link ∉ b) :
    ∃ t, exec i s = .next t ∧ t.dev = e := ⟨_, event_effect hx hi he hk hb, rfl⟩

section FrameEvent

variable {s : State} {i : Fin 2} {v : SdiIn} (hi : s.dev.idleMode = true) (hv : v = s.dev.sdiIn i.val) (f : SdiFrame)
include hi hv

theorem sdiInputFrame_none (h : v.run = false ∨ v.locked = false) : exec (.sdiInputFrame i f) s = .next s := by
  subst hv
  exact event_none (f := fun d => d.sdiFrame i.val f) rfl hi (if_pos (by rcases h with h | h <;> simp [h]))

variable (hrun : v.run = true) (hlock : v.locked = true) (hunits : s.dev.stu.units = [])
include hrun hlock hunits

theorem sdiInputFrame_delivers (hfmt : f.format.fmt = v.want.fmt) (hbits : f.format.bits = v.want.bits)
    (hsamp : f.format.sampling = v.want.sampling) :
    ∃ t, exec (.sdiInputFrame i f) s = .next t
      ∧ t.dev.sdiIn i.val = { v with nextIndex := v.nextIndex + 1, lastIndex := some v.nextIndex }
      ∧ (∀ n, n < 8 → s.dev.spkRunning n = true → (s.dev.skc n).kind = 4 → (s.dev.skc n).id = i.val →
          ∃ x, t.dev.spkOf n = { s.dev.spkOf n with arrivals := (s.dev.spkOf n).arrivals ++ [x] }
            ∧ x.index = v.nextIndex)
      ∧ (∀ n, (s.dev.skc n).kind ≠ 4 ∨ (s.dev.skc n).id ≠ i.val → t.dev.spkOf n = s.dev.spkOf n)
      ∧ Keeps [.sco, .spk] s.dev t.dev := by
  subst hv
  have hfits : s.dev.sdiFits i.val f = true := by simp [Dev.sdiFits, hfmt, hbits, hsamp]
  have hspk : ∀ n, (s.dev.sdiTake i.val true).spkOf n = s.dev.spkOf n :=
    (s.dev.sdiTake_keeps i.val true).spkOf (by decide)
  have hdeliver := (s.dev.sdiTake i.val true).sdiDeliver_keeps i.val (s.dev.sdiIn i.val).nextIndex f
  have hk := ((s.dev.sdiTake_keeps i.val true).mono (b := [.sco, .spk]) (by decide)).trans (hdeliver.mono (by decide))
  have he : s.dev.sdiFrame i.val f = (s.dev.sdiTake i.val true).sdiDeliver i.val (s.dev.sdiIn i.val).nextIndex f := by
    rw [Dev.sdiFrame_no_units hrun hlock hunits, hfits, if_pos rfl]
  obtain ⟨t, hnext, ht⟩ :=
    event_goes (i := .sdiInputFrame i f) (f := fun d => d.sdiFrame i.val f) rfl hi he hk (by decide)
  refine ⟨t, hnext, ?_⟩
  rw [ht]
  refine ⟨(hdeliver.sdiIn (by decide) _).trans (Dev.setSdi_sdiIn _ _ _), fun n hn hgo hkind hid => ?_,
    fun n hother => ?_, hk⟩
  · have htakes : (s.dev.sdiTake i.val true).takesSdi i.val n = true :=
      (Dev.takesSdi_congr (hspk n)).trans (by simp [Dev.takesSdi, hgo, hkind, hid])
    obtain ⟨x, hx, hindex⟩ := Dev.sdiDeliver_taker (index := (s.dev.sdiIn i.val).nextIndex) (f := f) hn htakes
    exact ⟨x, hx.trans (by rw [hspk]), hindex⟩
  · have htakes : (s.dev.sdiTake i.val true).takesSdi i.val n = false :=
      (Dev.takesSdi_congr (hspk n)).trans (by rcases hother with h | h <;> simp [Dev.takesSdi, h])
    exact (Dev.sdiDeliver_other htakes).trans (hspk n)

theorem sdiInputFrame_counts (h : f.format.fmt ≠ v.want.fmt ∨ f.format.bits ≠ v.want.bits
      ∨ f.format.sampling ≠ v.want.sampling) :
    ∃ t, exec (.sdiInputFrame i f) s = .next t ∧ t.dev.sdiIn i.val = { v with nextIndex := v.nextIndex + 1 }
      ∧ t.dev.ctrs = (s.dev.count (0x90C14 + 0x40 * i.val) 1).ctrs ∧ Keeps [.sco, .ctrs] s.dev t.dev := by
  subst hv
  have hfits : s.dev.sdiFits i.val f = false := by rcases h with h | h | h <;> simp [Dev.sdiFits, h]
  have hcount := (s.dev.sdiTake i.val false).count_keeps (0x90C14 + 0x40 * i.val) 1
  have hk := ((s.dev.sdiTake_keeps i.val false).mono (b := [.sco, .ctrs]) (by decide)).trans (hcount.mono (by decide))
  have he : s.dev.sdiFrame i.val f = (s.dev.sdiTake i.val false).count (0x90C14 + 0x40 * i.val) 1 := by
    rw [Dev.sdiFrame_no_units hrun hlock hunits, hfits, if_neg (by decide)]
  exact ⟨_, event_effect (f := fun d => d.sdiFrame i.val f) rfl hi he hk (by decide),
    (hcount.sdiIn (by decide) _).trans (Dev.setSdi_sdiIn _ _ _), rfl, hk⟩

end FrameEvent

/-- Settles O51: the transmitters by their sinks, DP_AUX, the commands of an SDI input, and its events. -/
theorem displayPortAndSdi : Obligations.DisplayPortAndSdi := by
  unfold Obligations.DisplayPortAndSdi
  refine ⟨fun s j hi => ⟨fun _ => hpdAssert_none hi, fun _ => hpdAssert_undriven hi, fun _ _ _ => hpdAssert_trains hi,
      hpdDeassert_none hi, hpdDeassert_drops hi, fun _ _ => hpdIrq_none hi, fun _ _ => hpdIrq_fails hi⟩,
    fun s r c hc => ⟨dpAux_noSink hc, fun h => ⟨dpAux_nacked hc h, fun _ => dpAux_moves hc h⟩⟩,
    fun s r c i hi => ⟨fun hc => ⟨sdiInStart_engineDown hc, sdiInStart_fails hi hc, sdiInStart_runs hi hc⟩,
      sdiInStop_stops hi⟩,
    fun s i v hi hv => ⟨sdiInputLock_stopped hi hv, sdiInputLock_locks hi hv, sdiInputLost_none hi hv,
      sdiInputLost_unlocks hi hv, sdiInputFrame_none hi hv, fun f hrun hlock hunits =>
        ⟨sdiInputFrame_delivers hi hv f hrun hlock hunits, sdiInputFrame_counts hi hv f hrun hlock hunits⟩⟩⟩

end Sys2Proof.Machine
end

section
/-! SUPPORT. Ethernet ports: up and down, what they answer, and the bridge between them (O55). -/

namespace Sys2Proof.Machine

open Sys2Proof

/-! ## Ports -/

section Ports

variable {d e : Dev} {b : List Part} {p : Nat}

theorem Keeps.eth (hk : Keeps b d e) (hb : .ntu ∉ b) (p : Nat) : e.eth p = d.eth p := by
  have hntu : e.ntu = d.ntu := hk .ntu hb
  unfold Dev.eth
  rw [hntu]

theorem Dev.finish_ntu (d : Dev) (r : CmdRef) (st res : Nat) : (d.finish r st res).ntu = d.ntu :=
  d.finish_keeps r st res .ntu (by decide)

theorem Dev.finish_eth (d : Dev) (r : CmdRef) (st res p : Nat) : (d.finish r st res).eth p = d.eth p :=
  (d.finish_keeps r st res).eth (by decide) p

theorem Dev.SlewSame.eth (h : d.SlewSame e) (p : Nat) : e.eth p = d.eth p := by
  unfold Dev.eth
  rw [h.1]

theorem Dev.netOut_out (d : Dev) (p : Nat) (m : NetMsg) : ∃ tag, (d.netOut p m).out = d.out ++ [.net p tag m] :=
  ⟨_, rfl⟩

/-- The link drops, and beyond that only the slewing of the LTS may change (R376). -/
theorem Dev.linkDrop_same (h : (d.eth p).link = true) : (d.setEth p { up := (d.eth p).up }).SlewSame (d.linkDrop p) := by
  have hgoes : ¬ (!(d.eth p).link) = true := by simp [h]
  unfold Dev.linkDrop
  simp only []
  rw [if_neg hgoes]
  split
  · exact .refl _
  · split
    · exact Dev.SlewSame.trans (e := { d.setEth p { up := (d.eth p).up } with
          ntu := { (d.setEth p { up := (d.eth p).up }).ntu with held := true } })
        ⟨rfl, (Dev.ntu_keeps _ _).mono (by decide)⟩ (Dev.holdover_same _ _ _)
    · exact .refl _

theorem Dev.linkDrop_none (h : (d.eth p).link = false) : d.linkDrop p = d := if_pos (by simp [h])

/-- Membership reports leave; that of PTP's group is the first (R368). -/
theorem Dev.report_out (d : Dev) (p : Nat) : ∃ tag, Out.net p tag (.igmpReport ptpGroup) ∈ (d.report p).out := by
  obtain ⟨tag, htag⟩ := d.netOut_out p (.igmpReport ptpGroup)
  refine ⟨tag, Dev.OutGrows.foldl (fun e g => e.netOut p (.igmpReport g))
    (fun e _ => Dev.emit_outGrows e _) _ (d.netOut p (.igmpReport ptpGroup)) ?_⟩
  rw [htag]
  exact List.mem_append_right _ (List.mem_singleton.mpr rfl)

theorem Dev.report_keeps (d : Dev) (p : Nat) : Keeps [.out] d (d.report p) :=
  Keeps.foldl _ (fun e _ => e.netOut_keeps _ _) _ _

end Ports

/-! ## ETH_UP and ETH_DOWN (R367, R387) -/

section Commands

variable {s : State} {r : CmdRef} {c : Cmd} {p : Nat}

/-- The effect of ETH_UP. -/
def ethUp (r : CmdRef) (c : Cmd) (d : Dev) : Dev :=
  if (d.eth (c.f 4 0 0)).up then
    d.finish r stSuccess (if (d.eth (c.f 4 0 0)).link then (d.eth (c.f 4 0 0)).speed else 0)
  else if d.ethBad (c.f 4 0 0) then d.setupFault r
  else (d.setEth (c.f 4 0 0) { up := true }).finish r stSuccess 0

theorem exec_ethUp : exec (.ethUp r) s = lift (ntuCmd specEthUp r (ethUp r)) s := by
  rw [exec, execEthUp]
  rfl

theorem ethUp_engineDown (hc : s.dev.clear specEthUp r c = true) (hoff : s.dev.noCode 3 = true) :
    ∃ t, exec (.ethUp r) s = .next t ∧ Answered s.dev t.dev r stEngineDown 0 ∧ Keeps byDone s.dev t.dev :=
  cmd_answers (eff := fun c d => if d.noCode 3 then d.finish r stEngineDown 0 else ethUp r c d) exec_ethUp hc (if_pos hoff)

variable (hp : p = c.f 4 0 0) (hc : s.dev.clear specEthUp r c = true) (hon : s.dev.noCode 3 = false)
include hp hc hon

theorem ethUp_isUp (hup : (s.dev.eth p).up = true) :
    ∃ t, exec (.ethUp r) s = .next t
      ∧ Answered s.dev t.dev r stSuccess (if (s.dev.eth p).link then (s.dev.eth p).speed else 0)
      ∧ Keeps byDone s.dev t.dev := by
  subst hp
  exact ntuCmd_answers_only exec_ethUp hc hon (if_pos hup)

variable (hdown : (s.dev.eth p).up = false)
include hdown

theorem ethUp_fails (hbad : s.dev.ethBad p = true) :
    ∃ t, exec (.ethUp r) s = .next t ∧ Answered s.dev t.dev r stInvalidField 4 ∧ Keeps byDone s.dev t.dev := by
  subst hp
  exact ntuCmd_answers_only exec_ethUp hc hon ((if_neg (ne_true_of_eq_false hdown)).trans (if_pos hbad))

theorem ethUp_brings_up (hgood : s.dev.ethBad p = false) :
    ∃ t, exec (.ethUp r) s = .next t ∧ t.pending = s.pending ∧ Answered s.dev t.dev r stSuccess 0
      ∧ t.dev.eth p = { up := true, link := false, speed := 0, fec := 0, trial := 1 }
      ∧ (∀ q, q ≠ p → t.dev.eth q = s.dev.eth q) ∧ t.dev.ntu.doms = s.dev.ntu.doms
      ∧ Keeps (.ntu :: byDone) s.dev t.dev := by
  subst hp
  obtain ⟨hnext, ha, hk⟩ := ntuCmd_completes (p := .ntu :: byDone) exec_ethUp hc hon
    ((if_neg (ne_true_of_eq_false hdown)).trans (if_neg (ne_true_of_eq_false hgood))) (Dev.setEth_keeps _ _ _) (by decide)
    (by decide) (by decide) (by decide)
  refine ⟨_, hnext, rfl, ha, (Dev.finish_eth _ _ _ _ _).trans (Dev.setEth_eth _ _ _),
    fun q hne => (Dev.finish_eth _ _ _ _ _).trans (Dev.setEth_eth_ne _ _ _ hne), ?_, hk⟩
  rw [Dev.finish_ntu]
  rfl

end Commands

section Down

variable {s : State} {r : CmdRef} {c : Cmd} {p : Nat} {d : Dev}

/-- The effect of ETH_DOWN. -/
def ethDown (r : CmdRef) (c : Cmd) (d : Dev) : Dev := ((d.linkDrop (c.f 4 0 0)).setEth (c.f 4 0 0) {}).finish r stSuccess 0

theorem exec_ethDown : exec (.ethDown r) s = lift (ntuCmd specEthDown r (ethDown r)) s := by
  rw [exec, execEthDown]
  rfl

/-- What a dropping link leaves alone, whether or not there was a link. -/
theorem Dev.linkDrop_others (d : Dev) (p : Nat) :
    (∀ q, q ≠ p → (d.linkDrop p).eth q = d.eth q) ∧ (d.linkDrop p).ntu.doms = d.ntu.doms
      ∧ (d.linkDrop p).ntu.lts = d.ntu.lts ∧ Keeps (.ntu :: byPost) d (d.linkDrop p) := by
  cases h : (d.eth p).link with
  | false =>
    rw [Dev.linkDrop_none h]
    exact ⟨fun _ _ => rfl, rfl, rfl, .refl _ _⟩
  | true =>
    have hs := Dev.linkDrop_same h
    exact ⟨fun q hne => (hs.eth q).trans (Dev.setEth_eth_ne _ _ _ hne), hs.doms, hs.lts,
      ((Dev.setEth_keeps _ _ _).mono (by decide)).trans hs.2⟩

theorem ethDown_takes_down (hp : p = c.f 4 0 0) (hc : s.dev.clear specEthDown r c = true) (hon : s.dev.noCode 3 = false) :
    ∃ t, exec (.ethDown r) s = .next t ∧ t.pending = s.pending ∧ Answered s.dev t.dev r stSuccess 0
      ∧ t.dev.eth p = { up := false, link := false, speed := 0, fec := 0, trial := 1 }
      ∧ (∀ q, q ≠ p → t.dev.eth q = s.dev.eth q) ∧ t.dev.ntu.doms = s.dev.ntu.doms ∧ t.dev.ntu.lts = s.dev.ntu.lts
      ∧ Keeps (.ntu :: .fetch :: byPost) s.dev t.dev := by
  subst hp
  obtain ⟨hothers, hdoms, hlts, hdrop⟩ := s.dev.linkDrop_others (c.f 4 0 0)
  obtain ⟨hnext, ha, hk⟩ := ntuCmd_completes (p := .ntu :: .fetch :: byPost) exec_ethDown hc hon rfl
    (hdrop.trans ((Dev.setEth_keeps _ _ _).mono (by decide))) (by decide) (by decide) (by decide) (by decide)
  refine ⟨_, hnext, rfl, ha, (Dev.finish_eth _ _ _ _ _).trans (Dev.setEth_eth _ _ _), fun q hne => ?_, ?_, ?_, hk⟩
  · rw [Dev.finish_eth, Dev.setEth_eth_ne _ _ _ hne, hothers q hne]
  · rw [Dev.finish_ntu]
    exact hdoms
  · rw [Dev.finish_ntu]
    exact hlts

end Down

/-! ## The link comes and goes (R367, R368, R376) -/

section Link

variable {s : State} {p : Fin 2} {e : Eth} {speed : Nat} (hi : s.dev.idleMode = true) (he : e = s.dev.eth p.val)

/-- Port `p` has link, at a speed. -/
def Dev.ethLinked (d : Dev) (p speed : Nat) : Dev :=
  d.setEth p { d.eth p with link := true, speed := speed, fec := if speed = 1 then d.ethCfg p 5 4 else 2 }

/-- The LTS follows a selected domain on the port once more. -/
def Dev.linkFollowed (d : Dev) (p : Nat) : Dev :=
  if d.ntu.sel < 2 ∧ d.domCfg d.ntu.sel 0 0 = p then ({ d with ntu := { d.ntu with held := false } }).ltsEval else d

theorem Dev.linkFollowed_same (d : Dev) (p : Nat) : d.SlewSame (d.linkFollowed p) := by
  unfold Dev.linkFollowed
  split
  · exact d.unhold_same.trans (Dev.ltsEval_same _)
  · exact .refl _

/-- The speed that port `p` waits for. -/
def Dev.speedWanted (d : Dev) (p : Nat) : Nat := if d.ethCfg p 1 0 = 0 then (d.eth p).trial else d.ethCfg p 1 0

theorem Dev.linkUp_links {d : Dev} {p : Nat} (hup : (d.eth p).up = true) (hlink : (d.eth p).link = false)
    (hspeed : speed = d.speedWanted p) : d.linkUp p speed = ((d.ethLinked p speed).linkFollowed p).report p :=
  if_neg (by simpa [hup, hlink, Dev.speedWanted] using hspeed)

include hi he

theorem ethLinkUp_none (h : e.up = false ∨ e.link = true) : exec (.ethLinkUp p speed) s = .next s := by
  subst he
  exact event_none (f := fun d => d.linkUp p.val speed) rfl hi (if_pos (by rcases h with h | h <;> simp [h]))

theorem ethLinkUp_links (hup : e.up = true) (hlink : e.link = false)
    (hspeed : speed = (if s.dev.fld (0xA0000 + 0x40 * p.val) 1 0 = 0 then e.trial
      else s.dev.fld (0xA0000 + 0x40 * p.val) 1 0)) :
    ∃ t tag, exec (.ethLinkUp p speed) s = .next t ∧ Out.net p.val tag (.igmpReport 0xE0000181) ∈ t.dev.out
      ∧ t.dev.eth p.val = { e with
          link := true, speed := speed, fec := if speed = 1 then s.dev.fld (0xA0000 + 0x40 * p.val) 5 4 else 2 }
      ∧ (∀ q, q ≠ p.val → t.dev.eth q = s.dev.eth q) ∧ Keeps (.ntu :: byPost) s.dev t.dev := by
  subst he
  have hup := Dev.linkUp_links hup hlink hspeed
  have hsame := (s.dev.ethLinked p.val speed).linkFollowed_same p.val
  have hreport := ((s.dev.ethLinked p.val speed).linkFollowed p.val).report_keeps p.val
  have hk := (((Dev.setEth_keeps _ _ _).mono (b := .ntu :: byPost) (by decide)).trans hsame.2).trans
    (hreport.mono (by decide))
  obtain ⟨tag, htag⟩ := ((s.dev.ethLinked p.val speed).linkFollowed p.val).report_out p.val
  obtain ⟨t, hnext, ht⟩ :=
    event_goes (i := .ethLinkUp p speed) (f := fun d => d.linkUp p.val speed) rfl hi hup hk (by decide)
  refine ⟨t, tag, hnext, ?_⟩
  rw [ht]
  exact ⟨htag, ((hreport.eth (by decide) _).trans (hsame.eth _)).trans (Dev.setEth_eth _ _ _),
    fun q hne => ((hreport.eth (by decide) q).trans (hsame.eth q)).trans (Dev.setEth_eth_ne _ _ _ hne), hk⟩

omit hi he in
/-- AUTO tries the other speed. -/
def Dev.speedTried (d : Dev) (p : Nat) : Dev :=
  if (d.eth p).up && !(d.eth p).link && d.ethCfg p 1 0 == 0 then d.setEth p { d.eth p with trial := 3 - (d.eth p).trial }
  else d

omit hi he in
theorem exec_speedAlternate : exec (.speedAlternate p) s = lift (fun d => d.speedTried p.val) s := by
  rw [exec, execSpeedAlternate]
  rfl

theorem speedAlternate_tries (hup : e.up = true) (hlink : e.link = false)
    (hauto : s.dev.fld (0xA0000 + 0x40 * p.val) 1 0 = 0) :
    ∃ t, exec (.speedAlternate p) s = .next t ∧ t.dev.eth p.val = { e with trial := 3 - e.trial }
      ∧ (∀ q, q ≠ p.val → t.dev.eth q = s.dev.eth q) ∧ Keeps [.ntu] s.dev t.dev := by
  subst he
  have hk := s.dev.setEth_keeps p.val { s.dev.eth p.val with trial := 3 - (s.dev.eth p.val).trial }
  exact ⟨_, event_effect exec_speedAlternate hi (if_pos (by simp [hup, hlink, Dev.ethCfg, hauto])) hk (by decide),
    Dev.setEth_eth _ _ _, fun q hne => Dev.setEth_eth_ne _ _ _ hne, hk⟩

theorem speedAlternate_none (h : e.up = false ∨ e.link = true ∨ s.dev.fld (0xA0000 + 0x40 * p.val) 1 0 ≠ 0) :
    exec (.speedAlternate p) s = .next s := by
  subst he
  exact event_none exec_speedAlternate hi (if_neg (by rcases h with h | h | h <;> simp [h, Dev.ethCfg]))

theorem ethLinkDown_drops (hlink : e.link = true) :
    ∃ t, exec (.ethLinkDown p) s = .next t
      ∧ t.dev.eth p.val = { up := e.up, link := false, speed := 0, fec := 0, trial := 1 }
      ∧ (∀ q, q ≠ p.val → t.dev.eth q = s.dev.eth q) ∧ t.dev.ntu.lts = s.dev.ntu.lts
      ∧ Keeps (.ntu :: byPost) s.dev t.dev := by
  subst he
  obtain ⟨hothers, -, hlts, hk⟩ := s.dev.linkDrop_others p.val
  exact ⟨_, event_effect (f := fun d => d.linkDrop p.val) rfl hi rfl hk (by decide),
    ((Dev.linkDrop_same hlink).eth _).trans (Dev.setEth_eth _ _ _), hothers, hlts, hk⟩

/-! ## What a port answers (R368, R386) -/

omit hi he in
/-- An ARP request has been received. -/
def Dev.arpAnswer (d : Dev) (p ip : Nat) : Dev :=
  if d.ethLink p && d.reg (0xA0000 + 0x40 * p + 0xC) == ip then
    d.netOut p (.arpReply ip (d.reg (0xA0000 + 0x40 * p + 4) + 4294967296 * d.fld (0xA0000 + 0x40 * p + 8) 15 0))
  else d

omit hi he in
theorem exec_arpRequest {ip : Nat} : exec (.arpRequest p ip) s = lift (fun d => d.arpAnswer p.val ip) s := by
  rw [exec, execArpRequest]
  rfl

omit hi he in
theorem exec_igmpQuery :
    exec (.igmpQuery p) s = lift (fun d => if d.ethLink p.val then d.report p.val else d) s := by
  rw [exec, execIgmpQuery]

omit hi he in
theorem exec_rxFcsErr :
    exec (.rxFcsErr p) s = lift (fun d => if d.ethLink p.val then d.count (0xA0034 + 0x40 * p.val) 1 else d) s := by
  rw [exec, execRxFcsErr]

theorem ethPort_silent (hlink : e.link = false) :
    exec (.ethLinkDown p) s = .next s ∧ exec (.igmpQuery p) s = .next s ∧ exec (.rxFcsErr p) s = .next s
      ∧ ∀ ip, exec (.arpRequest p ip) s = .next s := by
  subst he
  have hoff : ¬ s.dev.ethLink p.val = true := ne_true_of_eq_false hlink
  exact ⟨event_none (f := fun d => d.linkDrop p.val) rfl hi (Dev.linkDrop_none hlink),
    event_none exec_igmpQuery hi (if_neg hoff), event_none exec_rxFcsErr hi (if_neg hoff),
    fun ip => event_none exec_arpRequest hi (if_neg (by simp [hoff]))⟩

omit he in
theorem arpRequest_other {ip : Nat} (hne : ip ≠ s.dev.reg (0xA000C + 0x40 * p.val)) :
    exec (.arpRequest p ip) s = .next s := by
  have hip : s.dev.reg (0xA0000 + 0x40 * p.val + 0xC) ≠ ip := fun h => hne (h ▸ by congr 1; omega)
  exact event_none exec_arpRequest hi (if_neg (by simp [hip]))

variable (hlink : e.link = true)
include hlink

theorem arpRequest_answers :
    ∃ t tag, exec (.arpRequest p (s.dev.reg (0xA000C + 0x40 * p.val))) s = .next t
      ∧ t.dev.out = s.dev.out ++ [.net p.val tag (.arpReply (s.dev.reg (0xA000C + 0x40 * p.val))
          (s.dev.reg (0xA0004 + 0x40 * p.val) + 4294967296 * s.dev.fld (0xA0008 + 0x40 * p.val) 15 0))]
      ∧ Keeps [.out] s.dev t.dev := by
  subst he
  have hon : s.dev.ethLink p.val = true := hlink
  have hreg : 0xA0000 + 0x40 * p.val + 0xC = 0xA000C + 0x40 * p.val
      ∧ 0xA0000 + 0x40 * p.val + 4 = 0xA0004 + 0x40 * p.val
      ∧ 0xA0000 + 0x40 * p.val + 8 = 0xA0008 + 0x40 * p.val := by omega
  obtain ⟨hip, hlow, hhigh⟩ := hreg
  have heff : s.dev.arpAnswer p.val (s.dev.reg (0xA000C + 0x40 * p.val))
      = s.dev.netOut p.val (.arpReply (s.dev.reg (0xA000C + 0x40 * p.val))
        (s.dev.reg (0xA0004 + 0x40 * p.val) + 4294967296 * s.dev.fld (0xA0008 + 0x40 * p.val) 15 0)) := by
    rw [Dev.arpAnswer, hip, hlow, hhigh, hon, if_pos (by simp)]
  exact ⟨_, _, event_effect exec_arpRequest hi heff (Dev.netOut_keeps _ _ _) (by decide), rfl, Dev.netOut_keeps _ _ _⟩

theorem igmpQuery_answers (halone : s.dev.ntu.pel.member = none) :
    ∃ t tag, exec (.igmpQuery p) s = .next t
      ∧ t.dev.out = s.dev.out ++ [.net p.val tag (.igmpReport 0xE0000181)] ∧ Keeps [.out] s.dev t.dev := by
  subst he
  have heff : s.dev.report p.val = s.dev.netOut p.val (.igmpReport ptpGroup) := by
    simp [Dev.report, Dev.groups, halone]
  exact ⟨_, _, event_effect exec_igmpQuery hi ((if_pos hlink).trans heff) (Dev.netOut_keeps _ _ _) (by decide), rfl,
    Dev.netOut_keeps _ _ _⟩

theorem rxFcsErr_counts :
    ∃ t, exec (.rxFcsErr p) s = .next t ∧ t.dev.ctrs = (s.dev.count (0xA0034 + 0x40 * p.val) 1).ctrs
      ∧ Keeps [.ctrs] s.dev t.dev := by
  subst he
  exact ⟨_, event_effect exec_rxFcsErr hi (if_pos hlink) (Dev.count_keeps _ _ _) (by decide), rfl, Dev.count_keeps _ _ _⟩

end Link

/-! ## The bridge (R370, R375) -/

section Bridge

variable {s : State} {d : Dev} {p : Fin 2} {f : BridgeFrame} (hi : s.dev.idleMode = true)

/-- The frame is for the bridge, which forwards. -/
structure Dev.Bridges (d : Dev) (f : BridgeFrame) : Prop where
  on : d.bridging = true
  other : f.dstIsPort = false
  len : f.len ≤ 9216

include hi

theorem frameForward_none (h : s.dev.bridging = false ∨ f.dstIsPort = true ∨ 9216 < f.len) :
    exec (.frameForward p f) s = .next s :=
  event_none (f := fun d => d.forward p.val f) rfl hi (if_pos (by rcases h with h | h | h <;> simp [h]))

omit hi in
/-- A two-step Sync is tracked while there is room. -/
def Dev.syncTracked (d : Dev) (p : Nat) (f : BridgeFrame) : Dev :=
  if d.tracked p < 16 then { d with ntu := { d.ntu with
    tc := d.ntu.tc ++ [{ port := p, srcId := f.srcId, seq := f.seq, residence := f.residence }] } } else d

omit hi in
theorem Dev.syncTracked_keeps (d : Dev) (p : Nat) (f : BridgeFrame) : Keeps [.ntu] d (d.syncTracked p f) :=
  (Keeps.refl _ d).ifThen (d.ntu_keeps _)

omit hi in
theorem Dev.Bridges.forward (h : d.Bridges f) (p : Nat) :
    d.forward p f = if f.bufferFull then d.count (0xA0030 + 0x40 * p) 1
      else if f.ptp = 1 then d.netOut (1 - p) (.forwarded f (f.corr + f.residence))
      else if f.ptp = 2 then
        (if d.tracked p < 16 then { d with ntu := { d.ntu with
          tc := d.ntu.tc ++ [{ port := p, srcId := f.srcId, seq := f.seq, residence := f.residence }] } }
          else d).netOut (1 - p) (.forwarded f f.corr)
      else if f.ptp = 3 then
        match d.ntu.tc.find? (fun t => t.port == p && t.srcId == f.srcId && t.seq == f.seq) with
        | some t => ({ d with ntu := { d.ntu with tc := d.ntu.tc.filter (· != t) } }).netOut (1 - p)
            (.forwarded f (f.corr + t.residence))
        | none => (d.count (0xA003C + 0x40 * p) 1).netOut (1 - p) (.forwarded f f.corr)
      else d.netOut (1 - p) (.forwarded f f.corr) :=
  if_neg (by simp [h.on, h.other, Nat.not_lt.mpr h.len])

/-- The event leaves what it forwards, on a state with a frame. -/
theorem frameForward_sends {e : Dev} {b : List Part} {corr : Int}
    (he : s.dev.forward p.val f = e.netOut (1 - p.val) (.forwarded f corr)) (hk : Keeps b s.dev e)
    (hl : .link ∉ b) (ho : .out ∉ b) :
    ∃ t tag, exec (.frameForward p f) s = .next t ∧ t.dev.out = s.dev.out ++ [.net (1 - p.val) tag (.forwarded f corr)]
      ∧ Keeps [.out] e t.dev ∧ Keeps (b ++ [.out]) s.dev t.dev := by
  have hsent := e.netOut_keeps (1 - p.val) (.forwarded f corr)
  have hall := (hk.mono (List.subset_append_left b [.out])).trans (hsent.mono (List.subset_append_right _ _))
  obtain ⟨tag, htag⟩ := e.netOut_out (1 - p.val) (.forwarded f corr)
  have hout : e.out = s.dev.out := hk .out ho
  exact ⟨_, tag, event_effect (f := fun d => d.forward p.val f) rfl hi he hall (by simp [hl]), by rw [← hout]; exact htag,
    hsent, hall⟩

variable (h : s.dev.Bridges f)
include h

theorem frameForward_drops (hfull : f.bufferFull = true) :
    ∃ t, exec (.frameForward p f) s = .next t ∧ t.dev.ctrs = (s.dev.count (0xA0030 + 0x40 * p.val) 1).ctrs
      ∧ Keeps [.ctrs] s.dev t.dev :=
  ⟨_, event_effect (f := fun d => d.forward p.val f) rfl hi ((h.forward _).trans (if_pos hfull)) (Dev.count_keeps _ _ _)
    (by decide), rfl, Dev.count_keeps _ _ _⟩

variable (hfree : f.bufferFull = false)
include hfree

theorem frameForward_once (h2 : f.ptp ≠ 2) (h3 : f.ptp ≠ 3) :
    ∃ t tag, exec (.frameForward p f) s = .next t
      ∧ t.dev.out = s.dev.out ++ [.net (1 - p.val) tag (.forwarded f (if f.ptp = 1 then f.corr + f.residence else f.corr))]
      ∧ Keeps [.out] s.dev t.dev := by
  have he : s.dev.forward p.val f
      = s.dev.netOut (1 - p.val) (.forwarded f (if f.ptp = 1 then f.corr + f.residence else f.corr)) := by
    rw [h.forward, if_neg (ne_true_of_eq_false hfree), if_neg h2, if_neg h3]
    split <;> rfl
  obtain ⟨t, tag, hnext, hout, -, hk⟩ := frameForward_sends hi he (.refl [] _) (by decide) (by decide)
  exact ⟨t, tag, hnext, hout, hk⟩

theorem frameForward_sync (h2 : f.ptp = 2) :
    ∃ t tag, exec (.frameForward p f) s = .next t
      ∧ t.dev.out = s.dev.out ++ [.net (1 - p.val) tag (.forwarded f f.corr)]
      ∧ (s.dev.tracked p.val < 16 → t.dev.ntu.tc = s.dev.ntu.tc ++ [{
          port := p.val, srcId := f.srcId, seq := f.seq, residence := f.residence }])
      ∧ (16 ≤ s.dev.tracked p.val → t.dev.ntu.tc = s.dev.ntu.tc)
      ∧ t.dev.ntu = { s.dev.ntu with tc := t.dev.ntu.tc } ∧ Keeps [.ntu, .out] s.dev t.dev := by
  have he : s.dev.forward p.val f = (s.dev.syncTracked p.val f).netOut (1 - p.val) (.forwarded f f.corr) := by
    rw [h.forward, if_neg (ne_true_of_eq_false hfree), if_neg (by omega), if_pos h2]
    rfl
  obtain ⟨t, tag, hnext, hout, hsent, hk⟩ := frameForward_sends hi he (s.dev.syncTracked_keeps p.val f) (by decide)
    (by decide)
  have hntu : t.dev.ntu = (s.dev.syncTracked p.val f).ntu := hsent .ntu (by decide)
  refine ⟨t, tag, hnext, hout, fun hroom => ?_, fun hfull => ?_, ?_, hk⟩ <;> rw [hntu, Dev.syncTracked]
  · rw [if_pos hroom]
  · rw [if_neg (Nat.not_lt.mpr hfull)]
  · split <;> rfl

theorem frameForward_followUp {x : TcTrack} (h3 : f.ptp = 3) (htc : s.dev.ntu.tc = [x]) (hport : x.port = p.val)
    (hid : x.srcId = f.srcId) (hseq : x.seq = f.seq) :
    ∃ t tag, exec (.frameForward p f) s = .next t
      ∧ t.dev.out = s.dev.out ++ [.net (1 - p.val) tag (.forwarded f (f.corr + x.residence))]
      ∧ t.dev.ntu = { s.dev.ntu with tc := [] } ∧ Keeps [.ntu, .out] s.dev t.dev := by
  have he : s.dev.forward p.val f = ({ s.dev with ntu := { s.dev.ntu with tc := [] } }).netOut (1 - p.val)
      (.forwarded f (f.corr + x.residence)) := by
    rw [h.forward, if_neg (ne_true_of_eq_false hfree), if_neg (by omega), if_neg (by omega), if_pos h3, htc]
    simp [hport, hid, hseq]
  obtain ⟨t, tag, hnext, hout, hsent, hk⟩ := frameForward_sends hi he (s.dev.ntu_keeps _) (by decide) (by decide)
  exact ⟨t, tag, hnext, hout, hsent .ntu (by decide), hk⟩

theorem frameForward_unmatched (h3 : f.ptp = 3)
    (hnone : ∀ x ∈ s.dev.ntu.tc, ¬ (x.port = p.val ∧ x.srcId = f.srcId ∧ x.seq = f.seq)) :
    ∃ t tag, exec (.frameForward p f) s = .next t
      ∧ t.dev.out = s.dev.out ++ [.net (1 - p.val) tag (.forwarded f f.corr)]
      ∧ t.dev.ctrs = (s.dev.count (0xA003C + 0x40 * p.val) 1).ctrs ∧ Keeps [.ctrs, .out] s.dev t.dev := by
  have hfind : s.dev.ntu.tc.find? (fun t => t.port == p.val && t.srcId == f.srcId && t.seq == f.seq) = none := by
    simpa [and_assoc] using hnone
  have he : s.dev.forward p.val f = (s.dev.count (0xA003C + 0x40 * p.val) 1).netOut (1 - p.val)
      (.forwarded f f.corr) := by
    rw [h.forward, if_neg (ne_true_of_eq_false hfree), if_neg (by omega), if_neg (by omega), if_pos h3, hfind]
  obtain ⟨t, tag, hnext, hout, hsent, hk⟩ := frameForward_sends hi he (s.dev.count_keeps _ _) (by decide) (by decide)
  exact ⟨t, tag, hnext, hout, hsent .ctrs (by decide), hk⟩

omit h hfree in
theorem tcSyncTrackExpiry_forgets (id q : Nat) :
    ∃ t, exec (.tcSyncTrackExpiry p id q) s = .next t ∧ Keeps [.ntu] s.dev t.dev
      ∧ t.dev.ntu = { s.dev.ntu with tc := t.dev.ntu.tc }
      ∧ ∀ x, x ∈ t.dev.ntu.tc ↔ x ∈ s.dev.ntu.tc ∧ ¬ (x.port = p.val ∧ x.srcId = id ∧ x.seq = q) := by
  refine ⟨_, event_effect (f := fun d : Dev => { d with ntu := { d.ntu with
    tc := d.ntu.tc.filter fun t => !(t.port == p.val && t.srcId == id && t.seq == q) } }) rfl hi rfl (s.dev.ntu_keeps _)
    (by decide), s.dev.ntu_keeps _, rfl, fun x => ?_⟩
  simp only [List.mem_filter, Bool.not_eq_true', Bool.and_eq_false_iff, beq_eq_false_iff_ne, not_and,
    and_congr_right_iff]
  tauto

end Bridge

/-- Settles O55: the commands of a port, the events of its link and what it answers, and what the bridge forwards. -/
theorem ethernetPorts : Obligations.EthernetPorts := by
  unfold Obligations.EthernetPorts
  refine ⟨fun s r c p hp => ⟨fun hc => ⟨ethUp_engineDown hc, ethUp_isUp hp hc, ethUp_fails hp hc, ethUp_brings_up hp hc⟩,
      ethDown_takes_down hp⟩,
    fun s p e hi he => ⟨fun _ => ethLinkUp_links hi he, fun _ => ethLinkUp_none hi he, speedAlternate_tries hi he,
      speedAlternate_none hi he, ethLinkDown_drops hi he, ethPort_silent hi he, fun hlink =>
        ⟨arpRequest_answers hi he hlink, fun _ => arpRequest_other hi, igmpQuery_answers hi he hlink,
          rxFcsErr_counts hi he hlink⟩⟩,
    fun s p f hi => ⟨frameForward_none hi, fun hon hother hlen => ?_, tcSyncTrackExpiry_forgets hi⟩⟩
  have h : s.dev.Bridges f := ⟨hon, hother, hlen⟩
  exact ⟨frameForward_drops hi h, fun hfree => ⟨frameForward_once hi h hfree, frameForward_sync hi h hfree,
    fun _ => frameForward_followUp hi h hfree, frameForward_unmatched hi h hfree⟩⟩

end Sys2Proof.Machine
end

section
/-! SUPPORT. The Peloton: what a schedule taken or sent changes, membership, messages received and sent (O57). -/

namespace Sys2Proof.Machine

open Sys2Proof

/-! ## Peloton state -/

section State

variable {d e f : Dev} {b : List Part}

theorem Dev.modPel_keeps (d : Dev) (g : Pel → Pel) : Keeps [.ntu] d (d.modPel g) := d.ntu_keeps _

theorem Keeps.ntu (hk : Keeps b d e) (hb : .ntu ∉ b) : e.ntu = d.ntu := hk .ntu hb

theorem Dev.pelEvent_outGrows (d : Dev) (a o c i : Nat) : d.OutGrows (d.pelEvent a o c i) := d.post_outGrows _ _ _ _ _ _ _

/-- Of NTU only what the Peloton has to come changes: the members, the schedule in force and the numbers stay, and what
has left stays. -/
structure Dev.PelSame (d e : Dev) : Prop where
  ntu : e.ntu = { d.ntu with pel := e.ntu.pel }
  member : e.ntu.pel.member = d.ntu.pel.member
  cur : e.ntu.pel.cur = d.ntu.pel.cur
  seq : e.ntu.pel.seq = d.ntu.pel.seq
  grows : d.OutGrows e
  keeps : Keeps (.ntu :: .sni :: byPost) d e

theorem Dev.PelSame.refl (d : Dev) : d.PelSame d := ⟨rfl, rfl, rfl, rfl, .refl d, .refl _ _⟩

theorem Dev.PelSame.trans (h : d.PelSame e) (k : e.PelSame f) : d.PelSame f :=
  ⟨by rw [k.ntu, h.ntu], k.member.trans h.member, k.cur.trans h.cur, k.seq.trans h.seq, h.grows.trans k.grows,
    h.keeps.trans k.keeps⟩

/-- A step that leaves NTU alone. -/
theorem Dev.PelSame.of_keeps (hk : Keeps b d e) (hb : .ntu ∉ b) (hs : b ⊆ .ntu :: .sni :: byPost) (hg : d.OutGrows e) :
    d.PelSame e := by
  have hntu := hk.ntu hb
  exact ⟨by rw [hntu], by rw [hntu], by rw [hntu], by rw [hntu], hg, hk.mono hs⟩

theorem Dev.pelEvent_same (d : Dev) (a o c i : Nat) : d.PelSame (d.pelEvent a o c i) :=
  .of_keeps (d.pelEvent_keeps a o c i) (by decide) (by decide) (d.pelEvent_outGrows a o c i)

theorem Dev.pelPorts_keeps (d : Dev) (c : Option PelChange) : Keeps [.sni] d (d.pelPorts c) :=
  Keeps.foldl _ (fun e _ => (Keeps.refl _ e).ifThen (e.modPort_keeps _ _)) _ _

/-- A change is announced, or dropped, with the ports that follow the schedule. -/
theorem Dev.pelPend_same (d : Dev) (x c : Option PelChange) :
    d.PelSame ((d.modPel fun v => { v with pend := x }).pelPorts c) := by
  have hmod : d.PelSame (d.modPel fun v => { v with pend := x }) :=
    ⟨rfl, rfl, rfl, rfl, (d.modPel_keeps _).outGrows (by decide), (d.modPel_keeps _).mono (by decide)⟩
  exact hmod.trans (.of_keeps (Dev.pelPorts_keeps _ _) (by decide) (by decide)
    ((Dev.pelPorts_keeps _ _).outGrows (by decide)))

/-! ## Taking a schedule (R380, R381) -/

theorem Dev.takeChange_same (d : Dev) (cur new : Sched) (n sender : Nat) : d.PelSame (d.takeChange cur n new sender) := by
  unfold Dev.takeChange
  split
  · exact .refl d
  · split
    · exact .refl d
    · split
      · exact d.pelEvent_same _ _ _ _
      · simp only []
        split
        · exact (d.pelPend_same _ _).trans (Dev.pelEvent_same _ _ _ _ _)
        · exact d.pelPend_same _ _

theorem Dev.takeOther_same (d : Dev) (new : Sched) (sender : Nat) : d.PelSame (d.takeOther new sender) := by
  unfold Dev.takeOther
  simp only []
  split
  · exact .refl d
  · exact (d.pelPend_same _ _).trans (Dev.pelEvent_same _ _ _ _ _)

variable (cur : Sched) (change : Option (Nat × Sched)) (gm dom sender : Nat)

/-- The grandmaster and the domain of an accepted schedule. -/
def Dev.pelSource (d : Dev) (gm dom : Nat) : Dev := d.modPel fun v => { v with gm := gm, ptpDomain := dom }

/-- The first schedule is taken at once. -/
theorem Dev.takeSchedule_first (h : d.ntu.pel.cur = none) :
    Dev.PelSame ((d.pelSource gm dom).modPel fun v => { v with cur := some cur })
      (d.takeSchedule cur change gm dom sender) := by
  have hcur : ((d.pelSource gm dom).ntu.pel).cur = none := h
  unfold Dev.pelSource at hcur ⊢
  unfold Dev.takeSchedule
  simp only [hcur]
  split
  · exact Dev.takeChange_same _ _ _ _ _
  · exact .refl _

/-- A later schedule is one to come. -/
theorem Dev.takeSchedule_later {old : Sched} (h : d.ntu.pel.cur = some old) :
    (d.pelSource gm dom).PelSame (d.takeSchedule cur change gm dom sender) := by
  have hcur : ((d.pelSource gm dom).ntu.pel).cur = some old := h
  unfold Dev.pelSource at hcur ⊢
  unfold Dev.takeSchedule
  simp only [hcur]
  split
  · split
    · exact .refl _
    · exact Dev.takeChange_same _ _ _ _ _
  · split
    · exact Dev.takeOther_same _ _ _
    · split
      · exact Dev.pelPend_same _ _ _
      · exact .refl _

/-- What a schedule leaves: a schedule in force, the first one where there was none, and the same member and number. -/
theorem Dev.takeSchedule_takes (d : Dev) :
    ∃ now, (d.takeSchedule cur change gm dom sender).ntu.pel.cur = some now ∧ (d.ntu.pel.cur = none → now = cur)
      ∧ (d.takeSchedule cur change gm dom sender).ntu.pel.member = d.ntu.pel.member
      ∧ (d.takeSchedule cur change gm dom sender).ntu.pel.seq = d.ntu.pel.seq
      ∧ (d.takeSchedule cur change gm dom sender).now = d.now
      ∧ Keeps (.ntu :: .sni :: byPost) d (d.takeSchedule cur change gm dom sender) := by
  have hsource : Keeps [.ntu] d (d.pelSource gm dom) := d.modPel_keeps _
  cases h : d.ntu.pel.cur with
  | none =>
    have hs := d.takeSchedule_first cur change gm dom sender h
    refine ⟨cur, hs.cur, fun _ => rfl, hs.member, hs.seq, ?_,
      ((hsource.trans (Dev.modPel_keeps _ _)).mono (by decide)).trans hs.keeps⟩
    unfold Dev.now
    rw [hs.ntu]
    rfl
  | some old =>
    have hs := d.takeSchedule_later cur change gm dom sender h
    refine ⟨old, hs.cur.trans h, fun h => absurd h (by simp), hs.member, hs.seq, ?_,
      (hsource.mono (by decide)).trans hs.keeps⟩
    unfold Dev.now
    rw [hs.ntu]
    rfl

/-! ## Sending one (R379, R381) -/

/-- The SCHEDULE message of member `m`. -/
def schedMsg (v : Pel) (m : PelMember) (cur : Sched) : SchedMsg := {
  group := m.group, sender := m.id, leader := true, seq := v.seq, cur := cur
  change := v.pend.map fun c => (c.n, c.sched), gm := v.gm, ptpDomain := v.ptpDomain }

/-- Its number has been used. -/
def Dev.schedSent (d : Dev) (m : PelMember) : Dev :=
  d.setPel { d.ntu.pel with seq := (d.ntu.pel.seq + 1) % 4294967296, last := some (m.id, d.ntu.pel.seq) }

variable {cur} {m : PelMember}

theorem Dev.sendSchedule_sends (hm : d.ntu.pel.member = some m) (hcur : d.ntu.pel.cur = some cur) :
    d.sendSchedule
      = (d.schedSent m).netOut m.port (.schedule m.ip m.udp (ltsForm d.now) (schedMsg d.ntu.pel m cur)) := by
  unfold Dev.sendSchedule
  split
  · next m' cur' hm' hcur' =>
    obtain rfl := Option.some.inj (hm.symm.trans hm')
    obtain rfl := Option.some.inj (hcur.symm.trans hcur')
    rfl
  · next h => exact absurd hcur (h m cur hm)

theorem Dev.sendSchedule_none (h : d.ntu.pel.cur = none) : d.sendSchedule = d := by
  unfold Dev.sendSchedule
  rw [h]
  cases d.ntu.pel.member <;> rfl

theorem Dev.pelOn_iff (hm : d.ntu.pel.member = some m) (p : PelMember → Bool) :
    d.pelOn p = (d.ethLink m.port && p m) := by
  simp [Dev.pelOn, hm]

end State

/-! ## PEL_JOIN and PEL_LEAVE (R379, R384, R387) -/

section Join

variable {s : State} {r : CmdRef} {c : Cmd} {d : Dev}

/-- The membership that PEL_JOIN asks for. -/
def joinMember (c : Cmd) : PelMember := {
  id := c.f 4 13 0, leader := c.b 4 16, port := c.f 4 24 24, group := c.f 5 15 0, udp := c.f 5 31 16, ip := c.w 6
  schedMs := c.f 7 15 0, statusMs := c.f 7 31 16, holdMs := c.f 8 15 0 }

/-- A membership begins with a report and JOINED. -/
def Dev.pelJoined (d : Dev) (m : PelMember) : Dev :=
  ((d.setPel { member := some m, seq := d.ntu.pel.seq }).netOut m.port (.igmpReport m.ip)).pelEvent 1 m.id 0 0

/-- The effect of PEL_JOIN. -/
def pelJoin (r : CmdRef) (c : Cmd) (d : Dev) : Dev :=
  if !d.ethLink (c.f 4 24 24) then d.finish r stLinkDown 0 else (d.pelJoined (joinMember c)).finish r stSuccess 0

theorem exec_pelJoin : exec (.pelJoin r) s = lift (ntuCmd specPelJoin r (pelJoin r)) s := by
  rw [exec, execPelJoin]
  rfl

theorem Dev.pelJoined_ntu (d : Dev) (m : PelMember) :
    (d.pelJoined m).ntu = { d.ntu with pel := { member := some m, seq := d.ntu.pel.seq } } :=
  ((Dev.pelEvent_keeps _ _ _ _ _).ntu (by decide)).trans ((Dev.netOut_keeps _ _ _).ntu (by decide))

theorem Dev.pelJoined_keeps (d : Dev) (m : PelMember) : Keeps (.ntu :: byPost) d (d.pelJoined m) :=
  (((Dev.setPel_keeps _ _).mono (by decide)).trans ((Dev.netOut_keeps _ _ _).mono (by decide))).trans
    ((Dev.pelEvent_keeps _ _ _ _ _).mono (by decide))

theorem Dev.pelJoined_out (d : Dev) (m : PelMember) :
    ∃ tag, Out.net m.port tag (.igmpReport m.ip) ∈ (d.pelJoined m).out := by
  obtain ⟨tag, htag⟩ := (d.setPel { member := some m, seq := d.ntu.pel.seq }).netOut_out m.port (.igmpReport m.ip)
  refine ⟨tag, Dev.pelEvent_outGrows _ _ _ _ _ ?_⟩
  rw [htag]
  exact List.mem_append_right _ (List.mem_singleton.mpr rfl)

variable (hon : s.dev.noCode 3 = false)
include hon

theorem pelJoin_linkDown (hc : s.dev.clear specPelJoin r c = true) (hlink : s.dev.ethLink (c.f 4 24 24) = false) :
    ∃ t, exec (.pelJoin r) s = .next t ∧ Answered s.dev t.dev r stLinkDown 0 ∧ Keeps byDone s.dev t.dev :=
  ntuCmd_answers_only exec_pelJoin hc hon (if_pos (by simp [hlink]))

theorem pelJoin_joins (hc : s.dev.clear specPelJoin r c = true) (hlink : s.dev.ethLink (c.f 4 24 24) = true) :
    ∃ t tag, exec (.pelJoin r) s = .next t ∧ t.pending = s.pending ∧ Answered s.dev t.dev r stSuccess 0
      ∧ t.dev.ntu.pel.member = some {
          id := c.f 4 13 0, leader := c.b 4 16, port := c.f 4 24 24, group := c.f 5 15 0, udp := c.f 5 31 16
          ip := c.w 6, schedMs := c.f 7 15 0, statusMs := c.f 7 31 16, holdMs := c.f 8 15 0 }
      ∧ t.dev.ntu.pel.cur = none ∧ t.dev.ntu.pel.follow = none ∧ t.dev.ntu.pel.lost = false
      ∧ Out.net (c.f 4 24 24) tag (.igmpReport (c.w 6)) ∈ t.dev.out
      ∧ t.dev.ntu = { s.dev.ntu with pel := t.dev.ntu.pel } ∧ Keeps (.ntu :: .fetch :: byPost) s.dev t.dev := by
  obtain ⟨hnext, ha, hk⟩ := ntuCmd_completes (p := .ntu :: .fetch :: byPost) exec_pelJoin hc hon
    (if_neg (by simp [hlink])) (s.dev.pelJoined_keeps (joinMember c)) (by decide) (by decide) (by decide) (by decide)
  obtain ⟨tag, htag⟩ := s.dev.pelJoined_out (joinMember c)
  have hntu := (Dev.finish_ntu _ r stSuccess 0).trans (s.dev.pelJoined_ntu (joinMember c))
  refine ⟨_, tag, hnext, rfl, ha, ?_, ?_, ?_, ?_, Dev.finish_outGrows _ _ _ _ htag, ?_, hk⟩ <;> rw [hntu]
  rfl

omit hon in
/-- What a port keeps when the membership ends. -/
structure PelLeft (v w : Port) : Prop where
  rateNum : w.rateNum = v.rateNum
  epoch : w.epoch = v.epoch
  scheduled : w.scheduled = v.scheduled
  alone : v.peloton = false → w.peloton = false

omit hon in
/-- Port `p` keeps its schedule as a fixed one. -/
def Dev.pelFixed (d : Dev) (p : Nat) : Dev :=
  if (d.port p).peloton then d.modPort p fun v => { v with change := none, peloton := false } else d

omit hon in
theorem Dev.pelFixed_alone (d : Dev) (p : Nat) : ((d.pelFixed p).port p).peloton = false := by
  unfold Dev.pelFixed
  split
  · rw [Dev.modPort_port]
  · next h => simpa using h

omit hon in
theorem Dev.pelFixed_left (d : Dev) (p q : Nat) : PelLeft (d.port q) ((d.pelFixed p).port q) := by
  unfold Dev.pelFixed
  split
  · by_cases hq : q = p
    · subst hq
      rw [Dev.modPort_port]
      exact ⟨rfl, rfl, rfl, fun _ => rfl⟩
    · rw [Dev.modPort, Dev.setPort_port_ne _ _ _ hq]
      exact ⟨rfl, rfl, rfl, id⟩
  · exact ⟨rfl, rfl, rfl, id⟩

omit hon in
theorem Dev.pelFixed_foldl (ps : List Nat) (d : Dev) (q : Nat) :
    PelLeft (d.port q) ((ps.foldl Dev.pelFixed d).port q)
      ∧ (q ∈ ps → ((ps.foldl Dev.pelFixed d).port q).peloton = false) := by
  induction ps generalizing d with
  | nil => exact ⟨⟨rfl, rfl, rfl, id⟩, fun h => absurd h List.not_mem_nil⟩
  | cons p ps ih =>
    obtain ⟨hleft, hmem⟩ := ih (d.pelFixed p)
    have hp := d.pelFixed_left p q
    refine ⟨⟨hleft.rateNum.trans hp.rateNum, hleft.epoch.trans hp.epoch, hleft.scheduled.trans hp.scheduled,
      fun h => hleft.alone (hp.alone h)⟩, fun h => ?_⟩
    rcases List.mem_cons.mp h with rfl | h
    · exact hleft.alone (d.pelFixed_alone q)
    · exact hmem h

omit hon in
theorem Dev.pelEnd_eq (d : Dev) :
    d.pelEnd = ((rangeFrom 0 4).foldl Dev.pelFixed d).setPel { seq := ((rangeFrom 0 4).foldl Dev.pelFixed d).ntu.pel.seq } :=
  rfl

omit hon in
theorem Dev.pelFixed_keeps (ps : List Nat) (d : Dev) : Keeps [.sni] d (ps.foldl Dev.pelFixed d) :=
  Keeps.foldl _ (fun e _ => (Keeps.refl _ e).ifThen (e.modPort_keeps _ _)) _ _

theorem pelLeave_leaves (hc : s.dev.clear specPelLeave r c = true) :
    ∃ t, exec (.pelLeave r) s = .next t ∧ t.pending = s.pending ∧ Answered s.dev t.dev r stSuccess 0
      ∧ t.dev.ntu.pel = { seq := s.dev.ntu.pel.seq }
      ∧ (∀ p, p < 4 → (t.dev.port p).peloton = false ∧ (t.dev.port p).rateNum = (s.dev.port p).rateNum
          ∧ (t.dev.port p).epoch = (s.dev.port p).epoch ∧ (t.dev.port p).scheduled = (s.dev.port p).scheduled)
      ∧ Keeps (.ntu :: .sni :: byDone) s.dev t.dev := by
  have hfixed := Dev.pelFixed_keeps (rangeFrom 0 4) s.dev
  have hset := Dev.setPel_keeps ((rangeFrom 0 4).foldl Dev.pelFixed s.dev)
    { seq := ((rangeFrom 0 4).foldl Dev.pelFixed s.dev).ntu.pel.seq }
  obtain ⟨hnext, ha, hk⟩ := ntuCmd_completes (i := .pelLeave r) (p := .ntu :: .sni :: byDone)
    (eff := fun _ d => d.pelEnd.finish r stSuccess 0) (by rw [exec, execPelLeave]) hc hon rfl
    ((hfixed.mono (b := [.ntu, .sni]) (by decide)).trans (hset.mono (by decide))) (by decide) (by decide) (by decide)
    (by decide)
  refine ⟨_, hnext, rfl, ha, ?_, fun p hp => ?_, hk⟩
  · rw [Dev.finish_ntu, Dev.pelEnd_eq]
    show ({ seq := ((rangeFrom 0 4).foldl Dev.pelFixed s.dev).ntu.pel.seq } : Pel) = _
    rw [hfixed.ntu (by decide)]
  · have hport : (s.dev.pelEnd.finish r stSuccess 0).port p = ((rangeFrom 0 4).foldl Dev.pelFixed s.dev).port p :=
      ((Dev.finish_keeps _ _ _ _).port (by decide) p).trans (hset.port (by decide) p)
    obtain ⟨hleft, hmem⟩ := Dev.pelFixed_foldl (rangeFrom 0 4) s.dev p
    rw [hport]
    exact ⟨hmem (mem_rangeFrom.mpr ⟨Nat.zero_le _, by omega⟩), hleft.rateNum, hleft.epoch, hleft.scheduled⟩

end Join

/-! ## PEL_SCHEDULE (R379, R381) -/

section Schedule

variable {s : State} {r : CmdRef} {c : Cmd} {body : List Byte} {m : PelMember}

/-- The schedule of a sound block is taken. -/
def Dev.schedTaken (d : Dev) (c : Cmd) (b : List Byte) : Dev :=
  d.takeSchedule (blkSched b 0) (if c.b 4 0 then some (bn b 28 8, blkSched b 36) else none) (bn b 64 8) (b8 b 72)
    ((d.ntu.pel.member.map (·.id)).getD 0)

/-- The effect of PEL_SCHEDULE. -/
def pelSchedule (r : CmdRef) (body : List Byte) (c : Cmd) (d : Dev) : Dev :=
  if !d.pelOn (fun _ => true) then d.finish r stLinkDown 0
  else match minOff (blkOffs 5 (d.schedBlk c ((body ++ List.replicate 76 0).take 76))) with
    | some o => d.finish r stInvalidField o.result
    | none => (d.schedTaken c ((body ++ List.replicate 76 0).take 76)).sendSchedule.finish r stSuccess d.ntu.pel.seq

theorem exec_pelSchedule : exec (.pelSchedule r body) s = lift (ntuCmd specPelSchedule r (pelSchedule r body)) s := by
  rw [exec, execPelSchedule]
  rfl

variable (hon : s.dev.noCode 3 = false) (hc : s.dev.clear specPelSchedule r c = true)
  (hm : s.dev.ntu.pel.member = some m)
include hon hc hm

theorem pelSchedule_linkDown (hlink : s.dev.ethLink m.port = false) :
    ∃ t, exec (.pelSchedule r body) s = .next t ∧ Answered s.dev t.dev r stLinkDown 0 ∧ Keeps byDone s.dev t.dev :=
  ntuCmd_answers_only exec_pelSchedule hc hon (if_pos (by rw [Dev.pelOn_iff hm, hlink]; rfl))

theorem pelSchedule_takes (hlink : s.dev.ethLink m.port = true) (hlen : body.length = 76)
    (hgood : blkOffs 5 (s.dev.schedBlk c body) = []) :
    ∃ t tag x, exec (.pelSchedule r body) s = .next t ∧ t.pending = s.pending
      ∧ Answered s.dev t.dev r stSuccess s.dev.ntu.pel.seq
      ∧ Out.net m.port tag (.schedule m.ip m.udp (ltsForm s.dev.now) x) ∈ t.dev.out ∧ x.seq = s.dev.ntu.pel.seq
      ∧ x.sender = m.id ∧ x.group = m.group ∧ x.leader = true
      ∧ (s.dev.ntu.pel.cur = none → t.dev.ntu.pel.cur = some (blkSched body 0) ∧ x.cur = blkSched body 0)
      ∧ t.dev.ntu.pel.member = some m ∧ t.dev.ntu.pel.seq = (s.dev.ntu.pel.seq + 1) % 4294967296
      ∧ Keeps (.ntu :: .sni :: .fetch :: byPost) s.dev t.dev := by
  obtain ⟨cur, hcur, hfirst, hmember, hseq, hnow, htake⟩ := Dev.takeSchedule_takes (blkSched body 0)
    (if c.b 4 0 then some (bn body 28 8, blkSched body 36) else none) (bn body 64 8) (b8 body 72)
    ((s.dev.ntu.pel.member.map (·.id)).getD 0) s.dev
  have hsend := Dev.sendSchedule_sends (hmember.trans hm) hcur
  rw [hnow] at hsend
  rw [← Dev.schedTaken] at hcur hmember hseq hnow htake hsend
  have he : pelSchedule r body c s.dev = (s.dev.schedTaken c body).sendSchedule.finish r stSuccess s.dev.ntu.pel.seq := by
    have hbody : (body ++ List.replicate 76 0).take 76 = body := by rw [← hlen, List.take_left]
    rw [pelSchedule, hbody, if_neg (by rw [Dev.pelOn_iff hm, hlink]; decide), hgood]
    rfl
  rw [hsend] at he
  have hsent := (Dev.setPel_keeps (s.dev.schedTaken c body) { (s.dev.schedTaken c body).ntu.pel with
    seq := ((s.dev.schedTaken c body).ntu.pel.seq + 1) % 4294967296
    last := some (m.id, (s.dev.schedTaken c body).ntu.pel.seq) })
  have hout := ((s.dev.schedTaken c body).schedSent m).netOut_keeps m.port
    (.schedule m.ip m.udp (ltsForm s.dev.now) (schedMsg (s.dev.schedTaken c body).ntu.pel m cur))
  obtain ⟨hnext, ha, hk⟩ := ntuCmd_completes (p := .ntu :: .sni :: .fetch :: byPost) exec_pelSchedule hc hon he
    ((htake.trans (hsent.mono (by decide))).trans (hout.mono (by decide))) (by decide) (by decide) (by decide) (by decide)
  obtain ⟨tag, htag⟩ := ((s.dev.schedTaken c body).schedSent m).netOut_out m.port
    (.schedule m.ip m.udp (ltsForm s.dev.now) (schedMsg (s.dev.schedTaken c body).ntu.pel m cur))
  have hntu := (Dev.finish_ntu _ r stSuccess s.dev.ntu.pel.seq).trans (hout.ntu (by decide))
  refine ⟨_, tag, schedMsg (s.dev.schedTaken c body).ntu.pel m cur, hnext, rfl, ha, Dev.finish_outGrows _ _ _ _ ?_, hseq,
    rfl, rfl, rfl, fun hnone => ⟨?_, hfirst hnone⟩, ?_, ?_, hk⟩
  · rw [htag]
    exact List.mem_append_right _ (List.mem_singleton.mpr rfl)
  · rw [hntu]
    exact hcur.trans (by rw [hfirst hnone])
  · rw [hntu]
    exact hmember.trans hm
  · rw [hntu, ← hseq]
    rfl

end Schedule

end Sys2Proof.Machine
end

section
/-! SUPPORT. Peloton messages received and sent, and the loss of the leader; the Peloton as a whole (O57). -/

namespace Sys2Proof.Machine

open Sys2Proof

/-! ## SCHEDULE messages (R379 to R382) -/

section Received

variable {s : State} {d : Dev} {m : PelMember} {p : Fin 2} {x : SchedMsg}

/-- A message for the membership: on its port, of its group, with link. -/
structure PelHears (d : Dev) (m : PelMember) (p group : Nat) : Prop where
  port : m.port = p
  group : m.group = group
  link : d.ethLink p = true

/-- The own member ID in another's message is reported. -/
def Dev.ownIdSeen (d : Dev) (m : PelMember) (sender : Nat) : Dev :=
  if sender = m.id then d.pelEvent 8 sender 0 0 else d

theorem Dev.ownIdSeen_keeps (d : Dev) (m : PelMember) (sender : Nat) : Keeps byPost d (d.ownIdSeen m sender) :=
  (Keeps.refl _ d).ifThen (d.pelEvent_keeps _ _ _ _)

theorem Dev.schedIn_heard (hm : d.ntu.pel.member = some m) {p : Nat} (h : PelHears d m p x.group) :
    d.schedIn p x = if !x.leader then d.ownIdSeen m x.sender
      else if m.leader || (d.ownIdSeen m x.sender).ntu.pel.follow.any fun f => decide (f < x.sender) then
        (d.ownIdSeen m x.sender).pelEvent 7 x.sender 0 0
      else (d.ownIdSeen m x.sender).schedAccept x := by
  have hgoes : ¬ (m.port ≠ p ∨ m.group ≠ x.group ∨ (!d.ethLink p) = true) := by simp [h.port, h.group, h.link]
  unfold Dev.schedIn
  split
  · next hnone => exact absurd (hm.symm.trans hnone) (by simp)
  · next m' hm' =>
    obtain rfl := Option.some.inj (hm.symm.trans hm')
    exact if_neg hgoes

variable (hi : s.dev.idleMode = true) (hm : s.dev.ntu.pel.member = some m)
include hi hm

theorem scheduleReceived_none (h : m.port ≠ p.val ∨ m.group ≠ x.group ∨ s.dev.ethLink p.val = false) :
    exec (.scheduleReceived p x) s = .next s := by
  refine event_none (f := fun d => d.schedIn p.val x) rfl hi ?_
  simp only [Dev.schedIn, hm]
  exact if_pos (by rcases h with h | h | h <;> simp [h])

variable (h : PelHears s.dev m p.val x.group) (hx : x.leader = true)
include h hx

theorem scheduleReceived_conflict (hlead : m.leader = true) :
    ∃ t, exec (.scheduleReceived p x) s = .next t ∧ Keeps byPost s.dev t.dev := by
  have he : s.dev.schedIn p.val x = (s.dev.ownIdSeen m x.sender).pelEvent 7 x.sender 0 0 :=
    (Dev.schedIn_heard hm h).trans ((if_neg (by simp [hx])).trans (if_pos (by simp [hlead])))
  have hk := (s.dev.ownIdSeen_keeps m x.sender).trans (Dev.pelEvent_keeps _ 7 x.sender 0 0)
  exact ⟨_, event_effect (f := fun d => d.schedIn p.val x) rfl hi he hk (by decide), hk⟩

omit hi hm h hx in
/-- The sender of a SCHEDULE is followed. -/
def Dev.schedFollowed (d : Dev) (x : SchedMsg) : Dev := d.modPel fun v => { v with follow := some x.sender, lost := false }

omit hi hm h hx in
/-- Its SCHEDULE is the last one accepted, and SCHEDULE is posted. -/
def Dev.schedNoted (d : Dev) (x : SchedMsg) : Dev :=
  ((d.schedFollowed x).modPel fun v => { v with last := some (x.sender, x.seq) }).pelEvent 2 x.sender 0 0

omit hi hm h hx in
theorem Dev.schedNoted_ntu (d : Dev) (x : SchedMsg) :
    (d.schedNoted x).ntu = { d.ntu with pel := { d.ntu.pel with
      follow := some x.sender, lost := false, last := some (x.sender, x.seq) } } :=
  (Dev.pelEvent_keeps _ _ _ _ _).ntu (by decide)

omit hi hm h hx in
theorem Dev.schedNoted_keeps (d : Dev) (x : SchedMsg) : Keeps (.ntu :: byPost) d (d.schedNoted x) :=
  (((d.modPel_keeps _).trans (Dev.modPel_keeps _ _)).mono (by decide)).trans
    ((Dev.pelEvent_keeps _ _ _ _ _).mono (by decide))

omit hi hm h hx in
/-- A sound newer SCHEDULE of the grandmaster that the member knows is accepted. -/
theorem Dev.schedAccept_accepts
    (hnew : ∀ l, d.ntu.pel.last = some l → l.1 = x.sender → seqLater l.2 x.seq = true) (hok : schedOk x.cur = true)
    (hgm : d.myGm = some x.gm) :
    d.schedAccept x = (d.schedNoted x).takeSchedule x.cur x.change x.gm x.ptpDomain x.sender := by
  have hstale : ((d.schedFollowed x).ntu.pel.last.any fun l => l.1 == x.sender && !seqLater l.2 x.seq) = false := by
    show (d.ntu.pel.last.any fun l => l.1 == x.sender && !seqLater l.2 x.seq) = false
    cases hl : d.ntu.pel.last with
    | none => rfl
    | some l =>
      by_cases hs : l.1 = x.sender
      · simp [hs, hnew l hl hs]
      · simp [hs]
  have hgm' : ¬ (d.schedFollowed x).myGm ≠ some x.gm := fun hne => hne hgm
  unfold Dev.schedFollowed at hstale hgm'
  unfold Dev.schedAccept
  simp only []
  rw [if_neg (by rw [hstale, hok]; decide), if_neg hgm']
  rfl

theorem scheduleReceived_follows (hlead : m.leader = false)
    (hlow : ∀ f, s.dev.ntu.pel.follow = some f → x.sender ≤ f) (hother : x.sender ≠ m.id)
    (hnew : ∀ l, s.dev.ntu.pel.last = some l → l.1 = x.sender → seqLater l.2 x.seq = true) (hok : schedOk x.cur = true)
    (hgm : s.dev.myGm = some x.gm) (hcur : s.dev.ntu.pel.cur = none) (hchange : x.change = none) :
    ∃ t, exec (.scheduleReceived p x) s = .next t
      ∧ t.dev.ntu.pel = { s.dev.ntu.pel with
          follow := some x.sender, lost := false, last := some (x.sender, x.seq), gm := x.gm
          ptpDomain := x.ptpDomain, cur := some x.cur }
      ∧ Keeps (.ntu :: byPost) s.dev t.dev := by
  have hown : s.dev.ownIdSeen m x.sender = s.dev := if_neg hother
  have hfollow : ¬ (m.leader || s.dev.ntu.pel.follow.any fun f => decide (f < x.sender)) = true := by
    cases hf : s.dev.ntu.pel.follow with
    | none => simp [hlead]
    | some f => simpa [hlead] using hlow f hf
  have he := Dev.schedIn_heard hm h
  rw [hown, if_neg (by simp [hx]), if_neg hfollow, Dev.schedAccept_accepts hnew hok hgm, hchange] at he
  have htake : (s.dev.schedNoted x).takeSchedule x.cur none x.gm x.ptpDomain x.sender
      = ((s.dev.schedNoted x).pelSource x.gm x.ptpDomain).modPel fun v => { v with cur := some x.cur } := by
    have hnone : ((s.dev.schedNoted x).pelSource x.gm x.ptpDomain).ntu.pel.cur = none := by
      show (s.dev.schedNoted x).ntu.pel.cur = none
      rw [Dev.schedNoted_ntu]
      exact hcur
    unfold Dev.pelSource at hnone ⊢
    unfold Dev.takeSchedule
    simp only [hnone]
  have hk : Keeps (.ntu :: byPost) s.dev
      (((s.dev.schedNoted x).pelSource x.gm x.ptpDomain).modPel fun v => { v with cur := some x.cur }) :=
    (s.dev.schedNoted_keeps x).trans (((Dev.modPel_keeps _ _).trans (Dev.modPel_keeps _ _)).mono (by decide))
  refine ⟨_, event_effect (f := fun d => d.schedIn p.val x) rfl hi (he.trans htake) hk (by decide), ?_, hk⟩
  show { (s.dev.schedNoted x).ntu.pel with gm := x.gm, ptpDomain := x.ptpDomain, cur := some x.cur } = _
  rw [Dev.schedNoted_ntu]

end Received

/-! ## STATUS messages (R379) -/

section Status

variable {s : State} {d : Dev} {m : PelMember} {p : Fin 2} {x : StatusMsg}

/-- A STATUS message has arrived. -/
def Dev.statusIn (d : Dev) (p : Nat) (x : StatusMsg) : Dev :=
  match d.ntu.pel.member with
  | none => d
  | some me =>
    if me.port ≠ p ∨ me.group ≠ x.group ∨ !d.ethLink p then d
    else if me.leader then
      (d.ownIdSeen me x.sender).post 0x5001 1 ones64 0xA 0 [⟨32, 8, x.lastIndex⟩, ⟨40, 4, x.schedSeq⟩, ⟨44, 1, x.state⟩,
        ⟨48, 4, fromSigned 32 x.slewRemain⟩, ⟨52, 2, x.sender + x.leader.toNat * 32768⟩] (d.ownIdSeen me x.sender).now
    else d.ownIdSeen me x.sender

theorem exec_statusReceived : exec (.statusReceived p x) s = lift (fun d => d.statusIn p.val x) s := by
  rw [exec, execStatusReceived]
  rfl

theorem Dev.statusIn_heard (hm : d.ntu.pel.member = some m) {p : Nat} (h : PelHears d m p x.group)
    (hother : x.sender ≠ m.id) :
    d.statusIn p x = if m.leader then
        d.post 0x5001 1 ones64 0xA 0 [⟨32, 8, x.lastIndex⟩, ⟨40, 4, x.schedSeq⟩, ⟨44, 1, x.state⟩,
          ⟨48, 4, fromSigned 32 x.slewRemain⟩, ⟨52, 2, x.sender + x.leader.toNat * 32768⟩] d.now
      else d := by
  have hown : d.ownIdSeen m x.sender = d := if_neg hother
  have hgoes : ¬ (m.port ≠ p ∨ m.group ≠ x.group ∨ (!d.ethLink p) = true) := by simp [h.port, h.group, h.link]
  simp only [Dev.statusIn, hm, hown]
  exact if_neg hgoes

variable (hi : s.dev.idleMode = true) (hm : s.dev.ntu.pel.member = some m) (h : PelHears s.dev m p.val x.group)
  (hother : x.sender ≠ m.id)
include hi hm h hother

theorem statusReceived_none (hlead : m.leader = false) : exec (.statusReceived p x) s = .next s :=
  event_none exec_statusReceived hi ((Dev.statusIn_heard hm h hother).trans (if_neg (by simp [hlead])))

theorem statusReceived_posts {n : Nat} (hlead : m.leader = true) (hn : s.dev.ringOf 5 = some n)
    (hfits : s.dev.fits n 1 = true) :
    ∃ t slot rc, exec (.statusReceived p x) s = .next t ∧ Out.record n slot rc ∈ t.dev.out ∧ rc.type = 0x5001
      ∧ (⟨32, 8, x.lastIndex⟩ : Fld) ∈ rc.body ∧ (⟨40, 4, x.schedSeq⟩ : Fld) ∈ rc.body ∧ Keeps byPost s.dev t.dev := by
  have he := (Dev.statusIn_heard hm h hother).trans (if_pos hlead)
  obtain ⟨slot, g, ph, q, hrec⟩ := Dev.post_record_as_given 0x5001 1 ones64 0xA 0 [⟨32, 8, x.lastIndex⟩,
    ⟨40, 4, x.schedSeq⟩, ⟨44, 1, x.state⟩, ⟨48, 4, fromSigned 32 x.slewRemain⟩,
    ⟨52, 2, x.sender + x.leader.toNat * 32768⟩] s.dev.now hn hfits
  exact ⟨_, slot, _, event_effect exec_statusReceived hi he (Dev.post_keeps _ _ _ _ _ _ _ _) (by decide), hrec, rfl,
    by simp, by simp, Dev.post_keeps _ _ _ _ _ _ _ _⟩

end Status

/-! ## What a member sends, and the loss of its leader (R379, R382) -/

section Sends

variable {s : State} {d : Dev} {m : PelMember} (hi : s.dev.idleMode = true) (hm : s.dev.ntu.pel.member = some m)

theorem exec_scheduleSend :
    exec .scheduleSend s = lift (fun d => if d.pelOn (·.leader) then d.sendSchedule else d) s := by
  rw [exec, execScheduleSend]

include hi hm

theorem scheduleSend_none (h : m.leader = false ∨ s.dev.ethLink m.port = false ∨ s.dev.ntu.pel.cur = none) :
    exec .scheduleSend s = .next s := by
  refine event_none exec_scheduleSend hi ?_
  rcases h with h | h | h
  · exact if_neg (by simp [Dev.pelOn_iff hm, h])
  · exact if_neg (by simp [Dev.pelOn_iff hm, h])
  · simp only [Dev.sendSchedule_none h, ite_self]

theorem scheduleSend_sends {cur : Sched} (hlead : m.leader = true) (hlink : s.dev.ethLink m.port = true)
    (hcur : s.dev.ntu.pel.cur = some cur) :
    ∃ t tag x, exec .scheduleSend s = .next t
      ∧ t.dev.out = s.dev.out ++ [.net m.port tag (.schedule m.ip m.udp (ltsForm s.dev.now) x)]
      ∧ x.cur = cur ∧ x.seq = s.dev.ntu.pel.seq ∧ x.gm = s.dev.ntu.pel.gm ∧ x.sender = m.id
      ∧ t.dev.ntu.pel = { s.dev.ntu.pel with
          seq := (s.dev.ntu.pel.seq + 1) % 4294967296, last := some (m.id, s.dev.ntu.pel.seq) }
      ∧ Keeps [.ntu, .out] s.dev t.dev := by
  have hon : s.dev.pelOn (·.leader) = true := by simp [Dev.pelOn_iff hm, hlead, hlink]
  have he : (if s.dev.pelOn (·.leader) then s.dev.sendSchedule else s.dev) = _ :=
    (if_pos hon).trans (Dev.sendSchedule_sends hm hcur)
  have hk := ((Dev.setPel_keeps s.dev { s.dev.ntu.pel with
      seq := (s.dev.ntu.pel.seq + 1) % 4294967296, last := some (m.id, s.dev.ntu.pel.seq) }).mono
    (b := [.ntu, .out]) (by decide)).trans ((Dev.netOut_keeps _ m.port
      (.schedule m.ip m.udp (ltsForm s.dev.now) (schedMsg s.dev.ntu.pel m cur))).mono (by decide))
  exact ⟨_, _, schedMsg s.dev.ntu.pel m cur, event_effect exec_scheduleSend hi he hk (by decide), rfl, rfl, rfl, rfl, rfl,
    rfl, hk⟩

omit hi hm in
/-- The STATUS message of member `m`. -/
def Dev.statusMsg (d : Dev) (m : PelMember) : StatusMsg := {
  group := m.group, sender := m.id, leader := m.leader, seq := d.ntu.pel.seq, lastIndex := d.pelLast
  schedSeq := (d.ntu.pel.last.map (·.2)).getD 0, state := d.pelState
  slewRemain := clampI (-2147483647) 2147483647 (d.ltsDiff / tNs) }

omit hi hm in
/-- A member with an interval sends STATUS. -/
def Dev.statusSent (d : Dev) : Dev :=
  match d.ntu.pel.member with
  | none => d
  | some m =>
    if m.statusMs ≠ 0 ∧ d.ethLink m.port then
      (d.setPel { d.ntu.pel with seq := (d.ntu.pel.seq + 1) % 4294967296 }).netOut m.port
        (.status m.ip m.udp (ltsForm d.now) (d.statusMsg m))
    else d

omit hi hm in
theorem exec_statusSend : exec .statusSend s = lift Dev.statusSent s := by
  rw [exec, execStatusSend]
  rfl

omit hi in
theorem Dev.statusSent_of_member :
    s.dev.statusSent = if m.statusMs ≠ 0 ∧ s.dev.ethLink m.port then
        (s.dev.setPel { s.dev.ntu.pel with seq := (s.dev.ntu.pel.seq + 1) % 4294967296 }).netOut m.port
          (.status m.ip m.udp (ltsForm s.dev.now) (s.dev.statusMsg m))
      else s.dev := by
  unfold Dev.statusSent
  split
  · next hnone => exact absurd (hm.symm.trans hnone) (by simp)
  · next m' hm' =>
    obtain rfl := Option.some.inj (hm.symm.trans hm')
    rfl

theorem statusSend_none (h : m.statusMs = 0 ∨ s.dev.ethLink m.port = false) : exec .statusSend s = .next s :=
  event_none exec_statusSend hi ((Dev.statusSent_of_member hm).trans (if_neg (by rcases h with h | h <;> simp [h])))

theorem statusSend_sends (hms : m.statusMs ≠ 0) (hlink : s.dev.ethLink m.port = true) :
    ∃ t tag x, exec .statusSend s = .next t
      ∧ t.dev.out = s.dev.out ++ [.net m.port tag (.status m.ip m.udp (ltsForm s.dev.now) x)]
      ∧ x.seq = s.dev.ntu.pel.seq ∧ x.sender = m.id ∧ x.leader = m.leader ∧ x.lastIndex = s.dev.pelLast
      ∧ t.dev.ntu.pel = { s.dev.ntu.pel with seq := (s.dev.ntu.pel.seq + 1) % 4294967296 }
      ∧ Keeps [.ntu, .out] s.dev t.dev := by
  have he := (Dev.statusSent_of_member hm).trans (if_pos ⟨hms, hlink⟩)
  have hk := ((Dev.setPel_keeps s.dev { s.dev.ntu.pel with seq := (s.dev.ntu.pel.seq + 1) % 4294967296 }).mono
    (b := [.ntu, .out]) (by decide)).trans ((Dev.netOut_keeps _ m.port
      (.status m.ip m.udp (ltsForm s.dev.now) (s.dev.statusMsg m))).mono (by decide))
  exact ⟨_, _, s.dev.statusMsg m, event_effect exec_statusSend hi he hk (by decide), rfl, rfl, rfl, rfl, rfl, rfl, hk⟩

omit hi hm in
/-- The leader has not been heard within the hold time. -/
def Dev.leaderGone (d : Dev) : Dev :=
  match d.ntu.pel.member with
  | none => d
  | some m =>
    if m.leader || d.ntu.pel.lost then d
    else (d.modPel fun v => { v with lost := true, follow := none }).pelEvent 6 ((d.ntu.pel.follow).getD 0) 0 0

omit hi hm in
theorem exec_leaderLost : exec .leaderLost s = lift Dev.leaderGone s := by
  rw [exec, execLeaderLost]
  rfl

theorem leaderLost_none (h : m.leader = true ∨ s.dev.ntu.pel.lost = true) : exec .leaderLost s = .next s := by
  refine event_none exec_leaderLost hi ?_
  simp only [Dev.leaderGone, hm]
  exact if_pos (by rcases h with h | h <;> simp [h])

theorem leaderLost_loses (hlead : m.leader = false) (hheard : s.dev.ntu.pel.lost = false) :
    ∃ t, exec .leaderLost s = .next t ∧ t.dev.ntu.pel = { s.dev.ntu.pel with lost := true, follow := none }
      ∧ Keeps (.ntu :: byPost) s.dev t.dev := by
  have he : s.dev.leaderGone = (s.dev.modPel fun v => { v with lost := true, follow := none }).pelEvent 6
      ((s.dev.ntu.pel.follow).getD 0) 0 0 := by
    simp [Dev.leaderGone, hm, hlead, hheard]
  have hevent := (s.dev.modPel fun v => { v with lost := true, follow := none }).pelEvent_keeps 6
    ((s.dev.ntu.pel.follow).getD 0) 0 0
  have hk := ((s.dev.modPel_keeps _).mono (b := .ntu :: byPost) (by decide)).trans (hevent.mono (by decide))
  exact ⟨_, event_effect exec_leaderLost hi he hk (by decide), congrArg NtuB.pel (hevent.ntu (by decide)), hk⟩

end Sends

/-- Settles O57: the commands of a membership, and the messages of a member by what it hears and what it sends. -/
theorem pelotonMessages : Obligations.PelotonMessages := by
  unfold Obligations.PelotonMessages
  refine ⟨fun s r c hon => ⟨fun hc => ⟨pelJoin_linkDown hon hc, pelJoin_joins hon hc⟩, pelLeave_leaves hon,
      fun body m hc hm => ⟨pelSchedule_linkDown hon hc hm, pelSchedule_takes hon hc hm⟩⟩,
    fun s m hi hm => ⟨fun p x => scheduleReceived_none hi hm, fun p x hport hgroup hlink hx => ?_,
      fun p x hport hgroup hlink hother => ?_, scheduleSend_none hi hm, fun cur => scheduleSend_sends hi hm,
      statusSend_none hi hm, statusSend_sends hi hm, leaderLost_none hi hm, leaderLost_loses hi hm⟩⟩
  · have h : PelHears s.dev m p.val x.group := ⟨hport, hgroup, hlink⟩
    exact ⟨scheduleReceived_conflict hi hm h hx, scheduleReceived_follows hi hm h hx⟩
  · have h : PelHears s.dev m p.val x.group := ⟨hport, hgroup, hlink⟩
    exact ⟨statusReceived_none hi hm h hother, fun n => statusReceived_posts hi hm h hother⟩

end Sys2Proof.Machine
end

section
/-! SUPPORT. The recorder's slots, volumes, markers and events, and the commands on volumes and events (O48). -/

namespace Sys2Proof.Machine

open Sys2Proof

/-! ## Parts of the recorder -/

section Parts

variable {d e : Dev} {b : List Part}

theorem Keeps.recd (hk : Keeps b d e) (hb : .recd ∉ b) : e.recd = d.recd := hk .recd hb

theorem Keeps.slot (hk : Keeps b d e) (hb : .recd ∉ b) (k : Nat) : e.slot k = d.slot k := by
  unfold Dev.slot
  rw [hk.recd hb]

theorem Keeps.vol (hk : Keeps b d e) (hb : .recd ∉ b) (n : Nat) : e.vol n = d.vol n := by
  unfold Dev.vol
  rw [hk.recd hb]

theorem Keeps.marker (hk : Keeps b d e) (hb : .recd ∉ b) (x : Nat) : e.marker? x = d.marker? x := by
  unfold Dev.marker?
  rw [hk.recd hb]

theorem Keeps.recDown (hk : Keeps b d e) (hpwr : .pwr ∉ b) (heng : .eng ∉ b) (ho : .oms ∉ b) : e.recDown = d.recDown := by
  have hp : e.pwr = d.pwr := hk .pwr hpwr
  have he : e.eng = d.eng := hk .eng heng
  have hcode : e.noCode = d.noCode := by
    funext k
    have homs : Machine.omsRest e.oms = Machine.omsRest d.oms := hk .oms ho
    have hcode := congrArg OmsB.code homs
    simp only [Machine.omsRest] at hcode
    simp only [Dev.noCode, hcode]
  simp only [Dev.recDown, Dev.engDown, Dev.engOff, hp, he, hcode]

/-- An engine that is not down is not off. -/
theorem Dev.recOff_of_up (h : d.recDown = false) : d.recOff = false := by
  unfold Dev.recDown Dev.engDown at h
  exact (Bool.or_eq_false_iff.mp h).2

theorem Dev.finish_slot (d : Dev) (r : CmdRef) (st res k : Nat) : (d.finish r st res).slot k = d.slot k :=
  (d.finish_keeps r st res).slot (by decide) k

theorem Dev.finish_vol (d : Dev) (r : CmdRef) (st res n : Nat) : (d.finish r st res).vol n = d.vol n :=
  (d.finish_keeps r st res).vol (by decide) n

theorem Dev.setSlot_keeps (d : Dev) (k : Nat) (v : Slot) : Keeps [.recd] d (d.setSlot k v) := d.recd_keeps _

/-! ## Changes that are held (R339) -/

/-- The changes held are these. -/
def Dev.recHeld (d : Dev) (es : List RecEvent) : Dev := { d with recd := { d.recd with events := es } }

theorem Dev.recHeld_keeps (d : Dev) (es : List RecEvent) : Keeps [.recd] d (d.recHeld es) := d.recd_keeps _

@[simp] theorem Dev.recHeld_slot (d : Dev) (es : List RecEvent) (k : Nat) : (d.recHeld es).slot k = d.slot k := rfl

@[simp] theorem Dev.recHeld_vol (d : Dev) (es : List RecEvent) (n : Nat) : (d.recHeld es).vol n = d.vol n := rfl

/-- Without a REC_EVENT that waits, a change is held. -/
theorem Dev.recChange_held (h : d.recd.waiting = []) (x : RecEvent) :
    ∃ es, d.recChange x = d.recHeld es ∧ (d.recd.events = [] → es = [x]) := by
  unfold Dev.recChange
  rw [h]
  exact ⟨_, rfl, fun hes => by simp [hes]⟩

theorem Dev.slotTo_moves {k : Nat} {st : SlotState} (h : d.recd.waiting = []) (hne : (d.slot k).state ≠ st) (cause : Nat) :
    ∃ es, d.slotTo k st cause = (d.setSlot k { d.slot k with state := st, cause := cause }).recHeld es := by
  obtain ⟨es, hes, -⟩ := Dev.recChange_held (d := d.setSlot k { d.slot k with state := st, cause := cause }) h
    { volume := false, n := k, old := (d.slot k).state.code, new := st.code, cause := cause }
  exact ⟨es, (if_neg hne).trans hes⟩

theorem Dev.volTo_moves {n st : Nat} (h : d.recd.waiting = []) (hne : (d.vol n).state ≠ st) :
    ∃ es, d.volTo n st = (d.setVol n { d.vol n with state := st }).recHeld es
      ∧ (d.recd.events = [] → es = [{ volume := true, n := n, old := (d.vol n).state, new := st, cause := 0 }]) := by
  obtain ⟨es, hes, hfirst⟩ := Dev.recChange_held (d := d.setVol n { d.vol n with state := st }) h
    { volume := true, n := n, old := (d.vol n).state, new := st, cause := 0 }
  exact ⟨es, (if_neg hne).trans hes, hfirst⟩

/-- With no data command nothing is left to do. -/
theorem Dev.pump_none (h : d.recd.cmds = []) : d.pump = d := by
  have hpass : d.recPass = d := by simp [Dev.recPass, h]
  simp [Dev.pump, h, Dev.recPump, hpass]

/-! ## Markers (R322) -/

theorem Dev.setMarker_marker (d : Dev) (x n : Nat) : ((d.setMarker x n).marker? x).isSome = true := by
  simp [Dev.marker?, Dev.setMarker]

theorem Dev.setMarker_marker_keeps {x : Nat} (h : (d.marker? x).isSome = true) (y n : Nat) :
    ((d.setMarker y n).marker? x).isSome = true := by
  by_cases hy : y = x
  · exact hy ▸ d.setMarker_marker y n
  · obtain ⟨k, hk, hx⟩ := List.find?_isSome.mp h
    refine List.find?_isSome.mpr ⟨k, List.mem_append_left _ (List.mem_filter.mpr ⟨hk, ?_⟩), hx⟩
    simp only [bne_iff_ne]
    rw [beq_iff_eq.mp hx]
    exact fun h => hy h.symm

/-- The markers are these. -/
def Dev.marked (d : Dev) (ks : List Marker) : Dev := { d with recd := { d.recd with markers := ks } }

theorem Dev.marked_keeps (d : Dev) (ks : List Marker) : Keeps [.recd] d (d.marked ks) := d.recd_keeps _

/-- Markers of drives, with their counts. -/
def Dev.setMarkers (d : Dev) (xs : List (Nat × Nat)) : Dev := xs.foldl (fun (d : Dev) x => d.setMarker x.1 x.2) d

theorem Dev.setMarkers_marker (xs : List (Nat × Nat)) (d : Dev) {x : Nat}
    (h : (d.marker? x).isSome = true ∨ x ∈ xs.map Prod.fst) : ((d.setMarkers xs).marker? x).isSome = true := by
  induction xs generalizing d with
  | nil => exact h.resolve_right (by simp)
  | cons y ys ih =>
    refine ih (d.setMarker y.1 y.2) ?_
    rcases h with h | h
    · exact .inl (Dev.setMarker_marker_keeps h _ _)
    · rcases List.mem_cons.mp h with rfl | h
      · exact .inl (d.setMarker_marker _ _)
      · exact .inr h

/-- Setting markers changes nothing else. -/
theorem Dev.setMarkers_eq (xs : List (Nat × Nat)) (d : Dev) :
    ∃ ks, d.setMarkers xs = d.marked ks := by
  induction xs generalizing d with
  | nil => exact ⟨_, rfl⟩
  | cons x xs ih =>
    obtain ⟨ks, hks⟩ := ih (d.setMarker x.1 x.2)
    exact ⟨ks, hks⟩

/-- The markers of the members that are present are cleared. -/
def Dev.clearMarkers (d : Dev) (ms : List Member) : Dev :=
  ms.foldl (fun (d : Dev) m => if (d.slot m.slot).present then d.clearMarker (d.slot m.slot).drive else d) d

theorem Dev.clearMarkers_eq (ms : List Member) (d : Dev) :
    ∃ ks, d.clearMarkers ms = d.marked ks ∧ ks ⊆ d.recd.markers
      ∧ ∀ m ∈ ms, (d.slot m.slot).present = true → ∀ k ∈ ks, k.drive ≠ (d.slot m.slot).drive := by
  induction ms generalizing d with
  | nil => exact ⟨_, rfl, List.Subset.refl _, fun _ h => absurd h List.not_mem_nil⟩
  | cons m ms ih =>
    by_cases hp : (d.slot m.slot).present = true
    · obtain ⟨ks, hks, hsub, hgone⟩ := ih (d.clearMarker (d.slot m.slot).drive)
      refine ⟨ks, ?_, fun k hk => (List.mem_filter.mp (hsub hk)).1, fun n hn hpres k hk => ?_⟩
      · rw [Dev.clearMarkers, List.foldl_cons, if_pos hp]
        exact hks
      · rcases List.mem_cons.mp hn with rfl | hn
        · exact bne_iff_ne.mp (List.mem_filter.mp (hsub hk)).2
        · exact hgone n hn hpres k hk
    · obtain ⟨ks, hks, hsub, hgone⟩ := ih d
      refine ⟨ks, ?_, hsub, fun n hn hpres k hk => ?_⟩
      · rw [Dev.clearMarkers, List.foldl_cons, if_neg hp]
        exact hks
      · rcases List.mem_cons.mp hn with rfl | hn
        · exact absurd hpres hp
        · exact hgone n hn hpres k hk

end Parts

/-! ## VOL_CREATE (R321 to R323) -/

section Create

variable {s : State} {r : CmdRef} {c : Cmd} {list b : List Byte} {ms : List Member} {back : Bool}

/-- The effect of VOL_CREATE, with REC's own state. -/
def volCreateUp (list : List Byte) (r : CmdRef) (c : Cmd) (d : Dev) : Dev :=
  if d.recOff then d.finish r stEngineDown 0
  else if d.recDown then d
  else volCreate (d.blockOf false 0 72 list) r c d

theorem exec_volCreate : exec (.volCreate r list) s
    = lift (runBlk specVolCreate 5 (fun d _ => d.membersBad (d.blockOf false 0 72 list)) r (volCreateUp list r)) s := by
  rw [exec, execVolCreate]
  rfl

/-- A new volume's drives are marked, and the volume is there. -/
def Dev.volMade (d : Dev) (n : Nat) (ms : List Member) (units : Nat) (back : Bool) : Dev :=
  (((d.setMarkers (ms.map fun m => ((d.slot m.slot).drive, (d.slot m.slot).unsafeCount))).setVol n
    { recovery := back, members := ms, units := units }).volTo n 1)

theorem Dev.volMade_makes {d : Dev} (h : d.recd.waiting = []) (n : Nat) (ms : List Member) (units : Nat) (back : Bool) :
    ∃ es ks, d.volMade n ms units back = (((d.marked ks).setVol n { recovery := back, members := ms, units := units }).setVol
        n { state := 1, recovery := back, members := ms, units := units }).recHeld es
      ∧ (d.recd.events = [] → es = [{ volume := true, n := n, old := 0, new := 1, cause := 0 }])
      ∧ ∀ m ∈ ms, ((d.marked ks).marker? (d.slot m.slot).drive).isSome = true := by
  have hmark : ∀ m ∈ ms, ((d.setMarkers (ms.map fun m =>
      ((d.slot m.slot).drive, (d.slot m.slot).unsafeCount))).marker? (d.slot m.slot).drive).isSome = true := fun m hm =>
    Dev.setMarkers_marker _ _ (.inr (by
      rw [List.map_map]
      exact List.mem_map.mpr ⟨m, hm, rfl⟩))
  obtain ⟨ks, hks⟩ := Dev.setMarkers_eq (ms.map fun m => ((d.slot m.slot).drive, (d.slot m.slot).unsafeCount)) d
  unfold Dev.volMade
  rw [hks] at hmark ⊢
  have hnew : (((d.marked ks).setVol n { recovery := back, members := ms, units := units }).vol n)
      = { recovery := back, members := ms, units := units } := Dev.setVol_vol _ _ _
  obtain ⟨es, hes, hfirst⟩ := Dev.volTo_moves (n := n) (st := 1)
    (d := (d.marked ks).setVol n { recovery := back, members := ms, units := units }) h (by rw [hnew]; exact Nat.zero_ne_one)
  rw [hnew] at hes hfirst
  exact ⟨es, ks, hes, hfirst, hmark⟩

theorem volCreate_makes (hc : s.dev.clear specVolCreate r c = true) (hb : b = s.dev.blockOf false 0 72 list)
    (hgood : s.dev.membersBad b = []) (hup : s.dev.recDown = false) (hwait : s.dev.recd.waiting = [])
    (hms : ms = (rangeFrom 0 (b8 b 0)).map (listMember b))
    (hback : back = (ms.any fun m => (s.dev.marker? (s.dev.slot m.slot).drive).isSome)) :
    ∃ t, exec (.volCreate r list) s = .next t ∧ t.pending = s.pending
      ∧ Answered s.dev t.dev r stSuccess ((ms.length * bn b 4 4 * 256) % 2 ^ 48 + if back then 2 ^ 48 else 0)
      ∧ t.dev.vol (c.f 4 1 0) = { state := 1, recovery := back, members := ms, units := bn b 4 4, deleting := none }
      ∧ (∀ n, n ≠ c.f 4 1 0 → t.dev.vol n = s.dev.vol n) ∧ (∀ k, t.dev.slot k = s.dev.slot k)
      ∧ (∀ m ∈ ms, (t.dev.marker? (s.dev.slot m.slot).drive).isSome = true)
      ∧ (s.dev.recd.events = [] → t.dev.recd.events = [{ volume := true, n := c.f 4 1 0, old := 0, new := 1, cause := 0 }])
      ∧ Keeps (.recd :: byDone) s.dev t.dev := by
  have hresult : volBlocks { recovery := back, members := ms, units := bn b 4 4 } % 2 ^ 48 + back.toNat * 2 ^ 48
      = (ms.length * bn b 4 4 * 256) % 2 ^ 48 + if back then 2 ^ 48 else 0 := by
    unfold volBlocks
    cases back <;> rfl
  have he : volCreateUp list r c s.dev = (s.dev.volMade (c.f 4 1 0) ms (bn b 4 4) back).finish r stSuccess
      ((ms.length * bn b 4 4 * 256) % 2 ^ 48 + if back then 2 ^ 48 else 0) := by
    rw [volCreateUp, if_neg (ne_true_of_eq_false (Dev.recOff_of_up hup)), if_neg (ne_true_of_eq_false hup), ← hb,
      ← hresult]
    unfold volCreate Dev.volMade
    simp only [← hms, List.any_map, Function.comp_def, ← hback]
    rfl
  obtain ⟨es, ks, hmade, hevents, hmarks⟩ := Dev.volMade_makes hwait (c.f 4 1 0) ms (bn b 4 4) back
  have hmarked := s.dev.marked_keeps ks
  have hset : Keeps [.recd] s.dev (s.dev.volMade (c.f 4 1 0) ms (bn b 4 4) back) := by
    rw [hmade]
    exact ((hmarked.trans (Dev.setVol_keeps _ _ _)).trans (Dev.setVol_keeps _ _ _)).trans (Dev.recHeld_keeps _ _)
  obtain ⟨hnext, ha, hk⟩ := blk_completes exec_volCreate hc (hb ▸ hgood) he hset (by decide) (by decide)
  have hdone := (s.dev.volMade (c.f 4 1 0) ms (bn b 4 4) back).finish_keeps r stSuccess
    ((ms.length * bn b 4 4 * 256) % 2 ^ 48 + if back then 2 ^ 48 else 0)
  refine ⟨_, hnext, rfl, ha, ?_, fun n hne => ?_, fun k => ?_, fun m hm => ?_, fun hnone => ?_, hk⟩
  · rw [hdone.vol (by decide), hmade, Dev.recHeld_vol, Dev.setVol_vol]
  · rw [hdone.vol (by decide), hmade, Dev.recHeld_vol, Dev.setVol_vol_ne _ _ _ hne, Dev.setVol_vol_ne _ _ _ hne]
    rfl
  · rw [hdone.slot (by decide), hmade]
    rfl
  · rw [hdone.marker (by decide), hmade]
    exact hmarks m hm
  · rw [hdone.recd (by decide), hmade]
    exact hevents hnone

end Create

/-! ## VOL_DELETE and VOL_CLEAR_RECOVERY (R322, R339) -/

section Delete

variable {s : State} {r : CmdRef} {c : Cmd} {d : Dev}

/-- The volume waits for its deletion. -/
def Dev.volLeaving (d : Dev) (r : CmdRef) (n : Nat) : Dev := (d.begin r).setVol n { d.vol n with deleting := some r }

/-- A volume with nothing on it is gone, and the markers of its members with it. -/
theorem Dev.volSettle_deletes {n : Nat} (hwait : d.recd.waiting = []) (hcmds : d.recd.cmds = [])
    (hdoomed : d.recd.doomed = []) (hlive : (d.vol n).state ≠ 0) (hdel : (d.vol n).deleting = some r)
    (halone : d.volCmds n r = []) :
    ∃ es ks, d.volSettle n
        = ((((d.marked ks).setVol n { d.vol n with state := 0 }).recHeld es).setVol n {}).finish r stSuccess 0
      ∧ ∀ m ∈ (d.vol n).members, (d.slot m.slot).present = true → ∀ k ∈ ks, k.drive ≠ (d.slot m.slot).drive := by
  obtain ⟨ks, hks, -, hgone⟩ := Dev.clearMarkers_eq (d.vol n).members d
  have he : d.volSettle n = (((d.clearMarkers (d.vol n).members).volTo n 0).setVol n {}).finish r stSuccess 0 := by
    simp [Dev.volSettle, hdoomed, hdel, halone, hcmds, Dev.clearMarkers]
  rw [hks] at he
  obtain ⟨es, hes, -⟩ := Dev.volTo_moves (d := d.marked ks) (n := n) (st := 0) hwait hlive
  exact ⟨es, ks, by rw [he, hes]; rfl, hgone⟩

/-- A command that deletes the only volume command is the only command on it. -/
theorem Dev.volCmds_alone {n : Nat} (h : ∀ e ∈ d.hif.cmds, e.ref = r) : d.volCmds n r = [] :=
  List.filter_eq_nil_iff.mpr fun e he => by simp [h e he]

theorem Dev.volFlush_none {n : Nat} (hcmds : d.recd.cmds = []) (h : ∀ e ∈ d.hif.cmds, e.ref = r) : d.volFlush n r = d := by
  have hsame : ({ d with recd := { d.recd with
      cmds := d.recd.cmds.filter fun e => !(e.vol == n && !e.begun) } } : Dev) = d := by
    rw [hcmds, List.filter_nil, ← hcmds]
  unfold Dev.volFlush
  simp only [hsame]
  rw [Dev.volCmds_alone h, hcmds]
  rfl

theorem volDelete_deletes (hc : s.dev.clear specVolDelete r c = true) (hup : s.dev.recDown = false)
    (hwait : s.dev.recd.waiting = []) (hnone : s.dev.recd.cmds = []) (halone : s.dev.hif.cmds = [c])
    (hdoomed : s.dev.recd.doomed = []) :
    ∃ t, exec (.volDelete r) s = .next t ∧ t.pending = s.pending ∧ Answered s.dev t.dev r stSuccess 0
      ∧ t.dev.vol (volN c) = {} ∧ (∀ n, n ≠ volN c → t.dev.vol n = s.dev.vol n)
      ∧ (∀ m ∈ (s.dev.vol (volN c)).members, (s.dev.slot m.slot).present = true →
          t.dev.marker? (s.dev.slot m.slot).drive = none)
      ∧ (∀ k, t.dev.slot k = s.dev.slot k) ∧ Keeps (.recd :: byDone) s.dev t.dev := by
  obtain ⟨hq, hi⟩ := Dev.cmd_ids (Dev.clear_cmd hc)
  have hrefs : ∀ e ∈ (s.dev.volLeaving r (volN c)).hif.cmds, e.ref = r := fun e he => by
    have he' : e ∈ (s.dev.begin r).hif.cmds := he
    rw [Dev.begin_only (Dev.clear_cmd hc) halone, List.mem_singleton] at he'
    rw [he', Cmd.ref, hq, hi]
  have hlive : (s.dev.vol (volN c)).state ≠ 0 := by
    have hhandle : s.dev.volLive c = true := (Dev.clear_offs hc).2.1
    simp only [Dev.volLive, Bool.and_eq_true, bne_iff_ne] at hhandle
    exact hhandle.1.2
  have hvol : (s.dev.volLeaving r (volN c)).vol (volN c) = { s.dev.vol (volN c) with deleting := some r } :=
    Dev.setVol_vol _ _ _
  obtain ⟨es, ks, hsettle, hgone⟩ := Dev.volSettle_deletes (d := s.dev.volLeaving r (volN c)) (n := volN c) (r := r) hwait
    hnone hdoomed (by rw [hvol]; exact hlive) (by rw [hvol]) (Dev.volCmds_alone hrefs)
  have he : volDelete r c s.dev = (s.dev.volLeaving r (volN c)).volSettle (volN c) := by
    have hflush : (s.dev.volLeaving r (volN c)).volFlush (volN c) r = s.dev.volLeaving r (volN c) :=
      Dev.volFlush_none hnone hrefs
    rw [volDelete, if_neg (ne_true_of_eq_false (Dev.recOff_of_up hup)), if_neg (ne_true_of_eq_false hup)]
    show (if c.b 4 0 then (s.dev.volLeaving r (volN c)).volFlush (volN c) r else s.dev.volLeaving r (volN c)).volSettle
      (volN c) = _
    rw [hflush, ite_self]
  rw [hvol] at hsettle hgone
  have hset : Keeps [.recd] (s.dev.begin r) (((((s.dev.volLeaving r (volN c)).marked ks).setVol (volN c)
      { s.dev.vol (volN c) with state := 0, deleting := some r }).recHeld es).setVol (volN c) {}) :=
    ((((Dev.setVol_keeps _ _ _).trans (Dev.marked_keeps _ _)).trans (Dev.setVol_keeps _ _ _)).trans
      (Dev.recHeld_keeps _ _)).trans (Dev.setVol_keeps _ _ _)
  obtain ⟨hnext, ha, hk⟩ := begunCmd_completes (i := .volDelete r) (by rw [exec, execVolDelete]) hc (he.trans hsettle) hset
    (by decide) (by decide)
  refine ⟨_, hnext, rfl, ha, ?_, fun n hne => ?_, fun m hm hpres => ?_, fun k => ?_, hk⟩
  · rw [Dev.finish_vol, Dev.setVol_vol]
  · rw [Dev.finish_vol, Dev.setVol_vol_ne _ _ _ hne, Dev.recHeld_vol, Dev.setVol_vol_ne _ _ _ hne]
    exact Dev.setVol_vol_ne _ _ _ hne
  · rw [(Dev.finish_keeps _ _ _ _).marker (by decide)]
    exact List.find?_eq_none.mpr fun k hk hdrive => hgone m hm hpres k hk (beq_iff_eq.mp hdrive)
  · rw [Dev.finish_slot]
    rfl

/-- The effect of VOL_CLEAR_RECOVERY. -/
def volClear (r : CmdRef) (c : Cmd) (d : Dev) : Dev :=
  if d.recOff then d.finish r stEngineDown 0
  else if d.recDown then d
  else if (d.vol (volN c)).state = 2 then d.finish r stMediaAbsent 0
  else (d.setVol (volN c) { d.vol (volN c) with recovery := false }).finish r stSuccess 0

theorem exec_volClearRecovery : exec (.volClearRecovery r) s = lift (runCmd specVolClearRecovery r (volClear r)) s := by
  rw [exec, execVolClearRecovery]
  rfl

theorem volClear_up (h : d.recDown = false) :
    volClear r c d = if (d.vol (volN c)).state = 2 then d.finish r stMediaAbsent 0
      else (d.setVol (volN c) { d.vol (volN c) with recovery := false }).finish r stSuccess 0 :=
  (if_neg (ne_true_of_eq_false (Dev.recOff_of_up h))).trans (if_neg (ne_true_of_eq_false h))

theorem volClearRecovery_broken (hc : s.dev.clear specVolClearRecovery r c = true) (hup : s.dev.recDown = false)
    (h : (s.dev.vol (volN c)).state = 2) :
    ∃ t, exec (.volClearRecovery r) s = .next t ∧ Answered s.dev t.dev r stMediaAbsent 0 ∧ Keeps byDone s.dev t.dev :=
  cmd_answers exec_volClearRecovery hc ((volClear_up hup).trans (if_pos h))

theorem volClearRecovery_clears (hc : s.dev.clear specVolClearRecovery r c = true) (hup : s.dev.recDown = false)
    (h : (s.dev.vol (volN c)).state ≠ 2) :
    ∃ t, exec (.volClearRecovery r) s = .next t ∧ t.pending = s.pending ∧ Answered s.dev t.dev r stSuccess 0
      ∧ t.dev.vol (volN c) = { s.dev.vol (volN c) with recovery := false }
      ∧ (∀ n, n ≠ volN c → t.dev.vol n = s.dev.vol n) ∧ Keeps (.recd :: byDone) s.dev t.dev := by
  obtain ⟨hnext, ha, hk⟩ := cmd_finishes exec_volClearRecovery hc ((volClear_up hup).trans (if_neg h))
    (Dev.setVol_keeps _ _ _) (by decide) (by decide)
  exact ⟨_, hnext, rfl, ha, (Dev.finish_vol _ _ _ _ _).trans (Dev.setVol_vol _ _ _),
    fun n hne => (Dev.finish_vol _ _ _ _ _).trans (Dev.setVol_vol_ne _ _ _ hne), hk⟩

end Delete

/-! ## REC_EVENT (R339) -/

section Event

variable {s : State} {r : CmdRef} {c : Cmd} {d : Dev}

/-- The effect of REC_EVENT. -/
def recEvent (r : CmdRef) (_ : Cmd) (d : Dev) : Dev :=
  if d.recOff then d.finish r stEngineDown 0
  else if d.recDown then d
  else match d.recd.events with
    | e :: es => ({ d with recd := { d.recd with events := es } }).finish r stSuccess (RecEvent_result e)
    | [] =>
      if d.recd.waiting.length < 4 then
        { d.begin r with recd := { (d.begin r).recd with waiting := (d.begin r).recd.waiting ++ [r] } }
      else d

theorem exec_recEvent : exec (.recEvent r) s = lift (runCmd specRecEvent r (recEvent r)) s := by
  rw [exec, execRecEvent]
  rfl

variable (hc : s.dev.clear specRecEvent r c = true) (hup : s.dev.recDown = false)
include hc hup

theorem recEvent_answers {e : RecEvent} {es : List RecEvent} (h : s.dev.recd.events = e :: es) :
    ∃ t, exec (.recEvent r) s = .next t ∧ t.pending = s.pending
      ∧ Answered s.dev t.dev r stSuccess
          (e.n + e.old * 16 + e.new * 256 + (if e.volume then 16384 else 0) + e.cause * 65536)
      ∧ t.dev.recd = { s.dev.recd with events := es } ∧ Keeps (.recd :: byDone) s.dev t.dev := by
  have hresult : RecEvent_result e = e.n + e.old * 16 + e.new * 256 + (if e.volume then 16384 else 0) + e.cause * 65536 := by
    unfold RecEvent_result
    cases e.volume <;> simp
  have he : recEvent r c s.dev = (s.dev.recHeld es).finish r stSuccess
      (e.n + e.old * 16 + e.new * 256 + (if e.volume then 16384 else 0) + e.cause * 65536) := by
    simp only [recEvent, Dev.recOff_of_up hup, hup, h, ← hresult]
    rfl
  obtain ⟨hnext, ha, hk⟩ := cmd_finishes exec_recEvent hc he (Dev.recHeld_keeps _ _) (by decide) (by decide)
  exact ⟨_, hnext, rfl, ha, (Dev.finish_keeps _ _ _ _).recd (by decide), hk⟩

theorem recEvent_waits (h : s.dev.recd.events = []) (hroom : s.dev.recd.waiting.length < 4) :
    ∃ t, exec (.recEvent r) s = .next t ∧ Begun s.dev t.dev r c
      ∧ t.dev.recd = { s.dev.recd with waiting := s.dev.recd.waiting ++ [r] } ∧ Keeps [.recd, .fetch] s.dev t.dev := by
  have he : recEvent r c s.dev
      = { s.dev.begin r with recd := { (s.dev.begin r).recd with waiting := (s.dev.begin r).recd.waiting ++ [r] } } := by
    simp only [recEvent, Dev.recOff_of_up hup, hup, h, if_pos hroom]
    rfl
  obtain ⟨hnext, hb, hk⟩ := cmd_begins exec_recEvent hc he (Dev.recd_keeps _ _) (by decide) (by decide) (by decide)
  exact ⟨_, hnext, hb, rfl, hk⟩

theorem recEvent_full (h : s.dev.recd.events = []) (hfull : 4 ≤ s.dev.recd.waiting.length) :
    exec (.recEvent r) s = .next s := by
  refine cmd_waits exec_recEvent hc ?_
  simp only [recEvent, Dev.recOff_of_up hup, hup, h, if_neg (Nat.not_lt.mpr hfull)]
  rfl

end Event

end Sys2Proof.Machine
end

section
/-! SUPPORT. Drives: their logs, ejection, shutdown, removal, insertion and training; the recorder's volumes and drives
as a whole (O48). -/

namespace Sys2Proof.Machine

open Sys2Proof

/-! ## A drive that is gone (R331) -/

section Removal

variable {d : Dev} {k : Nat}

/-- Slot `k` is EMPTY, and the change is held. -/
def Dev.slotLeft (d : Dev) (k : Nat) (es : List RecEvent) : Dev :=
  ((d.setSlot k { d.slot k with state := .empty, cause := 0 }).recHeld es).setSlot k {}

theorem Dev.slotLeft_keeps (d : Dev) (k : Nat) (es : List RecEvent) : Keeps [.recd] d (d.slotLeft k es) :=
  ((Dev.setSlot_keeps _ _ _).trans (Dev.recHeld_keeps _ _)).trans (Dev.setSlot_keeps _ _ _)

theorem Dev.slotLeft_slot (d : Dev) (k : Nat) (es : List RecEvent) : (d.slotLeft k es).slot k = {} :=
  Dev.setSlot_slot _ _ _

theorem Dev.slotLeft_slot_ne (d : Dev) {k j : Nat} (es : List RecEvent) (hne : j ≠ k) :
    (d.slotLeft k es).slot j = d.slot j := by
  rw [Dev.slotLeft, Dev.setSlot_slot_ne _ _ _ hne, Dev.recHeld_slot, Dev.setSlot_slot_ne _ _ _ hne]

theorem Dev.slotAbsent_none (h : d.recd.cmds = []) (k : Nat) : d.slotAbsent k = d := by
  unfold Dev.slotAbsent
  rw [h, List.map_nil, ← h]

/-- The volume `v` of a drive that is gone is BROKEN, where it was live. -/
def Dev.volBroken (d : Dev) : Option Nat → Dev
  | some n => if (d.vol n).state = 1 then d.volTo n 2 else d
  | none => d

/-- With no data command and no ejection, a ready drive that is removed leaves its slot EMPTY, and its volume is then
seen to. -/
theorem Dev.driveOut_ready (hcmds : d.recd.cmds = []) (hwait : d.recd.waiting = [])
    (hstate : (d.slot k).state = .ready) (heject : (d.slot k).ejecting = none) :
    ∃ es, d.driveOut k = (((d.count 0x80310 1).slotLeft k es).volBroken (d.volOf k)).pump := by
  have hcmds' : (d.count 0x80310 1).recd.cmds = [] := hcmds
  have hne : ((d.count 0x80310 1).slot k).state ≠ .empty := by
    show (d.slot k).state ≠ .empty
    rw [hstate]
    decide
  obtain ⟨es, hes⟩ := Dev.slotTo_moves (d := d.count 0x80310 1) hwait hne 0
  refine ⟨es, ?_⟩
  have hleft : (d.count 0x80310 1).slotEmpty k false = (d.count 0x80310 1).slotLeft k es := by
    rw [Dev.slotEmpty, hes]
    rfl
  rw [← hleft]
  simp only [Dev.driveOut, hstate, heject, hcmds, Dev.slotAbsent_none hcmds', reduceCtorEq, false_and, if_false,
    List.filter_nil, List.foldl_nil]
  cases d.volOf k <;> rfl

@[simp] theorem Dev.setVol_slot (d : Dev) (n : Nat) (v : Volume) (j : Nat) : (d.setVol n v).slot j = d.slot j := rfl

@[simp] theorem Dev.slotLeft_vol (d : Dev) (k : Nat) (es : List RecEvent) (n : Nat) : (d.slotLeft k es).vol n = d.vol n :=
  rfl

@[simp] theorem Dev.slotLeft_cmds (d : Dev) (k : Nat) (es : List RecEvent) : (d.slotLeft k es).recd.cmds = d.recd.cmds :=
  rfl

@[simp] theorem Dev.slotLeft_waiting (d : Dev) (k : Nat) (es : List RecEvent) :
    (d.slotLeft k es).recd.waiting = d.recd.waiting :=
  rfl

/-- A drive of no volume leaves its slot and nothing else. -/
theorem Dev.driveOut_free (hcmds : d.recd.cmds = []) (hwait : d.recd.waiting = [])
    (hstate : (d.slot k).state = .ready) (heject : (d.slot k).ejecting = none) (hvol : d.volOf k = none) :
    ∃ es, d.driveOut k = (d.count 0x80310 1).slotLeft k es := by
  obtain ⟨es, hes⟩ := Dev.driveOut_ready hcmds hwait hstate heject
  rw [hvol, Dev.volBroken, Dev.pump_none (by rw [Dev.slotLeft_cmds, Dev.count_recd, hcmds])] at hes
  exact ⟨es, hes⟩

/-- The live volume of a drive that is gone is BROKEN. -/
theorem Dev.driveOut_breaks {n : Nat} (hcmds : d.recd.cmds = []) (hwait : d.recd.waiting = [])
    (hstate : (d.slot k).state = .ready) (heject : (d.slot k).ejecting = none) (hvol : d.volOf k = some n)
    (hlive : (d.vol n).state = 1) :
    ∃ es es', d.driveOut k = (((d.count 0x80310 1).slotLeft k es).setVol n { d.vol n with state := 2 }).recHeld es' := by
  obtain ⟨es, hes⟩ := Dev.driveOut_ready hcmds hwait hstate heject
  have hsame : ((d.count 0x80310 1).slotLeft k es).vol n = d.vol n :=
    (Dev.slotLeft_vol _ k es n).trans ((d.count_keeps 0x80310 1).vol (by decide) n)
  obtain ⟨es', hes', -⟩ := Dev.volTo_moves (d := (d.count 0x80310 1).slotLeft k es) (n := n) (st := 2)
    (by rw [Dev.slotLeft_waiting, Dev.count_recd, hwait]) (by rw [hsame, hlive]; decide)
  refine ⟨es, es', ?_⟩
  rw [hes, hvol, Dev.volBroken, hsame, if_pos hlive, hes', hsame]
  exact Dev.pump_none (d := (((d.count 0x80310 1).slotLeft k es).setVol n { d.vol n with state := 2 }).recHeld es') hcmds

end Removal

/-! ## DRIVE_LOG and DRIVE_EJECT (R332, Table 12-5) -/

section Commands

variable {s : State} {r : CmdRef} {c : Cmd} {d : Dev}

/-- The admin command of a DRIVE_LOG has gone to the drive. -/
def Dev.logAsked (d : Dev) (c : Cmd) : Dev := d.emit (.driveAdmin (c.f 4 2 0) (if c.f 4 11 8 < 2 then 6 else 2))

theorem Dev.logAsked_keeps (d : Dev) (c : Cmd) : Keeps [.out] d (d.logAsked c) := d.emit_keeps _

theorem Dev.undefBuf_outGrows (d : Dev) (dev : Bool) (addr len : Nat) : d.OutGrows (d.undefBuf dev addr len) := by
  cases dev with
  | true => exact (d.undefMem_keeps addr len).outGrows (by decide)
  | false => exact d.emit_outGrows _

theorem Dev.ctlReset_keeps (d : Dev) (k : Nat) : Keeps [.recd, .ctrs, .out] d (d.ctlReset k) :=
  (((d.count_keeps 0x8030C 1).mono (by decide)).trans ((Dev.setSlot_keeps _ _ _).mono (by decide))).trans
    ((Dev.emit_keeps _ _).mono (by decide))

section Log

variable (hup : s.dev.recDown = false) (hc : s.dev.clear specDriveLog r c = true)
include hup hc

omit hc in
theorem driveLog_ok : driveLog .ok r c s.dev
    = ((s.dev.logAsked c).undefBuf (c.b 4 16) (c.q 5) (pageBytes (c.f 4 11 8))).finish r stSuccess
      (pageBytes (c.f 4 11 8)) :=
  (if_neg (ne_true_of_eq_false (Dev.recOff_of_up hup))).trans (if_neg (ne_true_of_eq_false hup))

theorem driveLog_reads :
    ∃ t, exec (.driveLog r .ok) s = .next t ∧ t.pending = s.pending
      ∧ Answered s.dev t.dev r stSuccess (if c.f 4 11 8 = 2 then 512 else 4096)
      ∧ Out.driveAdmin (c.f 4 2 0) (if c.f 4 11 8 < 2 then 6 else 2) ∈ t.dev.out
      ∧ Keeps (.mem :: byDone) s.dev t.dev := by
  have hread := (s.dev.logAsked c).undefBuf_keeps (c.b 4 16) (c.q 5) (pageBytes (c.f 4 11 8))
  obtain ⟨hnext, ha, hk⟩ := cmd_finishes (i := .driveLog r .ok) (by rw [exec, execDriveLog]) hc (driveLog_ok hup)
    (((s.dev.logAsked_keeps c).mono (by decide)).trans hread) (by decide) (by decide)
  exact ⟨_, hnext, rfl, ha, Dev.finish_outGrows _ _ _ _ (Dev.undefBuf_outGrows _ _ _ _
    (List.mem_append_right _ (List.mem_singleton.mpr rfl))), hk.mono (by decide)⟩

theorem driveLog_mediaError :
    ∃ t, exec (.driveLog r .mediaError) s = .next t ∧ Answered s.dev t.dev r stMediaError 0
      ∧ t.dev.ctrs = (s.dev.count 0x80300 1).ctrs ∧ Keeps (.ctrs :: byDone) s.dev t.dev := by
  have he : driveLog .mediaError r c s.dev = ((s.dev.logAsked c).count 0x80300 1).finish r stMediaError 0 :=
    (if_neg (ne_true_of_eq_false (Dev.recOff_of_up hup))).trans (if_neg (ne_true_of_eq_false hup))
  obtain ⟨hnext, ha, hk⟩ := cmd_finishes (i := .driveLog r .mediaError) (by rw [exec, execDriveLog]) hc he
    (((s.dev.logAsked_keeps c).mono (b := [.out, .ctrs]) (by decide)).trans ((Dev.count_keeps _ _ _).mono (by decide)))
    (by decide) (by decide)
  exact ⟨_, hnext, ha, (Dev.finish_keeps _ _ _ _) .ctrs (by decide), hk.mono (by decide)⟩

theorem driveLog_timeout :
    ∃ t, exec (.driveLog r .timeout) s = .next t ∧ Answered s.dev t.dev r stMediaTimeout 0
      ∧ t.dev.ctrs = ((s.dev.count 0x8030C 1).count 0x80304 1).ctrs ∧ Keeps (.recd :: .ctrs :: byDone) s.dev t.dev := by
  have he : driveLog .timeout r c s.dev
      = (((s.dev.logAsked c).ctlReset (c.f 4 2 0)).count 0x80304 1).finish r stMediaTimeout 0 :=
    (if_neg (ne_true_of_eq_false (Dev.recOff_of_up hup))).trans (if_neg (ne_true_of_eq_false hup))
  obtain ⟨hnext, ha, hk⟩ := cmd_finishes (i := .driveLog r .timeout) (by rw [exec, execDriveLog]) hc he
    ((((s.dev.logAsked_keeps c).mono (b := [.recd, .out, .ctrs]) (by decide)).trans
      ((Dev.ctlReset_keeps _ _).mono (by decide))).trans ((Dev.count_keeps _ _ _).mono (by decide))) (by decide) (by decide)
  exact ⟨_, hnext, ha, (Dev.finish_keeps _ _ _ _) .ctrs (by decide), hk.mono (by decide)⟩

theorem driveLog_removed (hcmds : s.dev.recd.cmds = []) (hwait : s.dev.recd.waiting = [])
    (heject : (s.dev.slot (c.f 4 2 0)).ejecting = none) (hvol : s.dev.volOf (c.f 4 2 0) = none) :
    ∃ t, exec (.driveLog r .removed) s = .next t ∧ Answered s.dev t.dev r stMediaAbsent 0
      ∧ t.dev.ctrs = (s.dev.count 0x80310 1).ctrs ∧ t.dev.slot (c.f 4 2 0) = {}
      ∧ Keeps (.recd :: .ctrs :: byDone) s.dev t.dev := by
  have hready : (s.dev.slot (c.f 4 2 0)).state = .ready := by
    have hoffs := (Dev.clear_offs hc).2.2
    simp only [specDriveLog, List.append_eq_nil_iff, off_eq_nil_iff] at hoffs
    obtain ⟨⟨⟨⟨-, hstate⟩, -⟩, -⟩, -⟩ := hoffs
    simpa using hstate
  obtain ⟨es, hes⟩ := Dev.driveOut_free (d := s.dev.logAsked c) (k := c.f 4 2 0) hcmds hwait hready heject hvol
  have he : driveLog .removed r c s.dev
      = (((s.dev.logAsked c).count 0x80310 1).slotLeft (c.f 4 2 0) es).finish r stMediaAbsent 0 :=
    ((if_neg (ne_true_of_eq_false (Dev.recOff_of_up hup))).trans (if_neg (ne_true_of_eq_false hup))).trans
      (congrArg (fun e : Dev => e.finish r stMediaAbsent 0) hes)
  obtain ⟨hnext, ha, hk⟩ := cmd_finishes (i := .driveLog r .removed) (by rw [exec, execDriveLog]) hc he
    ((((s.dev.logAsked_keeps c).mono (b := [.recd, .out, .ctrs]) (by decide)).trans
      ((Dev.count_keeps _ _ _).mono (by decide))).trans ((Dev.slotLeft_keeps _ _ _).mono (by decide))) (by decide)
    (by decide)
  exact ⟨_, hnext, ha, (Dev.finish_keeps _ _ _ _) .ctrs (by decide),
    (Dev.finish_slot _ _ _ _ _).trans (Dev.slotLeft_slot _ _ _), hk.mono (by decide)⟩

end Log

/-- The effect of DRIVE_EJECT. -/
def driveEject (r : CmdRef) (c : Cmd) (d : Dev) : Dev :=
  if d.recOff then d.finish r stEngineDown 0
  else if d.recDown then d
  else ((d.begin r).setSlot (c.f 4 2 0) { d.slot (c.f 4 2 0) with ejecting := some r }).emit (.driveShutdown (c.f 4 2 0))

theorem exec_driveEject : exec (.driveEject r) s = lift (runCmd specDriveEject r (driveEject r)) s := by
  rw [exec, execDriveEject]
  rfl

theorem driveEject_shuts_down (hup : s.dev.recDown = false) (hc : s.dev.clear specDriveEject r c = true) :
    ∃ t, exec (.driveEject r) s = .next t ∧ t.pending = s.pending ∧ t.dev.cmd? r = some { c with begun := true }
      ∧ t.dev.slot (c.f 4 2 0) = { s.dev.slot (c.f 4 2 0) with ejecting := some r }
      ∧ (∀ k, k ≠ c.f 4 2 0 → t.dev.slot k = s.dev.slot k) ∧ t.dev.out = s.dev.out ++ [.driveShutdown (c.f 4 2 0)]
      ∧ Keeps [.recd, .fetch, .out] s.dev t.dev := by
  have he : driveEject r c s.dev = ((s.dev.begin r).setSlot (c.f 4 2 0)
      { s.dev.slot (c.f 4 2 0) with ejecting := some r }).emit (.driveShutdown (c.f 4 2 0)) :=
    (if_neg (ne_true_of_eq_false (Dev.recOff_of_up hup))).trans (if_neg (ne_true_of_eq_false hup))
  have hk := (((s.dev.begin_keeps r).mono (b := [.recd, .fetch, .out]) (by decide)).trans ((Dev.setSlot_keeps _ (c.f 4 2 0)
    { s.dev.slot (c.f 4 2 0) with ejecting := some r }).mono (by decide))).trans
    ((Dev.emit_keeps _ (.driveShutdown (c.f 4 2 0))).mono (by decide))
  exact ⟨_, event_effect exec_driveEject (Dev.clear_idle hc) ((runCmd_clear _ hc).trans he) hk (by decide), rfl,
    Dev.begin_cmd (Dev.clear_cmd hc), Dev.setSlot_slot _ _ _, fun k hne => Dev.setSlot_slot_ne _ _ _ hne, rfl, hk⟩

end Commands

/-! ## Drives go and come (R318, R319, R331, R332) -/

section Drives

variable {s : State} {x : Fin 8} (hi : s.dev.idleMode = true) (hwait : s.dev.recd.waiting = [])
include hi hwait

omit hi hwait in
/-- The drive has shut down, and its reset ball is asserted. -/
def Dev.slotShut (d : Dev) (k : Nat) : Dev := (d.setSlot k { d.slot k with ejecting := none }).emit (.driveReset k true)

omit hi hwait in
theorem Dev.slotShut_keeps (d : Dev) (k : Nat) : Keeps [.recd, .out] d (d.slotShut k) :=
  ((Dev.setSlot_keeps _ _ _).mono (by decide)).trans ((Dev.emit_keeps _ _).mono (by decide))

omit hi hwait in
/-- A slot that is left ejected, whether or not it was. -/
theorem Dev.slotTo_ejected {d : Dev} {k : Nat} (h : d.recd.waiting = []) :
    ((d.slotTo k .ejected 0).slot k).state = .ejected
      ∧ ((d.slotTo k .ejected 0).slot k).ejecting = (d.slot k).ejecting
      ∧ (∀ j, j ≠ k → (d.slotTo k .ejected 0).slot j = d.slot j) ∧ Keeps [.recd] d (d.slotTo k .ejected 0) := by
  by_cases hs : (d.slot k).state = .ejected
  · rw [show d.slotTo k .ejected 0 = d from if_pos hs]
    exact ⟨hs, rfl, fun _ _ => rfl, .refl _ _⟩
  · obtain ⟨es, hes⟩ := Dev.slotTo_moves h hs 0
    rw [hes]
    refine ⟨?_, ?_, fun j hne => ?_, (Dev.setSlot_keeps _ _ _).trans (Dev.recHeld_keeps _ _)⟩
    · rw [Dev.recHeld_slot, Dev.setSlot_slot]
    · rw [Dev.recHeld_slot, Dev.setSlot_slot]
    · rw [Dev.recHeld_slot, Dev.setSlot_slot_ne _ _ _ hne]

theorem shutdownComplete_ejects {q : CmdRef} {ms : Nat} {ok : Bool} (heject : (s.dev.slot x.val).ejecting = some q)
    (ha : s.dev.Answerable q) :
    ∃ t, exec (.shutdownComplete x ms ok) s = .next t
      ∧ Answered s.dev t.dev q (if ok then stSuccess else stMediaTimeout) (if ok then min 4294967295 ms else 0)
      ∧ (t.dev.slot x.val).state = .ejected ∧ (t.dev.slot x.val).ejecting = none
      ∧ Out.driveReset x.val true ∈ t.dev.out ∧ (∀ j, j ≠ x.val → t.dev.slot j = s.dev.slot j)
      ∧ Keeps (.recd :: byDone) s.dev t.dev := by
  obtain ⟨hstate, hgone, hothers, hk⟩ := Dev.slotTo_ejected (d := s.dev.slotShut x.val) (k := x.val) hwait
  have hshut := s.dev.slotShut_keeps x.val
  have hslot : (s.dev.slotShut x.val).slot x.val = { s.dev.slot x.val with ejecting := none } := Dev.setSlot_slot _ _ _
  have he : s.dev.shutdownEnd x.val ms ok = ((s.dev.slotShut x.val).slotTo x.val .ejected 0).finish q
      (if ok then stSuccess else stMediaTimeout) (if ok then min 4294967295 ms else 0) := by
    simp only [Dev.shutdownEnd, heject, satW]
    rfl
  obtain ⟨hnext, hans, hall⟩ := event_finishes (i := .shutdownComplete x ms ok)
    (f := fun d => d.shutdownEnd x.val ms ok) rfl hi he ha (hshut.trans (hk.mono (by decide))) (by decide) (by decide)
  refine ⟨_, hnext, hans, ?_, ?_, Dev.finish_outGrows _ _ _ _ (hk.outGrows (by decide) ?_), fun j hne => ?_,
    hall.mono (by decide)⟩
  · rw [Dev.finish_slot]
    exact hstate
  · rw [Dev.finish_slot, hgone, hslot]
  · exact List.mem_append_right _ (List.mem_singleton.mpr rfl)
  · rw [Dev.finish_slot, hothers j hne]
    exact Dev.setSlot_slot_ne _ _ _ hne

theorem driveRemoval_breaks {n : Nat} (hvol : s.dev.volOf x.val = some n) (hlive : (s.dev.vol n).state = 1)
    (hcmds : s.dev.recd.cmds = []) (heject : (s.dev.slot x.val).ejecting = none)
    (hready : (s.dev.slot x.val).state = .ready) :
    ∃ t, exec (.driveRemoval x) s = .next t ∧ t.dev.slot x.val = {} ∧ t.dev.vol n = { s.dev.vol n with state := 2 }
      ∧ (∀ j, j ≠ x.val → t.dev.slot j = s.dev.slot j) ∧ (∀ m, m ≠ n → t.dev.vol m = s.dev.vol m)
      ∧ t.dev.ctrs = (s.dev.count 0x80310 1).ctrs ∧ Keeps [.recd, .ctrs] s.dev t.dev := by
  obtain ⟨es, es', hes⟩ := Dev.driveOut_breaks hcmds hwait hready heject hvol hlive
  have hk := (((s.dev.count_keeps 0x80310 1).mono (b := [.recd, .ctrs]) (by decide)).trans
    ((Dev.slotLeft_keeps _ x.val es).mono (by decide))).trans
    (((Dev.setVol_keeps _ n { s.dev.vol n with state := 2 }).trans (Dev.recHeld_keeps _ es')).mono (by decide))
  obtain ⟨t, hnext, ht⟩ := event_goes (i := .driveRemoval x) (f := fun d => d.driveOut x.val) rfl hi hes hk (by decide)
  refine ⟨t, hnext, ?_⟩
  rw [ht]
  refine ⟨?_, ?_, fun j hne => ?_, fun m hne => ?_, ?_, hk⟩
  · rw [Dev.recHeld_slot, Dev.setVol_slot, Dev.slotLeft_slot]
  · rw [Dev.recHeld_vol, Dev.setVol_vol]
  · rw [Dev.recHeld_slot, Dev.setVol_slot, Dev.slotLeft_slot_ne _ _ hne]
    exact (s.dev.count_keeps 0x80310 1).slot (by decide) j
  · rw [Dev.recHeld_vol, Dev.setVol_vol_ne _ _ _ hne, Dev.slotLeft_vol]
    exact (s.dev.count_keeps 0x80310 1).vol (by decide) m
  · exact (((Dev.slotLeft_keeps _ x.val es).trans (Dev.setVol_keeps _ n _)).trans (Dev.recHeld_keeps _ es')) .ctrs
      (by decide)

omit hi hwait in
/-- A drive is present in slot `k`. -/
def Dev.slotIn (d : Dev) (k : Nat) : Dev := d.setSlot k { d.slot k with present := true }

theorem driveInsertion_trains (hgone : (s.dev.slot x.val).present = false) (hempty : (s.dev.slot x.val).state = .empty)
    (hon : s.dev.slotOn x.val = true) :
    ∃ t, exec (.driveInsertion x) s = .next t
      ∧ t.dev.slot x.val = { s.dev.slot x.val with present := true, state := .training, cause := 0 }
      ∧ (∀ j, j ≠ x.val → t.dev.slot j = s.dev.slot j) ∧ Keeps [.recd] s.dev t.dev := by
  have hin : (s.dev.slotIn x.val).slot x.val = { s.dev.slot x.val with present := true } := Dev.setSlot_slot _ _ _
  have hempty' : ((s.dev.slotIn x.val).slot x.val).state = .empty := by rw [hin]; exact hempty
  obtain ⟨es, hes⟩ := Dev.slotTo_moves (d := s.dev.slotIn x.val) (k := x.val) (st := .training) hwait
    (by rw [hempty']; decide) 0
  have he : s.dev.driveIn x.val = (s.dev.slotIn x.val).slotTo x.val .training 0 := by
    have hnot : ¬ (s.dev.slot x.val).state = .ejected := by rw [hempty]; decide
    have hgoes : ((s.dev.slotIn x.val).slot x.val).state = .empty ∧ (s.dev.slotIn x.val).slotOn x.val = true :=
      ⟨hempty', hon⟩
    unfold Dev.slotIn at hgoes ⊢
    unfold Dev.driveIn
    simp only []
    rw [if_neg (ne_true_of_eq_false hgone), if_neg hnot, if_pos hgoes]
  have hk := ((Dev.setSlot_keeps s.dev x.val { s.dev.slot x.val with present := true }).trans
    (Dev.setSlot_keeps _ x.val { (s.dev.slotIn x.val).slot x.val with state := .training, cause := 0 })).trans
    (Dev.recHeld_keeps _ es)
  obtain ⟨t, hnext, ht⟩ := event_goes (i := .driveInsertion x) (f := fun d => d.driveIn x.val) rfl hi (he.trans hes) hk
    (by decide)
  refine ⟨t, hnext, ?_⟩
  rw [ht]
  refine ⟨?_, fun j hne => ?_, hk⟩
  · rw [Dev.recHeld_slot, Dev.setSlot_slot, hin]
  · rw [Dev.recHeld_slot, Dev.setSlot_slot_ne _ _ _ hne]
    exact Dev.setSlot_slot_ne _ _ _ hne

omit hi hwait in
/-- Slot `k` knows its drive. -/
def Dev.driveKnown (d : Dev) (k : Nat) (f : DriveFacts) : Dev :=
  d.setSlot k { d.slot k with
    drive := f.driveId, speed := f.speed, width := f.width, blocks := f.blocks, unsafeCount := f.unsafeShutdowns
    dlfeat := f.dlfeatZero, mdts := f.mdts }

theorem slotReady_comes_up (f : DriveFacts) (htrain : (s.dev.slot x.val).state = .training)
    (hin : (s.dev.slot x.val).present = true) :
    ∃ t, exec (.slotReady x f) s = .next t
      ∧ (driveCause f = 0 → (t.dev.slot x.val).state = .ready)
      ∧ (driveCause f ≠ 0 → (t.dev.slot x.val).state = .unsuitable ∧ (t.dev.slot x.val).cause = driveCause f)
      ∧ (t.dev.slot x.val).drive = f.driveId ∧ (t.dev.slot x.val).blocks = f.blocks
      ∧ (t.dev.slot x.val).mdts = f.mdts ∧ (∀ j, j ≠ x.val → t.dev.slot j = s.dev.slot j)
      ∧ Keeps [.recd] s.dev t.dev := by
  have hslot : (s.dev.driveKnown x.val f).slot x.val = { s.dev.slot x.val with
      drive := f.driveId, speed := f.speed, width := f.width, blocks := f.blocks, unsafeCount := f.unsafeShutdowns
      dlfeat := f.dlfeatZero, mdts := f.mdts } := Dev.setSlot_slot _ _ _
  have hne : ((s.dev.driveKnown x.val f).slot x.val).state ≠ if driveCause f = 0 then .ready else .unsuitable := by
    rw [hslot, htrain]
    split <;> decide
  obtain ⟨es, hes⟩ := Dev.slotTo_moves (d := s.dev.driveKnown x.val f) hwait hne (driveCause f)
  have he : s.dev.slotUp x.val f
      = (s.dev.driveKnown x.val f).slotTo x.val (if driveCause f = 0 then .ready else .unsuitable) (driveCause f) :=
    (if_neg (by simp [htrain])).trans (if_neg (by simp [htrain, hin]))
  have hk := ((Dev.setSlot_keeps s.dev x.val { s.dev.slot x.val with
    drive := f.driveId, speed := f.speed, width := f.width, blocks := f.blocks, unsafeCount := f.unsafeShutdowns
    dlfeat := f.dlfeatZero, mdts := f.mdts }).trans (Dev.setSlot_keeps _ x.val { (s.dev.driveKnown x.val f).slot x.val with
      state := if driveCause f = 0 then .ready else .unsuitable, cause := driveCause f })).trans (Dev.recHeld_keeps _ es)
  obtain ⟨t, hnext, ht⟩ := event_goes (i := .slotReady x f) (f := fun d => d.slotUp x.val f) rfl hi (he.trans hes) hk
    (by decide)
  have hnow : t.dev.slot x.val = { (s.dev.driveKnown x.val f).slot x.val with
      state := if driveCause f = 0 then .ready else .unsuitable, cause := driveCause f } := by
    rw [ht, Dev.recHeld_slot, Dev.setSlot_slot]
  rw [hslot] at hnow
  refine ⟨t, hnext, ?_⟩
  rw [hnow]
  refine ⟨fun h0 => if_pos h0, fun h0 => ⟨if_neg h0, rfl⟩, rfl, rfl, rfl, fun j hne => ?_, ht ▸ hk⟩
  rw [ht, Dev.recHeld_slot, Dev.setSlot_slot_ne _ _ _ hne]
  exact Dev.setSlot_slot_ne _ _ _ hne

end Drives

/-- Settles O48: the commands on volumes, events and drives, and the events of a slot. -/
theorem recorderVolumesAndDrives : Obligations.RecorderVolumesAndDrives := by
  unfold Obligations.RecorderVolumesAndDrives
  refine ⟨fun s r c list b ms back => volCreate_makes, fun s r c => volDelete_deletes,
    fun s r c hc hup => ⟨volClearRecovery_broken hc hup, volClearRecovery_clears hc hup⟩,
    fun s r c hc hup => ⟨fun e es => recEvent_answers hc hup, recEvent_waits hc hup, recEvent_full hc hup⟩,
    fun s r c hup => ⟨fun hc => ⟨driveLog_reads hup hc, driveLog_mediaError hup hc, driveLog_timeout hup hc,
      driveLog_removed hup hc⟩, driveEject_shuts_down hup⟩,
    fun s x hi hwait => ⟨fun q k ms ok heject hops hcmd hfail hlive hheard => ?_, fun n => driveRemoval_breaks hi hwait,
      driveInsertion_trains hi hwait, slotReady_comes_up hi hwait⟩⟩
  exact shutdownComplete_ejects hi hwait heject ⟨hops, ⟨k, hcmd, hfail⟩, hlive, hheard⟩

end Sys2Proof.Machine
end

section
/-! SUPPORT. A drive that is being re-initialised is sent nothing, so a timeout of a piece in flight on it waits as well
(R329, O49). -/

namespace Sys2Proof.Machine

open Sys2Proof

/-! ## Timeouts on a drive that is being re-initialised (R329) -/

theorem Dev.pieceTimeout_reinit {d : Dev} {e : RecCmd} {p : Piece} (he : d.rec? e.ref = some e)
    (hp : e.pieces.find? (fun q => q.off == p.off && flying q) = some p) (hre : (d.slot p.slot).reinit = true) :
    d.pieceTimeout e.ref p.off = d := by
  unfold Dev.pieceTimeout
  simp only [he, hp, hre, if_true]

/-! ## A read whose piece is in flight on a drive that another piece's timeouts have reset -/

/-- A piece of one block, issued and not done. -/
def flyingPiece : Piece := { off := 0, unit := 0, slot := 0, lba := 0, blocks := 1, issued := true }

/-- The read that the piece is of. -/
def flyingRead : RecCmd := {
  ref := ⟨1, 0⟩, num := 0, vol := 0, kind := 0, cut := false, begun := true, pieces := [flyingPiece] }

/-- The host command of the read: fetched from queue 1, and begun. -/
def flyingCmd : Cmd := { qid := 1, cid := 0, num := 0, dw := [], begun := true, since := 0 }

/-- The drive of slot 0 is READY and its controller is being re-initialised, with the read's piece in flight on it. -/
def reinitWaits : State := {
  dev := {
    hif := { cmds := [flyingCmd], queues := [(1, { live := true })] }
    recd := { slots := [(0, { state := .ready, present := true, reinit := true })], cmds := [flyingRead] } }
  pending := [] }

theorem reinitWaits_timeout : exec (.driveCommandTimeout flyingRead.ref flyingPiece.off) reinitWaits = .next reinitWaits :=
  event_none (f := fun d => d.pieceTimeout flyingRead.ref flyingPiece.off) rfl (by decide)
    (Dev.pieceTimeout_reinit (e := flyingRead) (p := flyingPiece) (by decide) (by decide) (by decide))

/-- Refutes O49: on a drive that is being re-initialised a first timeout of a piece sends no NVMe Abort, and the piece
stays as it was. -/
theorem not_recorderData : ¬ Obligations.RecorderData := by
  unfold Obligations.RecorderData
  intro h
  obtain ⟨-, -, hend⟩ := h
  obtain ⟨-, -, -, habort, -⟩ := hend reinitWaits flyingRead flyingPiece flyingCmd (by decide) rfl rfl rfl rfl rfl rfl rfl
    rfl (by decide) rfl (by decide) rfl (by decide) (by decide)
  obtain ⟨t, hx, hcmds, -⟩ := habort rfl
  obtain rfl : reinitWaits = t := Host.Outcome.next.inj (reinitWaits_timeout.symm.trans hx)
  exact absurd hcmds (by decide)

end Sys2Proof.Machine
end

section
/-! SUPPORT. An engine reset of REC ends every ejection that a slot holds, whatever command it names (R333, O58). -/

namespace Sys2Proof.Machine

open Sys2Proof

/-! ## A slot whose ejection is that of the ENGINE_RESET itself -/

/-- The reference of the ENGINE_RESET. -/
def recResetRef : CmdRef := ⟨1, 1⟩

/-- ENGINE_RESET of REC, fetched from queue 1. -/
def recResetCmd : Cmd := {
  qid := 1, cid := 1, num := 0, dw := [0x0001100C, 0, 0, 0, 0x38] ++ List.replicate 11 0, begun := false, since := 0 }

/-- A driver's state with one live volume, in which the ejection of slot 0 waits under the reference of the ENGINE_RESET. -/
def ejectionShared : State := {
  dev := {
    boot := { mode := .capture, stage := .driver, rom := false, firmware := true, refDone := true }
    hif := {
      ready := true, neg := 2, features := 1048575, cmds := [recResetCmd]
      queues := [(0, { live := true, depth := 16 }), (1, { live := true, depth := 16 })] }
    recd := { slots := [(0, { state := .ready, ejecting := some recResetRef })], vols := [(0, { state := 1 })] }
    pwr := { isl := [(38, { st := 0, gear := 1 })] }
    oms := { code := (rangeFrom 0 5).map fun e => (e, { src := 0, digest := e + 1 }) } }
  pending := [] }

theorem ejectionShared_ctx_after {t : State} (h : exec (.engineReset recResetRef 0) ejectionShared = .next t) :
    t.dev.cmd? recResetRef = none := by
  rw [exec, execEngineReset, lift_next] at h
  injection h with h
  subst h
  decide +kernel

/-- Refutes O58: an ENGINE_RESET of REC completes the ejections that the slots hold, and where one of them is held under
the reference of that command, it does not go on as begun. -/
theorem not_powerAndEngines : ¬ Obligations.PowerAndEngines := by
  unfold Obligations.PowerAndEngines
  intro h
  obtain ⟨-, -, -, -, -, -, -, -, -, hreset, -⟩ := h
  obtain ⟨-, -, hserves⟩ := hreset ejectionShared recResetRef recResetCmd 0 0x38 (by decide +kernel) (by decide)
  obtain ⟨-, hquiet, -⟩ := hserves (by decide) (by decide)
  obtain ⟨t, hx, -, hbegun, -⟩ := hquiet (by decide +kernel) (by decide) (by decide +kernel) rfl
  obtain ⟨hctx, -⟩ := hbegun
  exact absurd ((ejectionShared_ctx_after hx).symm.trans hctx) (by simp)

end Sys2Proof.Machine
end

section
/-! SUPPORT. LSE_BLOCK: what a job forms, what it leaves of its session, and what it answers (O47). -/

namespace Sys2Proof.Machine

open Sys2Proof

/-! ## The bytes of a job (R298, R300) -/

section Bytes

variable (e : LseSession) (c : Cmd) (v : LseRun) (inp : List Byte)

theorem lseFormed_length : (lseFormed e c v inp).length = lseMade e v := by
  unfold lseFormed
  split
  · simp [length_rangeFrom]
  · simp only [List.length_take, List.length_append, List.length_map, length_rangeFrom]
    omega

/-- Pending output and what a job forms, together. -/
theorem lseOutput_length : (e.pend ++ lseFormed e c v inp).length = max e.pending (v.produced + v.pending) := by
  rw [List.length_append, lseFormed_length, lseMade, LseSession.pending]
  omega

variable {e c v inp}

/-- A job that ends without a fault has accounted for the pending output. -/
theorem pending_le_of_runOk (hok : runOk e c v = true) (hf : v.fault = false) : e.pending ≤ v.produced + v.pending := by
  simp only [runOk, hf, Bool.false_or, Bool.and_eq_true, decide_eq_true_eq] at hok
  obtain ⟨⟨-, hle⟩, -⟩ := hok
  exact hle

/-- What a job writes is as long as it says. -/
theorem lseWritten_length : ((e.pend ++ lseFormed e c v inp).take v.produced).length = v.produced := by
  rw [List.length_take, lseOutput_length]
  omega

theorem lseAfter_closing : (lseAfter e c v inp).closing = e.closing := by
  unfold lseAfter
  split
  · rfl
  · split <;> rfl

theorem lseAfter_fault (hf : v.fault = true) :
    lseAfter e c v inp = { e with pend := [], busy := false, taken := [], made := 0 } := if_pos hf

theorem lseAfter_pend (hf : v.fault = false) :
    (lseAfter e c v inp).pend = (e.pend ++ lseFormed e c v inp).drop v.produced := by
  simp only [lseAfter, hf, Bool.false_eq_true, if_false]
  split <;> rfl

/-- What a job leaves pending is what it says. -/
theorem lseAfter_pending (hok : runOk e c v = true) (hf : v.fault = false) : (lseAfter e c v inp).pending = v.pending := by
  have hle := pending_le_of_runOk hok hf
  rw [LseSession.pending, lseAfter_pend hf, List.length_drop, lseOutput_length]
  omega

theorem lseAfter_idle (hf : v.fault = false) (hends : lseEnds c v = true) : (lseAfter e c v inp).busy = false := by
  simp [lseAfter, hf, hends]

theorem lseAfter_busy (hf : v.fault = false) (hends : lseEnds c v = false) (h : 0 < v.consumed ∨ c.b 4 0 = true) :
    (lseAfter e c v inp).busy = true := by
  simp only [lseAfter, hf, hends, Bool.false_eq_true, if_false, Bool.or_eq_true, decide_eq_true_eq]
  rcases h with h | h
  · exact .inr (by omega)
  · exact .inl (.inr h)

end Bytes

/-! ## A job that runs (R298 to R301) -/

section Block

variable {s : State} {d : Dev} {r : CmdRef} {c : Cmd} {v : LseRun} {e : LseSession}

theorem exec_lseBlock (h : v.internal = none) : exec (.lseBlock r v) s = lift (runCmd specLseBlock r (lseBlock v r)) s := by
  rw [exec, execLseBlock, h]

/-- The input of a job. -/
def Dev.jobInput (d : Dev) (c : Cmd) (v : LseRun) : List Byte := d.blockOf (c.b 4 8) (c.q 5) v.consumed v.input

/-- A job has written its output, and its session is as the job leaves it. -/
def Dev.jobRun (d : Dev) (e : LseSession) (c : Cmd) (v : LseRun) : Dev :=
  ((d.lseWorked e).writeBuf (c.b 4 9) (c.q 8) ((e.pend ++ lseFormed e c v (d.jobInput c v)).take v.produced)).setLse
    c.handle (some (lseAfter e c v (d.jobInput c v)))

theorem Dev.jobRun_keeps (d : Dev) (e : LseSession) (c : Cmd) (v : LseRun) : Keeps [.lse, .mem, .out] d (d.jobRun e c v) :=
  (((d.undefBuf_keeps _ _ _).mono (by decide)).trans ((Dev.writeBuf_keeps _ _ _ _).mono (by decide))).trans
    ((Dev.setLse_keeps _ _ _).mono (by decide))

theorem Dev.jobRun_lseOpt (d : Dev) (e : LseSession) (c : Cmd) (v : LseRun) :
    (d.jobRun e c v).lse? c.handle = some (lseAfter e c v (d.jobInput c v)) :=
  Dev.setLse_lseOpt _ _ _

theorem Dev.jobRun_lseOpt_ne (d : Dev) (e : LseSession) (c : Cmd) (v : LseRun) {h : Nat} (hne : h ≠ c.handle) :
    (d.jobRun e c v).lse? h = d.lse? h := by
  rw [Dev.jobRun, Dev.setLse_lseOpt_ne _ _ _ hne]
  exact (((d.undefBuf_keeps _ _ _).mono (b := [.mem, .out]) (by decide)).trans ((Dev.writeBuf_keeps _ _ _ _).mono
    (by decide))).lseOpt (by decide) h

/-- What a job writes to device memory is there. -/
theorem Dev.jobRun_written (d : Dev) (e : LseSession) (c : Cmd) (v : LseRun) (hdev : c.b 4 9 = true) :
    Mem.rdN (d.jobRun e c v).mem.lpddr (c.q 8) v.produced
      = (e.pend ++ lseFormed e c v (d.jobInput c v)).take v.produced := by
  have hmem : (d.jobRun e c v).mem = ((d.lseWorked e).writeBuf true (c.q 8)
      ((e.pend ++ lseFormed e c v (d.jobInput c v)).take v.produced)).mem := by
    rw [← hdev]
    exact (Dev.setLse_keeps _ _ _) .mem (by decide)
  have hread := Mem.rdN_wrN_same (d.lseWorked e).mem.lpddr (c.q 8)
    ((e.pend ++ lseFormed e c v (d.jobInput c v)).take v.produced)
  rw [lseWritten_length] at hread
  rw [hmem, (Dev.writeBuf_device _ _ _).1]
  exact hread

/-- A command that ends with its session open leaves it so. -/
theorem Dev.finish_lseSettle {h : Nat} {x : LseSession} (hx : d.lse? h = some x) (hopen : x.closing = none)
    (st res : Nat) : (d.finish r st res).lseSettle h = d.finish r st res :=
  Dev.lseSettle_open ((Dev.finish_lseOpt _ _ _ _ _).trans hx) hopen

/-- The status of a job. -/
def jobStatus (c : Cmd) (v : LseRun) : Nat :=
  if v.fault then stBitstream else if lseDone c v then stSuccess else stOutOfSpace

theorem jobStatus_fault (hf : v.fault = true) : jobStatus c v = stBitstream := if_pos hf

theorem jobStatus_done (hf : v.fault = false) (hdone : lseDone c v = true) : jobStatus c v = stSuccess := by
  simp [jobStatus, hf, hdone]

theorem jobStatus_left (hf : v.fault = false) (hdone : lseDone c v = false) : jobStatus c v = stOutOfSpace := by
  simp [jobStatus, hf, hdone]

/-- The counter of a job that does not end as it should. -/
def Dev.jobCount (d : Dev) (c : Cmd) (v : LseRun) : Dev :=
  if v.fault then d.count 0x70048 1 else if lseDone c v then d else d.count 0x70044 1

theorem Dev.jobCount_keeps (d : Dev) (c : Cmd) (v : LseRun) : Keeps [.ctrs] d (d.jobCount c v) := by
  unfold Dev.jobCount
  split
  · exact d.count_keeps _ _
  · exact (Keeps.refl _ _).ifElse (d.count_keeps _ _)

variable (hgone : s.dev.lseGone = false) (hahead : s.dev.lseAhead c = false) (hturn : s.dev.laneTurn c = true)
  (he : s.dev.lse? c.handle = some e)
include hgone hahead hturn he

theorem lseBlock_resumeBad (hres : (e.pending != 0) ≠ c.b 4 1) :
    lseBlock v r c s.dev = s.dev.finish r stInvalidField 260 := by
  have hbad : s.dev.resumeBad c = true := by simpa [Dev.resumeBad, he] using hres
  unfold lseBlock
  rw [if_neg (ne_true_of_eq_false hgone), if_neg (by simp [hahead, hturn]), if_pos hbad]
  rfl

theorem lseBlock_runs (hres : (e.pending != 0) = c.b 4 1) (hok : runOk e c v = true) (hopen : e.closing = none) :
    lseBlock v r c s.dev
      = ((s.dev.jobRun e c v).jobCount c v).finish r (jobStatus c v) (v.consumed + v.produced * 4294967296) := by
  have hbad : s.dev.resumeBad c = false := by simpa [Dev.resumeBad, he] using hres
  have hx : ((s.dev.jobRun e c v).jobCount c v).lse? c.handle = some (lseAfter e c v (s.dev.jobInput c v)) :=
    ((Dev.jobCount_keeps _ c v).lseOpt (by decide) _).trans (Dev.jobRun_lseOpt _ _ _ _)
  refine Eq.trans ?_ (Dev.finish_lseSettle hx (lseAfter_closing.trans hopen) _ _)
  unfold lseBlock
  rw [if_neg (ne_true_of_eq_false hgone), if_neg (by simp [hahead, hturn]), if_neg (ne_true_of_eq_false hbad), he]
  simp only [hok, Bool.not_true, Bool.false_eq_true, if_false]
  rw [jobStatus, Dev.jobCount]
  split
  · rfl
  · split <;> rfl

end Block

/-! ## What a job answers -/

section Answers

variable {s : State} {r : CmdRef} {c : Cmd} {v : LseRun} {e : LseSession}
  (hc : s.dev.clear specLseBlock r c = true) (hgone : s.dev.lseGone = false) (hahead : s.dev.lseAhead c = false)
  (hturn : s.dev.laneTurn c = true) (he : s.dev.lse? c.handle = some e) (hint : v.internal = none)
include hc hgone hahead hturn he hint

theorem lseBlock_answers_resumeBad (hres : (e.pending != 0) ≠ c.b 4 1) :
    ∃ t, exec (.lseBlock r v) s = .next t ∧ Answered s.dev t.dev r stInvalidField 260 ∧ Keeps byDone s.dev t.dev :=
  cmd_answers (exec_lseBlock hint) hc (lseBlock_resumeBad hgone hahead hturn he hres)

variable (hres : (e.pending != 0) = c.b 4 1) (hok : runOk e c v = true) (hopen : e.closing = none)
include hres hok hopen

/-- A job that runs, whatever its outcome. -/
theorem lseBlock_answers :
    ∃ t, exec (.lseBlock r v) s = .next t ∧ t.pending = s.pending
      ∧ Answered s.dev t.dev r (jobStatus c v) (v.consumed + v.produced * 4294967296)
      ∧ t.dev.lse? c.handle = some (lseAfter e c v (s.dev.jobInput c v))
      ∧ (∀ h, h ≠ c.handle → t.dev.lse? h = s.dev.lse? h)
      ∧ (c.b 4 9 = true → Mem.rdN t.dev.mem.lpddr (c.q 8) v.produced
          = (e.pend ++ lseFormed e c v (s.dev.jobInput c v)).take v.produced)
      ∧ Keeps (.lse :: .mem :: .ctrs :: byDone) s.dev t.dev
      ∧ (jobStatus c v = stSuccess → Keeps (.lse :: .mem :: byDone) s.dev t.dev) := by
  have hcount := Dev.jobCount_keeps (s.dev.jobRun e c v) c v
  have hrun := s.dev.jobRun_keeps e c v
  obtain ⟨hnext, ha, hk⟩ := cmd_finishes (exec_lseBlock hint) hc (lseBlock_runs hgone hahead hturn he hres hok hopen)
    ((hrun.mono (b := [.lse, .mem, .out, .ctrs]) (by decide)).trans (hcount.mono (by decide))) (by decide) (by decide)
  have hdone := ((s.dev.jobRun e c v).jobCount c v).finish_keeps r (jobStatus c v) (v.consumed + v.produced * 4294967296)
  refine ⟨_, hnext, rfl, ha, ?_, fun h hne => ?_, fun hdev => ?_, hk.mono (by decide), fun hst => ?_⟩
  · exact (hdone.lseOpt (by decide) _).trans ((hcount.lseOpt (by decide) _).trans (Dev.jobRun_lseOpt _ _ _ _))
  · exact (hdone.lseOpt (by decide) _).trans ((hcount.lseOpt (by decide) _).trans (Dev.jobRun_lseOpt_ne _ _ _ _ hne))
  · have hmem : (((s.dev.jobRun e c v).jobCount c v).finish r (jobStatus c v)
        (v.consumed + v.produced * 4294967296)).mem = (s.dev.jobRun e c v).mem :=
      ((hcount.mono (b := .ctrs :: byDone) (by decide)).trans (hdone.mono (by decide))) .mem (by decide)
    rw [hmem]
    exact Dev.jobRun_written _ _ _ _ hdev
  · have hsame : (s.dev.jobRun e c v).jobCount c v = s.dev.jobRun e c v := by
      unfold jobStatus at hst
      unfold Dev.jobCount
      split at hst
      · exact absurd hst (by decide)
      · split at hst
        · simp_all
        · exact absurd hst (by decide)
    rw [hsame]
    exact (hrun.mono (by decide)).trans ((Dev.finish_keeps _ _ _ _).mono (by decide))

end Answers

end Sys2Proof.Machine
end

section
/-! SUPPORT. An autonomous reset of a lane group where no engine has work in passage: it ends nothing, and at the third
of them its island is disabled (R482, R493, O47). -/

namespace Sys2Proof.Machine

open Sys2Proof

/-! ## Sessions and volumes that close nothing -/

/-- No session and no volume waits for its last command, and the lanes are free. -/
structure Dev.NothingCloses (d : Dev) : Prop where
  encOpen : ∀ h x, d.enc? h = some x → x.closing = none
  dec : d.codec.dec = []
  lseOpen : ∀ h x, d.lse? h = some x → x.closing = none
  raw : d.lse.raw = []
  lanes : d.lse.lanes = []
  doomed : d.recd.doomed = []
  deleting : ∀ n, (d.vol n).deleting = none

section Closing

variable {d e : Dev} {b : List Part}

/-- What a map holds of every entry and of the default holds of every value. -/
theorem SMap.get_induction {α : Type} {p : α → Prop} {z : α} (hz : p z) :
    ∀ {m : SMap α} (_ : ∀ x ∈ m, p x.2) (k : Nat), p (SMap.get z m k)
  | [], _, _ => hz
  | (a, v) :: t, hm, k => by
    rw [SMap.get]
    split
    · exact hm (a, v) (List.mem_cons_self ..)
    · exact SMap.get_induction hz (fun x hx => hm x (List.mem_cons_of_mem _ hx)) k

theorem Dev.NothingCloses.of_noWork (h : d.noWork = true) : d.NothingCloses := by
  simp only [Dev.noWork, Bool.and_eq_true, List.isEmpty_iff, List.all_eq_true, Option.isNone_iff_eq_none,
    Option.all_eq_true] at h
  obtain ⟨⟨⟨⟨⟨⟨⟨⟨⟨⟨⟨⟨⟨⟨-, -⟩, -⟩, -⟩, -⟩, -⟩, henc⟩, hdec⟩, hlse⟩, hraw⟩, hlanes⟩, -⟩, -⟩, hdoomed⟩, hvols⟩ := h
  refine ⟨fun n x hx => ?_, hdec, fun n x hx => ?_, hraw, hlanes, hdoomed, fun n => ?_⟩
  · exact SMap.get_induction (p := fun v => ∀ x, v = some x → x.closing = none) (by simp)
      (fun y hy x hx => (henc y hy x hx).2) n x hx
  · exact SMap.get_induction (p := fun v => ∀ x, v = some x → x.closing = none) (by simp)
      (fun y hy x hx => hlse y hy x hx) n x hx
  · exact SMap.get_induction (p := fun v : Volume => v.deleting = none) rfl hvols n

theorem Dev.NothingCloses.of_keeps (h : d.NothingCloses) (hk : Keeps b d e) (hcodec : .codec ∉ b) (hlse : .lse ∉ b)
    (hrecd : .recd ∉ b) : e.NothingCloses := by
  have hc : e.codec = d.codec := hk .codec hcodec
  have hl : e.lse = d.lse := hk .lse hlse
  have hr : e.recd = d.recd := hk .recd hrecd
  refine ⟨?_, hc ▸ h.dec, ?_, hl ▸ h.raw, hl ▸ h.lanes, hr ▸ h.doomed, ?_⟩
  · unfold Dev.enc?
    rw [hc]
    exact h.encOpen
  · unfold Dev.lse?
    rw [hl]
    exact h.lseOpen
  · unfold Dev.vol
    rw [hr]
    exact h.deleting

theorem Dev.NothingCloses.setEnc (h : d.NothingCloses) (n : Nat) {x : EncSession} (hx : x.closing = none) :
    (d.setEnc n (some x)).NothingCloses := by
  refine ⟨fun m y hy => ?_, h.dec, h.lseOpen, h.raw, h.lanes, h.doomed, h.deleting⟩
  by_cases hm : m = n
  · subst hm
    rw [Dev.setEnc_encOpt] at hy
    exact Option.some.inj hy ▸ hx
  · rw [Dev.setEnc_encOpt_ne _ _ _ hm] at hy
    exact h.encOpen m y hy

theorem Dev.NothingCloses.encTidy (h : d.NothingCloses) (n : Nat) : (d.encTidy n).NothingCloses := by
  cases hx : d.enc? n with
  | none =>
    have hsame : d.encTidy n = d := by simp [Dev.encTidy, hx]
    rw [hsame]
    exact h
  | some x =>
    by_cases hf : x.frames = []
    · rw [Dev.encTidy_no_frames hx hf]
      exact h
    · rw [Dev.encTidy_matches hx hf]
      refine .of_keeps (b := [.ctrs]) (h.setEnc n ?_) (Dev.count_keeps _ _ _) (by decide) (by decide) (by decide)
      exact h.encOpen n x hx

/-- An encode session that does not close looks again: frames that wait there are discarded at most. -/
theorem Dev.NothingCloses.encSettle (h : d.NothingCloses) (n : Nat) :
    (d.encSettle n).NothingCloses ∧ Keeps [.codec, .ctrs] d (d.encSettle n) := by
  have hsettle : d.encSettle n = d.encTidy n := by
    unfold Dev.encSettle
    simp only []
    split
    · rfl
    · next x hx => rw [(h.encTidy n).encOpen n x hx]
  rw [hsettle]
  exact ⟨h.encTidy n, d.encTidy_keeps n⟩

theorem Dev.NothingCloses.encSettles (h : d.NothingCloses) (ns : List Nat) :
    (ns.foldl (fun (d : Dev) n => d.encSettle n) d).NothingCloses
      ∧ Keeps [.codec, .ctrs] d (ns.foldl (fun (d : Dev) n => d.encSettle n) d) := by
  induction ns generalizing d with
  | nil => exact ⟨h, .refl _ _⟩
  | cons n ns ih =>
    obtain ⟨hn, hk⟩ := h.encSettle n
    obtain ⟨hns, hks⟩ := ih hn
    exact ⟨hns, hk.trans hks⟩

theorem Dev.NothingCloses.lseSettle (h : d.NothingCloses) (n : Nat) : d.lseSettle n = d := by
  unfold Dev.lseSettle
  cases hx : d.lse? n with
  | none => rfl
  | some x => simp [h.lseOpen n x hx]

theorem Dev.NothingCloses.volSettle (h : d.NothingCloses) (n : Nat) : d.volSettle n = d := by
  simp [Dev.volSettle, h.doomed, h.deleting n]

theorem Dev.NothingCloses.settleAll (h : d.NothingCloses) :
    d.settleAll.NothingCloses ∧ Keeps [.codec, .ctrs] d d.settleAll := by
  obtain ⟨hencs, hk⟩ := h.encSettles (d.codec.enc.map (·.1))
  have hall : d.settleAll = (d.codec.enc.map (·.1)).foldl (fun (d : Dev) n => d.encSettle n) d := by
    unfold Dev.settleAll
    simp only [hencs.dec, List.map_nil, List.foldl_nil, List.foldl_fixed' hencs.lseSettle, hencs.raw,
      List.foldl_fixed' hencs.volSettle]
  rw [hall]
  exact ⟨hencs, hk⟩

end Closing

/-! ## A lane group that stops with its lanes free (R313) -/

section Stop

variable {d : Dev} {k : Nat} (hlo : 0x30 ≤ k) (hhi : k < 0x34)
include hlo hhi

/-- The islands of the lane groups (Table 19-1). -/
theorem lse_islands : engIsland k = some (k - 14) ∧ engOfIsland (k - 14) = some k := by
  have hgroup : ∀ j < 4, engIsland (0x30 + j) = some (0x30 + j - 14) ∧ engOfIsland (0x30 + j - 14) = some (0x30 + j) := by
    decide
  obtain ⟨j, rfl⟩ := Nat.exists_eq_add_of_le hlo
  exact hgroup j (by omega)

theorem Dev.NothingCloses.engStop (h : d.NothingCloses) (st : Nat) :
    (d.engStop k st).NothingCloses ∧ Keeps [.codec, .ctrs, .hub, .dbg] d (d.engStop k st) := by
  have hhalt : d.engHalt k st = d := by
    unfold Dev.engHalt Dev.lseGroupStop
    rw [if_neg (by omega), if_neg (by omega), if_neg (by omega), if_neg (by omega), if_pos hhi]
    exact List.foldl_fixed' (fun _ => by simp [h.lanes, SMap.get]) _
  obtain ⟨hsettled, hk⟩ := h.settleAll
  have hports : Keeps [.hub] d.settleAll ((engPorts k).foldl (fun (d : Dev) p => d.hubLower p) d.settleAll) :=
    Keeps.foldl _ (fun e p => e.hubLower_keeps p) _ _
  have hlow := hsettled.of_keeps hports (by decide) (by decide) (by decide)
  have hall := (hk.mono (b := [.codec, .ctrs, .hub, .dbg]) (by decide)).trans (hports.mono (by decide))
  unfold Dev.engStop
  rw [hhalt]
  simp only []
  split
  · exact ⟨hlow.of_keeps (Dev.dbg_keeps _ _) (by decide) (by decide) (by decide),
      hall.trans ((Dev.dbg_keeps _ _).mono (by decide))⟩
  · exact ⟨hlow, hall⟩

end Stop

/-! ## A step that ends nothing -/

/-- `e` comes of `d` by a change of the parts `b`, and what has left stays left. -/
def Dev.Passes (b : List Part) (d e : Dev) : Prop := Keeps b d e ∧ d.OutGrows e

section Passes

variable {b b' : List Part} {d e x : Dev}

theorem Keeps.passes (hk : Keeps b d e) (hb : .out ∉ b) : Dev.Passes b d e := ⟨hk, hk.outGrows hb⟩

theorem Dev.Passes.mono (h : Dev.Passes b d e) (hb : b ⊆ b') : Dev.Passes b' d e := ⟨h.1.mono hb, h.2⟩

theorem Dev.Passes.trans (h : Dev.Passes b d e) (k : Dev.Passes b e x) : Dev.Passes b d x := ⟨h.1.trans k.1, h.2.trans k.2⟩

theorem Dev.log_passes (d : Dev) (sev code m n page inst frame : Nat) (tag : Option Nat) :
    Dev.Passes byPost d (d.log sev code m n page inst frame tag) := ⟨d.log_keeps _ _ _ _ _ _ _ _, Dev.log_outGrows ..⟩

theorem Answered.passes {r : CmdRef} {st res : Nat} (h : Answered d e r st res) (k : Dev.Passes b e x)
    (hf : .fetch ∉ b) : Answered d x r st res := by
  obtain ⟨hout, hctx⟩ := h
  obtain ⟨-, hcmds, -⟩ := k.1 .fetch hf
  refine ⟨k.2 hout, ?_⟩
  unfold Dev.cmd? at hctx ⊢
  rw [hcmds, hctx]

/-- The only command that is fetched is gone once it is answered. -/
theorem Dev.OnlyEnds.no_cmds {r : CmdRef} {c : Cmd} {st res : Nat} (h : d.OnlyEnds e) (ho : d.hif.queueOps = [])
    (hc : d.cmd? r = some c) (hcmds : d.hif.cmds = [c]) (ha : Answered d e r st res) : e.hif.cmds = [] := by
  obtain ⟨-, hgone⟩ := h.gone ho
  obtain ⟨-, hr⟩ := ha
  obtain ⟨hq, hi⟩ := Dev.cmd_ids hc
  by_contra hne
  obtain ⟨k, hk⟩ := List.exists_mem_of_ne_nil _ hne
  have hnone : e.cmd? k.ref = none := by
    by_cases hsame : k.ref = r
    · rw [hsame]
      exact hr
    · refine hgone k.ref ?_
      simp only [Dev.cmd?, hcmds, List.find?_eq_none, List.mem_singleton, forall_eq]
      intro hmatch
      simp only [Bool.and_eq_true, beq_iff_eq, hq, hi] at hmatch
      obtain ⟨hqid, hcid⟩ := hmatch
      exact hsame (congrArg₂ CmdRef.mk hqid.symm hcid.symm)
  exact absurd (List.find?_eq_none.mp hnone k hk) (by simp [Cmd.ref])

end Passes

end Sys2Proof.Machine
end

section
/-! SUPPORT. A stream job in which an internal check fails: its session is as before it, and its lane group is reset
autonomously (R298, R493, O47). -/

namespace Sys2Proof.Machine

open Sys2Proof

/-! ## The reset of a lane group (R484, R493) -/

section Reset

variable {d : Dev} {k : Nat}

/-- What an engine stops touches where nothing closes. -/
def byLull : List Part := [.codec, .ctrs, .hub, .dbg]

/-- The log entry of an autonomous reset, with its count (R493). -/
def Dev.autoLogged (d : Dev) (k : Nat) (tag : Option Nat) : Dev :=
  (d.draw.2.log 2 0x004 (d.draw.1 % two32) 0 (engPage k) 0 ones64 tag).count 0xD0090 1

theorem Dev.autoLogged_passes (d : Dev) (k : Nat) (tag : Option Nat) : Dev.Passes byPost d (d.autoLogged k tag) :=
  (((d.draw_keeps.passes (by decide)).mono (by decide)).trans (Dev.log_passes _ _ _ _ _ _ _ _ _)).trans
    (((Dev.count_keeps _ _ _).passes (by decide)).mono (by decide))

/-- The autonomous resets of the last 10 s. -/
def Dev.lateAutos (d : Dev) : List (Nat × Nat) := d.eng.autos.filter fun e => decide (d.now - e.2 ≤ escalateTime)

/-- Engine `k` enters an autonomous reset, and is noted among those of the last 10 s. -/
def Dev.autoEntered (d : Dev) (k : Nat) (late : List (Nat × Nat)) : Dev :=
  { d.enterReset k none false 0 with eng := {
    (d.enterReset k none false 0).eng with
    autos := late ++ [(k, (d.enterReset k none false 0).now)]
    resets := (d.enterReset k none false 0).eng.resets.map fun (e : EngReset) =>
      if e.code = k then { e with auto := true } else e } }

theorem Dev.lateAutos_congr {d e : Dev} (heng : e.eng = d.eng) (hntu : e.ntu = d.ntu) : e.lateAutos = d.lateAutos := by
  unfold Dev.lateAutos Dev.now
  rw [heng, hntu]

theorem Dev.autoReset_eq (d : Dev) (k : Nat) (tag : Option Nat) :
    d.autoReset k tag
      = if decide (2 ≤ (((d.draw.2.log 2 0x004 (d.draw.1 % two32) 0 (engPage k) 0 ones64 tag).lateAutos).filter
          (·.1 == k)).length) then
        (engIsland k).elim ((d.autoLogged k tag).autoEntered k
            (d.draw.2.log 2 0x004 (d.draw.1 % two32) 0 (engPage k) 0 ones64 tag).lateAutos)
          fun i => (((d.autoLogged k tag).autoEntered k
            (d.draw.2.log 2 0x004 (d.draw.1 % two32) 0 (engPage k) 0 ones64 tag).lateAutos).islandDisable i 1).1
      else (d.autoLogged k tag).autoEntered k
        (d.draw.2.log 2 0x004 (d.draw.1 % two32) 0 (engPage k) 0 ones64 tag).lateAutos := rfl

variable (hlo : 0x30 ≤ k) (hhi : k < 0x34)
include hlo hhi

/-- Entering a reset leaves the resets before it, marks its own, and touches little else. -/
theorem Dev.NothingCloses.autoEntered (h : d.NothingCloses) (hfresh : ∀ e ∈ d.eng.resets, e.code ≠ k)
    (late : List (Nat × Nat)) :
    (d.autoEntered k late).NothingCloses ∧ Dev.Passes (.eng :: byLull) d (d.autoEntered k late)
      ∧ ∃ x, (d.autoEntered k late).eng.resets = d.eng.resets ++ [x] ∧ x.code = k ∧ x.auto = true ∧ x.ref = none := by
  obtain ⟨hstop, hk⟩ := h.engStop hlo hhi stEngineReset
  have heng : (d.engStop k stEngineReset).eng = d.eng := hk .eng (by decide)
  have hlast : Keeps [.eng] (d.engStop k stEngineReset) (d.autoEntered k late) := Dev.eng_keeps _ _
  refine ⟨hstop.of_keeps hlast (by decide) (by decide) (by decide),
    ((hk.passes (by decide)).mono (by decide)).trans ((hlast.passes (by decide)).mono (by decide)), ?_⟩
  have hresets : (d.autoEntered k late).eng.resets
      = (d.enterReset k none false 0).eng.resets.map fun (e : EngReset) =>
          if e.code = k then { e with auto := true } else e := rfl
  obtain ⟨x, hx, hcode, href⟩ : ∃ x : EngReset, (d.enterReset k none false 0).eng.resets
      = (d.engStop k stEngineReset).eng.resets ++ [x] ∧ x.code = k ∧ x.ref = none := ⟨_, rfl, rfl, rfl⟩
  have hold : (d.eng.resets.map fun (e : EngReset) => if e.code = k then { e with auto := true } else e)
      = d.eng.resets := by
    refine (List.map_congr_left fun e he => ?_).trans (List.map_id _)
    exact if_neg (hfresh e he)
  refine ⟨{ x with auto := true }, ?_, hcode, rfl, href⟩
  rw [hresets, hx, heng, List.map_append, hold, List.map_singleton, if_pos hcode]

omit hlo hhi in
/-- Island `i` is Disabled. -/
def Dev.islandDown (d : Dev) (i : Nat) : Dev :=
  { d.setIsl i { d.isl i with st := 3, gear := 0, k := 0 } with pwr := {
    (d.setIsl i { d.isl i with st := 3, gear := 0, k := 0 }).pwr with disabled := d.pwr.disabled ++ [i] } }

omit hlo hhi in
theorem Dev.islandDown_keeps (d : Dev) (i : Nat) : Keeps [.pwr] d (d.islandDown i) :=
  (d.setIsl_keeps _ _).trans (Dev.pwr_keeps _ _ _)

omit hlo hhi in
/-- With no command fetched, none is cut where an island is disabled. -/
theorem Dev.islandDisable_no_cmds {i : Nat} (hi : engOfIsland i = some k) (cause : Nat)
    (hcmds : ((d.islandDown i).engStop k stEngineDown).hif.cmds = []) :
    (d.islandDisable i cause).1
      = ((d.islandDown i).engStop k stEngineDown).log 2 0x071 (k + cause * 256) 0 (engPage k) 0 ones64 none := by
  unfold Dev.islandDisable
  simp only [hi]
  have hrefs : ((((d.islandDown i).engStop k stEngineDown).hif.cmds.filter fun c =>
      ((d.islandDown i).engStop k stEngineDown).engNeeds k c).map Cmd.ref) = [] := by rw [hcmds]; rfl
  exact congrArg (fun rs : List CmdRef => (rs.foldl (fun (d : Dev) r => d.cut stEngineDown r)
    ((d.islandDown i).engStop k stEngineDown)).log 2 0x071 (k + cause * 256) 0 (engPage k) 0 ones64 none) hrefs

theorem Dev.NothingCloses.islandDisable (h : d.NothingCloses) (hcmds : d.hif.cmds = []) (cause : Nat) :
    Dev.Passes (.pwr :: byLull ++ byPost) d (d.islandDisable (k - 14) cause).1
      ∧ (d.islandDisable (k - 14) cause).1.pwr.disabled = d.pwr.disabled ++ [k - 14] := by
  obtain ⟨-, hisland⟩ := lse_islands hlo hhi
  have hdown := d.islandDown_keeps (k - 14)
  obtain ⟨-, hk⟩ := (h.of_keeps hdown (by decide) (by decide) (by decide)).engStop hlo hhi stEngineDown
  have hnone : ((d.islandDown (k - 14)).engStop k stEngineDown).hif.cmds = [] := by
    obtain ⟨-, hsame, -⟩ := (hdown.mono (b := .pwr :: byLull) (by decide)).trans (hk.mono (by decide)) .fetch (by decide)
    rw [hsame, hcmds]
  rw [Dev.islandDisable_no_cmds hisland cause hnone]
  have hlog := Dev.log_passes ((d.islandDown (k - 14)).engStop k stEngineDown) 2 0x071 (k + cause * 256) 0 (engPage k) 0
    ones64 none
  refine ⟨(((hdown.passes (by decide)).mono (by decide)).trans ((hk.passes (by decide)).mono (by decide))).trans
    (hlog.mono (by decide)), ?_⟩
  have hpwr : _ = (d.islandDown (k - 14)).pwr := ((hk.mono (b := byLull ++ byPost) (by decide)).trans
    (hlog.1.mono (by decide))) .pwr (by decide)
  rw [hpwr]
  rfl

/-- An autonomous reset of a lane group: it is marked, and from the third of them on its island is disabled. -/
theorem Dev.NothingCloses.autoReset (h : d.NothingCloses) (hfresh : ∀ e ∈ d.eng.resets, e.code ≠ k)
    (hcmds : d.hif.cmds = []) (tag : Option Nat) :
    Dev.Passes (.eng :: .pwr :: byLull ++ byPost) d (d.autoReset k tag)
      ∧ (∃ x, (d.autoReset k tag).eng.resets = d.eng.resets ++ [x] ∧ x.code = k ∧ x.auto = true ∧ x.ref = none)
      ∧ (((d.lateAutos).filter (·.1 == k)).length < 2 → (d.autoReset k tag).pwr = d.pwr)
      ∧ (2 ≤ ((d.lateAutos).filter (·.1 == k)).length →
          (d.autoReset k tag).pwr.disabled = d.pwr.disabled ++ [k - 14]) := by
  have hlogged := d.autoLogged_passes k tag
  have hlog := ((d.draw_keeps.passes (by decide)).mono (b' := byPost) (by decide)).trans
    (Dev.log_passes d.draw.2 2 0x004 (d.draw.1 % two32) 0 (engPage k) 0 ones64 tag)
  have heng : (d.autoLogged k tag).eng = d.eng := hlogged.1 .eng (by decide)
  have hlate : (d.draw.2.log 2 0x004 (d.draw.1 % two32) 0 (engPage k) 0 ones64 tag).lateAutos = d.lateAutos :=
    Dev.lateAutos_congr (hlog.1 .eng (by decide)) (hlog.1 .ntu (by decide))
  obtain ⟨hclosed, hpass, hreset⟩ := (h.of_keeps hlogged.1 (by decide) (by decide) (by decide)).autoEntered hlo hhi
    (heng ▸ hfresh) d.lateAutos
  rw [heng] at hreset
  have hall := (hlogged.mono (b' := .eng :: byLull ++ byPost) (by decide)).trans (hpass.mono (by decide))
  have hpwr : ((d.autoLogged k tag).autoEntered k d.lateAutos).pwr = d.pwr := hall.1 .pwr (by decide)
  obtain ⟨hisland, -⟩ := lse_islands hlo hhi
  rw [Dev.autoReset_eq, hlate]
  simp only [decide_eq_true_eq, hisland, Option.elim_some]
  split
  · next hthird =>
    have hnone : ((d.autoLogged k tag).autoEntered k d.lateAutos).hif.cmds = [] := by
      obtain ⟨-, hsame, -⟩ := hall.1 .fetch (by decide)
      rw [hsame, hcmds]
    obtain ⟨hdisable, hdisabled⟩ := hclosed.islandDisable hlo hhi hnone 1
    have hengSame : (((d.autoLogged k tag).autoEntered k d.lateAutos).islandDisable (k - 14) 1).1.eng
      = ((d.autoLogged k tag).autoEntered k d.lateAutos).eng := hdisable.1 .eng (by decide)
    rw [hengSame, hdisabled, hpwr]
    exact ⟨(hall.mono (by decide)).trans (hdisable.mono (by decide)), hreset, fun hlt => absurd hthird (by omega),
      fun _ => rfl⟩
  · next hfew => exact ⟨hall.mono (by decide), hreset, fun _ => hpwr, fun hle => absurd hle hfew⟩

end Reset

/-! ## A stream job in which a check fails (R298) -/

section Fault

variable {s : State} {r : CmdRef} {c : Cmd} {v : LseRun} {k : Nat}

theorem exec_lseBlock_fault (h : v.internal = some k) :
    exec (.lseBlock r v) s = lift (runCmd specLseBlock r (lseFault k r)) s := by
  rw [exec, execLseBlock, h]

/-- The workspace and the output buffer of a job that failed hold unknown content. -/
def Dev.jobSpoilt (d : Dev) (c : Cmd) (e : LseSession) : Dev := (d.lseWorked e).undefBuf (c.b 4 9) (c.q 8) (c.w 10)

theorem Dev.jobSpoilt_keeps (d : Dev) (c : Cmd) (e : LseSession) : Keeps [.mem, .out] d (d.jobSpoilt c e) :=
  (d.undefBuf_keeps _ _ _).trans (Dev.undefBuf_keeps _ _ _ _)

/-- The job has ended INTERNAL_ERROR. -/
def Dev.jobFailed (d : Dev) (r : CmdRef) (c : Cmd) (e : LseSession) : Dev := (d.jobSpoilt c e).finish r stInternal 0

theorem Dev.jobFailed_leaves {d : Dev} (hc : d.clear specLseBlock r c = true) (hcmds : d.hif.cmds = [c])
    (e : LseSession) : Keeps (.mem :: byDone) d (d.jobFailed r c e) ∧ Answered d (d.jobFailed r c e) r stInternal 0
      ∧ (d.jobFailed r c e).hif.cmds = [] := by
  have hanswerable := Dev.clear_answerable hc
  have hspoilt := d.jobSpoilt_keeps c e
  have hends : d.OnlyEnds (d.jobFailed r c e) :=
    (((Dev.OnlyEnds.refl _).undefBuf _ _ _).undefBuf _ _ _).finish _ _ _
  have ha := ((hanswerable.of_keeps hspoilt (by decide)).finish stInternal 0).before hspoilt (by decide)
  exact ⟨(hspoilt.mono (by decide)).trans ((Dev.finish_keeps _ r stInternal 0).mono (by decide)), ha,
    hends.no_cmds hanswerable.noOps (Dev.clear_cmd hc) hcmds ha⟩

theorem lseFault_resets {d : Dev} {e : LseSession} (hgone : d.lseGone = false) (hahead : d.lseAhead c = false)
    (hserves : d.groupServes k = true) (hres : d.resumeBad c = false) (hcmds : d.hif.cmds = [c])
    (he : d.lse? c.handle = some e) (hopen : e.closing = none) :
    lseFault k r c d = (d.jobFailed r c e).autoReset k (some c.tag) := by
  have hlater : (d.hif.cmds.filter fun e =>
      e.cls == 6 && (e.opc == 3 || e.opc == 0x12) && e.handle == c.handle && decide (c.num < e.num)).map (·.ref) = [] := by
    simp [hcmds]
  have hx : (d.jobSpoilt c e).lse? c.handle = some e := ((d.jobSpoilt_keeps c e).lseOpt (by decide) _).trans he
  unfold lseFault
  rw [if_neg (ne_true_of_eq_false hgone), if_neg (by simp [hahead, hserves]), if_neg (ne_true_of_eq_false hres), hlater, he]
  exact congrArg (fun e : Dev => e.autoReset k (some c.tag)) (Dev.finish_lseSettle hx hopen _ _)

/-- A lane group that serves is no engine in reset. -/
theorem Dev.groupServes_fresh {d : Dev} (h : d.groupServes k = true) :
    0x30 ≤ k ∧ k < 0x34 ∧ ∀ e ∈ d.eng.resets, e.code ≠ k := by
  simp only [Dev.groupServes, Bool.and_eq_true, decide_eq_true_eq, List.any_eq_true] at h
  obtain ⟨⟨hlo, hhi⟩, j, hj, hup, -⟩ := h
  obtain ⟨hfrom, hto⟩ := mem_rangeFrom.mp hj
  have hgroup : 0x30 + j / 3 = k := by omega
  simp only [Dev.lseLaneUp, Dev.engDown, hgroup, Bool.and_eq_true, Bool.not_eq_true', Bool.or_eq_false_iff,
    List.any_eq_false, beq_iff_eq] at hup
  obtain ⟨-, hresets, -⟩ := hup
  exact ⟨hlo, hhi, hresets⟩

theorem Dev.clear_lseBlock_session {d : Dev} (hc : d.clear specLseBlock r c = true) : ∃ e, d.lse? c.handle = some e := by
  obtain ⟨-, hlive, -⟩ := Dev.clear_offs hc
  simp only [specLseBlock, Dev.lseLive, Option.any_eq_true] at hlive
  obtain ⟨e, he, -⟩ := hlive
  exact ⟨e, he⟩

theorem lseBlock_faults (hc : s.dev.clear specLseBlock r c = true) (hgone : s.dev.lseGone = false)
    (hahead : s.dev.lseAhead c = false) (hint : v.internal = some k) (hserves : s.dev.groupServes k = true)
    (hres : s.dev.resumeBad c = false) (hwork : s.dev.noWork = true) (hcmds : s.dev.hif.cmds = [c]) :
    ∃ t x, exec (.lseBlock r v) s = .next t ∧ Answered s.dev t.dev r stInternal 0
      ∧ t.dev.lse.sessions = s.dev.lse.sessions ∧ t.dev.eng.resets = s.dev.eng.resets ++ [x] ∧ x.code = k
      ∧ x.auto = true ∧ x.ref = none
      ∧ ((s.dev.lateAutos.filter (·.1 == k)).length < 2 → t.dev.pwr = s.dev.pwr)
      ∧ (2 ≤ (s.dev.lateAutos.filter (·.1 == k)).length → t.dev.pwr.disabled = s.dev.pwr.disabled ++ [k - 14])
      ∧ Keeps (.eng :: .pwr :: .mem :: .fetch :: byStop ++ byPost) s.dev t.dev := by
  have hquiet := Dev.NothingCloses.of_noWork hwork
  obtain ⟨hlo, hhi, hfresh⟩ := Dev.groupServes_fresh hserves
  obtain ⟨e, he⟩ := Dev.clear_lseBlock_session hc
  have hanswerable := Dev.clear_answerable hc
  obtain ⟨hk, ha, hnone⟩ := Dev.jobFailed_leaves hc hcmds e
  have heng : (s.dev.jobFailed r c e).eng = s.dev.eng := hk .eng (by decide)
  have hpwr : (s.dev.jobFailed r c e).pwr = s.dev.pwr := hk .pwr (by decide)
  obtain ⟨hpass, ⟨x, hx, hcode, hauto, href⟩, hfew, hmany⟩ := (hquiet.of_keeps hk (by decide) (by decide)
    (by decide)).autoReset hlo hhi (heng ▸ hfresh) hnone (some c.tag)
  rw [Dev.lateAutos_congr heng (hk .ntu (by decide)), hpwr] at hfew hmany
  rw [heng] at hx
  have hall := (hk.mono (b := .eng :: .pwr :: .mem :: .fetch :: byLull ++ byPost) (by decide)).trans
    (hpass.1.mono (by decide))
  have hlse : ((s.dev.jobFailed r c e).autoReset k (some c.tag)).lse = s.dev.lse := hall .lse (by decide)
  obtain ⟨t, hnext, ht⟩ := event_goes (exec_lseBlock_fault hint) (Dev.clear_idle hc) ((runCmd_clear _ hc).trans
    (lseFault_resets hgone hahead hserves hres hcmds he (hquiet.lseOpen _ _ he))) hall (by decide)
  refine ⟨t, x, hnext, ?_⟩
  rw [ht, hlse]
  exact ⟨ha.passes hpass (by decide), rfl, hx, hcode, hauto, href, hfew, hmany, hall.mono (by decide)⟩

end Fault

end Sys2Proof.Machine
end

section
/-! SUPPORT. LSE_RAW_DECODE: the rows of a record a stride apart in device memory, and nothing else (R311, O47). -/

namespace Sys2Proof.Mem

/-! ## Rows that are written a stride apart -/

/-- What is read depends on the bytes that are read. -/
theorem rdN_congr {m m' : Mem} {a n : Nat} (h : ∀ c, a ≤ c → c < a + n → rd m' c = rd m c) : rdN m' a n = rdN m a n := by
  induction n generalizing a with
  | zero => rfl
  | succ n ih =>
    exact List.cons_eq_cons.mpr ⟨h a (Nat.le_refl _) (by omega), ih fun c hlo hhi => h c (by omega) (by omega)⟩

section Rows

variable {α : Type} (base stride : Nat) (f : α → List Byte)

/-- The memory with the rows written from row `n` up. -/
def wrRows (m : Mem) (rows : List α) (n : Nat) : Mem :=
  (rows.zipIdx n).foldl (fun m e => wrN m (base + stride * e.2) (f e.1)) m

theorem wrRows_cons (m : Mem) (row : α) (rows : List α) (n : Nat) :
    wrRows base stride f m (row :: rows) n = wrRows base stride f (wrN m (base + stride * n) (f row)) rows (n + 1) := rfl

variable {base stride f}

theorem rd_wrRows_out {m : Mem} {rows : List α} {n a : Nat} (hfit : ∀ row ∈ rows, (f row).length ≤ stride)
    (ha : a < base + stride * n ∨ base + stride * (n + rows.length) ≤ a) :
    rd (wrRows base stride f m rows n) a = rd m a := by
  induction rows generalizing m n with
  | nil => rfl
  | cons row rows ih =>
    have hrow := hfit row (List.mem_cons_self ..)
    have hnext : stride * (n + 1) = stride * n + stride := Nat.mul_succ _ _
    have hend : stride * (n + 1 + rows.length) = stride * (n + (row :: rows).length) := by
      rw [List.length_cons]
      congr 1
      omega
    have hle : stride * (n + 1) ≤ stride * (n + 1 + rows.length) := Nat.mul_le_mul_left _ (by omega)
    rw [wrRows_cons, ih (fun r hr => hfit r (List.mem_cons_of_mem _ hr)) (by omega)]
    exact rd_wrN_out _ _ _ (by omega)

theorem rdN_wrRows {m : Mem} {rows : List α} {n y : Nat} {row : α} (hfit : ∀ row ∈ rows, (f row).length ≤ stride)
    (hy : rows[y]? = some row) :
    rdN (wrRows base stride f m rows n) (base + stride * (n + y)) (f row).length = f row := by
  induction rows generalizing m n y with
  | nil => simp at hy
  | cons head rows ih =>
    have hrest : ∀ r ∈ rows, (f r).length ≤ stride := fun r hr => hfit r (List.mem_cons_of_mem _ hr)
    rw [wrRows_cons]
    cases y with
    | zero =>
      obtain rfl : head = row := by simpa using hy
      have hrow := hfit head (List.mem_cons_self ..)
      have hnext : stride * (n + 1) = stride * n + stride := Nat.mul_succ _ _
      rw [rdN_congr fun c hlo hhi => rd_wrRows_out hrest (.inl (by rw [Nat.add_zero] at hhi; omega))]
      exact rdN_wrN_same _ _ _
    | succ y =>
      have hindex : n + (y + 1) = n + 1 + y := by omega
      rw [hindex]
      exact ih hrest (by simpa using hy)

end Rows

end Sys2Proof.Mem

namespace Sys2Proof.Machine

open Sys2Proof

/-! ## The rows of a record (R311) -/

section Decode

variable {s : State} {d : Dev} {r : CmdRef} {c : Cmd} {v : RawRecord} {e : LseSession}

/-- Device memory is `m`. -/
def Dev.lpddrIs (d : Dev) (m : Mem) : Dev := { d with mem := { d.mem with lpddr := m } }

/-- The block with the rows of a record in device memory. -/
def Dev.rowsWritten (d : Dev) (c : Cmd) (v : RawRecord) : Dev :=
  d.lpddrIs (Mem.wrRows (c.q 8) (c.w 10) (mpRowBytes (c.b 4 0) v.depth) d.mem.lpddr (recordRows v) 0)

theorem Dev.foldl_writeBuf (d : Dev) (base stride : Nat) (f : List Nat → List Byte) (rows : List (List Nat × Nat)) :
    rows.foldl (fun (d : Dev) e => d.writeBuf true (base + stride * e.2) (f e.1)) d
      = d.lpddrIs (rows.foldl (fun m e => Mem.wrN m (base + stride * e.2) (f e.1)) d.mem.lpddr) := by
  induction rows generalizing d with
  | nil => rfl
  | cons row rows ih => exact ih _

theorem foldl_max_le {ns : List Nat} {m n : Nat} (hm : m ≤ n) (h : ∀ x ∈ ns, x ≤ n) : ns.foldl max m ≤ n := by
  induction ns generalizing m with
  | nil => exact hm
  | cons x xs ih =>
    exact ih (Nat.max_le.mpr ⟨hm, h x (List.mem_cons_self ..)⟩) fun y hy => h y (List.mem_cons_of_mem _ hy)

variable (hgone : d.lseGone = false) (hahead : d.lseAhead c = false) (hturn : d.laneTurn c = true)
  (he : d.lse? c.handle = some e) (hopen : e.closing = none)
include hgone hahead hturn he hopen

theorem lseRawDecode_bad (hbad : recordOk v = false) :
    lseRawDecode v r c d = (d.count 0x70048 1).finish r stBitstream 0 := by
  have hx : (d.count 0x70048 1).lse? c.handle = some e := ((d.count_keeps _ _).lseOpt (by decide) _).trans he
  unfold lseRawDecode
  rw [if_neg (ne_true_of_eq_false hgone), if_neg (by simp [hahead, hturn]), if_pos (by simp [hbad])]
  exact Dev.finish_lseSettle hx hopen _ _

theorem lseRawDecode_writes (hok : recordOk v = true)
    (hfit : ∀ row ∈ recordRows v, (mpRowBytes (c.b 4 0) v.depth row).length ≤ c.w 10)
    (hroom : d.devBad (c.q 8) (c.w 10 * v.height) = false) :
    lseRawDecode v r c d = (d.rowsWritten c v).finish r stSuccess v.frameIndex := by
  have hmax : ((recordRows v).map fun x => (mpRowBytes (c.b 4 0) v.depth x).length).foldl max 0 ≤ c.w 10 := by
    refine foldl_max_le (Nat.zero_le _) fun n hn => ?_
    obtain ⟨row, hrow, rfl⟩ := List.mem_map.mp hn
    exact hfit row hrow
  unfold lseRawDecode
  rw [if_neg (ne_true_of_eq_false hgone), if_neg (by simp [hahead, hturn]), if_neg (by simp [hok])]
  simp only []
  rw [if_neg (Nat.not_lt.mpr hmax), if_neg (ne_true_of_eq_false hroom),
    Dev.foldl_writeBuf d (c.q 8) (c.w 10) (mpRowBytes (c.b 4 0) v.depth)]
  exact Dev.finish_lseSettle (d := d.rowsWritten c v) he hopen _ _

end Decode

section Answers

variable {s : State} {r : CmdRef} {c : Cmd} {v : RawRecord} {e : LseSession}
  (hc : s.dev.clear specLseRawDecode r c = true) (hgone : s.dev.lseGone = false) (hahead : s.dev.lseAhead c = false)
  (hturn : s.dev.laneTurn c = true) (he : s.dev.lse? c.handle = some e) (hopen : e.closing = none)
include hc hgone hahead hturn he hopen

theorem lseRawDecode_answers_bad (hbad : recordOk v = false) :
    ∃ t, exec (.lseRawDecode r v) s = .next t ∧ Answered s.dev t.dev r stBitstream 0
      ∧ Keeps (.ctrs :: byDone) s.dev t.dev := by
  obtain ⟨hnext, ha, hk⟩ := cmd_finishes (i := .lseRawDecode r v) (by rw [exec, execLseRawDecode]) hc
    (lseRawDecode_bad hgone hahead hturn he hopen hbad) (Dev.count_keeps _ _ _) (by decide) (by decide)
  exact ⟨_, hnext, ha, hk⟩

theorem lseRawDecode_answers (hok : recordOk v = true)
    (hfit : ∀ row ∈ recordRows v, (mpRowBytes (c.b 4 0) v.depth row).length ≤ c.w 10)
    (hroom : s.dev.devBad (c.q 8) (c.w 10 * v.height) = false) :
    ∃ t, exec (.lseRawDecode r v) s = .next t ∧ t.pending = s.pending
      ∧ Answered s.dev t.dev r stSuccess v.frameIndex
      ∧ (∀ y row, (recordRows v)[y]? = some row →
          Mem.rdN t.dev.mem.lpddr (c.q 8 + c.w 10 * y) (mpRowBytes (c.b 4 0) v.depth row).length
            = mpRowBytes (c.b 4 0) v.depth row)
      ∧ (∀ a, a < c.q 8 ∨ c.q 8 + c.w 10 * (recordRows v).length ≤ a →
          Mem.rd t.dev.mem.lpddr a = Mem.rd s.dev.mem.lpddr a)
      ∧ t.dev.mem = { s.dev.mem with lpddr := t.dev.mem.lpddr } ∧ Keeps (.mem :: byDone) s.dev t.dev := by
  obtain ⟨hnext, ha, hk⟩ := cmd_finishes (i := .lseRawDecode r v) (by rw [exec, execLseRawDecode]) hc
    (lseRawDecode_writes hgone hahead hturn he hopen hok hfit hroom) (Dev.mem_keeps _ _) (by decide) (by decide)
  have hmem : ((s.dev.rowsWritten c v).finish r stSuccess v.frameIndex).mem = (s.dev.rowsWritten c v).mem :=
    (Dev.finish_keeps _ _ _ _) .mem (by decide)
  refine ⟨_, hnext, rfl, ha, fun y row hy => ?_, fun a ha => ?_, ?_, hk⟩
  · have hread := Mem.rdN_wrRows (m := s.dev.mem.lpddr) (base := c.q 8) (n := 0) hfit hy
    rw [Nat.zero_add] at hread
    rw [hmem]
    exact hread
  · rw [hmem]
    exact Mem.rd_wrRows_out (base := c.q 8) (n := 0) hfit (by simpa using ha)
  · rw [hmem]
    rfl

end Answers

end Sys2Proof.Machine
end

section
/-! SUPPORT. Bands of raw records on the lanes: they start, end, and the last one completes its buffer (R295, R306, R307,
R310); the jobs of the lossless engine as a whole (O47). -/

namespace Sys2Proof.Machine

open Sys2Proof

/-! ## Lanes and staged frames -/

section Lanes

variable {d e : Dev} {b : List Part}

theorem Dev.setLane_keeps (d : Dev) (k : Nat) (w : LaneWork) : Keeps [.lse] d (d.setLane k w) := d.lse_keeps _

/-- What lane `k` runs. -/
def Dev.laneRuns (d : Dev) (k : Nat) : LaneWork := SMap.get .idle d.lse.lanes k

theorem Dev.setLane_laneRuns (d : Dev) (k : Nat) (w : LaneWork) : (d.setLane k w).laneRuns k = w :=
  SMap.get_put_same _ _ _ _

theorem Dev.setLane_rawOpt (d : Dev) (k : Nat) (w : LaneWork) (p : Nat) : (d.setLane k w).raw? p = d.raw? p := rfl

theorem Dev.setRaw_laneRuns (d : Dev) (p : Nat) (v : Option RawSession) (k : Nat) :
    (d.setRaw p v).laneRuns k = d.laneRuns k :=
  rfl

theorem Keeps.laneRuns (hk : Keeps b d e) (hb : .lse ∉ b) (k : Nat) : e.laneRuns k = d.laneRuns k := by
  have hlse : e.lse = d.lse := hk .lse hb
  unfold Dev.laneRuns
  rw [hlse]

/-- The first element that is changed is there as it was changed. -/
theorem exists_mem_updFirst {α : Type} {p : α → Bool} (f : α → α) {l : List α} (h : ∃ x ∈ l, p x = true) :
    ∃ x ∈ l, p x = true ∧ f x ∈ updFirst p f l := by
  induction l with
  | nil => simp at h
  | cons a t ih =>
    by_cases ha : p a = true
    · exact ⟨a, List.mem_cons_self .., ha, by simp [updFirst, ha]⟩
    · obtain ⟨x, hx, hp⟩ := h
      have htail : x ∈ t := (List.mem_cons.mp hx).resolve_left fun hxa => ha (hxa ▸ hp)
      obtain ⟨y, hy, hpy, hmem⟩ := ih ⟨x, htail, hp⟩
      exact ⟨y, List.mem_cons_of_mem _ hy, hpy, by simpa [updFirst, ha] using .inr hmem⟩

end Lanes

/-! ## A band starts (R295, R306, R310) -/

section Start

variable {s : State} {p : Fin 4} {k : Fin 12} {e : RawSession} {f : StagedFrame}

/-- A staged frame of which one more band runs, on lane `k`. -/
def bandAdded (e : RawSession) (f : StagedFrame) (k : Nat) (g : StagedFrame) : StagedFrame :=
  { g with started := g.started + 1, lanes := k :: g.lanes, buf := if f.buf.isSome then f.buf else e.bufs.head? }

/-- The session with the next band of frame `f` on lane `k`: the frame's first takes the oldest buffer. -/
def bandTaken (e : RawSession) (f : StagedFrame) (k : Nat) : RawSession :=
  modStaged (if f.buf.isSome then e else { e with bufs := e.bufs.drop 1 }) f.index (bandAdded e f k)

theorem nextBand_mem (h : nextBand e = some f) : f ∈ e.ring := by
  obtain ⟨hfind, -⟩ := Option.filter_eq_some_iff.mp h
  exact List.mem_of_find?_eq_some hfind

theorem bandTaken_bufs_of_buf {u : Buf} (h : f.buf = some u) : (bandTaken e f k).bufs = e.bufs := by
  simp [bandTaken, modStaged, h]

theorem bandTaken_bufs (h : f.buf = none) : (bandTaken e f k).bufs = e.bufs.drop 1 := by
  simp [bandTaken, modStaged, h]

theorem bandTaken_buf {u : Buf} {bs : List Buf} (hmem : f ∈ e.ring) (h : f.buf = none) (hbufs : e.bufs = u :: bs) :
    ∃ x ∈ (bandTaken e f k).ring, x.index = f.index ∧ x.buf = some u := by
  obtain ⟨y, -, hindex, hy⟩ := exists_mem_updFirst (p := fun g : StagedFrame => g.index == f.index)
    (bandAdded e f k) ⟨f, hmem, beq_self_eq_true _⟩
  refine ⟨bandAdded e f k y, ?_, beq_iff_eq.mp hindex, ?_⟩
  · simpa [bandTaken, modStaged, h] using hy
  · simp [bandAdded, h, hbufs]

variable (hi : s.dev.idleMode = true) (he : s.dev.raw? p.val = some e) (hf : nextBand e = some f)
include hi he hf

theorem rawBandStart_waits (h : s.dev.lseLaneUp k.val = false ∨ s.dev.laneIdle k.val = false
    ∨ f.lanes.contains k.val = true) : exec (.rawBandStart p k) s = .next s := by
  have hno : (!s.dev.lseLaneUp k.val || !s.dev.laneIdle k.val || f.lanes.contains k.val) = true := by
    rcases h with h | h | h <;> simp only [h, Bool.not_false, Bool.true_or, Bool.or_true]
  refine event_none (f := fun d => d.bandStart p.val k.val) rfl hi ?_
  simp only [Dev.bandStart, he, hf, if_pos hno]

theorem rawBandStart_starts (hup : s.dev.lseLaneUp k.val = true) (hidle : s.dev.laneIdle k.val = true)
    (hnew : f.lanes.contains k.val = false) :
    ∃ t g, exec (.rawBandStart p k) s = .next t
      ∧ t.dev.laneRuns k.val = .band p.val f.index f.started ∧ t.dev.raw? p.val = some g
      ∧ (∀ b, f.buf = some b → g.bufs = e.bufs)
      ∧ (∀ b bs, f.buf = none → e.bufs = b :: bs → g.bufs = bs ∧ ∃ x ∈ g.ring, x.index = f.index ∧ x.buf = some b)
      ∧ t.dev.lse.sessions = s.dev.lse.sessions ∧ Keeps [.lse] s.dev t.dev := by
  have hgo : ¬ (!s.dev.lseLaneUp k.val || !s.dev.laneIdle k.val || f.lanes.contains k.val) = true := by
    rw [hup, hidle, hnew]
    decide
  have heff : s.dev.bandStart p.val k.val
      = (s.dev.setRaw p.val (some (bandTaken e f k.val))).setLane k.val (.band p.val f.index f.started) := by
    simp only [Dev.bandStart, he, hf, if_neg hgo]
    rfl
  have hk := (s.dev.setRaw_keeps p.val (some (bandTaken e f k.val))).trans
    (Dev.setLane_keeps _ k.val (.band p.val f.index f.started))
  refine ⟨_, bandTaken e f k.val, event_effect (f := fun d => d.bandStart p.val k.val) rfl hi heff hk (by decide),
    Dev.setLane_laneRuns _ _ _, (Dev.setLane_rawOpt _ _ _ _).trans (Dev.setRaw_rawOpt _ _ _),
    fun u hu => bandTaken_bufs_of_buf (k := k) hu,
    fun u bs hu hbufs => ⟨?_, bandTaken_buf (nextBand_mem hf) hu hbufs⟩, rfl, hk⟩
  rw [bandTaken_bufs (k := k) hu, hbufs]
  rfl

end Start

/-! ## A record is written and completes its buffer (R307, R309, R310) -/

section Records

variable {d : Dev} {p n : Nat} {x : RawSession} {g : StagedFrame} {u : Buf}

theorem Dev.writeFields_keeps (d : Dev) (dev : Bool) (addr len : Nat) (body : List Fld) :
    Keeps [.mem, .out] d (d.writeFields dev addr len body) := by
  cases dev with
  | true => exact d.writeBuf_keeps true addr (fieldBytes len body)
  | false => exact (d.emit_keeps _).mono (by decide)

theorem Dev.writeBands_keeps (d : Dev) (x : RawSession) (g : StagedFrame) (u : Buf) :
    Keeps [.mem, .out] d (d.writeBands x g u) := by
  unfold Dev.writeBands
  generalize u.a0 + 72 + 8 * x.bands = addr
  induction rangeFrom 0 x.bands generalizing d addr with
  | nil => exact .refl _ _
  | cons k ks ih =>
    exact ((d.writeBuf_keeps _ _ _).trans ((Dev.emit_keeps _ _).mono (by decide))).trans (ih _ _)

/-- The session without frame `g`: the record of `g` carries what was dropped before it. -/
def recordLess (x : RawSession) (g : StagedFrame) : RawSession :=
  { x with ring := x.ring.filter (fun h => h.index != g.index), dropped := 0 }

/-- The record of frame `g` is in buffer `u`, and the session no longer holds the frame. -/
def Dev.recordWritten (d : Dev) (p : Nat) (x : RawSession) (g : StagedFrame) (u : Buf) : Dev :=
  ((d.setRaw p (some (recordLess x g))).writeFields u.dev u.a0
    (72 + 8 * x.bands) (recordHead x p g)).writeBands x g u

theorem Dev.recordWritten_writes (d : Dev) (p : Nat) (x : RawSession) (g : StagedFrame) (u : Buf) :
    Keeps [.mem, .out] (d.setRaw p (some (recordLess x g)))
      (d.recordWritten p x g u) :=
  (Dev.writeFields_keeps _ _ _ _ _).trans (Dev.writeBands_keeps _ _ _ _)

/-- A session that does not close goes on when a record is complete. -/
theorem Dev.recordDone_open (hopen : x.closing = none) :
    d.recordDone p x g u = (d.recordWritten p x g u).finish u.ref stSuccess
      (g.index % 4294967296 + recordLen g x.bands * 4294967296) := by
  have hx : ((d.recordWritten p x g u).finish u.ref stSuccess
      (g.index % 4294967296 + recordLen g x.bands * 4294967296)).raw? p
      = some (recordLess x g) :=
    (Dev.finish_rawOpt _ _ _ _ _).trans (((d.recordWritten_writes p x g u).rawOpt (by decide) p).trans
      (Dev.setRaw_rawOpt _ _ _))
  have hrests : ((d.recordWritten p x g u).finish u.ref stSuccess
      (g.index % 4294967296 + recordLen g x.bands * 4294967296)).rawSettle p
      = (d.recordWritten p x g u).finish u.ref stSuccess (g.index % 4294967296 + recordLen g x.bands * 4294967296) := by
    unfold Dev.rawSettle
    simp only [hx, show (recordLess x g).closing = none from hopen]
  exact hrests

/-- Of one staged frame, the record goes out once the frame is coded. -/
theorem Dev.recordsOut_one (hx : d.raw? p = some x) (hring : x.ring = [g]) (hbuf : g.buf = some u) :
    d.recordsOut p 1 = if frameCoded x g then d.recordDone p x g u else d := by
  simp only [Dev.recordsOut, hx, hring, List.head?_cons, hbuf]

end Records

/-! ## A band ends (R307) -/

section Done

variable {s : State} {k : Fin 12} {p i b bytes : Nat} {e : RawSession} {f : StagedFrame} {u : Buf}

/-- Frame `f` with band `b` compressed. -/
def bandCoded (f : StagedFrame) (b bytes : Nat) : StagedFrame := { f with done := SMap.ins f.done b bytes }

/-- A session that stages frame `g` alone. -/
def oneStaged (e : RawSession) (g : StagedFrame) : RawSession := { e with ring := [g] }

/-- Lane `k` is idle and the session's only staged frame has one more band compressed. -/
def Dev.bandFreed (d : Dev) (k p : Nat) (e : RawSession) (f : StagedFrame) (b bytes : Nat) : Dev :=
  (d.setLane k .idle).setRaw p (some (oneStaged e (bandCoded f b bytes)))

theorem Dev.bandFreed_keeps (d : Dev) (k p : Nat) (e : RawSession) (f : StagedFrame) (b bytes : Nat) :
    Keeps [.lse] d (d.bandFreed k p e f b bytes) := (Dev.setLane_keeps _ _ _).trans (Dev.setRaw_keeps _ _ _)

theorem Dev.bandFreed_laneRuns (d : Dev) (k p : Nat) (e : RawSession) (f : StagedFrame) (b bytes : Nat) :
    (d.bandFreed k p e f b bytes).laneRuns k = .idle := (Dev.setRaw_laneRuns _ _ _ _).trans (Dev.setLane_laneRuns _ _ _)

/-- The frame is the only one staged: its record goes out once it is coded. -/
theorem Dev.bandFreed_recordsOut (d : Dev) (k p : Nat) (e : RawSession) (b bytes : Nat) (hbuf : f.buf = some u) :
    (d.bandFreed k p e f b bytes).recordsOut p 1
      = if (SMap.ins f.done b bytes).length == e.bands then
          (d.bandFreed k p e f b bytes).recordDone p (oneStaged e (bandCoded f b bytes)) (bandCoded f b bytes) u
        else d.bandFreed k p e f b bytes :=
  Dev.recordsOut_one (x := oneStaged e (bandCoded f b bytes)) (Dev.setRaw_rawOpt _ _ _) rfl hbuf

variable (hlane : s.dev.laneRuns k.val = .band p i b) (he : s.dev.raw? p = some e) (hring : e.ring = [f])
  (hindex : f.index = i) (hbuf : f.buf = some u)
  (hflags : (fcsFlags e (bandBytes f e.bands b).length bytes).isEmpty = false)
  (hlen : recordLen (bandCoded f b bytes) e.bands ≤ u.len)
include hlane he hring hindex hbuf hflags hlen

theorem Dev.bandDone_only : s.dev.bandDone k.val bytes = (s.dev.bandFreed k.val p e f b bytes).recordsOut p 1 := by
  have hfind : [f].find? (fun f => f.index == i) = some f := by simp [hindex]
  have hgo : ¬ ((fcsFlags e (bandBytes f e.bands b).length bytes).isEmpty = true
      ∨ u.len < recordLen (bandCoded f b bytes) e.bands) := by
    rw [hflags]
    simpa using hlen
  have hcoded : modStaged e i (fun _ => bandCoded f b bytes) = oneStaged e (bandCoded f b bytes) := by
    simp [modStaged, hring, updFirst, hindex, oneStaged]
  unfold Dev.laneRuns at hlane
  unfold bandCoded at hgo hcoded
  unfold Dev.bandDone
  rw [hlane]
  simp only [he, hring, hfind, hbuf, List.length_singleton]
  rw [← hbuf, if_neg hgo, hcoded]
  rfl

variable (hi : s.dev.idleMode = true)
include hi

theorem rawBandDone_waits (hmore : (SMap.ins f.done b bytes).length ≠ e.bands) :
    ∃ t, exec (.rawBandDone k bytes) s = .next t ∧ t.dev.laneRuns k.val = .idle
      ∧ t.dev.raw? p = some (oneStaged e (bandCoded f b bytes)) ∧ Keeps [.lse] s.dev t.dev := by
  have hk := s.dev.bandFreed_keeps k.val p e f b bytes
  have heff : s.dev.bandDone k.val bytes = s.dev.bandFreed k.val p e f b bytes := by
    rw [Dev.bandDone_only hlane he hring hindex hbuf hflags hlen, Dev.bandFreed_recordsOut _ _ _ _ _ _ hbuf,
      if_neg (by simpa using hmore)]
  exact ⟨_, event_effect (f := fun d => d.bandDone k.val bytes) rfl hi heff hk (by decide),
    Dev.bandFreed_laneRuns _ _ _ _ _ _ _, Dev.setRaw_rawOpt _ _ _, hk⟩

theorem rawBandDone_completes (hlast : (SMap.ins f.done b bytes).length = e.bands) (hopen : e.closing = none)
    (ha : s.dev.Answerable u.ref) :
    ∃ t, exec (.rawBandDone k bytes) s = .next t
      ∧ Answered s.dev t.dev u.ref stSuccess
          (i % 4294967296 + recordLen (bandCoded f b bytes) e.bands * 4294967296)
      ∧ t.dev.laneRuns k.val = .idle ∧ t.dev.raw? p = some { e with ring := [], dropped := 0 }
      ∧ Keeps (.lse :: .mem :: byDone) s.dev t.dev := by
  have hfreed := s.dev.bandFreed_keeps k.val p e f b bytes
  have heff : s.dev.bandDone k.val bytes = ((s.dev.bandFreed k.val p e f b bytes).recordWritten p
      (oneStaged e (bandCoded f b bytes)) (bandCoded f b bytes) u).finish u.ref stSuccess
        (i % 4294967296 + recordLen (bandCoded f b bytes) e.bands * 4294967296) := by
    rw [Dev.bandDone_only hlane he hring hindex hbuf hflags hlen, Dev.bandFreed_recordsOut _ _ _ _ _ _ hbuf,
      if_pos (beq_iff_eq.mpr hlast), Dev.recordDone_open (x := oneStaged e (bandCoded f b bytes)) hopen,
      ← hindex]
    rfl
  have hwrites := (s.dev.bandFreed k.val p e f b bytes).recordWritten_writes p (oneStaged e (bandCoded f b bytes))
    (bandCoded f b bytes) u
  have hk := (hfreed.trans (Dev.setRaw_keeps _ _ _)).mono (b := [.lse, .mem, .out]) (by decide) |>.trans
    (hwrites.mono (by decide))
  obtain ⟨hnext, hans, hall⟩ := event_finishes (i := .rawBandDone k bytes) (f := fun d => d.bandDone k.val bytes) rfl hi
    heff ha hk (by decide) (by decide)
  refine ⟨_, hnext, hans, ?_, ?_, hall.mono (by decide)⟩
  · rw [(Dev.finish_keeps _ _ _ _).laneRuns (by decide), hwrites.laneRuns (by decide), Dev.setRaw_laneRuns]
    exact Dev.bandFreed_laneRuns _ _ _ _ _ _ _
  · rw [Dev.finish_rawOpt, hwrites.rawOpt (by decide), Dev.setRaw_rawOpt]
    simp [recordLess, oneStaged]

end Done

/-- Settles O47: stream jobs and their failed checks, records that are decoded, and the bands of raw records. -/
theorem losslessJobs : Obligations.LosslessJobs := by
  unfold Obligations.LosslessJobs
  refine ⟨fun s r c v e hc hgone hahead hturn he hint =>
      ⟨lseBlock_answers_resumeBad hc hgone hahead hturn he hint, fun hres hok hopen => ?_⟩,
    fun s r c v k hc hgone hahead hint hserves hres hwork hcmds _ =>
      lseBlock_faults hc hgone hahead hint hserves hres hwork hcmds,
    fun s r c v e hc hgone hahead hturn he hopen =>
      ⟨lseRawDecode_answers_bad hc hgone hahead hturn he hopen, lseRawDecode_answers hc hgone hahead hturn he hopen⟩,
    fun s p k e f hi he hf => ⟨rawBandStart_waits hi he hf, rawBandStart_starts hi he hf⟩,
    fun s k p i b bytes e f u hi hlane he hring hindex hbuf hflags hlen =>
      ⟨rawBandDone_waits hlane he hring hindex hbuf hflags hlen hi, fun q hlast hopen hops hq hfail hlive hheard =>
        rawBandDone_completes hlane he hring hindex hbuf hflags hlen hi hlast hopen
          ⟨hops, ⟨q, hq, hfail⟩, hlive, hheard⟩⟩⟩
  obtain ⟨t, hnext, hpend, ha, hx, hothers, hmem, hk, hclean⟩ :=
    lseBlock_answers hc hgone hahead hturn he hint hres hok hopen
  refine ⟨fun hf => ?_, fun hf hall hnone => ?_, fun hf hleft => ?_, fun hdev => ⟨t, hnext, hmem hdev⟩⟩
  · rw [jobStatus_fault hf] at ha
    rw [lseAfter_fault hf] at hx
    exact ⟨t, hnext, ha, hx, hk⟩
  · have hdone : lseDone c v = true := by simp [lseDone, hall, hnone]
    have hst := jobStatus_done hf hdone
    rw [hst] at ha
    refine ⟨t, _, hnext, hpend, ha, hx, rfl, ?_, fun hlast => lseAfter_idle hf (by simp [lseEnds, hdone, hlast]),
      fun hmore hpos => lseAfter_busy hf (by simp [lseEnds, hmore]) (.inl hpos), hothers, hclean hst⟩
    exact List.eq_nil_of_length_eq_zero ((lseAfter_pending hok hf).trans hnone)
  · have hdone : lseDone c v = false := by
      rcases hleft with h | h <;> simp [lseDone, h]
    rw [jobStatus_left hf hdone] at ha
    exact ⟨t, _, hnext, ha, hx, rfl, lseAfter_pending hok hf, lseAfter_busy hf (by simp [lseEnds, hdone]), hk⟩

end Sys2Proof.Machine
end
